-- ==== Sys2Proof/Word.lean ====
section
/-! DEFINITION. The machine's word types and the index types of its units (R3: little-endian, R24: the unit counts). -/

namespace Sys2Proof

/-- A byte of memory. -/
abbrev Byte := BitVec 8
/-- A 16-bit half-word. -/
abbrev Half := BitVec 16
/-- A register or core word (R3). -/
abbrev Word := BitVec 32
/-- A 64-bit Vellum word (R17). -/
abbrev DWord := BitVec 64

/-- Beam number: 0 is Beam A, 1 is Beam B. -/
abbrev Beam := Fin 2
/-- Yelex core 0 to 7. -/
abbrev Core := Fin 8
/-- Mailbox ring 0 to 63. -/
abbrev Ring := Fin 64
/-- Eyelet port 0 to 7. -/
abbrev Port := Fin 8
/-- Physical Eyelet pipeline 0 to 8. -/
abbrev Pipe := Fin 9
/-- Ground plane 0 to 7. -/
abbrev Plane := Fin 8
/-- Logical voice 0 to 95. -/
abbrev Voice := Fin 96
/-- Sound bus 0 to 7. -/
abbrev Bus := Fin 8
/-- Timer channel 0 to 15. -/
abbrev TmrCh := Fin 16
/-- Check unit 0 to 7. -/
abbrev ChkCh := Fin 8
/-- Bobbin channel 0 to 15. -/
abbrev BobCh := Fin 16
/-- Lantern phase 0 to 13 (12 active, 2 spare). -/
abbrev Phase := Fin 14
/-- Physical Vellum bank 0 to 101, or logical bank 0 to 95 and spare 96 to 101. -/
abbrev Bank := Fin 102
/-- Core register number g0 to g15. -/
abbrev GReg := Fin 16

end Sys2Proof
end

