-- ==== Sys2Proof/Syntax.lean ====
section
/-! DEFINITION. The block's commands: one constructor per row of spec/opcode_table.json, in its order. The operands are
this model's (the table gives none): which unit, what value is written, and what the device observes at the event
(a pixel position, a measured slack, received bytes, an ECC finding), as each docstring's rule describes it. -/

namespace Sys2Proof


/-- The seven requester classes of R111, highest priority first. -/
inductive VClass where
  | beam | eyelet | sound | core | bobbin | host | scrub
deriving DecidableEq, Repr

/-- What the ECC check finds in a word read from Vellum or core-local memory, with its syndrome (R105): a single-bit
error, or an error it cannot correct. -/
inductive Ecc where
  | ce (syndrome : Byte)
  | ue (syndrome : Byte)
deriving DecidableEq, Repr

/-- How an I2C transaction ends (R611, R612): with its bytes, by a NACK of a byte, by an arbitration loss, or by a stuck bus. -/
inductive I2cEnd where
  | ok (rx : List Byte)
  | nack (idx : BitVec 6)
  | arbLost
  | busStuck
deriving DecidableEq, Repr

/-- What the boot flash holds in a slot (R223, R224), and whether an uncorrectable error meets the copy of its header or of
its body into local memory. -/
structure FlashSlot where
  header : List Byte
  body : List Byte
  headerErr : Bool
  bodyErr : Bool
deriving DecidableEq, Repr

/-- Who makes an access to a register page: a core, a Bobbin channel, or the host in its configuration space. -/
inductive Who where
  | core (n : Core)
  | bobbin (n : BobCh)
  | host
deriving DecidableEq, Repr


/-- The commands. An operand that is given with a value may be left out and then has that value. -/
inductive Instr where
  /-- A store lands in a register that has no row of its own and sets the written fields. (R146) -/
  | registerWrite (who : Who) (user : Bool) (a : Word) (v : Word)
  /-- A posted store from a core lands in its target register page after its issue. (R146) -/
  | storeLand (n : Core)
  /-- Every 1,024 ticks SYS_SPEED.COUNT takes the laps of the speed-monitor ring. (R55) -/
  | speedUpdate (laps : BitVec 16)
  /-- PRK_CTRL.RUN changes from 0 to 1, settings are checked and the synthesizer starts locking. (R72) -/
  | runWrite (b : Beam)
  /-- After lock the counters start at line VB0, pixel 0, the timing is clamped and taken, and RUNNING sets. (R72) -/
  | counterStart (b : Beam) (unackedVb0 : Bool) (unackedCommit : Bool)
  /-- A write of 0 to PRK_CTRL.RUN arms a stop at the next VB0 or abandons a start in lock. (R73) -/
  | runClear (b : Beam)
  /-- At the VB0 after RUN is cleared the frame completes, its events are raised and the counters stop. (R73) -/
  | beamStop (b : Beam) (unackedVb0 : Bool) (unackedCommit : Bool)
  /-- The synthesizer loses lock, the counters stop, a fault is journaled and relocking begins. (R65) -/
  | synUnlock (b : Beam) (pixel : BitVec 14 := 0)
  /-- The synthesizer relocks after a loss and restarts the Beam if RUN is still 1. (R65) -/
  | lockReturn (b : Beam) (unackedVb0 : Bool) (unackedCommit : Bool)
  /-- At pixel 0 of each line the fetch for line L + LEAD is released and the live registers are captured. (R77) -/
  | lineStart (b : Beam)
  /-- At line 0, pixel 0 the frame counter advances and the commit line and FSYNC settings are taken. (R70) -/
  | frameAdvance (b : Beam)
  /-- The HS beam event is raised at pixel HACTIVE + HFRONT of each line. (R74) -/
  | hs (b : Beam) (unacked : Bool)
  /-- The VS beam event is raised at the start of vertical sync. (R74) -/
  | vs (b : Beam) (unacked : Bool)
  /-- The VB0 beam event is raised at pixel 0 of line VACTIVE. (R74) -/
  | vb0 (b : Beam) (unacked : Bool)
  /-- At pixel 0 of the commit line the held commit is transferred and the per-frame loads take place. (R458) -/
  | commitPoint (b : Beam) (unacked : Bool)
  /-- The prefetch start event is raised at pixel 0 of line VTOTAL − LEAD. (R74) -/
  | pfs (b : Beam) (unacked : Bool)
  /-- A GENLOCK rising edge updates the phase error and the steering offset. (R83) -/
  | genlockEdge (b : Beam) (pixel : BitVec 14)
  /-- No GENLOCK edge within 2 × VTOTAL lines puts the Beam into holdover. (R85) -/
  | genlockLoss (b : Beam)
  /-- An FSYNC pulse starts at its set position in a frame chosen by DIV and PHASE. (R87) -/
  | fsyncPulseStart (n : Port)
  /-- An FSYNC pulse ends after WIDTH pixel periods. (R87) -/
  | fsyncPulseEnd (n : Port)
  /-- A requester issues a read of 1 to 8 words within one granule. (R100) -/
  | vellumRead (cls : VClass) (idx : Fin 16) (off : BitVec 26) (n : Fin 8)
  /-- A requester issues a write of 1 to 8 words, merged in the bank when partial. (R101) -/
  | vellumWrite (cls : VClass) (idx : Fin 16) (off : BitVec 26) (bytes : List (Option Byte))
  /-- A waiting read request obtains a freed token and its handshake is acknowledged. (R116) -/
  | tokenAcquire
  /-- A write handshake is acknowledged when its channel buffer has room. (R117) -/
  | writeAccept (ch : Fin 8)
  /-- A free bank arbiter grants the waiting request of the highest class. (R113) -/
  | bankGrant (n : Bank)
  /-- A read delivers its last word after the ECC check. (R105) -/
  | vlmReadComplete (cls : VClass) (idx : BitVec 7) (find : List (Option Ecc))
  /-- A write of 1 to VLM_CTRL.CNT_CLR clears the Vellum error counts. (R130) -/
  | cntClr
  /-- A scrub slot opens at the reference VB0 or free period and every bank gets 256 scrub reads. (R120) -/
  | scrubSlotOpen
  /-- Slot reads not granted by PFS or 800,000 ticks are promoted above BEAM. (R122) -/
  | scrubPromote
  /-- A bank completes its slot when the last of its 256 reads completes, and passes may end. (R121) -/
  | scrubSlotComplete (n : Bank) (find : List (Nat × Ecc))
  /-- The darn copier moves one granule from source to spare in blanking. (R679) -/
  | darnCopyGranule (find : List (Option Ecc))
  /-- A write of 1 to YLX_PCTRL.HOLD holds the core in reset. (R138) -/
  | coreHold (n : Core)
  /-- A write of 0 to YLX_PCTRL.HOLD releases the core into the ROM or park window with its bank reset. (R138) -/
  | coreRelease (n : Core)
  /-- A write of 1 to YLX_PCTRL.RESTART holds and then releases the core. (R138) -/
  | coreRestart (n : Core)
  /-- Every 64 ticks the local scrubber reads and checks one word of core-local memory. (R144) -/
  | lmScrubRead (n : Core) (e : Option Ecc) (w : Option (BitVec 14) := none)
  /-- At an instruction boundary the core takes its eligible source of highest priority. (R210) -/
  | interruptEntry (n : Core)
  /-- A write of 0x0000_C1A5 to YLX_WDG_KICK reloads the watchdog count. (R160) -/
  | wdgKick (n : Core) (v : Word)
  /-- Setting YLX_WDG_CTRL.LOCK makes the watchdog settings ignore writes until cold reset. (R163) -/
  | wdgLock (n : Core)
  /-- The watchdog count reaches 0 without a kick, sets WDG1, raises its source and reloads. (R161) -/
  | wdgStage1 (n : Core)
  /-- A second expiry without a kick holds the core, journals and notifies the NOTIFY core. (R162) -/
  | wdgStage2 (n : Core)
  /-- gd = ga + gb. (R179) -/
  | add (n : Core) (p : BitVec 3) (u : Bool) (gd : GReg) (ga : GReg) (gb : GReg)
  /-- gd = ga − gb. (R179) -/
  | sub (n : Core) (p : BitVec 3) (u : Bool) (gd : GReg) (ga : GReg) (gb : GReg)
  /-- gd = ga AND gb. (R179) -/
  | and (n : Core) (p : BitVec 3) (u : Bool) (gd : GReg) (ga : GReg) (gb : GReg)
  /-- gd = ga OR gb. (R179) -/
  | or (n : Core) (p : BitVec 3) (u : Bool) (gd : GReg) (ga : GReg) (gb : GReg)
  /-- gd = ga XOR gb. (R179) -/
  | xor (n : Core) (p : BitVec 3) (u : Bool) (gd : GReg) (ga : GReg) (gb : GReg)
  /-- gd = ga shifted left by gb[4:0]. (R179) -/
  | shl (n : Core) (p : BitVec 3) (u : Bool) (gd : GReg) (ga : GReg) (gb : GReg)
  /-- gd = ga shifted right with zero fill. (R179) -/
  | shr (n : Core) (p : BitVec 3) (u : Bool) (gd : GReg) (ga : GReg) (gb : GReg)
  /-- gd = ga shifted right with sign fill. (R179) -/
  | sar (n : Core) (p : BitVec 3) (u : Bool) (gd : GReg) (ga : GReg) (gb : GReg)
  /-- gd = low 32 bits of ga × gb. (R179) -/
  | mul (n : Core) (p : BitVec 3) (u : Bool) (gd : GReg) (ga : GReg) (gb : GReg)
  /-- gd = high 32 bits of the signed product. (R179) -/
  | mulhs (n : Core) (p : BitVec 3) (u : Bool) (gd : GReg) (ga : GReg) (gb : GReg)
  /-- gd = high 32 bits of the unsigned product. (R179) -/
  | mulhu (n : Core) (p : BitVec 3) (u : Bool) (gd : GReg) (ga : GReg) (gb : GReg)
  /-- gd = signed quotient, with the division-by-zero results of R180. (R180) -/
  | divs (n : Core) (p : BitVec 3) (u : Bool) (gd : GReg) (ga : GReg) (gb : GReg)
  /-- gd = unsigned quotient. (R180) -/
  | divu (n : Core) (p : BitVec 3) (u : Bool) (gd : GReg) (ga : GReg) (gb : GReg)
  /-- gd = signed remainder with the sign of ga. (R180) -/
  | rems (n : Core) (p : BitVec 3) (u : Bool) (gd : GReg) (ga : GReg) (gb : GReg)
  /-- gd = unsigned remainder. (R180) -/
  | remu (n : Core) (p : BitVec 3) (u : Bool) (gd : GReg) (ga : GReg) (gb : GReg)
  /-- gd = signed minimum. (R179) -/
  | min (n : Core) (p : BitVec 3) (u : Bool) (gd : GReg) (ga : GReg) (gb : GReg)
  /-- gd = signed maximum. (R179) -/
  | max (n : Core) (p : BitVec 3) (u : Bool) (gd : GReg) (ga : GReg) (gb : GReg)
  /-- gd = unsigned minimum. (R179) -/
  | minu (n : Core) (p : BitVec 3) (u : Bool) (gd : GReg) (ga : GReg) (gb : GReg)
  /-- gd = unsigned maximum. (R179) -/
  | maxu (n : Core) (p : BitVec 3) (u : Bool) (gd : GReg) (ga : GReg) (gb : GReg)
  /-- gd = ga + sext(imm15). (R181) -/
  | addi (n : Core) (p : BitVec 3) (u : Bool) (gd : GReg) (ga : GReg) (imm : BitVec 15)
  /-- gd = ga AND zext(imm15). (R181) -/
  | andi (n : Core) (p : BitVec 3) (u : Bool) (gd : GReg) (ga : GReg) (imm : BitVec 15)
  /-- gd = ga OR zext(imm15). (R181) -/
  | ori (n : Core) (p : BitVec 3) (u : Bool) (gd : GReg) (ga : GReg) (imm : BitVec 15)
  /-- gd = ga XOR zext(imm15). (R181) -/
  | xori (n : Core) (p : BitVec 3) (u : Bool) (gd : GReg) (ga : GReg) (imm : BitVec 15)
  /-- gd = ga shifted left by an immediate. (R181) -/
  | shli (n : Core) (p : BitVec 3) (u : Bool) (gd : GReg) (ga : GReg) (cnt : BitVec 5)
  /-- gd = ga shifted right with zero fill by an immediate. (R181) -/
  | shri (n : Core) (p : BitVec 3) (u : Bool) (gd : GReg) (ga : GReg) (cnt : BitVec 5)
  /-- gd = ga shifted right with sign fill by an immediate. (R181) -/
  | sari (n : Core) (p : BitVec 3) (u : Bool) (gd : GReg) (ga : GReg) (cnt : BitVec 5)
  /-- gd = sext(imm16). (R181) -/
  | movi (n : Core) (p : BitVec 3) (u : Bool) (gd : GReg) (imm : BitVec 16)
  /-- gd[31:16] = imm16, low half kept. (R181) -/
  | movhi (n : Core) (p : BitVec 3) (u : Bool) (gd : GReg) (imm : BitVec 16)
  /-- A predicate takes the comparison of two registers. (R182) -/
  | cmp (n : Core) (p : BitVec 3) (u : Bool) (cc : BitVec 3) (pd : BitVec 2) (ga : GReg) (gb : GReg)
  /-- A predicate takes the comparison of a register with an immediate. (R182) -/
  | cmpi (n : Core) (p : BitVec 3) (u : Bool) (cc : BitVec 3) (pd : BitVec 2) (ga : GReg) (imm : BitVec 12)
  /-- A predicate takes a logic function of two predicates. (R183) -/
  | plog (n : Core) (p : BitVec 3) (u : Bool) (fn : BitVec 3) (pd : BitVec 2) (pa : BitVec 2) (pb : BitVec 2)
  /-- gd takes p1 to p3 packed. (R184) -/
  | movsGetPred (n : Core) (p : BitVec 3) (u : Bool) (gd : GReg)
  /-- p1 to p3 take bits 1 to 3 of ga. (R184) -/
  | movsSetPred (n : Core) (p : BitVec 3) (u : Bool) (ga : GReg)
  /-- gd takes the U copy of g13, S mode only. (R184) -/
  | movsGetUsp (n : Core) (p : BitVec 3) (u : Bool) (gd : GReg)
  /-- The U copy of g13 takes ga, S mode only. (R184) -/
  | movsSetUsp (n : Core) (p : BitVec 3) (u : Bool) (ga : GReg)
  /-- gd takes a word from memory. (R185) -/
  | ldw (n : Core) (p : BitVec 3) (u : Bool) (gd : GReg) (ga : GReg) (imm : BitVec 15)
  /-- gd takes a sign-extended halfword. (R185) -/
  | ldh (n : Core) (p : BitVec 3) (u : Bool) (gd : GReg) (ga : GReg) (imm : BitVec 15)
  /-- gd takes a zero-extended halfword. (R185) -/
  | ldhu (n : Core) (p : BitVec 3) (u : Bool) (gd : GReg) (ga : GReg) (imm : BitVec 15)
  /-- gd takes a sign-extended byte. (R185) -/
  | ldb (n : Core) (p : BitVec 3) (u : Bool) (gd : GReg) (ga : GReg) (imm : BitVec 15)
  /-- gd takes a zero-extended byte. (R185) -/
  | ldbu (n : Core) (p : BitVec 3) (u : Bool) (gd : GReg) (ga : GReg) (imm : BitVec 15)
  /-- A word of gs is stored, posted. (R185) -/
  | stw (n : Core) (p : BitVec 3) (u : Bool) (gs : GReg) (ga : GReg) (imm : BitVec 15)
  /-- A halfword of gs is stored. (R185) -/
  | sth (n : Core) (p : BitVec 3) (u : Bool) (gs : GReg) (ga : GReg) (imm : BitVec 15)
  /-- A byte of gs is stored. (R185) -/
  | stb (n : Core) (p : BitVec 3) (u : Bool) (gs : GReg) (ga : GReg) (imm : BitVec 15)
  /-- A word is atomically exchanged with gd. (R187) -/
  | xchg (n : Core) (p : BitVec 3) (u : Bool) (gd : GReg) (ga : GReg)
  /-- Continue at a relative target. (R189) -/
  | br (n : Core) (p : BitVec 3) (u : Bool) (off : BitVec 23)
  /-- g14 takes the return address and control continues at a relative target. (R189) -/
  | bl (n : Core) (p : BitVec 3) (u : Bool) (off : BitVec 23)
  /-- Continue at the address in ga. (R189) -/
  | jr (n : Core) (p : BitVec 3) (u : Bool) (ga : GReg)
  /-- gd takes the return address and control continues at ga. (R189) -/
  | jlr (n : Core) (p : BitVec 3) (u : Bool) (gd : GReg) (ga : GReg)
  /-- Named registers and g14 are pushed and control continues at ga. (R190) -/
  | callm (n : Core) (p : BitVec 3) (u : Bool) (ga : GReg) (mask : BitVec 13)
  /-- Named registers and g14 are popped and control returns to g14. (R191) -/
  | retm (n : Core) (p : BitVec 3) (u : Bool) (mask : BitVec 13)
  /-- The event latches of the named cores are set after earlier stores land. (R193) -/
  | sev (n : Core) (p : BitVec 3) (u : Bool) (mask : BitVec 8)
  /-- The core clears a set event latch or sleeps until a wake. (R194) -/
  | wfe (n : Core) (p : BitVec 3) (u : Bool)
  /-- A sleeping core wakes on its latch, an interrupt or a debug halt and resumes. (R194) -/
  | wfeWake (n : Core) (src : Option (BitVec 8))
  /-- The core waits for a Beam position or TIME_LO, or completes at once with AFTER. (R195) -/
  | waituntil (n : Core) (p : BitVec 3) (u : Bool) (src : BitVec 2) (after : Bool) (gn : GReg)
  /-- The awaited position or time is reached and the core resumes. (R196) -/
  | waituntilMatch (n : Core)
  /-- The trap instruction traps with cause SOFT. (R199) -/
  | trap (n : Core) (p : BitVec 3) (u : Bool) (imm : BitVec 16)
  /-- IE and mode are restored and control continues at YLX_EPC. (R158) -/
  | eret (n : Core) (p : BitVec 3) (u : Bool)
  /-- Enters debug halt when core debug is enabled, otherwise traps UNDEF. (R199) -/
  | brk (n : Core) (p : BitVec 3) (u : Bool) (imm : BitVec 16)
  /-- The nop instruction has no effect. (R199) -/
  | nop (n : Core) (p : BitVec 3) (u : Bool)
  /-- A write to IRQ_EOI pops the priority stack and restores the running priority. (R212) -/
  | irqEoi (n : Core) (v : Word)
  /-- A write to IRQ_SWSET occurs the named software sources. (R204) -/
  | irqSwset (v : Word)
  /-- A write to IRQ_MSI_SET sets MSI pending bits. (R219) -/
  | irqMsiSet (v : Word)
  /-- A pending enabled and unmasked vector sends one MSI and clears. (R220) -/
  | msiSend (v : BitVec 5)
  /-- After a cold reset or wake start the boot ROM checks fuses, brings up the link and checks and loads the slots. (R228) -/
  | romBoot (bad : List (Nat × Nat)) (a : FlashSlot) (b : FlashSlot)
  /-- A write of 1 to SYS_BOOT_CTRL.ROM_LOCK locks the ROM and the boot registers until cold reset. (R233) -/
  | romLock (n : Core)
  /-- A ring 0 doorbell while NO_IMAGE starts a check of a host image in Vellum. (R234) -/
  | hostRecovery (headerErr : Bool) (bodyErr : Bool)
  /-- A host memory request to BAR0 is served or refused by the access and hole rules. (R248) -/
  | hostBar0Request (write : Bool) (off : BitVec 16) (be : BitVec 4) (dwords : Nat) (v : Word) (cfg : Bool := false)
  /-- A host read or write reaches Vellum through BAR2 or the hole. (R249) -/
  | bar2Access (write : Bool) (off : BitVec 26) (bytes : List (Option Byte))
  /-- The function enters D3hot; BAR requests are refused and bus mastering stops. (R250) -/
  | d3hotEntry
  /-- The function returns to D0 with its BAR0 registers restored. (R250) -/
  | d0Return
  /-- A hot reset or link-down clears the configuration and ring enables. (R251) -/
  | linkReset
  /-- A host write to MBX_DBn with TAIL_WE offers a submission tail, checked against the head. (R258) -/
  | doorbellTail (n : Ring) (t : BitVec 12)
  /-- A host write to MBX_DBn with CQH_WE offers a completion head. (R261) -/
  | cqHeadUpdate (n : Ring) (h : BitVec 12)
  /-- A core write to MBX_DBn sets the submission head. (R262) -/
  | sqHeadSet (n : Ring) (h : BitVec 12)
  /-- A change of a ring enable bit resets or stops the ring's indices and fetching. (R266) -/
  | ringEnable (k : Fin 2) (v : Word)
  /-- A write of 1 to MBX_RESETk resets a ring and runs out its commands. (R268) -/
  | ringReset (k : Fin 2) (v : Word)
  /-- MBX_CTRL.RESET_ALL resets every ring. (R277) -/
  | resetAll
  /-- A QSPI slave frame with command 0x61 reads a BAR0 register. (R272) -/
  | qspiBar0Read (addr : Word) (len : Half) (crc : Half) (gap : Bool) (short : Bool)
  /-- A QSPI slave frame with command 0x62 writes a BAR0 register. (R272) -/
  | qspiBar0Write (addr : Word) (len : Half) (data : List Byte) (crc : Half) (gap : Bool) (short : Bool)
  /-- A QSPI slave frame with command 0x63 reads Vellum. (R272) -/
  | qspiVellumRead (addr : Word) (len : Half) (crc : Half) (gap : Bool) (short : Bool)
  /-- A QSPI slave frame with command 0x64 writes Vellum. (R272) -/
  | qspiVellumWrite (addr : Word) (len : Half) (data : List Byte) (crc : Half) (gap : Bool) (short : Bool)
  /-- A QSPI slave frame with command 0x65 returns the last write status and count. (R272) -/
  | qspiFrameStatus (code : Byte) (gap : Bool)
  /-- The Warden fetches and checks one descriptor from the next eligible ring. (R283) -/
  | descriptorFetch
  /-- A completion is written to the completion ring when it has room and the host is notified. (R263) -/
  | completionPost (n : Ring)
  /-- A command that passes its execution deadline ends with TIMEOUT. (R298) -/
  | commandTimeout (n : Ring)
  /-- Tirba increments MBX_HEARTBEAT at least every 10 ms. (R299) -/
  | heartbeat
  /-- Opens a session on claimed rings at a negotiated version. (R310) -/
  | sessionOpen (n : Ring)
  /-- Closes a session after its earlier commands and frees its rings. (R311) -/
  | sessionClose (n : Ring)
  /-- Returns the last completion records of a ring. (R312) -/
  | ringStatus (n : Ring)
  /-- Returns a parameter page. (R313) -/
  | paramQuery (n : Ring)
  /-- Copies a referenced payload into Vellum. (R314) -/
  | blockCopy (n : Ring)
  /-- Fills a Vellum range with a pattern. (R315) -/
  | blockFill (n : Ring)
  /-- Writes plane records into the shadows. (R316) -/
  | planeSet (n : Ring)
  /-- Sets the shadow motif configuration of both Beams. (R317) -/
  | motifConfig (n : Ring)
  /-- Places an Eyelet window in the shadows. (R318) -/
  | windowSet (n : Ring)
  /-- Sets the shadow stacking, dither and backdrop of a Beam. (R319) -/
  | layerOrder (n : Ring)
  /-- Writes entries into a shadow palette. (R320) -/
  | paletteLoad (n : Ring)
  /-- Requests the shadow transfer of the Beams in the mask and completes after it. (R321) -/
  | commit (n : Ring)
  /-- Defines a signature region in the shadows. (R322) -/
  | sigRegionSet (n : Ring)
  /-- Returns the region signatures of a frame, with an optional golden compare. (R323) -/
  | sigRead (n : Ring)
  /-- Sets up a stopped Eyelet port. (R325) -/
  | portConfig (n : Ring)
  /-- PORT_CONTROL starts a port's PHY and pipeline. (R326) -/
  | portStart (n : Ring)
  /-- PORT_CONTROL stops a port at the end of the frame in progress. (R326) -/
  | portStop (n : Ring)
  /-- Sets the camera fault detection and actions of a port. (R327) -/
  | portPolicy (n : Ring)
  /-- Returns the state and counters of a port. (R328) -/
  | portStatus (n : Ring)
  /-- Runs one I2C transaction on a camera-control master. (R329) -/
  | i2cTransfer (n : Ring)
  /-- Arms a voice to start at once or at START_TIME. (R330) -/
  | voicePlay (n : Ring)
  /-- VOICE_CONTROL action 0 stops a voice at once. (R331) -/
  | voiceControlStop (n : Ring)
  /-- VOICE_CONTROL action 1 starts a voice's release. (R331) -/
  | voiceControlRelease (n : Ring)
  /-- VOICE_CONTROL action 2 starts a gain change. (R331) -/
  | voiceControlGain (n : Ring)
  /-- VOICE_CONTROL action 3 sets a voice's pitch. (R331) -/
  | voiceControlPitch (n : Ring)
  /-- Sets a bus and optionally its effect block. (R332) -/
  | busConfig (n : Ring)
  /-- Sets or enables a TDM port. (R333) -/
  | audioPort (n : Ring)
  /-- Returns temperatures, supplies, currents, shed step and slack. (R334) -/
  | telemetryRead (n : Ring) (tmax : Half) (tmin : Half) (vcore : Half) (vin : Half) (vbat : Half) (ichg : Half)
  /-- Sets Lantern margin, allowed shed steps and the voice threshold. (R335) -/
  | supplyConfig (n : Ring)
  /-- Sets the Ember charger. (R336) -/
  | chargerConfig (n : Ring)
  /-- Returns free spares and darn progress. (R337) -/
  | darnStatus (n : Ring)
  /-- Remaps a named unit onto a spare. (R338) -/
  | darnRequest (n : Ring)
  /-- GLASS_HOLD action 0 enters the glass hold on the named Beams. (R339) -/
  | glassHoldEnter (n : Ring)
  /-- GLASS_HOLD action 1 releases the glass hold. (R339) -/
  | glassHoldRelease (n : Ring)
  /-- GLASS_HOLD action 2 sets START_HELD on Beams not yet started. (R699) -/
  | glassHoldAdopt (n : Ring)
  /-- DEVICE_RESET kind 0 orders a warm reset 1 ms after its completion. (R340) -/
  | deviceResetWarm (n : Ring)
  /-- DEVICE_RESET kind 1 orders a cold reset 1 ms after its completion. (R340) -/
  | deviceResetCold (n : Ring)
  /-- Checks and writes an image into the named flash slot. (R341) -/
  | fwStage (n : Ring) (fail : Bool)
  /-- Replaces the running image on core 0 by live activation. (R342) -/
  | fwActivate (n : Ring) (slot : FlashSlot) (lmErr : Bool)
  /-- Returns boot and firmware information. (R343) -/
  | fwInfo (n : Ring)
  /-- Returns the life-cycle state, count, keys and serial. (R344) -/
  | lcyStatus (n : Ring)
  /-- Runs a signed life-cycle operation through the fuse sequencer. (R345) -/
  | lcyAdvance (n : Ring) (jrnBad : Bool)
  /-- Copies entries of a log to the reference. (R346) -/
  | logRead (n : Ring)
  /-- Places a raster program on a beam core. (R347) -/
  | rasterLoad (n : Ring)
  /-- RASTER_CONTROL action 0 stops a program and restarts its core into the stub. (R349) -/
  | rasterStop (n : Ring)
  /-- RASTER_CONTROL action 1 starts a program at its entry. (R349) -/
  | rasterStart (n : Ring)
  /-- Returns the state of a raster program. (R350) -/
  | rasterStatus (n : Ring)
  /-- A plane completes the fetch of a line and reports its slack. (R378) -/
  | planeFetchComplete (p : Plane) (b : Beam) (l : BitVec 13) (slack : Int)
  /-- A write to GND_TILE_INVAL flushes the named plane caches. (R368) -/
  | tileInval (mask : Byte)
  /-- A write to a live palette DATA port writes the entry at the core's index. (R360) -/
  | livePaletteWrite (n : Core) (b : Beam) (v : Word) (pixel : BitVec 14 := 0)
  /-- A write to a shadow palette DATA port writes a shadow entry. (R362) -/
  | shadowPaletteWrite (n : Core) (b : Beam) (v : Word)
  /-- The motif attribute load ends, or LOAD_LATE sets when evaluation waited. (R389) -/
  | motifLoadEnd (b : Beam)
  /-- The evaluation of line L starts at pixel HACTIVE of line L − 2 and selects the motifs. (R392) -/
  | motifEvaluation (b : Beam)
  /-- The motif layer completes a line and reports its slack. (R401) -/
  | motifLineComplete (b : Beam) (l : BitVec 13) (slack : Int)
  /-- A write to MTF_LIVEx_DATA writes a word of the attribute shadow. (R395) -/
  | liveAttributeWrite (n : Core) (b : Beam) (v : Word)
  /-- A write to MTF_INVAL starts a reload of entries into the shadows. (R398) -/
  | mtfInval (v : Word)
  /-- An MTF_INVAL reload ends and BUSY clears. (R398) -/
  | mtfReloadEnd
  /-- A CSI-2 frame start packet begins a camera frame. (R410) -/
  | frameStartPacket (n : Port) (vc : Fin 4) (hdrBad : Bool) (fnum : Half) (pixel : BitVec 14)
  /-- A CSI-2 long packet is decoded and its row passed to the pipeline. (R410) -/
  | longPacket (n : Port) (vc : Fin 4) (dt : BitVec 6) (hdrBad : Bool) (crcBad : Bool) (bytes : List Byte) (lost : List Nat)
  /-- A CSI-2 frame end packet ends a camera frame and updates the freeze monitor. (R410) -/
  | frameEndPacket (n : Port) (vc : Fin 4) (hdrBad : Bool)
  /-- A received deskew sequence is accepted in frame blanking or ignored. (R411) -/
  | deskewSequence (n : Port)
  /-- An output row lands in Vellum and counts as complete. (R420) -/
  | outputRowLand (n : Port) (fail : Bool)
  /-- No frame start within LOST_MS raises LOST. (R432) -/
  | lostTimeout (n : Port)
  /-- A write of 1 to EYE_CTRLn.RUN starts the port and clears its counters. (R436) -/
  | eyeRunStart (n : Port)
  /-- A write of 0 to EYE_CTRLn.RUN stops the port at the next frame end. (R436) -/
  | eyeRunStop (n : Port)
  /-- A write of 1 to EYE_CTRLn.ABORT stops the port at once. (R436) -/
  | eyeAbort (n : Port)
  /-- The composite of a line starts when its layers are fetched and the previous line has ended. (R453) -/
  | compositeStart (b : Beam) (slack : Option Int)
  /-- A span falls due; if incomplete it is a fray and the stored line repeats. (R454) -/
  | spanDue (b : Beam) (complete : Bool)
  /-- A write of 1 to APQ_COMMIT.REQ sets PENDING or ARMED, or transfers on a stopped Beam. (R456) -/
  | commitRequest (b : Beam)
  /-- The shadow transfer ends, held shadow writes are acknowledged and STATE moves on. (R459) -/
  | transferEnd (b : Beam)
  /-- A DSI link stopped by EN ends its frame and drives LP-11. (R474) -/
  | linkStop (b : Beam)
  /-- A link sends the VSS or HSS packet one line after its beam event. (R475) -/
  | syncPacket (b : Beam) (vss : Bool)
  /-- A link sends the pixel packet of a line, then the blanking or BLLP. (R475) -/
  | pixelPacket (b : Beam)
  /-- A write to BMO_CMD_FIFOx queues a command word. (R481) -/
  | cmdFifoWrite (b : Beam) (v : Word)
  /-- A write of 1 to BMO_CMD_CTRLx.SEND releases every whole queued packet. (R481) -/
  | cmdSend (b : Beam)
  /-- A released command packet is sent in HS blanking or by LPDT. (R482) -/
  | commandPacketSend (b : Beam)
  /-- A TE rising edge captures the Beam position. (R483) -/
  | teEdge (b : Beam) (pixel : BitVec 14)
  /-- No TE edge within 2 × VTOTAL lines sets TE_MISS. (R483) -/
  | teMiss (b : Beam)
  /-- A write to BMO_CTRLx.ULPS enters or leaves ULPS. (R484) -/
  | ulpsWrite (b : Beam) (v : Bool)
  /-- After 1,000 µs of Mark-1 the link drives LP-11. (R484) -/
  | mark1End (b : Beam)
  /-- A write of 1 to BMO_HOLDx.ENTER starts the glass hold entry. (R486) -/
  | holdEnter (b : Beam)
  /-- A write of 1 to BMO_HOLDx.RELEASE starts the hold release. (R490) -/
  | holdRelease (b : Beam)
  /-- An audio FS edge sends the computed frame and starts the computation of the next. (R494) -/
  | fsEdge (late : Bool) (under : List Voice) (rx : List Word) (bad : Bool)
  /-- SND_V_CTRL.CMD ARM arms an idle voice. (R499) -/
  | voiceArm (v : Voice)
  /-- SND_V_CTRL.CMD RELEASE starts a release or disarms. (R499) -/
  | voiceCmdRelease (v : Voice)
  /-- SND_V_CTRL.CMD STOP makes a voice IDLE. (R499) -/
  | voiceCmdStop (v : Voice)
  /-- A write to SND_V_GAIN sets the start gain or starts a gain change. (R507) -/
  | voiceGainWrite (v : Voice) (w : Word)
  /-- A write to SND_BUSb_GAIN starts a bus gain change. (R510) -/
  | busGainWrite (b : Bus) (w : Word)
  /-- A write of 1 to EFX_LOAD starts reading the bus effect block. (R515) -/
  | efxLoad (b : Bus)
  /-- The effect block read completes and the block is taken or refused. (R515) -/
  | efxLoadComplete (b : Bus)
  /-- A write to AUD_PCTRLp.EN enables or disables a TDM port. (R524) -/
  | audioPortEnable (p : Fin 3) (v : Bool)
  /-- The audio synthesizer starts FS after the first port enable and LOCKED sets. (R522) -/
  | audioSynthLock
  /-- An external FS edge on a slave port is measured for lock, framing and slip. (R523) -/
  | slaveFsEdge (p : Fin 3) (ticks : Nat) (bclks : Nat) (rx : List Word)
  /-- The time counter reaches the compare and timer event 32 is raised. (R538) -/
  | timeCompareMatch
  /-- A write to TMR_TCMP_HI takes the buffered compare value. (R538) -/
  | tcmpHiWrite (v : Word)
  /-- A channel tick advances a running channel and may raise MATCH or WRAP. (R540) -/
  | channelTick (n : TmrCh)
  /-- A write of 1 to TMR_CTRLn.EN starts or arms the channel. (R543) -/
  | channelStart (n : TmrCh)
  /-- A write of 0 to TMR_CTRLn.EN stops the channel. (R543) -/
  | channelStop (n : TmrCh)
  /-- A write to TMR_CNTn sets the counter and restarts the prescaler without MATCH. (R544) -/
  | cntWrite (n : TmrCh) (v : Word)
  /-- At each LP edge in LP mode the stepper advances the counters by 2,929 or 2,930 ticks. (R550) -/
  | lpStep
  /-- A write of 1 to CHK_CTRLn.INIT latches parameters and resets state and count. (R559) -/
  | chkInit (n : ChkCh)
  /-- A write of 1 to CHK_CTRLn.CHECK compares the result with EXPECT. (R565) -/
  | chkCheck (n : ChkCh)
  /-- A store to CHK_DATA_Wn feeds 4 bytes. (R560) -/
  | chkDataW (n : ChkCh) (v : Word)
  /-- A store to CHK_DATA_Hn feeds 2 bytes. (R560) -/
  | chkDataH (n : ChkCh) (v : Word)
  /-- A store to CHK_DATA_Bn feeds 1 byte. (R560) -/
  | chkDataB (n : ChkCh) (v : Word)
  /-- A write to CHK_STATEn sets the CRC state. (R562) -/
  | chkStateWrite (n : ChkCh) (v : Word)
  /-- A write of 1 to BOB_CTRLn.EN starts the channel at BOB_DESCn. (R589) -/
  | bobStart (n : BobCh)
  /-- A write of 0 to EN makes the channel stop after the descriptor in force. (R590) -/
  | bobStop (n : BobCh)
  /-- A write of 1 to BOB_CTRLn.ABORT stops the channel with ABORTED. (R591) -/
  | bobAbort (n : BobCh)
  /-- A channel reads a descriptor and checks it before moving data. (R578) -/
  | bobDescriptorFetch (n : BobCh)
  /-- A trigger adds to TRIG_PEND or releases a waiting channel. (R587) -/
  | bobTrigger (n : BobCh) (src : BitVec 2) (sel : BitVec 6)
  /-- A descriptor ends when its last write is granted, and the chain goes on or ends. (R585) -/
  | bobDescriptorEnd (n : BobCh)
  /-- A write to UART_DATA pushes a character to the transmit FIFO. (R599) -/
  | uartDataWrite (u : Fin 2) (v : Byte)
  /-- A read of UART_DATA pops a received character. (R603) -/
  | uartDataRead (u : Fin 2)
  /-- A UART character finishes transmission and the transmit request may rise. (R599) -/
  | uartCharSent (u : Fin 2)
  /-- A UART character is received and placed in the receive FIFO with its flags. (R601) -/
  | uartCharReceived (u : Fin 2) (early : Bool) (samples : List (BitVec 3))
  /-- 4 character times without a start bit raise the receive request. (R604) -/
  | uartRxTimeout (u : Fin 2)
  /-- A write of 1 to QSPI_CMD.GO starts a flash transaction. (R606) -/
  | qspiGo (v : Word)
  /-- A flash transaction ends and DONE sets. (R606) -/
  | qspiDone (rx : List Byte)
  /-- A write of 1 to I2C_XFER.GO starts an I2C transaction. (R611) -/
  | i2cGo (m : Fin 4) (v : Word)
  /-- An I2C transaction ends, with NACK or bus faults recorded. (R611) -/
  | i2cDone (m : Fin 4) (e : I2cEnd)
  /-- SCL held low for 25 ms ends the transaction with TIMEOUT. (R612) -/
  | i2cSclTimeout (m : Fin 4)
  /-- A timer event trigger starts or queues an ADC sequence. (R615) -/
  | adcTrigger (e : BitVec 6)
  /-- A write of 1 to ADC_CTRL.START triggers a sequence. (R614) -/
  | adcStart
  /-- An ADC sequence ends and result ready is raised. (R614) -/
  | adcSequenceEnd (codes : List (BitVec 12))
  /-- A write of 1 to ADC_CTRL.CAL starts a self-calibration. (R616) -/
  | adcCal
  /-- Every 96,000,000 ticks with CAL_AUTO a self-calibration starts. (R616) -/
  | adcCalAuto
  /-- A write to GPIO_SETk sets output bits. (R619) -/
  | gpioSet (k : Fin 2) (v : Word)
  /-- A write to GPIO_CLRk clears output bits. (R619) -/
  | gpioClr (k : Fin 2) (v : Word)
  /-- A ball's filtered input changes and may set its ISTAT bit. (R620) -/
  | gpioInputChange (n : Fin 48) (v : Bool) (samples : Nat)
  /-- At each pacing line or free period Lantern steps the target and evaluates the shed. (R628) -/
  | lanternDecision (icore : Half) (sense : List (Half × BitVec 10))
  /-- Every 8 µs with LIMIT at 1 the shed advances. (R641) -/
  | shedLimitAdvance
  /-- In FIXED mode the target moves one code toward VSET every 2 µs. (R625) -/
  | vsetStep
  /-- A phase past its 50 µs ride-through limits its current at 3.0 A. (R631) -/
  | phaseCurrentLimit (p : Phase) (on : Bool)
  /-- An open phase is found, isolated and journaled. (R633) -/
  | phaseOpen (p : Phase)
  /-- A shorted phase is found, isolated and journaled. (R633) -/
  | phaseShort (p : Phase)
  /-- Failing sense checks for 1 ms mark a phase blind or set SUM or PLAUS. (R635) -/
  | blindDetect (iin : Nat) (vin : Nat) (vcore : Nat) (sense : List (Half × BitVec 10))
  /-- A spare phase carries its share of the current. (R634) -/
  | spareEngaged (p : Phase)
  /-- A write to LTN_ISOLATE with GO isolates a phase and engages a spare. (R638) -/
  | ltnIsolate (v : Word)
  /-- A write to LTN_SHED.EN recomputes the steps in force at once. (R642) -/
  | shedEnWrite (v : Word)
  /-- VIN crosses its threshold and the always-on supply switches source. (R648) -/
  | supplySwitch (vin : Nat)
  /-- VIN and VBAT both below 1.60 V reset the always-on domain. (R649) -/
  | aonPor
  /-- Every 10 µs Ember recomputes k and slews the charge current. (R652) -/
  | chargerRecompute (vin : Nat)
  /-- Every 1 ms Ember reads the die sensors and sets or clears TEMP_HOLD. (R654) -/
  | tempSample (temps : List Int)
  /-- After 10 ms of PROBE the charger moves to PRE, FAST, FAULT or NO_CELL. (R651) -/
  | chargeProbeEnd (vbat : Nat)
  /-- VBAT at or above V_PRE for 1 s moves PRE to FAST. (R651) -/
  | preToFast (vbat : Nat := 0)
  /-- 30 min in PRE ends the charge in FAULT. (R651) -/
  | preTimeout
  /-- 12 h in PRE and FAST ends the charge in FAULT. (R651) -/
  | fastTimeout
  /-- VBAT reaches V_CV and FAST moves to CV. (R651) -/
  | cvEntry (vbat : Nat := 0)
  /-- CV current below the termination for 64 ms ends the charge in DONE. (R653) -/
  | chargeTermination (ua : Nat := 0)
  /-- VBAT below V_CV − 100 mV for 1 s returns DONE to PROBE. (R651) -/
  | rechargeStart (vbat : Nat := 0)
  /-- With no cell the charger probes again every 10 s. (R651) -/
  | noCellReprobe
  /-- VBAT above OVP in any phase moves the charger to FAULT. (R651) -/
  | cellOvp (vbat : Nat := 0)
  /-- A write to EMB_CTRL stops, starts or restarts the charge. (R655) -/
  | embCtrlWrite (v : Word)
  /-- The RTC subsecond count wraps and the seconds increment. (R657) -/
  | rtcSecond
  /-- Every 2²⁰ LP ticks AON_RTC_CAL is added to the subsecond count. (R658) -/
  | rtcCalibrate
  /-- A write to AON_RTC_SEC sets the seconds and clears the subseconds. (R657) -/
  | rtcSecWrite (v : Word)
  /-- A write to AON_PWR.REQ requests a power state. (R662) -/
  | powerRequest (v : Word)
  /-- The requested power state is entered once its conditions hold. (R662) -/
  | powerStateEntry
  /-- A wake input condition holds for DEB LP ticks and counts. (R670) -/
  | wakeInput (k : Fin 2) (level : Bool) (edge : Bool) (held : Nat)
  /-- An enabled wake event cancels a request, returns from DIM or begins a wake start. (R664) -/
  | wakeEvent (e : Fin 5)
  /-- The device restarts from HOLD or STANDBY, keeping the always-on state. (R667) -/
  | wakeStart
  /-- A write of DRN_COPY with GO starts a darn copy of a bank. (R678) -/
  | drnCopyGo (v : Word)
  /-- GO with NOCOPY switches a bank to a spare at once. (R681) -/
  | drnCopyNocopy (v : Word)
  /-- A write of 1 to DRN_COPY.ABORT stops a copy with the map unchanged. (R680) -/
  | drnCopyAbort
  /-- The spare slice checks one evaluated line of the next slice. (R684) -/
  | sliceCheckVisit (bad : Bool)
  /-- A write with DRN_SLICE.MARK marks a slice failed. (R685) -/
  | sliceMark (k : BitVec 5)
  /-- A write with DRN_SLICE.ASSIGN makes the spare serve a slice. (R685) -/
  | sliceAssign (k : BitVec 5)
  /-- A write to DRN_VFAILk marks physical voices failed. (R687) -/
  | voiceFailMark (k : Fin 4) (v : Word)
  /-- A faulted beam core runs its self-test and its signature is compared. (R689) -/
  | coreSelfTest (n : Core) (pass : Bool)
  /-- Core 7 takes over the raster program of a failed beam core. (R690) -/
  | adoption (n : Core)
  /-- At the first VB0 at least 1 ms after the fault core 7 starts the adopted program. (R690) -/
  | adoptedProgramStart
  /-- A core 7 fault makes core 0 take the sound pages and ends adoption. (R692) -/
  | core7Fault
  /-- Core 7 restarts a faulted core 0 once. (R693) -/
  | core0Restart
  /-- After a reset Tirba reapplies each valid darn record entry. (R694) -/
  | darnRecordApply
  /-- The journal writer writes a fault journal entry after its event. (R698) -/
  | journalEntryWrite
  /-- A store to DRN_JRN_POST writes a software journal entry. (R698) -/
  | jrnPost (v : Word)
  /-- A write of 1 to LCY_OP.GO starts the fuse sequencer on a record. (R709) -/
  | lcyOpGo (v : Word) (jrnBad : Bool)
  /-- The sequencer finishes blowing fuses, clears the journal and sets DONE. (R711) -/
  | lcyOperationEnd (bad : List (Nat × Nat))
  /-- The TAP enters Test-Logic-Reset and loads IDCODE. (R716) -/
  | tapReset
  /-- EXTEST drives the balls from the boundary register. (R717) -/
  | jtagExtest (scan : Option (BitVec 258 × BitVec 258))
  /-- SAMPLE/PRELOAD captures and loads the boundary register. (R716) -/
  | jtagSamplePreload (cap : BitVec 258) (load : BitVec 258)
  /-- IDCODE selects the identity register. (R716) -/
  | jtagIdcode
  /-- CLAMP holds the balls from the boundary register with bypass selected. (R717) -/
  | jtagClamp
  /-- HIGHZ places every boundary ball high-impedance. (R717) -/
  | jtagHighz
  /-- BYPASS selects the 1-bit bypass register. (R716) -/
  | jtagBypass (code : BitVec 5)
  /-- Capture-DR of DBG_CHAL generates a new challenge. (R719) -/
  | dbgChal
  /-- Update-DR of DBG_RESP starts the verification of a response. (R720) -/
  | dbgResp (resp : List Byte)
  /-- The response check ends in a grant or a counted failure. (R720) -/
  | dbgResponseCheckEnd
  /-- A write of 1 to DBG_CTRL.REVOKE ends a grant and resumes halted cores. (R721) -/
  | dbgRevoke
  /-- DBG_CMD NOP does nothing. (R722) -/
  | dbgNop (n : Core)
  /-- DBG_CMD HALT stops a core at its next instruction boundary. (R723) -/
  | dbgHalt (n : Core)
  /-- DBG_CMD RESUME resumes a halted core. (R722) -/
  | dbgResume (n : Core)
  /-- DBG_CMD STEP executes one instruction on a halted core. (R723) -/
  | dbgStep (n : Core)
  /-- DBG_CMD READ_G reads a general register of a halted core. (R722) -/
  | dbgReadG (n : Core) (a : Word)
  /-- DBG_CMD WRITE_G writes a general register of a halted core. (R722) -/
  | dbgWriteG (n : Core) (a : Word) (v : Word)
  /-- DBG_CMD LOAD makes a word load by the halted core. (R723) -/
  | dbgLoad (n : Core) (a : Word)
  /-- DBG_CMD STORE makes a word store by the halted core. (R723) -/
  | dbgStore (n : Core) (a : Word) (v : Word)
  /-- VIN rising above V_POR causes a cold reset. (R734) -/
  | vinPowerOn (strap : Bool)
  /-- nRESET low for at least 1 µs causes a cold reset. (R734) -/
  | nresetFall (strap : Bool)
  /-- From the start point Lantern tests phases, ramps VCORE and releases the cores. (R731) -/
  | startSequence (fails : BitVec 14)
  /-- VIO_C not good 100 ms after T_R makes the ROM go to NO_IMAGE. (R733) -/
  | vioCTimeout
  /-- VIN below V_BOR for 1 µs floats the balls and causes a cold reset. (R737) -/
  | vinBrownout (strap : Bool)
  /-- VCORE below its threshold for 1 µs causes a cold reset. (R734) -/
  | coreBrownout (mv : Nat) (strap : Bool)
  /-- A die sensor above 125 °C for 1 ms causes a cold reset. (R734) -/
  | thermalTrip (strap : Bool)
  /-- Too few phases or a failed Vellum controller check causes a cold reset. (R734) -/
  | fatalFault (vlm : Bool) (strap : Bool)
  /-- A keyed write of SYS_RESET with KIND WARM makes a warm reset. (R736) -/
  | sysResetWarm (who : BitVec 4) (user : Bool) (key : BitVec 24) (strap : Bool := false)
  /-- A keyed write of SYS_RESET with KIND COLD makes a cold reset. (R734) -/
  | sysResetCold (who : BitVec 4) (user : Bool) (key : BitVec 24) (strap : Bool)
  /-- A VIO bank becomes good or stops being good. (R729) -/
  | vioBankChange (k : Fin 3) (volts : Nat) (mv : Fin 1000)
  /-- The Tirba NOP command, opcode 0x000, completes with OK and a zero result. (R282) -/
  | nopCommand (n : Ring)
  /-- A completion TLP for a bus-master read from host memory arrives, carrying data or ending the read with Unsupported Request, Completer Abort or poisoning. (R257) -/
  | busMasterCompletion (k : Nat) (data : Option (List Byte))
  /-- A bus-master read that has had no completion for the fixed 10 ms ends with a completion timeout, which frays the ring or stops the Bobbin with HOST. (R246) -/
  | completionTimeout (k : Nat)
  /-- The 64th step of an ADC self-calibration ends and CAL_BUSY clears. (R616) -/
  | adcCalEnd
deriving DecidableEq, Repr

end Sys2Proof
end

