-- ==== Sys2Proof/Machine/Bits.lean ====
section
/-! DEFINITION. Bit fields of words, saturation, byte order, and the sparse maps in canonical form that hold
registers, memory and tables: a list of (key, value) pairs with keys strictly rising and no entry equal to what an
unlisted key reads as. -/

namespace Sys2Proof.Machine

/-- Bits [hi:lo] of a bit vector, as a number. -/
def fld {n : Nat} (w : BitVec n) (hi lo : Nat) : Nat := w.toNat / 2 ^ lo % 2 ^ (hi + 1 - lo)

/-- Bit i of a bit vector. -/
def tb {n : Nat} (w : BitVec n) (i : Nat) : Bool := w.toNat / 2 ^ i % 2 == 1

/-- A number as a 32-bit word. -/
abbrev w32 (n : Nat) : Word := BitVec.ofNat 32 n

/-- One bit as a word: 2^i. -/
def bitW (i : Nat) : Word := w32 (2 ^ i)

/-- The mask of bits [hi:lo]. -/
def maskW (hi lo : Nat) : Word := w32 ((2 ^ (hi + 1 - lo) - 1) * 2 ^ lo)

/-- The word with bits [hi:lo] replaced by v (taken modulo the field's size). -/
def setFld (w : Word) (hi lo v : Nat) : Word :=
  (w &&& ~~~(maskW hi lo)) ||| w32 (v % 2 ^ (hi + 1 - lo) * 2 ^ lo)

/-- The word with bit i set to b. -/
def setBit (w : Word) (i : Nat) (b : Bool) : Word := if b then w ||| bitW i else w &&& ~~~(bitW i)

/-- 1 for true, 0 for false. -/
def b2n (b : Bool) : Nat := if b then 1 else 0

/-- A field of n bits read as a two's complement number. -/
def signed (n v : Nat) : Int := if v < 2 ^ (n - 1) then (v : Int) else (v : Int) - (2 ^ n : Nat)

/-- The two's complement field of n bits of an integer (wrapping). -/
def toField (n : Nat) (x : Int) : Nat := (x % (2 ^ n : Nat)).toNat

/-- An integer clamped into [lo, hi]. -/
def clampI (lo hi x : Int) : Int := if x < lo then lo else if hi < x then hi else x

/-- A number clamped into [lo, hi]; where hi < lo the result is lo. -/
def clampN (lo hi x : Nat) : Nat := max lo (min hi x)

/-- Saturating increment of a count at its maximum. -/
def satInc (mx n : Nat) : Nat := if n < mx then n + 1 else mx

/-- A signed quantity saturated to n bits. -/
def satS (n : Nat) (x : Int) : Int := clampI (-(2 ^ (n - 1) : Nat)) ((2 ^ (n - 1) : Nat) - 1) x

/-- A rational clamped into [lo, hi]. -/
def clampQ (lo hi x : Rat) : Rat := if x < lo then lo else if hi < x then hi else x

/-- A rational rounded to the nearest integer, halves upward. -/
def roundQ (x : Rat) : Int := (x + 1 / 2).floor

/-- Ceiling division. -/
def ceilDiv (a b : Nat) : Nat := (a + b - 1) / b

/-- The number a little-endian list of bytes spells (R3). -/
def leNat : List Byte → Nat
  | [] => 0
  | b :: t => b.toNat + 256 * leNat t

/-- n little-endian bytes of a number (R3). -/
def leBytes : Nat → Nat → List Byte
  | 0, _ => []
  | n + 1, v => BitVec.ofNat 8 (v % 256) :: leBytes n (v / 256)

/-- The number a big-endian list of bytes spells. -/
def beNat (bs : List Byte) : Nat := leNat bs.reverse

/-- n big-endian bytes of a number. -/
def beBytes (n v : Nat) : List Byte := (leBytes n v).reverse

/-- Bits 0 to n−1 of a number, lowest first. -/
def bitsOf : Nat → Nat → List Bool
  | 0, _ => []
  | n + 1, v => (v % 2 == 1) :: bitsOf n (v / 2)

/-- The number a list of bits spells, lowest first. -/
def ofBits : List Bool → Nat
  | [] => 0
  | b :: t => b2n b + 2 * ofBits t

/-- The set bits of a number below n, rising. -/
def setBitsOf (n v : Nat) : List Nat := (List.range n).filter fun i => v / 2 ^ i % 2 == 1

/-- A sparse map read: what key k holds, d being what an unlisted key reads as. -/
def Sparse.get {α : Type} (d : α) : List (Nat × α) → Nat → α
  | [], _ => d
  | (a, v) :: t, k => if k = a then v else Sparse.get d t k

/-- A sparse map with key k removed. -/
def Sparse.erase {α : Type} (m : List (Nat × α)) (k : Nat) : List (Nat × α) := m.filter fun e => e.1 != k

/-- A sparse map with key k listed as v. -/
def Sparse.insert {α : Type} : List (Nat × α) → Nat → α → List (Nat × α)
  | [], k, v => [(k, v)]
  | (a, x) :: t, k, v =>
    if k = a then (a, v) :: t else if k < a then (k, v) :: (a, x) :: t else (a, x) :: Sparse.insert t k v

/-- A sparse map write that keeps the canonical form: writing what an unlisted key reads as removes the entry. -/
def Sparse.set {α : Type} [DecidableEq α] (d : α) (m : List (Nat × α)) (k : Nat) (v : α) : List (Nat × α) :=
  if v = d then Sparse.erase m k else Sparse.insert m k v

/-- The canonical form: keys strictly rising from lo on, no entry at what an unlisted key reads as. -/
def Sparse.wfFrom {α : Type} [DecidableEq α] (d : Nat → α) : Nat → List (Nat × α) → Bool
  | _, [] => true
  | lo, (a, v) :: t => decide (lo ≤ a) && decide (v ≠ d a) && Sparse.wfFrom d (a + 1) t

/-- The canonical form of a whole map. -/
def Sparse.wf {α : Type} [DecidableEq α] (d : Nat → α) (m : List (Nat × α)) : Bool := Sparse.wfFrom d 0 m

/-- One element of a vector changed by a function. -/
def upd {α : Type} {n : Nat} (v : Vector α n) (i : Fin n) (f : α → α) : Vector α n := v.set i.val (f v[i]) i.isLt

/-- A number list kept sorted without repeats: insertion. -/
def insertSorted : Nat → List Nat → List Nat
  | k, [] => [k]
  | k, a :: t => if k = a then a :: t else if k < a then k :: a :: t else a :: insertSorted k t

/-- A function applied for each element of a list, in order. -/
def forEach {α σ : Type} (l : List α) (f : α → σ → σ) (s : σ) : σ := l.foldl (fun s a => f a s) s

end Sys2Proof.Machine
end

