-- ==== Sys2Proof/Machine/Crc.lean ====
section
/-! DEFINITION. The CRC arithmetic that several units share (R429, R463, R559 to R564). -/

namespace Sys2Proof.Machine

/-- The low n bits of a number in reverse order. -/
def reflectN (n v : Nat) : Nat := ofBits (bitsOf n v).reverse

/-- One bit of a reflected CRC with the reflected polynomial p. -/
def crcShift (p r : Word) : Word := if tb r 0 then (r >>> 1) ^^^ p else r >>> 1

/-- One byte of a reflected CRC. -/
def crcByte (p : Word) (r : Word) (b : Byte) : Word :=
  (List.range 8).foldl (fun r _ => crcShift p r) (r ^^^ b.setWidth 32)

/-- CRC-32C's polynomial 0x1EDC_6F41, reflected. -/
def crc32cPoly : Word := 0x82F63B78

/-- Bytes into a running CRC-32C. -/
def crc32cUpd (bs : List Byte) (r : Word) : Word := bs.foldl (crcByte crc32cPoly) r

/-- CRC-32C with initial value and final XOR of 0xFFFF_FFFF (R429). -/
def crc32c (bs : List Byte) : Word := crc32cUpd bs 0xFFFFFFFF ^^^ 0xFFFFFFFF

/-- One bit of CRC-16/CCITT-FALSE. -/
def crc16Shift (r : Half) : Half := if tb r 15 then (r <<< 1) ^^^ 0x1021 else r <<< 1

/-- CRC-16/CCITT-FALSE (R271). -/
def crc16 (bs : List Byte) : Half :=
  bs.foldl (fun (r : Half) (b : Byte) =>
    (List.range 8).foldl (fun (r : Half) _ => crc16Shift r) (r ^^^ ((b.setWidth 16 : Half) <<< (8 : Nat)))) 0xFFFF

end Sys2Proof.Machine
end

