-- ==== Sys2Proof/Config.lean ====
section
/-! DEFINITION. The values that one part fixes by its fuses and the values the spec leaves open. Each is opaque: nothing
in Lean can evaluate it, so no proof can rest on a number (assumption 2). -/

namespace Sys2Proof.Config

/-- SYS_SPEED.SLOW_REF: COUNT as measured at the slow corner at test, a fuse value (R55). Free. -/
opaque slowRef : BitVec 16
/-- PRK_REFOSC.TRIM: the RefOsc trim code, a fuse value (R58, R95). Free. -/
opaque refOscTrim : BitVec 12
/-- The byte at an address of the boot ROM, which the spec does not give (R137). Free. -/
opaque romByte : Nat → BitVec 8
/-- The 8-bit ECC syndrome of an uncorrectable word, by its Vellum offset; the code's matrix is not given (R105). Free. -/
opaque ueSyndrome : Nat → BitVec 8
/-- PRK_GLK_ERR.OFFSET for an offset that is no whole multiple of 0.1 ppm: the rounding is not stated (R95). Free. -/
opaque glkOffsetField : Rat → BitVec 16
/-- VLM_ERR_ADDR.OFFSET for an error in a word of a free spare bank, which no offset reaches (R97, R109). Free. -/
opaque spareErrOffset : Nat → BitVec 26
/-- The pixels (R, G, B bytes) of a CSI-2 payload whose data type is none of those R408 lists. Free. -/
opaque otherTypePixels : BitVec 6 → List (BitVec 8) → List (BitVec 24)
/-- Whether a muted voice's value that falls between two integers rounds up (R528 states no rounding). Free. -/
opaque fadeUp : Int → Nat → Bool
/-- A byte whose contents the spec calls undefined, by the number of the free value and the byte's address. Free. -/
opaque undefByte : Nat → Nat → BitVec 8
/-- EMB_STAT.ILIM for a current that is no whole number of mA: the rounding is not stated (R673). Free. -/
opaque ilimField : Rat → BitVec 8
/-- The fuses of a group that this part carries when the model starts (R703). Free. -/
opaque fuseGroup : Nat → BitVec 5
/-- The hash fuses of a key slot that this part carries when the model starts, byte i of the hash at bits [8i+7:8i]. Free. -/
opaque fuseHash : Nat → BitVec 256
/-- The serial number in the provisioning row (25). Free. -/
opaque serial : BitVec 64
/-- Wait bytes that the QSPI slave sends before the start byte (R270, R274), by the number of the free value. Free. -/
opaque qspiWait : Nat → Nat
/-- The JTAG manufacturer code in the provisioning row. Free. -/
opaque mfr : BitVec 11
/-- Byte i of the device journal key (25). Free. -/
opaque journalKey : Nat → BitVec 8
/-- Byte i of the random nonce of a challenge, by the number of the free value (R719). Free. -/
opaque nonce : Nat → Nat → BitVec 8
/-- How many fuses of a stopped operation have been blown, by the number of the free value (R714). Free. -/
opaque tornFuses : Nat → Nat
/-- A byte of the life-cycle journal after a write whose read-back differs (R711), by the
number of the free value. Free. -/
opaque badJournal : Nat → Nat → BitVec 8
/-- What the ROM's code leaves in a register that the spec does not name, by the number of the free value and the register
(R232 gives g0 to g3). Free. -/
opaque romReg : Nat → Nat → BitVec 32
/-- What the ROM's code leaves in a predicate, by the number of the free value. Free. -/
opaque romPred : Nat → Nat → Bool
/-- Which of the two bytes of R583 an overlapped destination byte of a Bobbin copy receives, by the number of the free value
and the byte's place in the row. Free. -/
opaque overlapPick : Nat → Nat → Bool
/-- The data field of DBG_CMD after a command that reads nothing, by the number of the free value (R722). Free. -/
opaque dbgData : Nat → BitVec 32
/-- The Tirba region (R307, R313): it picks its Vellum offset and its length, in units of 64 KiB (assumption 98). Free. -/
opaque tirbaRegion : BitVec 10 × BitVec 10
/-- What Tirba posts in a fault journal entry for a command that ends with FAULT (R290), by the number of the free value and
the field: 0 SOURCE, 1 EVENT, 2 UNIT, 3 to 5 the data words. Free. -/
opaque faultEntry : Nat → Nat → BitVec 32
/-- The DETAIL of a FAULT whose cause R306 does not list: a failed bus-master read of a payload (R281). Free. -/
opaque hostReadDetail : BitVec 8
/-- What a retained journal word holds once Tirba has written a hold record into words 0 to 3, by the number of the free
value and the word (R489 gives no place). Free. -/
opaque holdWord : Nat → Nat → BitVec 32
/-- The Bobbin channel that Tirba holds for BLOCK_COPY (R314). -/
opaque tirbaBob : BitVec 4
/-- The place of the effect block of a bus in Vellum, in units of 64 bytes (R515). -/
opaque efxPlace : Nat → BitVec 20
/-- The place of the fault journal in the Tirba region, in units of 8 KiB (R696). -/
opaque journalPlace : BitVec 13
/-- How many pixels of a line the fetch in progress has read when the plane's cache is flushed, by the number of the free value
(R368). -/
opaque fetchDone : Nat → Nat
/-- How many pixel periods after the last event of a Beam a core's live palette write lands, by the number of the free value
(R50, R360). -/
opaque landDelay : Nat → Nat
/-- The level that the HOSTSEL strap shows at a cold reset whose command carries none (R29), by the number of the free value. -/
opaque hostsel : Nat → Bool
/-- What a raster program finds in a register that R347 and R348 do not set, by the number of the free value and the register;
16 is YLX_VBASE of the stub. -/
opaque stubReg : Nat → Nat → BitVec 32
/-- What a raster program finds in a predicate, by the number of the free value. -/
opaque stubPred : Nat → Nat → Bool
/-- Where Tirba puts the record of LCY_ADVANCE in Vellum, in units of 64 bytes (R709). -/
opaque recordPlace : BitVec 20
/-- Where Tirba's buffers of a live activation stand in Vellum, in units of 64 bytes (R238). -/
opaque fwPlace : BitVec 20
/-- Where Tirba passes core 7 the parameters of a live activation in core 7's local memory, in units of 64 bytes (R238). -/
opaque fwParams : BitVec 8
/-- MBX_VERSION of the Tirba build: BUILD and CMDSET (R277, R293). -/
opaque version : BitVec 32

end Sys2Proof.Config
end

