-- ==== Sys2Proof/Machine/RegTable.lean ====
section
/-! DEFINITION. The register map of R758 with the layouts of the chapters' register tables: for each register (or
array of registers) its address, the masks of its RW, W1C, W1S and RC bits, the mask of every bit that reads back, and
its value after cold reset (R5). Written from the Registers sections of spec/. Two ranges of keys are the model's own
(DESIGN CHOICE, assumption 4): the interrupt bank of core c at 0x5000_0000 + 0x1000 c, and the voice window registers
of voice v at 0x5002_0000 + 0x40 v. -/

namespace Sys2Proof.Machine

/-- One row of the register map: an array of cnt × cnt2 registers. -/
structure RegSpec where
  base : Nat
  cnt : Nat
  step : Nat
  cnt2 : Nat
  step2 : Nat
  rw : Nat
  w1c : Nat
  w1s : Nat
  rc : Nat
  vis : Nat
  reset : Nat
deriving DecidableEq, Repr

/-- Address of SYS_ID (R30). -/
abbrev R.SYS_ID : Nat := 0x40000000
/-- Address of SYS_PARAM0 (R30). -/
abbrev R.SYS_PARAM0 : Nat := 0x40000004
/-- Address of SYS_PARAM1 (R30). -/
abbrev R.SYS_PARAM1 : Nat := 0x40000008
/-- Address of SYS_PARAM2 (R30). -/
abbrev R.SYS_PARAM2 : Nat := 0x4000000C
/-- Address of SYS_PARAM3 (R30). -/
abbrev R.SYS_PARAM3 : Nat := 0x40000010
/-- Address of SYS_STRAP (R30). -/
abbrev R.SYS_STRAP : Nat := 0x40000014
/-- Address of SYS_SPEED (R30). -/
abbrev R.SYS_SPEED : Nat := 0x40000020
/-- Address of SYS_XING (R30). -/
abbrev R.SYS_XING : Nat := 0x40000024
/-- Address of SYS_BOOT_CTRL (R30). -/
abbrev R.SYS_BOOT_CTRL : Nat := 0x40000040
/-- Address of SYS_BOOT_STAT (R30). -/
abbrev R.SYS_BOOT_STAT : Nat := 0x40000044
/-- Address of SYS_BOOT_SEQ_A (R30). -/
abbrev R.SYS_BOOT_SEQ_A : Nat := 0x40000048
/-- Address of SYS_BOOT_SEQ_B (R30). -/
abbrev R.SYS_BOOT_SEQ_B : Nat := 0x4000004C
/-- Address of SYS_BOOT_TIME (R30). -/
abbrev R.SYS_BOOT_TIME : Nat := 0x40000050
/-- Address of SYS_RESET (R30). -/
abbrev R.SYS_RESET : Nat := 0x40000060
/-- Address of SYS_RST_CAUSE (R30). -/
abbrev R.SYS_RST_CAUSE : Nat := 0x40000064
/-- Address of SYS_VIO (R30). -/
abbrev R.SYS_VIO : Nat := 0x40000068
/-- Address of SYS_ACCLOG (R30). -/
abbrev R.SYS_ACCLOG : Nat := 0x40000070
/-- Address of SYS_ACCLOG_ADDR (R30). -/
abbrev R.SYS_ACCLOG_ADDR : Nat := 0x40000074
/-- Address of LCY_STATE (R725). -/
abbrev R.LCY_STATE : Nat := 0x40001000
/-- Address of LCY_ARB (R725). -/
abbrev R.LCY_ARB : Nat := 0x40001004
/-- Address of LCY_KEYS (R725). -/
abbrev R.LCY_KEYS : Nat := 0x40001008
/-- Address of LCY_GRP_SEL (R725). -/
abbrev R.LCY_GRP_SEL : Nat := 0x4000100C
/-- Address of LCY_GRP (R725). -/
abbrev R.LCY_GRP : Nat := 0x40001010
/-- Address of LCY_OP (R725). -/
abbrev R.LCY_OP : Nat := 0x40001014
/-- Address of LCY_OP_STAT (R725). -/
abbrev R.LCY_OP_STAT : Nat := 0x40001018
/-- Address of LCY_STICKY (R725). -/
abbrev R.LCY_STICKY : Nat := 0x4000101C
/-- Address of LCY_IRQ_EN (R725). -/
abbrev R.LCY_IRQ_EN : Nat := 0x40001020
/-- Address of LCY_SERIAL_LO (R725). -/
abbrev R.LCY_SERIAL_LO : Nat := 0x40001030
/-- Address of LCY_SERIAL_HI (R725). -/
abbrev R.LCY_SERIAL_HI : Nat := 0x40001034
/-- Address of LCY_PROV0 (R725). -/
abbrev R.LCY_PROV0 : Nat := 0x40001038
/-- Address of LCY_PROV1 (R725). -/
abbrev R.LCY_PROV1 : Nat := 0x4000103C
/-- Address of LCY_PROV2 (R725). -/
abbrev R.LCY_PROV2 : Nat := 0x40001040
/-- Address of LCY_KHASH (R725). -/
abbrev R.LCY_KHASH (i : Nat) (j : Nat) : Nat := 0x40001080 + 0x20 * i + 0x4 * j
/-- Address of LCY_JRN (R725). -/
abbrev R.LCY_JRN (i : Nat) : Nat := 0x40001100 + 0x4 * i
/-- Address of TMR_TIME_LO (R556). -/
abbrev R.TMR_TIME_LO : Nat := 0x40003000
/-- Address of TMR_TIME_HI (R556). -/
abbrev R.TMR_TIME_HI : Nat := 0x40003004
/-- Address of TMR_TCMP_LO (R556). -/
abbrev R.TMR_TCMP_LO : Nat := 0x40003008
/-- Address of TMR_TCMP_HI (R556). -/
abbrev R.TMR_TCMP_HI : Nat := 0x4000300C
/-- Address of TMR_TCTRL (R556). -/
abbrev R.TMR_TCTRL : Nat := 0x40003010
/-- Address of TMR_TSTAT (R556). -/
abbrev R.TMR_TSTAT : Nat := 0x40003014
/-- Address of TMR_FREEZE (R556). -/
abbrev R.TMR_FREEZE : Nat := 0x40003018
/-- Address of TMR_CTRL (R556). -/
abbrev R.TMR_CTRL (i : Nat) : Nat := 0x40003100 + 0x20 * i
/-- Address of TMR_PRES (R556). -/
abbrev R.TMR_PRES (i : Nat) : Nat := 0x40003104 + 0x20 * i
/-- Address of TMR_TOP (R556). -/
abbrev R.TMR_TOP (i : Nat) : Nat := 0x40003108 + 0x20 * i
/-- Address of TMR_CMP (R556). -/
abbrev R.TMR_CMP (i : Nat) : Nat := 0x4000310C + 0x20 * i
/-- Address of TMR_CNT (R556). -/
abbrev R.TMR_CNT (i : Nat) : Nat := 0x40003110 + 0x20 * i
/-- Address of TMR_STAT (R556). -/
abbrev R.TMR_STAT (i : Nat) : Nat := 0x40003114 + 0x20 * i
/-- Address of CHK_CTRL (R573). -/
abbrev R.CHK_CTRL (i : Nat) : Nat := 0x40004000 + 0x40 * i
/-- Address of CHK_POLY (R573). -/
abbrev R.CHK_POLY (i : Nat) : Nat := 0x40004004 + 0x40 * i
/-- Address of CHK_INIT (R573). -/
abbrev R.CHK_INIT (i : Nat) : Nat := 0x40004008 + 0x40 * i
/-- Address of CHK_XOR (R573). -/
abbrev R.CHK_XOR (i : Nat) : Nat := 0x4000400C + 0x40 * i
/-- Address of CHK_DATA_W (R573). -/
abbrev R.CHK_DATA_W (i : Nat) : Nat := 0x40004010 + 0x40 * i
/-- Address of CHK_DATA_H (R573). -/
abbrev R.CHK_DATA_H (i : Nat) : Nat := 0x40004014 + 0x40 * i
/-- Address of CHK_DATA_B (R573). -/
abbrev R.CHK_DATA_B (i : Nat) : Nat := 0x40004018 + 0x40 * i
/-- Address of CHK_STATE (R573). -/
abbrev R.CHK_STATE (i : Nat) : Nat := 0x4000401C + 0x40 * i
/-- Address of CHK_RESULT (R573). -/
abbrev R.CHK_RESULT (i : Nat) : Nat := 0x40004020 + 0x40 * i
/-- Address of CHK_FOLD (R573). -/
abbrev R.CHK_FOLD (i : Nat) : Nat := 0x40004024 + 0x40 * i
/-- Address of CHK_FOLDED (R573). -/
abbrev R.CHK_FOLDED (i : Nat) : Nat := 0x40004028 + 0x40 * i
/-- Address of CHK_EXPECT (R573). -/
abbrev R.CHK_EXPECT (i : Nat) : Nat := 0x4000402C + 0x40 * i
/-- Address of CHK_COUNT (R573). -/
abbrev R.CHK_COUNT (i : Nat) : Nat := 0x40004030 + 0x40 * i
/-- Address of CHK_STAT (R573). -/
abbrev R.CHK_STAT (i : Nat) : Nat := 0x40004034 + 0x40 * i
/-- Address of BOB_CTRL (R595). -/
abbrev R.BOB_CTRL (i : Nat) : Nat := 0x40005000 + 0x40 * i
/-- Address of BOB_DESC (R595). -/
abbrev R.BOB_DESC (i : Nat) : Nat := 0x40005004 + 0x40 * i
/-- Address of BOB_HOSTHI (R595). -/
abbrev R.BOB_HOSTHI (i : Nat) : Nat := 0x40005008 + 0x40 * i
/-- Address of BOB_TRIG (R595). -/
abbrev R.BOB_TRIG (i : Nat) : Nat := 0x4000500C + 0x40 * i
/-- Address of BOB_STAT (R595). -/
abbrev R.BOB_STAT (i : Nat) : Nat := 0x40005010 + 0x40 * i
/-- Address of BOB_CUR (R595). -/
abbrev R.BOB_CUR (i : Nat) : Nat := 0x40005014 + 0x40 * i
/-- Address of BOB_ROW (R595). -/
abbrev R.BOB_ROW (i : Nat) : Nat := 0x40005018 + 0x40 * i
/-- Address of BOB_OFF (R595). -/
abbrev R.BOB_OFF (i : Nat) : Nat := 0x4000501C + 0x40 * i
/-- Address of BOB_TOTAL (R595). -/
abbrev R.BOB_TOTAL (i : Nat) : Nat := 0x40005020 + 0x40 * i
/-- Address of BOB_ACTIVE (R595). -/
abbrev R.BOB_ACTIVE : Nat := 0x40005400
/-- Address of MBX_CTRL (R277). -/
abbrev R.MBX_CTRL : Nat := 0x40006000
/-- Address of MBX_STAT (R277). -/
abbrev R.MBX_STAT : Nat := 0x40006004
/-- Address of MBX_RTAB (R277). -/
abbrev R.MBX_RTAB : Nat := 0x40006008
/-- Address of MBX_VERSION (R277). -/
abbrev R.MBX_VERSION : Nat := 0x4000600C
/-- Address of MBX_RING_EN (R277). -/
abbrev R.MBX_RING_EN (i : Nat) : Nat := 0x40006010 + 0x4 * i
/-- Address of MBX_FRAYED (R277). -/
abbrev R.MBX_FRAYED (i : Nat) : Nat := 0x40006018 + 0x4 * i
/-- Address of MBX_RESET (R277). -/
abbrev R.MBX_RESET (i : Nat) : Nat := 0x40006020 + 0x4 * i
/-- Address of MBX_HINT_PEND (R277). -/
abbrev R.MBX_HINT_PEND (i : Nat) : Nat := 0x40006028 + 0x4 * i
/-- Address of MBX_HINT_EN (R277). -/
abbrev R.MBX_HINT_EN (i : Nat) : Nat := 0x40006030 + 0x4 * i
/-- Address of MBX_ERR (R277). -/
abbrev R.MBX_ERR : Nat := 0x40006038
/-- Address of MBX_HEARTBEAT (R277). -/
abbrev R.MBX_HEARTBEAT : Nat := 0x4000603C
/-- Address of MBX_INFLIGHT (R277). -/
abbrev R.MBX_INFLIGHT : Nat := 0x40006040
/-- Address of MBX_SCRATCH (R277). -/
abbrev R.MBX_SCRATCH : Nat := 0x40006044
/-- Address of MBX_VEC (R277). -/
abbrev R.MBX_VEC (i : Nat) : Nat := 0x40006080 + 0x4 * i
/-- Address of MBX_DB (R277). -/
abbrev R.MBX_DB (i : Nat) : Nat := 0x40006400 + 0x4 * i
/-- Address of MBX_RST (R277). -/
abbrev R.MBX_RST (i : Nat) : Nat := 0x40006600 + 0x4 * i
/-- Address of PRK_CTRL (R94). -/
abbrev R.PRK_CTRL (i : Nat) : Nat := 0x40007000 + 0x1000 * i
/-- Address of PRK_STAT (R94). -/
abbrev R.PRK_STAT (i : Nat) : Nat := 0x40007004 + 0x1000 * i
/-- Address of PRK_STICKY (R94). -/
abbrev R.PRK_STICKY (i : Nat) : Nat := 0x40007008 + 0x1000 * i
/-- Address of PRK_EV_EN (R94). -/
abbrev R.PRK_EV_EN (i : Nat) : Nat := 0x4000700C + 0x1000 * i
/-- Address of PRK_EV_STAT (R94). -/
abbrev R.PRK_EV_STAT (i : Nat) : Nat := 0x40007010 + 0x1000 * i
/-- Address of PRK_SYN_INT (R94). -/
abbrev R.PRK_SYN_INT (i : Nat) : Nat := 0x40007014 + 0x1000 * i
/-- Address of PRK_SYN_FRAC (R94). -/
abbrev R.PRK_SYN_FRAC (i : Nat) : Nat := 0x40007018 + 0x1000 * i
/-- Address of PRK_HTOTAL (R94). -/
abbrev R.PRK_HTOTAL (i : Nat) : Nat := 0x4000701C + 0x1000 * i
/-- Address of PRK_HACTIVE (R94). -/
abbrev R.PRK_HACTIVE (i : Nat) : Nat := 0x40007020 + 0x1000 * i
/-- Address of PRK_HSYNC (R94). -/
abbrev R.PRK_HSYNC (i : Nat) : Nat := 0x40007024 + 0x1000 * i
/-- Address of PRK_VTOTAL (R94). -/
abbrev R.PRK_VTOTAL (i : Nat) : Nat := 0x40007028 + 0x1000 * i
/-- Address of PRK_VACTIVE (R94). -/
abbrev R.PRK_VACTIVE (i : Nat) : Nat := 0x4000702C + 0x1000 * i
/-- Address of PRK_VSYNC (R94). -/
abbrev R.PRK_VSYNC (i : Nat) : Nat := 0x40007030 + 0x1000 * i
/-- Address of PRK_PREFETCH (R94). -/
abbrev R.PRK_PREFETCH (i : Nat) : Nat := 0x40007034 + 0x1000 * i
/-- Address of PRK_POS (R94). -/
abbrev R.PRK_POS (i : Nat) : Nat := 0x40007038 + 0x1000 * i
/-- Address of PRK_FRAME (R94). -/
abbrev R.PRK_FRAME (i : Nat) : Nat := 0x4000703C + 0x1000 * i
/-- Address of PRK_SLACK (R94). -/
abbrev R.PRK_SLACK (i : Nat) : Nat := 0x40007040 + 0x1000 * i
/-- Address of PRK_GLK_POS (R94). -/
abbrev R.PRK_GLK_POS (i : Nat) : Nat := 0x40007044 + 0x1000 * i
/-- Address of PRK_GLK_ERR (R94). -/
abbrev R.PRK_GLK_ERR (i : Nat) : Nat := 0x40007048 + 0x1000 * i
/-- Address of PRK_REFOSC (R94). -/
abbrev R.PRK_REFOSC : Nat := 0x40007050
/-- Address of PRK_FS_CTRL (R94). -/
abbrev R.PRK_FS_CTRL (i : Nat) : Nat := 0x40007080 + 0x8 * i
/-- Address of PRK_FS_POS (R94). -/
abbrev R.PRK_FS_POS (i : Nat) : Nat := 0x40007084 + 0x8 * i
/-- Address of PRK_FS_CAP (R94). -/
abbrev R.PRK_FS_CAP (i : Nat) : Nat := 0x400070C0 + 0x4 * i
/-- Address of GND_STICKY (R382). -/
abbrev R.GND_STICKY : Nat := 0x40009000
/-- Address of GND_STICKY2 (R382). -/
abbrev R.GND_STICKY2 : Nat := 0x40009004
/-- Address of GND_IRQ_EN (R382). -/
abbrev R.GND_IRQ_EN : Nat := 0x40009008
/-- Address of GND_TILE_INVAL (R382). -/
abbrev R.GND_TILE_INVAL : Nat := 0x4000900C
/-- Address of GND_PALA_IDX (R382). -/
abbrev R.GND_PALA_IDX : Nat := 0x40009040
/-- Address of GND_PALA_DATA (R382). -/
abbrev R.GND_PALA_DATA : Nat := 0x40009044
/-- Address of GND_PALB_IDX (R382). -/
abbrev R.GND_PALB_IDX : Nat := 0x40009080
/-- Address of GND_PALB_DATA (R382). -/
abbrev R.GND_PALB_DATA : Nat := 0x40009084
/-- Address of GND_SPALA_IDX (R382). -/
abbrev R.GND_SPALA_IDX : Nat := 0x400090C0
/-- Address of GND_SPALA_DATA (R382). -/
abbrev R.GND_SPALA_DATA : Nat := 0x400090C4
/-- Address of GND_SPALB_IDX (R382). -/
abbrev R.GND_SPALB_IDX : Nat := 0x400090D0
/-- Address of GND_SPALB_DATA (R382). -/
abbrev R.GND_SPALB_DATA : Nat := 0x400090D4
/-- Address of GND_CTRL (R382). -/
abbrev R.GND_CTRL (i : Nat) : Nat := 0x40009400 + 0x40 * i
/-- Address of GND_MAP_BASE (R382). -/
abbrev R.GND_MAP_BASE (i : Nat) : Nat := 0x40009404 + 0x40 * i
/-- Address of GND_MAP_SIZE (R382). -/
abbrev R.GND_MAP_SIZE (i : Nat) : Nat := 0x40009408 + 0x40 * i
/-- Address of GND_TILE_BASE (R382). -/
abbrev R.GND_TILE_BASE (i : Nat) : Nat := 0x4000940C + 0x40 * i
/-- Address of GND_SCROLL (R382). -/
abbrev R.GND_SCROLL (i : Nat) : Nat := 0x40009410 + 0x40 * i
/-- Address of GND_WIN_POS (R382). -/
abbrev R.GND_WIN_POS (i : Nat) : Nat := 0x40009414 + 0x40 * i
/-- Address of GND_WIN_SIZE (R382). -/
abbrev R.GND_WIN_SIZE (i : Nat) : Nat := 0x40009418 + 0x40 * i
/-- Address of GND_AFF_BASE (R382). -/
abbrev R.GND_AFF_BASE (i : Nat) : Nat := 0x4000941C + 0x40 * i
/-- Address of GND_SH_CTRL (R382). -/
abbrev R.GND_SH_CTRL (i : Nat) : Nat := 0x40009800 + 0x40 * i
/-- Address of GND_SH_MAP_BASE (R382). -/
abbrev R.GND_SH_MAP_BASE (i : Nat) : Nat := 0x40009804 + 0x40 * i
/-- Address of GND_SH_MAP_SIZE (R382). -/
abbrev R.GND_SH_MAP_SIZE (i : Nat) : Nat := 0x40009808 + 0x40 * i
/-- Address of GND_SH_TILE_BASE (R382). -/
abbrev R.GND_SH_TILE_BASE (i : Nat) : Nat := 0x4000980C + 0x40 * i
/-- Address of GND_SH_SCROLL (R382). -/
abbrev R.GND_SH_SCROLL (i : Nat) : Nat := 0x40009810 + 0x40 * i
/-- Address of GND_SH_WIN_POS (R382). -/
abbrev R.GND_SH_WIN_POS (i : Nat) : Nat := 0x40009814 + 0x40 * i
/-- Address of GND_SH_WIN_SIZE (R382). -/
abbrev R.GND_SH_WIN_SIZE (i : Nat) : Nat := 0x40009818 + 0x40 * i
/-- Address of GND_SH_AFF_BASE (R382). -/
abbrev R.GND_SH_AFF_BASE (i : Nat) : Nat := 0x4000981C + 0x40 * i
/-- Address of MTF_CFGA (R405). -/
abbrev R.MTF_CFGA : Nat := 0x4000A000
/-- Address of MTF_CFGB (R405). -/
abbrev R.MTF_CFGB : Nat := 0x4000A004
/-- Address of MTF_SH_CFGA (R405). -/
abbrev R.MTF_SH_CFGA : Nat := 0x4000A008
/-- Address of MTF_SH_CFGB (R405). -/
abbrev R.MTF_SH_CFGB : Nat := 0x4000A00C
/-- Address of MTF_STICKY (R405). -/
abbrev R.MTF_STICKY : Nat := 0x4000A010
/-- Address of MTF_IRQ_EN (R405). -/
abbrev R.MTF_IRQ_EN : Nat := 0x4000A014
/-- Address of MTF_OVER_COUNTA (R405). -/
abbrev R.MTF_OVER_COUNTA : Nat := 0x4000A018
/-- Address of MTF_OVER_COUNTB (R405). -/
abbrev R.MTF_OVER_COUNTB : Nat := 0x4000A01C
/-- Address of MTF_PEAK (R405). -/
abbrev R.MTF_PEAK : Nat := 0x4000A020
/-- Address of MTF_INVAL (R405). -/
abbrev R.MTF_INVAL : Nat := 0x4000A024
/-- Address of MTF_INVAL_STAT (R405). -/
abbrev R.MTF_INVAL_STAT : Nat := 0x4000A028
/-- Address of MTF_SLICE_STAT (R405). -/
abbrev R.MTF_SLICE_STAT : Nat := 0x4000A030
/-- Address of MTF_SLICE_SEL (R405). -/
abbrev R.MTF_SLICE_SEL : Nat := 0x4000A034
/-- Address of MTF_LIVEA_IDX (R405). -/
abbrev R.MTF_LIVEA_IDX : Nat := 0x4000A040
/-- Address of MTF_LIVEA_DATA (R405). -/
abbrev R.MTF_LIVEA_DATA : Nat := 0x4000A044
/-- Address of MTF_LIVEB_IDX (R405). -/
abbrev R.MTF_LIVEB_IDX : Nat := 0x4000A080
/-- Address of MTF_LIVEB_DATA (R405). -/
abbrev R.MTF_LIVEB_DATA : Nat := 0x4000A084
/-- Address of EYE_PIPE_MAP (R440). -/
abbrev R.EYE_PIPE_MAP : Nat := 0x4000B000
/-- Address of EYE_PIPE_STAT (R440). -/
abbrev R.EYE_PIPE_STAT : Nat := 0x4000B004
/-- Address of EYE_HATCH0 (R440). -/
abbrev R.EYE_HATCH0 : Nat := 0x4000B008
/-- Address of EYE_HATCH1 (R440). -/
abbrev R.EYE_HATCH1 : Nat := 0x4000B00C
/-- Address of EYE_COEF_IDX (R440). -/
abbrev R.EYE_COEF_IDX : Nat := 0x4000B010
/-- Address of EYE_COEF_DATA (R440). -/
abbrev R.EYE_COEF_DATA : Nat := 0x4000B014
/-- Address of EYE_CTRL (R440). -/
abbrev R.EYE_CTRL (i : Nat) : Nat := 0x4000B100 + 0x80 * i
/-- Address of EYE_LANE (R440). -/
abbrev R.EYE_LANE (i : Nat) : Nat := 0x4000B104 + 0x80 * i
/-- Address of EYE_BUF (R440). -/
abbrev R.EYE_BUF (i : Nat) : Nat := 0x4000B108 + 0x80 * i
/-- Address of EYE_STRIDE (R440). -/
abbrev R.EYE_STRIDE (i : Nat) : Nat := 0x4000B10C + 0x80 * i
/-- Address of EYE_CROP_POS (R440). -/
abbrev R.EYE_CROP_POS (i : Nat) : Nat := 0x4000B110 + 0x80 * i
/-- Address of EYE_CROP_SIZE (R440). -/
abbrev R.EYE_CROP_SIZE (i : Nat) : Nat := 0x4000B114 + 0x80 * i
/-- Address of EYE_OUT_SIZE (R440). -/
abbrev R.EYE_OUT_SIZE (i : Nat) : Nat := 0x4000B118 + 0x80 * i
/-- Address of EYE_POLICY (R440). -/
abbrev R.EYE_POLICY (i : Nat) : Nat := 0x4000B11C + 0x80 * i
/-- Address of EYE_LOST (R440). -/
abbrev R.EYE_LOST (i : Nat) : Nat := 0x4000B120 + 0x80 * i
/-- Address of EYE_STAT (R440). -/
abbrev R.EYE_STAT (i : Nat) : Nat := 0x4000B124 + 0x80 * i
/-- Address of EYE_STICKY (R440). -/
abbrev R.EYE_STICKY (i : Nat) : Nat := 0x4000B128 + 0x80 * i
/-- Address of EYE_IRQ_EN (R440). -/
abbrev R.EYE_IRQ_EN (i : Nat) : Nat := 0x4000B12C + 0x80 * i
/-- Address of EYE_FRAMES (R440). -/
abbrev R.EYE_FRAMES (i : Nat) : Nat := 0x4000B130 + 0x80 * i
/-- Address of EYE_FNUM (R440). -/
abbrev R.EYE_FNUM (i : Nat) : Nat := 0x4000B134 + 0x80 * i
/-- Address of EYE_PCRC (R440). -/
abbrev R.EYE_PCRC (i : Nat) : Nat := 0x4000B138 + 0x80 * i
/-- Address of EYE_STAMP (R440). -/
abbrev R.EYE_STAMP (i : Nat) : Nat := 0x4000B13C + 0x80 * i
/-- Address of EYE_PKTERR (R440). -/
abbrev R.EYE_PKTERR (i : Nat) : Nat := 0x4000B140 + 0x80 * i
/-- Address of EYE_EVCNT (R440). -/
abbrev R.EYE_EVCNT (i : Nat) : Nat := 0x4000B144 + 0x80 * i
/-- Address of EYE_SKIP (R440). -/
abbrev R.EYE_SKIP (i : Nat) : Nat := 0x4000B148 + 0x80 * i
/-- Address of EYE_RACECNT (R440). -/
abbrev R.EYE_RACECNT (i : Nat) : Nat := 0x4000B14C + 0x80 * i
/-- Address of EYE_RECV (R440). -/
abbrev R.EYE_RECV (i : Nat) : Nat := 0x4000B150 + 0x80 * i
/-- Address of EYE_WIN_CTRL (R440). -/
abbrev R.EYE_WIN_CTRL (i : Nat) : Nat := 0x4000B600 + 0x10 * i
/-- Address of EYE_WIN_POS (R440). -/
abbrev R.EYE_WIN_POS (i : Nat) : Nat := 0x4000B604 + 0x10 * i
/-- Address of EYE_WIN_SH_CTRL (R440). -/
abbrev R.EYE_WIN_SH_CTRL (i : Nat) : Nat := 0x4000B700 + 0x10 * i
/-- Address of EYE_WIN_SH_POS (R440). -/
abbrev R.EYE_WIN_SH_POS (i : Nat) : Nat := 0x4000B704 + 0x10 * i
/-- Address of APQ_COMMIT (R468). -/
abbrev R.APQ_COMMIT (i : Nat) : Nat := 0x4000C000 + 0x1000 * i
/-- Address of APQ_COMMIT_FRAME (R468). -/
abbrev R.APQ_COMMIT_FRAME (i : Nat) : Nat := 0x4000C004 + 0x1000 * i
/-- Address of APQ_COMMIT_LINE (R468). -/
abbrev R.APQ_COMMIT_LINE (i : Nat) : Nat := 0x4000C008 + 0x1000 * i
/-- Address of APQ_STICKY (R468). -/
abbrev R.APQ_STICKY (i : Nat) : Nat := 0x4000C010 + 0x1000 * i
/-- Address of APQ_IRQ_EN (R468). -/
abbrev R.APQ_IRQ_EN (i : Nat) : Nat := 0x4000C014 + 0x1000 * i
/-- Address of APQ_FRAY_COUNT (R468). -/
abbrev R.APQ_FRAY_COUNT (i : Nat) : Nat := 0x4000C018 + 0x1000 * i
/-- Address of APQ_FRAY_LINE (R468). -/
abbrev R.APQ_FRAY_LINE (i : Nat) : Nat := 0x4000C01C + 0x1000 * i
/-- Address of APQ_MODE (R468). -/
abbrev R.APQ_MODE (i : Nat) : Nat := 0x4000C040 + 0x1000 * i
/-- Address of APQ_BACKDROP (R468). -/
abbrev R.APQ_BACKDROP (i : Nat) : Nat := 0x4000C044 + 0x1000 * i
/-- Address of APQ_ORDER (R468). -/
abbrev R.APQ_ORDER (i : Nat) (j : Nat) : Nat := 0x4000C048 + 0x1000 * i + 0x4 * j
/-- Address of APQ_SH_MODE (R468). -/
abbrev R.APQ_SH_MODE (i : Nat) : Nat := 0x4000C080 + 0x1000 * i
/-- Address of APQ_SH_BACKDROP (R468). -/
abbrev R.APQ_SH_BACKDROP (i : Nat) : Nat := 0x4000C084 + 0x1000 * i
/-- Address of APQ_SH_ORDER (R468). -/
abbrev R.APQ_SH_ORDER (i : Nat) (j : Nat) : Nat := 0x4000C088 + 0x1000 * i + 0x4 * j
/-- Address of APQ_SIG_POS (R468). -/
abbrev R.APQ_SIG_POS (i : Nat) (j : Nat) : Nat := 0x4000C100 + 0x1000 * i + 0x8 * j
/-- Address of APQ_SIG_SIZE (R468). -/
abbrev R.APQ_SIG_SIZE (i : Nat) (j : Nat) : Nat := 0x4000C104 + 0x1000 * i + 0x8 * j
/-- Address of APQ_SIG_SH_POS (R468). -/
abbrev R.APQ_SIG_SH_POS (i : Nat) (j : Nat) : Nat := 0x4000C180 + 0x1000 * i + 0x8 * j
/-- Address of APQ_SIG_SH_SIZE (R468). -/
abbrev R.APQ_SIG_SH_SIZE (i : Nat) (j : Nat) : Nat := 0x4000C184 + 0x1000 * i + 0x8 * j
/-- Address of APQ_SIG_FRAME (R468). -/
abbrev R.APQ_SIG_FRAME (i : Nat) : Nat := 0x4000C200 + 0x1000 * i
/-- Address of APQ_SIG_MASK (R468). -/
abbrev R.APQ_SIG_MASK (i : Nat) : Nat := 0x4000C204 + 0x1000 * i
/-- Address of APQ_SIG_RAW (R468). -/
abbrev R.APQ_SIG_RAW (i : Nat) (j : Nat) : Nat := 0x4000C240 + 0x1000 * i + 0x8 * j
/-- Address of APQ_SIG_FOLD (R468). -/
abbrev R.APQ_SIG_FOLD (i : Nat) (j : Nat) : Nat := 0x4000C244 + 0x1000 * i + 0x8 * j
/-- Address of BMO_CTRL (R492). -/
abbrev R.BMO_CTRL (i : Nat) : Nat := 0x4000E000 + 0x100 * i
/-- Address of BMO_RATE (R492). -/
abbrev R.BMO_RATE (i : Nat) : Nat := 0x4000E004 + 0x100 * i
/-- Address of BMO_LANE (R492). -/
abbrev R.BMO_LANE (i : Nat) : Nat := 0x4000E008 + 0x100 * i
/-- Address of BMO_STAT (R492). -/
abbrev R.BMO_STAT (i : Nat) : Nat := 0x4000E00C + 0x100 * i
/-- Address of BMO_STICKY (R492). -/
abbrev R.BMO_STICKY (i : Nat) : Nat := 0x4000E010 + 0x100 * i
/-- Address of BMO_IRQ_EN (R492). -/
abbrev R.BMO_IRQ_EN (i : Nat) : Nat := 0x4000E014 + 0x100 * i
/-- Address of BMO_HOLD (R492). -/
abbrev R.BMO_HOLD (i : Nat) : Nat := 0x4000E018 + 0x100 * i
/-- Address of BMO_HOLD_FRAME (R492). -/
abbrev R.BMO_HOLD_FRAME (i : Nat) : Nat := 0x4000E01C + 0x100 * i
/-- Address of BMO_ENTER_BASE (R492). -/
abbrev R.BMO_ENTER_BASE (i : Nat) : Nat := 0x4000E020 + 0x100 * i
/-- Address of BMO_ENTER_LEN (R492). -/
abbrev R.BMO_ENTER_LEN (i : Nat) : Nat := 0x4000E024 + 0x100 * i
/-- Address of BMO_EXIT_BASE (R492). -/
abbrev R.BMO_EXIT_BASE (i : Nat) : Nat := 0x4000E028 + 0x100 * i
/-- Address of BMO_EXIT_LEN (R492). -/
abbrev R.BMO_EXIT_LEN (i : Nat) : Nat := 0x4000E02C + 0x100 * i
/-- Address of BMO_TE_CAP (R492). -/
abbrev R.BMO_TE_CAP (i : Nat) : Nat := 0x4000E030 + 0x100 * i
/-- Address of BMO_CMD_FIFO (R492). -/
abbrev R.BMO_CMD_FIFO (i : Nat) : Nat := 0x4000E040 + 0x100 * i
/-- Address of BMO_CMD_CTRL (R492). -/
abbrev R.BMO_CMD_CTRL (i : Nat) : Nat := 0x4000E044 + 0x100 * i
/-- Address of SND_CTRL (R532). -/
abbrev R.SND_CTRL : Nat := 0x4000F000
/-- Address of SND_STICKY (R532). -/
abbrev R.SND_STICKY : Nat := 0x4000F004
/-- Address of SND_IRQ_EN (R532). -/
abbrev R.SND_IRQ_EN : Nat := 0x4000F008
/-- Address of SND_SHED (R532). -/
abbrev R.SND_SHED : Nat := 0x4000F00C
/-- Address of SND_VSEL (R532). -/
abbrev R.SND_VSEL : Nat := 0x4000F010
/-- Address of SND_PLAY (R532). -/
abbrev R.SND_PLAY (i : Nat) : Nat := 0x4000F020 + 0x4 * i
/-- Address of SND_END (R532). -/
abbrev R.SND_END (i : Nat) : Nat := 0x4000F030 + 0x4 * i
/-- Address of SND_SPARE_MAP (R532). -/
abbrev R.SND_SPARE_MAP (i : Nat) : Nat := 0x4000F080 + 0x4 * i
/-- Address of SND_BUS_CTRL (R532). -/
abbrev R.SND_BUS_CTRL (i : Nat) : Nat := 0x4000F200 + 0x20 * i
/-- Address of SND_BUS_GAIN (R532). -/
abbrev R.SND_BUS_GAIN (i : Nat) : Nat := 0x4000F204 + 0x20 * i
/-- Address of SND_BUS_EFX_BASE (R532). -/
abbrev R.SND_BUS_EFX_BASE (i : Nat) : Nat := 0x4000F208 + 0x20 * i
/-- Address of SND_BUS_STAT (R532). -/
abbrev R.SND_BUS_STAT (i : Nat) : Nat := 0x4000F20C + 0x20 * i
/-- Address of SND_BUS_PEAK (R532). -/
abbrev R.SND_BUS_PEAK (i : Nat) : Nat := 0x4000F210 + 0x20 * i
/-- Address of SND_BUS_LIMG (R532). -/
abbrev R.SND_BUS_LIMG (i : Nat) : Nat := 0x4000F214 + 0x20 * i
/-- Address of V_CTRL (R532). -/
abbrev R.V_CTRL (i : Nat) : Nat := 0x50020000 + 0x40 * i
/-- Address of V_BASE (R532). -/
abbrev R.V_BASE (i : Nat) : Nat := 0x50020004 + 0x40 * i
/-- Address of V_LENGTH (R532). -/
abbrev R.V_LENGTH (i : Nat) : Nat := 0x50020008 + 0x40 * i
/-- Address of V_LOOP_START (R532). -/
abbrev R.V_LOOP_START (i : Nat) : Nat := 0x5002000C + 0x40 * i
/-- Address of V_LOOP_LEN (R532). -/
abbrev R.V_LOOP_LEN (i : Nat) : Nat := 0x50020010 + 0x40 * i
/-- Address of V_PITCH (R532). -/
abbrev R.V_PITCH (i : Nat) : Nat := 0x50020014 + 0x40 * i
/-- Address of V_GAIN (R532). -/
abbrev R.V_GAIN (i : Nat) : Nat := 0x50020018 + 0x40 * i
/-- Address of V_ENV (R532). -/
abbrev R.V_ENV (i : Nat) : Nat := 0x5002001C + 0x40 * i
/-- Address of V_START (R532). -/
abbrev R.V_START (i : Nat) : Nat := 0x50020020 + 0x40 * i
/-- Address of V_STAT (R532). -/
abbrev R.V_STAT (i : Nat) : Nat := 0x50020024 + 0x40 * i
/-- Address of V_POS (R532). -/
abbrev R.V_POS (i : Nat) : Nat := 0x50020028 + 0x40 * i
/-- Address of V_LEVEL (R532). -/
abbrev R.V_LEVEL (i : Nat) : Nat := 0x5002002C + 0x40 * i
/-- Address of AUD_CLK (R533). -/
abbrev R.AUD_CLK : Nat := 0x40010000
/-- Address of AUD_STICKY (R533). -/
abbrev R.AUD_STICKY : Nat := 0x40010004
/-- Address of AUD_IRQ_EN (R533). -/
abbrev R.AUD_IRQ_EN : Nat := 0x40010008
/-- Address of AUD_FS_TIME (R533). -/
abbrev R.AUD_FS_TIME : Nat := 0x4001000C
/-- Address of AUD_FRAME (R533). -/
abbrev R.AUD_FRAME : Nat := 0x40010010
/-- Address of AUD_LATE_COUNT (R533). -/
abbrev R.AUD_LATE_COUNT : Nat := 0x40010014
/-- Address of AUD_PCTRL (R533). -/
abbrev R.AUD_PCTRL (i : Nat) : Nat := 0x40010040 + 0x20 * i
/-- Address of AUD_PSTAT (R533). -/
abbrev R.AUD_PSTAT (i : Nat) : Nat := 0x40010044 + 0x20 * i
/-- Address of AUD_CAP_CTRL (R533). -/
abbrev R.AUD_CAP_CTRL : Nat := 0x40010100
/-- Address of AUD_CAP_BASE (R533). -/
abbrev R.AUD_CAP_BASE : Nat := 0x40010104
/-- Address of AUD_CAP_LEN (R533). -/
abbrev R.AUD_CAP_LEN : Nat := 0x40010108
/-- Address of AUD_CAP_WPTR (R533). -/
abbrev R.AUD_CAP_WPTR : Nat := 0x4001010C
/-- Address of AUD_CAP_RPTR (R533). -/
abbrev R.AUD_CAP_RPTR : Nat := 0x40010110
/-- Address of AUD_CAP_DROP (R533). -/
abbrev R.AUD_CAP_DROP : Nat := 0x40010114
/-- Address of AUD_MIC_ROUTE (R533). -/
abbrev R.AUD_MIC_ROUTE (i : Nat) : Nat := 0x40010120 + 0x4 * i
/-- Address of LTN_CTRL (R647). -/
abbrev R.LTN_CTRL : Nat := 0x40011000
/-- Address of LTN_VSET (R647). -/
abbrev R.LTN_VSET : Nat := 0x40011004
/-- Address of LTN_VLIM (R647). -/
abbrev R.LTN_VLIM : Nat := 0x40011008
/-- Address of LTN_MARGIN (R647). -/
abbrev R.LTN_MARGIN : Nat := 0x4001100C
/-- Address of LTN_STAT (R647). -/
abbrev R.LTN_STAT : Nat := 0x40011010
/-- Address of LTN_SHED (R647). -/
abbrev R.LTN_SHED : Nat := 0x40011014
/-- Address of LTN_STICKY (R647). -/
abbrev R.LTN_STICKY : Nat := 0x40011018
/-- Address of LTN_IRQ_EN (R647). -/
abbrev R.LTN_IRQ_EN : Nat := 0x4001101C
/-- Address of LTN_PHASE_STAT (R647). -/
abbrev R.LTN_PHASE_STAT : Nat := 0x40011020
/-- Address of LTN_ISOLATE (R647). -/
abbrev R.LTN_ISOLATE : Nat := 0x40011024
/-- Address of LTN_ICORE (R647). -/
abbrev R.LTN_ICORE : Nat := 0x40011030
/-- Address of LTN_IPH_SEL (R647). -/
abbrev R.LTN_IPH_SEL : Nat := 0x40011034
/-- Address of LTN_IPH (R647). -/
abbrev R.LTN_IPH : Nat := 0x40011038
/-- Address of LTN_STEPS (R647). -/
abbrev R.LTN_STEPS : Nat := 0x4001103C
/-- Address of EMB_CTRL (R673). -/
abbrev R.EMB_CTRL : Nat := 0x40012000
/-- Address of EMB_ICHG (R673). -/
abbrev R.EMB_ICHG : Nat := 0x40012004
/-- Address of EMB_VINREG (R673). -/
abbrev R.EMB_VINREG : Nat := 0x40012008
/-- Address of EMB_STAT (R673). -/
abbrev R.EMB_STAT : Nat := 0x4001200C
/-- Address of EMB_STICKY (R673). -/
abbrev R.EMB_STICKY : Nat := 0x40012010
/-- Address of EMB_IRQ_EN (R673). -/
abbrev R.EMB_IRQ_EN : Nat := 0x40012014
/-- Address of AON_PWR (R673). -/
abbrev R.AON_PWR : Nat := 0x40012100
/-- Address of AON_WAKE_EN (R673). -/
abbrev R.AON_WAKE_EN : Nat := 0x40012104
/-- Address of AON_WAKE_CFG (R673). -/
abbrev R.AON_WAKE_CFG : Nat := 0x40012108
/-- Address of AON_WAKE_CAUSE (R673). -/
abbrev R.AON_WAKE_CAUSE : Nat := 0x4001210C
/-- Address of AON_STICKY (R673). -/
abbrev R.AON_STICKY : Nat := 0x40012110
/-- Address of AON_IRQ_EN (R673). -/
abbrev R.AON_IRQ_EN : Nat := 0x40012114
/-- Address of AON_RTC_SUB (R673). -/
abbrev R.AON_RTC_SUB : Nat := 0x40012120
/-- Address of AON_RTC_SEC (R673). -/
abbrev R.AON_RTC_SEC : Nat := 0x40012124
/-- Address of AON_ALARM (R673). -/
abbrev R.AON_ALARM : Nat := 0x40012128
/-- Address of AON_RTC_CAL (R673). -/
abbrev R.AON_RTC_CAL : Nat := 0x4001212C
/-- Address of AON_STAT (R673). -/
abbrev R.AON_STAT : Nat := 0x40012130
/-- Address of AON_RJ (R673). -/
abbrev R.AON_RJ (i : Nat) : Nat := 0x40012140 + 0x4 * i
/-- Address of ADC_CTRL (R622). -/
abbrev R.ADC_CTRL : Nat := 0x40013000
/-- Address of ADC_SEQ (R622). -/
abbrev R.ADC_SEQ : Nat := 0x40013004
/-- Address of ADC_TRIG (R622). -/
abbrev R.ADC_TRIG : Nat := 0x40013008
/-- Address of ADC_STAT (R622). -/
abbrev R.ADC_STAT : Nat := 0x4001300C
/-- Address of ADC_IRQ_EN (R622). -/
abbrev R.ADC_IRQ_EN : Nat := 0x40013010
/-- Address of ADC_DROP (R622). -/
abbrev R.ADC_DROP : Nat := 0x40013014
/-- Address of ADC_RESULT (R622). -/
abbrev R.ADC_RESULT (i : Nat) : Nat := 0x40013040 + 0x4 * i
/-- Address of VLM_CTRL (R130). -/
abbrev R.VLM_CTRL : Nat := 0x40014000
/-- Address of VLM_STAT (R130). -/
abbrev R.VLM_STAT : Nat := 0x40014004
/-- Address of VLM_STICKY (R130). -/
abbrev R.VLM_STICKY : Nat := 0x40014008
/-- Address of VLM_CE_COUNT (R130). -/
abbrev R.VLM_CE_COUNT : Nat := 0x4001400C
/-- Address of VLM_UE_COUNT (R130). -/
abbrev R.VLM_UE_COUNT : Nat := 0x40014010
/-- Address of VLM_ERR_ADDR (R130). -/
abbrev R.VLM_ERR_ADDR : Nat := 0x40014014
/-- Address of VLM_ERR_INFO (R130). -/
abbrev R.VLM_ERR_INFO : Nat := 0x40014018
/-- Address of VLM_SCRUB_CTRL (R130). -/
abbrev R.VLM_SCRUB_CTRL : Nat := 0x40014020
/-- Address of VLM_SCRUB_PASS (R130). -/
abbrev R.VLM_SCRUB_PASS : Nat := 0x40014024
/-- Address of VLM_SCRUB_LATE (R130). -/
abbrev R.VLM_SCRUB_LATE (i : Nat) : Nat := 0x40014028 + 0x4 * i
/-- Address of VLM_TOK0 (R130). -/
abbrev R.VLM_TOK0 : Nat := 0x40014040
/-- Address of VLM_TOK1 (R130). -/
abbrev R.VLM_TOK1 : Nat := 0x40014044
/-- Address of VLM_TOK_PEAK (R130). -/
abbrev R.VLM_TOK_PEAK : Nat := 0x40014048
/-- Address of VLM_BANK_SEL (R130). -/
abbrev R.VLM_BANK_SEL : Nat := 0x40014050
/-- Address of VLM_BANK_STAT (R130). -/
abbrev R.VLM_BANK_STAT : Nat := 0x40014054
/-- Address of DRN_CTRL (R130). -/
abbrev R.DRN_CTRL : Nat := 0x40014080
/-- Address of DRN_STICKY (R130). -/
abbrev R.DRN_STICKY : Nat := 0x40014084
/-- Address of DRN_IRQ_EN (R130). -/
abbrev R.DRN_IRQ_EN : Nat := 0x40014088
/-- Address of DRN_SUSPECT (R130). -/
abbrev R.DRN_SUSPECT (i : Nat) : Nat := 0x40014090 + 0x4 * i
/-- Address of DRN_COPY (R130). -/
abbrev R.DRN_COPY : Nat := 0x400140A0
/-- Address of DRN_COPY_STAT (R130). -/
abbrev R.DRN_COPY_STAT : Nat := 0x400140A4
/-- Address of DRN_SLICE (R130). -/
abbrev R.DRN_SLICE : Nat := 0x400140B0
/-- Address of DRN_SLICE_CHK (R130). -/
abbrev R.DRN_SLICE_CHK : Nat := 0x400140B4
/-- Address of DRN_VFAIL (R130). -/
abbrev R.DRN_VFAIL (i : Nat) : Nat := 0x400140C0 + 0x4 * i
/-- Address of DRN_JRN_BASE (R130). -/
abbrev R.DRN_JRN_BASE : Nat := 0x400140E0
/-- Address of DRN_JRN_SEQ (R130). -/
abbrev R.DRN_JRN_SEQ : Nat := 0x400140E4
/-- Address of DRN_JRN_DROP (R130). -/
abbrev R.DRN_JRN_DROP : Nat := 0x400140E8
/-- Address of DRN_JRN_D (R130). -/
abbrev R.DRN_JRN_D (i : Nat) : Nat := 0x400140F0 + 0x4 * i
/-- Address of DRN_JRN_POST (R130). -/
abbrev R.DRN_JRN_POST : Nat := 0x400140FC
/-- Address of UART_CTRL (R621). -/
abbrev R.UART_CTRL (i : Nat) : Nat := 0x40015000 + 0x40 * i
/-- Address of UART_BAUD (R621). -/
abbrev R.UART_BAUD (i : Nat) : Nat := 0x40015004 + 0x40 * i
/-- Address of UART_FIFO (R621). -/
abbrev R.UART_FIFO (i : Nat) : Nat := 0x40015008 + 0x40 * i
/-- Address of UART_DATA (R621). -/
abbrev R.UART_DATA (i : Nat) : Nat := 0x4001500C + 0x40 * i
/-- Address of UART_STAT (R621). -/
abbrev R.UART_STAT (i : Nat) : Nat := 0x40015010 + 0x40 * i
/-- Address of UART_IRQ_EN (R621). -/
abbrev R.UART_IRQ_EN (i : Nat) : Nat := 0x40015014 + 0x40 * i
/-- Address of QSPI_CTRL (R621). -/
abbrev R.QSPI_CTRL : Nat := 0x40015100
/-- Address of QSPI_CMD (R621). -/
abbrev R.QSPI_CMD : Nat := 0x40015104
/-- Address of QSPI_ADDR (R621). -/
abbrev R.QSPI_ADDR : Nat := 0x40015108
/-- Address of QSPI_STAT (R621). -/
abbrev R.QSPI_STAT : Nat := 0x4001510C
/-- Address of QSPI_IRQ_EN (R621). -/
abbrev R.QSPI_IRQ_EN : Nat := 0x40015110
/-- Address of I2C_CTRL (R621). -/
abbrev R.I2C_CTRL (i : Nat) : Nat := 0x40015200 + 0x80 * i
/-- Address of I2C_XFER (R621). -/
abbrev R.I2C_XFER (i : Nat) : Nat := 0x40015204 + 0x80 * i
/-- Address of I2C_STAT (R621). -/
abbrev R.I2C_STAT (i : Nat) : Nat := 0x40015208 + 0x80 * i
/-- Address of I2C_IRQ_EN (R621). -/
abbrev R.I2C_IRQ_EN (i : Nat) : Nat := 0x4001520C + 0x80 * i
/-- Address of I2C_WBUF (R621). -/
abbrev R.I2C_WBUF (i : Nat) (j : Nat) : Nat := 0x40015220 + 0x80 * i + 0x4 * j
/-- Address of I2C_RBUF (R621). -/
abbrev R.I2C_RBUF (i : Nat) (j : Nat) : Nat := 0x40015240 + 0x80 * i + 0x4 * j
/-- Address of QSPI_BUF (R621). -/
abbrev R.QSPI_BUF (i : Nat) : Nat := 0x40015400 + 0x4 * i
/-- Address of GPIO_IN (R623). -/
abbrev R.GPIO_IN (i : Nat) : Nat := 0x40016000 + 0x4 * i
/-- Address of GPIO_OUT (R623). -/
abbrev R.GPIO_OUT (i : Nat) : Nat := 0x40016008 + 0x4 * i
/-- Address of GPIO_SET (R623). -/
abbrev R.GPIO_SET (i : Nat) : Nat := 0x40016010 + 0x4 * i
/-- Address of GPIO_CLR (R623). -/
abbrev R.GPIO_CLR (i : Nat) : Nat := 0x40016018 + 0x4 * i
/-- Address of GPIO_ISTAT (R623). -/
abbrev R.GPIO_ISTAT (i : Nat) : Nat := 0x40016020 + 0x4 * i
/-- Address of GPIO_PAD (R623). -/
abbrev R.GPIO_PAD (i : Nat) : Nat := 0x40016100 + 0x4 * i
/-- Address of DBG_STAT (R726). -/
abbrev R.DBG_STAT : Nat := 0x40017000
/-- Address of DBG_CTRL (R726). -/
abbrev R.DBG_CTRL : Nat := 0x40017004
/-- Address of DBG_HALTED (R726). -/
abbrev R.DBG_HALTED : Nat := 0x40017008
/-- Address of DBG_STICKY (R726). -/
abbrev R.DBG_STICKY : Nat := 0x4001700C
/-- Address of DBG_IRQ_EN (R726). -/
abbrev R.DBG_IRQ_EN : Nat := 0x40017010
/-- Address of DBG_IDCODE (R726). -/
abbrev R.DBG_IDCODE : Nat := 0x40017014
/-- Address of YLX_CORE_ID (R164). -/
abbrev R.YLX_CORE_ID (i : Nat) : Nat := 0x00120000 + 0x1000 * i
/-- Address of YLX_CTRL (R164). -/
abbrev R.YLX_CTRL (i : Nat) : Nat := 0x00120004 + 0x1000 * i
/-- Address of YLX_STAT (R164). -/
abbrev R.YLX_STAT (i : Nat) : Nat := 0x00120008 + 0x1000 * i
/-- Address of YLX_PCTRL (R164). -/
abbrev R.YLX_PCTRL (i : Nat) : Nat := 0x0012000C + 0x1000 * i
/-- Address of YLX_ENTRY (R164). -/
abbrev R.YLX_ENTRY (i : Nat) : Nat := 0x00120010 + 0x1000 * i
/-- Address of YLX_RST_CAUSE (R164). -/
abbrev R.YLX_RST_CAUSE (i : Nat) : Nat := 0x00120014 + 0x1000 * i
/-- Address of YLX_VBASE (R164). -/
abbrev R.YLX_VBASE (i : Nat) : Nat := 0x00120020 + 0x1000 * i
/-- Address of YLX_EPC (R164). -/
abbrev R.YLX_EPC (i : Nat) : Nat := 0x00120024 + 0x1000 * i
/-- Address of YLX_ESTAT (R164). -/
abbrev R.YLX_ESTAT (i : Nat) : Nat := 0x00120028 + 0x1000 * i
/-- Address of YLX_CAUSE (R164). -/
abbrev R.YLX_CAUSE (i : Nat) : Nat := 0x0012002C + 0x1000 * i
/-- Address of YLX_FADDR (R164). -/
abbrev R.YLX_FADDR (i : Nat) : Nat := 0x00120030 + 0x1000 * i
/-- Address of YLX_WDG_CTRL (R164). -/
abbrev R.YLX_WDG_CTRL (i : Nat) : Nat := 0x00120040 + 0x1000 * i
/-- Address of YLX_WDG_LOAD (R164). -/
abbrev R.YLX_WDG_LOAD (i : Nat) : Nat := 0x00120044 + 0x1000 * i
/-- Address of YLX_WDG_KICK (R164). -/
abbrev R.YLX_WDG_KICK (i : Nat) : Nat := 0x00120048 + 0x1000 * i
/-- Address of YLX_WDG_COUNT (R164). -/
abbrev R.YLX_WDG_COUNT (i : Nat) : Nat := 0x0012004C + 0x1000 * i
/-- Address of YLX_LM_ERR (R164). -/
abbrev R.YLX_LM_ERR (i : Nat) : Nat := 0x00120050 + 0x1000 * i
/-- Address of YLX_LM_ERR_ADDR (R164). -/
abbrev R.YLX_LM_ERR_ADDR (i : Nat) : Nat := 0x00120054 + 0x1000 * i
/-- Address of YLX_MPU_BASE (R164). -/
abbrev R.YLX_MPU_BASE (i : Nat) (j : Nat) : Nat := 0x00120100 + 0x1000 * i + 0x8 * j
/-- Address of YLX_MPU_ATTR (R164). -/
abbrev R.YLX_MPU_ATTR (i : Nat) (j : Nat) : Nat := 0x00120104 + 0x1000 * i + 0x8 * j
/-- Address of YLX_MPU_CTRL (R164). -/
abbrev R.YLX_MPU_CTRL (i : Nat) : Nat := 0x00120140 + 0x1000 * i
/-- Address of IRQ_VIEW (R222). -/
abbrev R.IRQ_VIEW : Nat := 0x40002800
/-- Address of IRQ_SWSET (R222). -/
abbrev R.IRQ_SWSET : Nat := 0x40002804
/-- Address of IRQ_MSI_SET (R222). -/
abbrev R.IRQ_MSI_SET : Nat := 0x40002808
/-- Address of IRQ_MSI_PEND (R222). -/
abbrev R.IRQ_MSI_PEND : Nat := 0x4000280C
/-- Address of IRQ_RAW (R222). -/
abbrev R.IRQ_RAW (i : Nat) : Nat := 0x40002810 + 0x4 * i
/-- Address of IRQ_CUR (R222). -/
abbrev R.IRQ_CUR (i : Nat) : Nat := 0x50000000 + 0x1000 * i
/-- Address of IRQ_EOI (R222). -/
abbrev R.IRQ_EOI (i : Nat) : Nat := 0x50000004 + 0x1000 * i
/-- Address of IRQ_PMASK (R222). -/
abbrev R.IRQ_PMASK (i : Nat) : Nat := 0x50000008 + 0x1000 * i
/-- Address of IRQ_SLEEP (R222). -/
abbrev R.IRQ_SLEEP (i : Nat) : Nat := 0x5000000C + 0x1000 * i
/-- Address of IRQ_STAT (R222). -/
abbrev R.IRQ_STAT (i : Nat) : Nat := 0x50000010 + 0x1000 * i
/-- Address of IRQ_EN (R222). -/
abbrev R.IRQ_EN (i : Nat) (j : Nat) : Nat := 0x50000040 + 0x1000 * i + 0x4 * j
/-- Address of IRQ_PEND (R222). -/
abbrev R.IRQ_PEND (i : Nat) (j : Nat) : Nat := 0x50000060 + 0x1000 * i + 0x4 * j
/-- Address of IRQ_ACT (R222). -/
abbrev R.IRQ_ACT (i : Nat) (j : Nat) : Nat := 0x50000080 + 0x1000 * i + 0x4 * j
/-- Address of IRQ_PRIO (R222). -/
abbrev R.IRQ_PRIO (i : Nat) (j : Nat) : Nat := 0x500000A0 + 0x1000 * i + 0x4 * j
/-- Address of IRQ_STACK (R222). -/
abbrev R.IRQ_STACK (i : Nat) (j : Nat) : Nat := 0x50000100 + 0x1000 * i + 0x4 * j

/-- Register rows of the SYS page (R30; 01_panel_device.md). -/
def regsOfSYS : List RegSpec := [
  ⟨0x40000000, 1, 0x0, 1, 0x0, 0x0, 0x0, 0x0, 0x0, 0xFFFFFFFF, 0x484304B0⟩,
  ⟨0x40000004, 1, 0x0, 1, 0x0, 0x0, 0x0, 0x0, 0x0, 0xFF3FFFFF, 0x88286060⟩,
  ⟨0x40000008, 1, 0x0, 1, 0x0, 0x0, 0x0, 0x0, 0x0, 0xF0F03FF, 0xC090100⟩,
  ⟨0x4000000C, 1, 0x0, 1, 0x0, 0x0, 0x0, 0x0, 0x0, 0xFFFFFFF, 0x2108106⟩,
  ⟨0x40000010, 1, 0x0, 1, 0x0, 0x0, 0x0, 0x0, 0x0, 0xFFFFFFFF, 0x96258258⟩,
  ⟨0x40000014, 1, 0x0, 1, 0x0, 0x0, 0x0, 0x0, 0x0, 0x1, 0x0⟩,
  ⟨0x40000020, 1, 0x0, 1, 0x0, 0x0, 0x0, 0x0, 0x0, 0xFFFFFFFF, 0x0⟩,
  ⟨0x40000024, 1, 0x0, 1, 0x0, 0x10, 0xF, 0x0, 0x0, 0x1F, 0x0⟩,
  ⟨0x40000040, 1, 0x0, 1, 0x0, 0x0, 0x0, 0x1, 0x0, 0x1, 0x0⟩,
  ⟨0x40000044, 1, 0x0, 1, 0x0, 0x1FFFF, 0x0, 0x0, 0x0, 0x1FFFF, 0x0⟩,
  ⟨0x40000048, 1, 0x0, 1, 0x0, 0xFFFFFFFF, 0x0, 0x0, 0x0, 0xFFFFFFFF, 0x0⟩,
  ⟨0x4000004C, 1, 0x0, 1, 0x0, 0xFFFFFFFF, 0x0, 0x0, 0x0, 0xFFFFFFFF, 0x0⟩,
  ⟨0x40000050, 1, 0x0, 1, 0x0, 0xFFFFFFFF, 0x0, 0x0, 0x0, 0xFFFFFFFF, 0x0⟩,
  ⟨0x40000060, 1, 0x0, 1, 0x0, 0x0, 0x0, 0x0, 0x0, 0x0, 0x0⟩,
  ⟨0x40000064, 1, 0x0, 1, 0x0, 0x0, 0x7FF, 0x0, 0x0, 0x7FF, 0x1⟩,
  ⟨0x40000068, 1, 0x0, 1, 0x0, 0x0, 0x700, 0x0, 0x0, 0x777, 0x7⟩,
  ⟨0x40000070, 1, 0x0, 1, 0x0, 0x10000, 0x7, 0x0, 0x0, 0x10F07, 0x10000⟩,
  ⟨0x40000074, 1, 0x0, 1, 0x0, 0x0, 0x0, 0x0, 0x0, 0xFFFFFFFF, 0x0⟩]

/-- Register rows of the LCY page (R725; 25_lifecycle_debug.md). -/
def regsOfLCY : List RegSpec := [
  ⟨0x40001000, 1, 0x0, 1, 0x0, 0x0, 0x0, 0x0, 0x0, 0x107, 0x0⟩,
  ⟨0x40001004, 1, 0x0, 1, 0x0, 0x0, 0x0, 0x0, 0x0, 0x1F, 0x0⟩,
  ⟨0x40001008, 1, 0x0, 1, 0x0, 0x0, 0x0, 0x0, 0x0, 0xFFF, 0x0⟩,
  ⟨0x4000100C, 1, 0x0, 1, 0x0, 0x3F, 0x0, 0x0, 0x0, 0x3F, 0x0⟩,
  ⟨0x40001010, 1, 0x0, 1, 0x0, 0x0, 0x0, 0x0, 0x0, 0xF, 0x0⟩,
  ⟨0x40001014, 1, 0x0, 1, 0x0, 0x3FFFFC0, 0x0, 0x0, 0x0, 0x3FFFFC0, 0x0⟩,
  ⟨0x40001018, 1, 0x0, 1, 0x0, 0x0, 0x100, 0x0, 0x0, 0x10F, 0x0⟩,
  ⟨0x4000101C, 1, 0x0, 1, 0x0, 0x0, 0xF, 0x0, 0x0, 0xF, 0x0⟩,
  ⟨0x40001020, 1, 0x0, 1, 0x0, 0x1F, 0x0, 0x0, 0x0, 0x1F, 0x1F⟩,
  ⟨0x40001030, 1, 0x0, 1, 0x0, 0x0, 0x0, 0x0, 0x0, 0xFFFFFFFF, 0x0⟩,
  ⟨0x40001034, 1, 0x0, 1, 0x0, 0x0, 0x0, 0x0, 0x0, 0xFFFFFFFF, 0x0⟩,
  ⟨0x40001038, 1, 0x0, 1, 0x0, 0x0, 0x0, 0x0, 0x0, 0xFFFFFFFF, 0x9601C7A⟩,
  ⟨0x4000103C, 1, 0x0, 1, 0x0, 0x0, 0x0, 0x0, 0x0, 0xFFFFFFFF, 0x0⟩,
  ⟨0x40001040, 1, 0x0, 1, 0x0, 0x0, 0x0, 0x0, 0x0, 0x7FF, 0x0⟩,
  ⟨0x40001080, 4, 0x20, 8, 0x4, 0x0, 0x0, 0x0, 0x0, 0xFFFFFFFF, 0x0⟩,
  ⟨0x40001100, 16, 0x4, 1, 0x0, 0x0, 0x0, 0x0, 0x0, 0xFFFFFFFF, 0x0⟩]

/-- Register rows of the TMR page (R556; 18_timers.md). -/
def regsOfTMR : List RegSpec := [
  ⟨0x40003000, 1, 0x0, 1, 0x0, 0x0, 0x0, 0x0, 0x0, 0xFFFFFFFF, 0x0⟩,
  ⟨0x40003004, 1, 0x0, 1, 0x0, 0x0, 0x0, 0x0, 0x0, 0xFFFFFFFF, 0x0⟩,
  ⟨0x40003008, 1, 0x0, 1, 0x0, 0x0, 0x0, 0x0, 0x0, 0xFFFFFFFF, 0xFFFFFFFF⟩,
  ⟨0x4000300C, 1, 0x0, 1, 0x0, 0x0, 0x0, 0x0, 0x0, 0xFFFFFFFF, 0xFFFFFFFF⟩,
  ⟨0x40003010, 1, 0x0, 1, 0x0, 0x3, 0x0, 0x0, 0x0, 0x3, 0x0⟩,
  ⟨0x40003014, 1, 0x0, 1, 0x0, 0x0, 0x1, 0x0, 0x0, 0x3, 0x0⟩,
  ⟨0x40003018, 1, 0x0, 1, 0x0, 0xFF, 0x0, 0x0, 0x0, 0xFF, 0x0⟩,
  ⟨0x40003100, 16, 0x20, 1, 0x0, 0x7F3F013F, 0x0, 0x0, 0x0, 0x7F3F013F, 0x0⟩,
  ⟨0x40003104, 16, 0x20, 1, 0x0, 0xFFFF, 0x0, 0x0, 0x0, 0xFFFF, 0x0⟩,
  ⟨0x40003108, 16, 0x20, 1, 0x0, 0xFFFFFFFF, 0x0, 0x0, 0x0, 0xFFFFFFFF, 0xFFFFFFFF⟩,
  ⟨0x4000310C, 16, 0x20, 1, 0x0, 0xFFFFFFFF, 0x0, 0x0, 0x0, 0xFFFFFFFF, 0xFFFFFFFF⟩,
  ⟨0x40003110, 16, 0x20, 1, 0x0, 0xFFFFFFFF, 0x0, 0x0, 0x0, 0xFFFFFFFF, 0x0⟩,
  ⟨0x40003114, 16, 0x20, 1, 0x0, 0x0, 0x7, 0x0, 0x0, 0x1F, 0x0⟩]

/-- Register rows of the CHK page (R573; 19_check_units.md). -/
def regsOfCHK : List RegSpec := [
  ⟨0x40004000, 8, 0x40, 1, 0x0, 0x37C, 0x0, 0x0, 0x0, 0x37C, 0x238⟩,
  ⟨0x40004004, 8, 0x40, 1, 0x0, 0xFFFFFFFF, 0x0, 0x0, 0x0, 0xFFFFFFFF, 0x1EDC6F41⟩,
  ⟨0x40004008, 8, 0x40, 1, 0x0, 0xFFFFFFFF, 0x0, 0x0, 0x0, 0xFFFFFFFF, 0xFFFFFFFF⟩,
  ⟨0x4000400C, 8, 0x40, 1, 0x0, 0xFFFFFFFF, 0x0, 0x0, 0x0, 0xFFFFFFFF, 0xFFFFFFFF⟩,
  ⟨0x40004010, 8, 0x40, 1, 0x0, 0x0, 0x0, 0x0, 0x0, 0x0, 0x0⟩,
  ⟨0x40004014, 8, 0x40, 1, 0x0, 0x0, 0x0, 0x0, 0x0, 0x0, 0x0⟩,
  ⟨0x40004018, 8, 0x40, 1, 0x0, 0x0, 0x0, 0x0, 0x0, 0x0, 0x0⟩,
  ⟨0x4000401C, 8, 0x40, 1, 0x0, 0xFFFFFFFF, 0x0, 0x0, 0x0, 0xFFFFFFFF, 0xFFFFFFFF⟩,
  ⟨0x40004020, 8, 0x40, 1, 0x0, 0x0, 0x0, 0x0, 0x0, 0xFFFFFFFF, 0x0⟩,
  ⟨0x40004024, 8, 0x40, 1, 0x0, 0xFFFFFFFF, 0x0, 0x0, 0x0, 0xFFFFFFFF, 0x0⟩,
  ⟨0x40004028, 8, 0x40, 1, 0x0, 0x0, 0x0, 0x0, 0x0, 0xFFFFFFFF, 0xB798B438⟩,
  ⟨0x4000402C, 8, 0x40, 1, 0x0, 0xFFFFFFFF, 0x0, 0x0, 0x0, 0xFFFFFFFF, 0x0⟩,
  ⟨0x40004030, 8, 0x40, 1, 0x0, 0x0, 0x0, 0x0, 0x0, 0xFFFFFFFF, 0x0⟩,
  ⟨0x40004034, 8, 0x40, 1, 0x0, 0x0, 0x3, 0x0, 0x0, 0x7, 0x0⟩]

/-- Register rows of the BOB page (R595; 20_bobbins.md). -/
def regsOfBOB : List RegSpec := [
  ⟨0x40005000, 16, 0x40, 1, 0x0, 0x31, 0x0, 0x0, 0x0, 0x31, 0x20⟩,
  ⟨0x40005004, 16, 0x40, 1, 0x0, 0xFFFFFFE0, 0x0, 0x0, 0x0, 0xFFFFFFE0, 0x0⟩,
  ⟨0x40005008, 16, 0x40, 1, 0x0, 0xFFFFFFFF, 0x0, 0x0, 0x0, 0xFFFFFFFF, 0x0⟩,
  ⟨0x4000500C, 16, 0x40, 1, 0x0, 0x3F03, 0x0, 0x0, 0x0, 0x3F03, 0x0⟩,
  ⟨0x40005010, 16, 0x40, 1, 0x0, 0x0, 0x38, 0x0, 0x0, 0xF0F3F, 0x0⟩,
  ⟨0x40005014, 16, 0x40, 1, 0x0, 0x0, 0x0, 0x0, 0x0, 0xFFFFFFFF, 0x0⟩,
  ⟨0x40005018, 16, 0x40, 1, 0x0, 0x0, 0x0, 0x0, 0x0, 0xFFFF, 0x0⟩,
  ⟨0x4000501C, 16, 0x40, 1, 0x0, 0x0, 0x0, 0x0, 0x0, 0xFFFFFF, 0x0⟩,
  ⟨0x40005020, 16, 0x40, 1, 0x0, 0x0, 0x0, 0x0, 0x0, 0xFFFFFFFF, 0x0⟩,
  ⟨0x40005400, 1, 0x0, 1, 0x0, 0x0, 0x0, 0x0, 0x0, 0xFFFF, 0x0⟩]

/-- Register rows of the MBX page (R277; 09_host_link.md). -/
def regsOfMBX : List RegSpec := [
  ⟨0x40006000, 1, 0x0, 1, 0x0, 0x100, 0x0, 0x0, 0x0, 0x100, 0x0⟩,
  ⟨0x40006004, 1, 0x0, 1, 0x0, 0x1, 0xE, 0x0, 0x0, 0xF, 0x0⟩,
  ⟨0x40006008, 1, 0x0, 1, 0x0, 0x3FFF001, 0x0, 0x0, 0x0, 0x3FFF001, 0x0⟩,
  ⟨0x4000600C, 1, 0x0, 1, 0x0, 0xFFFFFFFF, 0x0, 0x0, 0x0, 0xFFFFFFFF, 0x0⟩,
  ⟨0x40006010, 2, 0x4, 1, 0x0, 0xFFFFFFFF, 0x0, 0x0, 0x0, 0xFFFFFFFF, 0x0⟩,
  ⟨0x40006018, 2, 0x4, 1, 0x0, 0x0, 0x0, 0xFFFFFFFF, 0x0, 0xFFFFFFFF, 0x0⟩,
  ⟨0x40006020, 2, 0x4, 1, 0x0, 0x0, 0x0, 0x0, 0x0, 0x0, 0x0⟩,
  ⟨0x40006028, 2, 0x4, 1, 0x0, 0x0, 0x0, 0xFFFFFFFF, 0x0, 0xFFFFFFFF, 0x0⟩,
  ⟨0x40006030, 2, 0x4, 1, 0x0, 0xFFFFFFFF, 0x0, 0x0, 0x0, 0xFFFFFFFF, 0x0⟩,
  ⟨0x40006038, 1, 0x0, 1, 0x0, 0xF3F, 0x0, 0x80000000, 0x0, 0x80000F3F, 0x0⟩,
  ⟨0x4000603C, 1, 0x0, 1, 0x0, 0xFFFFFFFF, 0x0, 0x0, 0x0, 0xFFFFFFFF, 0x0⟩,
  ⟨0x40006040, 1, 0x0, 1, 0x0, 0x3F, 0x0, 0x0, 0x0, 0x3F, 0x0⟩,
  ⟨0x40006044, 1, 0x0, 1, 0x0, 0xFFFFFFFF, 0x0, 0x0, 0x0, 0xFFFFFFFF, 0x0⟩,
  ⟨0x40006080, 16, 0x4, 1, 0x0, 0x1F1F1F1F, 0x0, 0x0, 0x0, 0x1F1F1F1F, 0x3020100⟩,
  ⟨0x40006400, 64, 0x4, 1, 0x0, 0xFFF0FFF, 0x0, 0x0, 0x0, 0xFFF0FFF, 0x0⟩,
  ⟨0x40006600, 64, 0x4, 1, 0x0, 0x8FFF0000, 0x0, 0x0, 0x0, 0x8FFF0FFF, 0x0⟩]

/-- Register rows of the PRK page (R94; 03_pricking.md). -/
def regsOfPRK : List RegSpec := [
  ⟨0x40007000, 2, 0x1000, 1, 0x0, 0x3, 0x0, 0x0, 0x0, 0x3, 0x0⟩,
  ⟨0x40007004, 2, 0x1000, 1, 0x0, 0x0, 0x0, 0x0, 0x0, 0xF, 0x0⟩,
  ⟨0x40007008, 2, 0x1000, 1, 0x0, 0x0, 0xFF, 0x0, 0x0, 0xFF, 0x0⟩,
  ⟨0x4000700C, 2, 0x1000, 1, 0x0, 0x11F, 0x0, 0x0, 0x0, 0x11F, 0x0⟩,
  ⟨0x40007010, 2, 0x1000, 1, 0x0, 0x0, 0x1F, 0x0, 0x0, 0x1F, 0x0⟩,
  ⟨0x40007014, 2, 0x1000, 1, 0x0, 0x7F1F, 0x0, 0x0, 0x0, 0x7F1F, 0x3010⟩,
  ⟨0x40007018, 2, 0x1000, 1, 0x0, 0xFFFFFF, 0x0, 0x0, 0x0, 0xFFFFFF, 0xA1CAC1⟩,
  ⟨0x4000701C, 2, 0x1000, 1, 0x0, 0x3FFF, 0x0, 0x0, 0x0, 0x3FFF, 0x420⟩,
  ⟨0x40007020, 2, 0x1000, 1, 0x0, 0x3FFF, 0x0, 0x0, 0x0, 0x3FFF, 0x320⟩,
  ⟨0x40007024, 2, 0x1000, 1, 0x0, 0xFFF0FFF, 0x0, 0x0, 0x0, 0xFFF0FFF, 0x800028⟩,
  ⟨0x40007028, 2, 0x1000, 1, 0x0, 0x1FFF, 0x0, 0x0, 0x0, 0x1FFF, 0x20D⟩,
  ⟨0x4000702C, 2, 0x1000, 1, 0x0, 0x1FFF, 0x0, 0x0, 0x0, 0x1FFF, 0x1E0⟩,
  ⟨0x40007030, 2, 0x1000, 1, 0x0, 0xFFF0FFF, 0x0, 0x0, 0x0, 0xFFF0FFF, 0x2000A⟩,
  ⟨0x40007034, 2, 0x1000, 1, 0x0, 0xF, 0x0, 0x0, 0x0, 0xF, 0x2⟩,
  ⟨0x40007038, 2, 0x1000, 1, 0x0, 0x0, 0x0, 0x0, 0x0, 0x7FFFFFF, 0x0⟩,
  ⟨0x4000703C, 2, 0x1000, 1, 0x0, 0x0, 0x0, 0x0, 0x0, 0xFFFFFFFF, 0x0⟩,
  ⟨0x40007040, 2, 0x1000, 1, 0x0, 0x0, 0x0, 0x0, 0x0, 0xFFFFFFFF, 0x0⟩,
  ⟨0x40007044, 2, 0x1000, 1, 0x0, 0x7FFFFFF, 0x0, 0x0, 0x0, 0x7FFFFFF, 0x0⟩,
  ⟨0x40007048, 2, 0x1000, 1, 0x0, 0x0, 0x0, 0x0, 0x0, 0xFFFFFFFF, 0x0⟩,
  ⟨0x40007050, 1, 0x0, 1, 0x0, 0x0, 0x0, 0x0, 0x0, 0xFFF, 0x0⟩,
  ⟨0x40007080, 8, 0x8, 1, 0x0, 0xFFFF0FF7, 0x0, 0x0, 0x0, 0xFFFF0FF7, 0x10000⟩,
  ⟨0x40007084, 8, 0x8, 1, 0x0, 0x7FFFFFF, 0x0, 0x0, 0x0, 0x7FFFFFF, 0x0⟩,
  ⟨0x400070C0, 8, 0x4, 1, 0x0, 0x0, 0x0, 0x0, 0x0, 0x87FFFFFF, 0x0⟩]

/-- Register rows of the GND page (R382; 12_ground_planes.md), part 1. -/
def regsOfGND0 : List RegSpec := [
  ⟨0x40009000, 1, 0x0, 1, 0x0, 0x0, 0xFFFFFFFF, 0x0, 0x0, 0xFFFFFFFF, 0x0⟩,
  ⟨0x40009004, 1, 0x0, 1, 0x0, 0x0, 0xFF, 0x0, 0x0, 0xFF, 0x0⟩,
  ⟨0x40009008, 1, 0x0, 1, 0x0, 0x1F, 0x0, 0x0, 0x0, 0x1F, 0x4⟩,
  ⟨0x4000900C, 1, 0x0, 1, 0x0, 0x0, 0x0, 0x0, 0x0, 0x0, 0x0⟩,
  ⟨0x40009040, 1, 0x0, 1, 0x0, 0x0, 0x0, 0x0, 0x0, 0x10FFF, 0x0⟩,
  ⟨0x40009044, 1, 0x0, 1, 0x0, 0x0, 0x0, 0x0, 0x0, 0xFFFFFFFF, 0x0⟩,
  ⟨0x40009080, 1, 0x0, 1, 0x0, 0x0, 0x0, 0x0, 0x0, 0x10FFF, 0x0⟩,
  ⟨0x40009084, 1, 0x0, 1, 0x0, 0x0, 0x0, 0x0, 0x0, 0xFFFFFFFF, 0x0⟩,
  ⟨0x400090C0, 1, 0x0, 1, 0x0, 0x0, 0x0, 0x0, 0x0, 0x10FFF, 0x0⟩,
  ⟨0x400090C4, 1, 0x0, 1, 0x0, 0x0, 0x0, 0x0, 0x0, 0xFFFFFFFF, 0x0⟩,
  ⟨0x400090D0, 1, 0x0, 1, 0x0, 0x0, 0x0, 0x0, 0x0, 0x10FFF, 0x0⟩,
  ⟨0x400090D4, 1, 0x0, 1, 0x0, 0x0, 0x0, 0x0, 0x0, 0xFFFFFFFF, 0x0⟩,
  ⟨0x40009400, 8, 0x40, 1, 0x0, 0x71F, 0x0, 0x0, 0x0, 0x71F, 0x0⟩,
  ⟨0x40009404, 8, 0x40, 1, 0x0, 0x3FFFFC0, 0x0, 0x0, 0x0, 0x3FFFFC0, 0x0⟩,
  ⟨0x40009408, 8, 0x40, 1, 0x0, 0xFFFFFFFF, 0x0, 0x0, 0x0, 0xFFFFFFFF, 0x10001⟩,
  ⟨0x4000940C, 8, 0x40, 1, 0x0, 0x3FFFFC0, 0x0, 0x0, 0x0, 0x3FFFFC0, 0x0⟩,
  ⟨0x40009410, 8, 0x40, 1, 0x0, 0xFFFFFFFF, 0x0, 0x0, 0x0, 0xFFFFFFFF, 0x0⟩,
  ⟨0x40009414, 8, 0x40, 1, 0x0, 0xFFFFFFFF, 0x0, 0x0, 0x0, 0xFFFFFFFF, 0x0⟩,
  ⟨0x40009418, 8, 0x40, 1, 0x0, 0xFFFFFFFF, 0x0, 0x0, 0x0, 0xFFFFFFFF, 0x0⟩,
  ⟨0x4000941C, 8, 0x40, 1, 0x0, 0x3FFFFC0, 0x0, 0x0, 0x0, 0x3FFFFC0, 0x0⟩,
  ⟨0x40009800, 8, 0x40, 1, 0x0, 0x71F, 0x0, 0x0, 0x0, 0x71F, 0x0⟩,
  ⟨0x40009804, 8, 0x40, 1, 0x0, 0x3FFFFC0, 0x0, 0x0, 0x0, 0x3FFFFC0, 0x0⟩,
  ⟨0x40009808, 8, 0x40, 1, 0x0, 0xFFFFFFFF, 0x0, 0x0, 0x0, 0xFFFFFFFF, 0x10001⟩,
  ⟨0x4000980C, 8, 0x40, 1, 0x0, 0x3FFFFC0, 0x0, 0x0, 0x0, 0x3FFFFC0, 0x0⟩]

/-- Register rows of the GND page (R382; 12_ground_planes.md), part 2. -/
def regsOfGND1 : List RegSpec := [
  ⟨0x40009810, 8, 0x40, 1, 0x0, 0xFFFFFFFF, 0x0, 0x0, 0x0, 0xFFFFFFFF, 0x0⟩,
  ⟨0x40009814, 8, 0x40, 1, 0x0, 0xFFFFFFFF, 0x0, 0x0, 0x0, 0xFFFFFFFF, 0x0⟩,
  ⟨0x40009818, 8, 0x40, 1, 0x0, 0xFFFFFFFF, 0x0, 0x0, 0x0, 0xFFFFFFFF, 0x0⟩,
  ⟨0x4000981C, 8, 0x40, 1, 0x0, 0x3FFFFC0, 0x0, 0x0, 0x0, 0x3FFFFC0, 0x0⟩]

/-- Register rows of the GND page. -/
def regsOfGND : List RegSpec := regsOfGND0 ++ regsOfGND1

/-- Register rows of the MTF page (R405; 13_motifs.md). -/
def regsOfMTF : List RegSpec := [
  ⟨0x4000A000, 1, 0x0, 1, 0x0, 0x3FFFFC3, 0x0, 0x0, 0x0, 0x3FFFFC3, 0x0⟩,
  ⟨0x4000A004, 1, 0x0, 1, 0x0, 0x3FFFFC3, 0x0, 0x0, 0x0, 0x3FFFFC3, 0x0⟩,
  ⟨0x4000A008, 1, 0x0, 1, 0x0, 0x3FFFFC3, 0x0, 0x0, 0x0, 0x3FFFFC3, 0x0⟩,
  ⟨0x4000A00C, 1, 0x0, 1, 0x0, 0x3FFFFC3, 0x0, 0x0, 0x0, 0x3FFFFC3, 0x0⟩,
  ⟨0x4000A010, 1, 0x0, 1, 0x0, 0x0, 0x3FF, 0x0, 0x0, 0x3FF, 0x0⟩,
  ⟨0x4000A014, 1, 0x0, 1, 0x0, 0x3FF, 0x0, 0x0, 0x0, 0x3FF, 0x1C0⟩,
  ⟨0x4000A018, 1, 0x0, 1, 0x0, 0x0, 0x0, 0x0, 0x0, 0xFFFFFFFF, 0x0⟩,
  ⟨0x4000A01C, 1, 0x0, 1, 0x0, 0x0, 0x0, 0x0, 0x0, 0xFFFFFFFF, 0x0⟩,
  ⟨0x4000A020, 1, 0x0, 1, 0x0, 0x0, 0x0, 0x0, 0x1FF01FF, 0x1FF01FF, 0x0⟩,
  ⟨0x4000A024, 1, 0x0, 1, 0x0, 0x0, 0x0, 0x0, 0x0, 0x0, 0x0⟩,
  ⟨0x4000A028, 1, 0x0, 1, 0x0, 0x0, 0x0, 0x0, 0x0, 0x1, 0x0⟩,
  ⟨0x4000A030, 1, 0x0, 1, 0x0, 0x0, 0x0, 0x0, 0x0, 0xFFFF003F, 0x0⟩,
  ⟨0x4000A034, 1, 0x0, 1, 0x0, 0x1, 0x0, 0x0, 0x0, 0x1, 0x0⟩,
  ⟨0x4000A040, 1, 0x0, 1, 0x0, 0x0, 0x0, 0x0, 0x0, 0x11FFF, 0x0⟩,
  ⟨0x4000A044, 1, 0x0, 1, 0x0, 0x0, 0x0, 0x0, 0x0, 0xFFFFFFFF, 0x0⟩,
  ⟨0x4000A080, 1, 0x0, 1, 0x0, 0x0, 0x0, 0x0, 0x0, 0x11FFF, 0x0⟩,
  ⟨0x4000A084, 1, 0x0, 1, 0x0, 0x0, 0x0, 0x0, 0x0, 0xFFFFFFFF, 0x0⟩]

/-- Register rows of the EYE page (R440; 14_eyelets.md), part 1. -/
def regsOfEYE0 : List RegSpec := [
  ⟨0x4000B000, 1, 0x0, 1, 0x0, 0xFFFFFFFF, 0x0, 0x0, 0x0, 0xFFFFFFFF, 0x76543210⟩,
  ⟨0x4000B004, 1, 0x0, 1, 0x0, 0x0, 0x1FF, 0x0, 0x0, 0x1FF, 0x0⟩,
  ⟨0x4000B008, 1, 0x0, 1, 0x0, 0xFFFFFFFF, 0x0, 0x0, 0x0, 0xFFFFFFFF, 0xFF303030⟩,
  ⟨0x4000B00C, 1, 0x0, 1, 0x0, 0xFFFFFFFF, 0x0, 0x0, 0x0, 0xFFFFFFFF, 0xFFC0A000⟩,
  ⟨0x4000B010, 1, 0x0, 1, 0x0, 0x107FF, 0x0, 0x0, 0x0, 0x107FF, 0x0⟩,
  ⟨0x4000B014, 1, 0x0, 1, 0x0, 0x0, 0x0, 0x0, 0x0, 0x3FF03FF, 0x0⟩,
  ⟨0x4000B100, 8, 0x80, 1, 0x0, 0xFF3F03FF, 0x0, 0x0, 0x0, 0xFF3F03FF, 0x101E0020⟩,
  ⟨0x4000B104, 8, 0x80, 1, 0x0, 0xFFF1FFF, 0x0, 0x0, 0x0, 0xFFF1FFF, 0x5000E4⟩,
  ⟨0x4000B108, 8, 0x80, 1, 0x0, 0x3FFFFC0, 0x0, 0x0, 0x0, 0x3FFFFC0, 0x0⟩,
  ⟨0x4000B10C, 8, 0x80, 1, 0x0, 0xFFC0, 0x0, 0x0, 0x0, 0xFFC0, 0x0⟩,
  ⟨0x4000B110, 8, 0x80, 1, 0x0, 0x1FFF1FFF, 0x0, 0x0, 0x0, 0x1FFF1FFF, 0x0⟩,
  ⟨0x4000B114, 8, 0x80, 1, 0x0, 0x1FFF1FFF, 0x0, 0x0, 0x0, 0x1FFF1FFF, 0x10001⟩,
  ⟨0x4000B118, 8, 0x80, 1, 0x0, 0x1FFF1FFF, 0x0, 0x0, 0x0, 0x1FFF1FFF, 0x10001⟩,
  ⟨0x4000B11C, 8, 0x80, 1, 0x0, 0x73FFF, 0x0, 0x0, 0x0, 0x73FFF, 0x0⟩,
  ⟨0x4000B120, 8, 0x80, 1, 0x0, 0x3FF, 0x0, 0x0, 0x0, 0x3FF, 0x0⟩,
  ⟨0x4000B124, 8, 0x80, 1, 0x0, 0x0, 0x0, 0x0, 0x0, 0xFFF1F7F, 0x0⟩,
  ⟨0x4000B128, 8, 0x80, 1, 0x0, 0x0, 0x71FFF, 0x0, 0x0, 0x71FFF, 0x0⟩,
  ⟨0x4000B12C, 8, 0x80, 1, 0x0, 0x11FFF, 0x0, 0x0, 0x0, 0x11FFF, 0x10121⟩,
  ⟨0x4000B130, 8, 0x80, 1, 0x0, 0x0, 0x0, 0x0, 0x0, 0xFFFFFFFF, 0x0⟩,
  ⟨0x4000B134, 8, 0x80, 1, 0x0, 0x0, 0x0, 0x0, 0x0, 0xFFFF, 0x0⟩,
  ⟨0x4000B138, 8, 0x80, 1, 0x0, 0x0, 0x0, 0x0, 0x0, 0xFFFFFFFF, 0x0⟩,
  ⟨0x4000B13C, 8, 0x80, 1, 0x0, 0x0, 0x0, 0x0, 0x0, 0xFFFFFFFF, 0x0⟩,
  ⟨0x4000B140, 8, 0x80, 1, 0x0, 0x0, 0x0, 0x0, 0x0, 0xFFFFFFFF, 0x0⟩,
  ⟨0x4000B144, 8, 0x80, 1, 0x0, 0x0, 0x0, 0x0, 0x0, 0xFFFFFFFF, 0x0⟩]

/-- Register rows of the EYE page (R440; 14_eyelets.md), part 2. -/
def regsOfEYE1 : List RegSpec := [
  ⟨0x4000B148, 8, 0x80, 1, 0x0, 0x0, 0x0, 0x0, 0x0, 0xFFFFFFFF, 0x0⟩,
  ⟨0x4000B14C, 8, 0x80, 1, 0x0, 0x0, 0x0, 0x0, 0x0, 0xFFFFFFFF, 0x0⟩,
  ⟨0x4000B150, 8, 0x80, 1, 0x0, 0x0, 0x0, 0x0, 0x0, 0x1FFF1FFF, 0x0⟩,
  ⟨0x4000B600, 8, 0x10, 1, 0x0, 0xFF07, 0x0, 0x0, 0x0, 0xFF07, 0xFF00⟩,
  ⟨0x4000B604, 8, 0x10, 1, 0x0, 0xFFFFFFFF, 0x0, 0x0, 0x0, 0xFFFFFFFF, 0x0⟩,
  ⟨0x4000B700, 8, 0x10, 1, 0x0, 0xFF07, 0x0, 0x0, 0x0, 0xFF07, 0xFF00⟩,
  ⟨0x4000B704, 8, 0x10, 1, 0x0, 0xFFFFFFFF, 0x0, 0x0, 0x0, 0xFFFFFFFF, 0x0⟩]

/-- Register rows of the EYE page. -/
def regsOfEYE : List RegSpec := regsOfEYE0 ++ regsOfEYE1

/-- Register rows of the APQ page (R468; 15_applique.md). -/
def regsOfAPQ : List RegSpec := [
  ⟨0x4000C000, 2, 0x1000, 1, 0x0, 0x0, 0x0, 0x0, 0x0, 0x30, 0x0⟩,
  ⟨0x4000C004, 2, 0x1000, 1, 0x0, 0x0, 0x0, 0x0, 0x0, 0xFFFFFFFF, 0x0⟩,
  ⟨0x4000C008, 2, 0x1000, 1, 0x0, 0x1FFF, 0x0, 0x0, 0x0, 0x1FFF, 0x1E0⟩,
  ⟨0x4000C010, 2, 0x1000, 1, 0x0, 0x0, 0x3F, 0x0, 0x0, 0x3F, 0x0⟩,
  ⟨0x4000C014, 2, 0x1000, 1, 0x0, 0x3F, 0x0, 0x0, 0x0, 0x3F, 0x11⟩,
  ⟨0x4000C018, 2, 0x1000, 1, 0x0, 0x0, 0x0, 0x0, 0x0, 0xFFFFFFFF, 0x0⟩,
  ⟨0x4000C01C, 2, 0x1000, 1, 0x0, 0x0, 0x0, 0x0, 0x0, 0x80001FFF, 0x0⟩,
  ⟨0x4000C040, 2, 0x1000, 1, 0x0, 0x3, 0x0, 0x0, 0x0, 0x3, 0x0⟩,
  ⟨0x4000C044, 2, 0x1000, 1, 0x0, 0xFFFFFF, 0x0, 0x0, 0x0, 0xFFFFFF, 0x0⟩,
  ⟨0x4000C048, 2, 0x1000, 5, 0x4, 0xFFFFFFFF, 0x0, 0x0, 0x0, 0xFFFFFFFF, 0xFFFFFFFF⟩,
  ⟨0x4000C080, 2, 0x1000, 1, 0x0, 0x3, 0x0, 0x0, 0x0, 0x3, 0x0⟩,
  ⟨0x4000C084, 2, 0x1000, 1, 0x0, 0xFFFFFF, 0x0, 0x0, 0x0, 0xFFFFFF, 0x0⟩,
  ⟨0x4000C088, 2, 0x1000, 5, 0x4, 0xFFFFFFFF, 0x0, 0x0, 0x0, 0xFFFFFFFF, 0xFFFFFFFF⟩,
  ⟨0x4000C100, 2, 0x1000, 16, 0x8, 0x1FFF1FFF, 0x0, 0x0, 0x0, 0x1FFF1FFF, 0x0⟩,
  ⟨0x4000C104, 2, 0x1000, 16, 0x8, 0x9FFF1FFF, 0x0, 0x0, 0x0, 0x9FFF1FFF, 0x0⟩,
  ⟨0x4000C180, 2, 0x1000, 16, 0x8, 0x1FFF1FFF, 0x0, 0x0, 0x0, 0x1FFF1FFF, 0x0⟩,
  ⟨0x4000C184, 2, 0x1000, 16, 0x8, 0x9FFF1FFF, 0x0, 0x0, 0x0, 0x9FFF1FFF, 0x0⟩,
  ⟨0x4000C200, 2, 0x1000, 1, 0x0, 0x0, 0x0, 0x0, 0x0, 0xFFFFFFFF, 0x0⟩,
  ⟨0x4000C204, 2, 0x1000, 1, 0x0, 0x0, 0x0, 0x0, 0x0, 0xFFFFFFFF, 0x0⟩,
  ⟨0x4000C240, 2, 0x1000, 16, 0x8, 0x0, 0x0, 0x0, 0x0, 0xFFFFFFFF, 0x0⟩,
  ⟨0x4000C244, 2, 0x1000, 16, 0x8, 0x0, 0x0, 0x0, 0x0, 0xFFFFFFFF, 0x0⟩]

/-- Register rows of the BMO page (R492; 16_beam_outputs.md). -/
def regsOfBMO : List RegSpec := [
  ⟨0x4000E000, 2, 0x100, 1, 0x0, 0xFFFF, 0x0, 0x0, 0x0, 0xFFFF, 0x1040⟩,
  ⟨0x4000E004, 2, 0x100, 1, 0x0, 0x3FF, 0x0, 0x0, 0x0, 0x3FF, 0x0⟩,
  ⟨0x4000E008, 2, 0x100, 1, 0x0, 0x1F1FFFFF, 0x0, 0x0, 0x0, 0x1F1FFFFF, 0xE4E4⟩,
  ⟨0x4000E00C, 2, 0x100, 1, 0x0, 0x0, 0x0, 0x0, 0x0, 0x77, 0x0⟩,
  ⟨0x4000E010, 2, 0x100, 1, 0x0, 0x0, 0x7F, 0x0, 0x0, 0x7F, 0x0⟩,
  ⟨0x4000E014, 2, 0x100, 1, 0x0, 0x7F, 0x0, 0x0, 0x0, 0x7F, 0x2B⟩,
  ⟨0x4000E018, 2, 0x100, 1, 0x0, 0x4, 0x0, 0x0, 0x0, 0x4, 0x0⟩,
  ⟨0x4000E01C, 2, 0x100, 1, 0x0, 0x0, 0x0, 0x0, 0x0, 0xFFFFFFFF, 0x0⟩,
  ⟨0x4000E020, 2, 0x100, 1, 0x0, 0x3FFFFC0, 0x0, 0x0, 0x0, 0x3FFFFC0, 0x0⟩,
  ⟨0x4000E024, 2, 0x100, 1, 0x0, 0x1FF, 0x0, 0x0, 0x0, 0x1FF, 0x0⟩,
  ⟨0x4000E028, 2, 0x100, 1, 0x0, 0x3FFFFC0, 0x0, 0x0, 0x0, 0x3FFFFC0, 0x0⟩,
  ⟨0x4000E02C, 2, 0x100, 1, 0x0, 0x1FF, 0x0, 0x0, 0x0, 0x1FF, 0x0⟩,
  ⟨0x4000E030, 2, 0x100, 1, 0x0, 0x0, 0x0, 0x0, 0x0, 0x87FFFFFF, 0x0⟩,
  ⟨0x4000E040, 2, 0x100, 1, 0x0, 0x0, 0x0, 0x0, 0x0, 0x0, 0x0⟩,
  ⟨0x4000E044, 2, 0x100, 1, 0x0, 0x0, 0x0, 0x0, 0x0, 0x7F0000, 0x0⟩]

/-- Register rows of the SND page (R532; 17_sound.md). -/
def regsOfSND : List RegSpec := [
  ⟨0x4000F000, 1, 0x0, 1, 0x0, 0x1, 0x0, 0x0, 0x0, 0x1, 0x0⟩,
  ⟨0x4000F004, 1, 0x0, 1, 0x0, 0x0, 0x3F, 0x0, 0x0, 0x3F, 0x0⟩,
  ⟨0x4000F008, 1, 0x0, 1, 0x0, 0x13F, 0x0, 0x0, 0x0, 0x13F, 0x15⟩,
  ⟨0x4000F00C, 1, 0x0, 1, 0x0, 0xF, 0x0, 0x0, 0x0, 0x10F, 0xF⟩,
  ⟨0x4000F010, 1, 0x0, 1, 0x0, 0x0, 0x0, 0x0, 0x0, 0x7F, 0x0⟩,
  ⟨0x4000F020, 3, 0x4, 1, 0x0, 0x0, 0x0, 0x0, 0x0, 0xFFFFFFFF, 0x0⟩,
  ⟨0x4000F030, 3, 0x4, 1, 0x0, 0x0, 0xFFFFFFFF, 0x0, 0x0, 0xFFFFFFFF, 0x0⟩,
  ⟨0x4000F080, 8, 0x4, 1, 0x0, 0x7F, 0x0, 0x0, 0x0, 0x7F, 0x7F⟩,
  ⟨0x4000F200, 8, 0x20, 1, 0x0, 0x17F, 0x0, 0x0, 0x0, 0x17F, 0xC⟩,
  ⟨0x4000F204, 8, 0x20, 1, 0x0, 0x87FFFFFF, 0x0, 0x0, 0x0, 0x87FFFFFF, 0x18000⟩,
  ⟨0x4000F208, 8, 0x20, 1, 0x0, 0x3FFFFC0, 0x0, 0x0, 0x0, 0x3FFFFC0, 0x0⟩,
  ⟨0x4000F20C, 8, 0x20, 1, 0x0, 0x0, 0x200, 0x0, 0x0, 0x3FF, 0x0⟩,
  ⟨0x4000F210, 8, 0x20, 1, 0x0, 0x0, 0x0, 0x0, 0xFFFFFF, 0xFFFFFF, 0x0⟩,
  ⟨0x4000F214, 8, 0x20, 1, 0x0, 0x0, 0x0, 0x0, 0x0, 0x1FFFFFF, 0x1000000⟩]

/-- Register rows of the SNDV page (R532 (voice window: one copy per voice v at model key 0x5002_0000 + 0x40·v); 17_sound.md). -/
def regsOfSNDV : List RegSpec := [
  ⟨0x50020000, 96, 0x40, 1, 0x0, 0x100F7F, 0x0, 0x0, 0x0, 0x100F7F, 0x0⟩,
  ⟨0x50020004, 96, 0x40, 1, 0x0, 0x3FFFFF8, 0x0, 0x0, 0x0, 0x3FFFFF8, 0x0⟩,
  ⟨0x50020008, 96, 0x40, 1, 0x0, 0x1FFFFFF, 0x0, 0x0, 0x0, 0x1FFFFFF, 0x0⟩,
  ⟨0x5002000C, 96, 0x40, 1, 0x0, 0x1FFFFFF, 0x0, 0x0, 0x0, 0x1FFFFFF, 0x0⟩,
  ⟨0x50020010, 96, 0x40, 1, 0x0, 0x1FFFFFF, 0x0, 0x0, 0x0, 0x1FFFFFF, 0x0⟩,
  ⟨0x50020014, 96, 0x40, 1, 0x0, 0xFFFFFFFF, 0x0, 0x0, 0x0, 0xFFFFFFFF, 0x10000⟩,
  ⟨0x50020018, 96, 0x40, 1, 0x0, 0x87FFFFFF, 0x0, 0x0, 0x0, 0x87FFFFFF, 0x18000⟩,
  ⟨0x5002001C, 96, 0x40, 1, 0x0, 0x3FFF3FFF, 0x0, 0x0, 0x0, 0x3FFF3FFF, 0x0⟩,
  ⟨0x50020020, 96, 0x40, 1, 0x0, 0xFFFFFFFF, 0x0, 0x0, 0x0, 0xFFFFFFFF, 0x0⟩,
  ⟨0x50020024, 96, 0x40, 1, 0x0, 0x0, 0x60, 0x0, 0x0, 0x37F, 0x0⟩,
  ⟨0x50020028, 96, 0x40, 1, 0x0, 0x0, 0x0, 0x0, 0x0, 0x1FFFFFF, 0x0⟩,
  ⟨0x5002002C, 96, 0x40, 1, 0x0, 0x0, 0x0, 0x0, 0x0, 0xFFFFFFFF, 0x0⟩]

/-- Register rows of the AUD page (R533; 17_sound.md). -/
def regsOfAUD : List RegSpec := [
  ⟨0x40010000, 1, 0x0, 1, 0x0, 0x37, 0x0, 0x0, 0x0, 0x137, 0x1⟩,
  ⟨0x40010004, 1, 0x0, 1, 0x0, 0x0, 0x1F, 0x0, 0x0, 0x1F, 0x0⟩,
  ⟨0x40010008, 1, 0x0, 1, 0x0, 0x1F, 0x0, 0x0, 0x0, 0x1F, 0x17⟩,
  ⟨0x4001000C, 1, 0x0, 1, 0x0, 0x0, 0x0, 0x0, 0x0, 0xFFFFFFFF, 0x0⟩,
  ⟨0x40010010, 1, 0x0, 1, 0x0, 0x0, 0x0, 0x0, 0x0, 0xFFFFFFFF, 0x0⟩,
  ⟨0x40010014, 1, 0x0, 1, 0x0, 0x0, 0x0, 0x0, 0x0, 0xFFFFFFFF, 0x0⟩,
  ⟨0x40010040, 3, 0x20, 1, 0x0, 0xFF, 0x0, 0x0, 0x0, 0xFF, 0x48⟩,
  ⟨0x40010044, 3, 0x20, 1, 0x0, 0x0, 0x0, 0x0, 0x0, 0xFFFF0001, 0x0⟩,
  ⟨0x40010100, 1, 0x0, 1, 0x0, 0xFF03, 0x0, 0x0, 0x0, 0xFF03, 0x0⟩,
  ⟨0x40010104, 1, 0x0, 1, 0x0, 0x3FFFFC0, 0x0, 0x0, 0x0, 0x3FFFFC0, 0x0⟩,
  ⟨0x40010108, 1, 0x0, 1, 0x0, 0xFFFF, 0x0, 0x0, 0x0, 0xFFFF, 0x2⟩,
  ⟨0x4001010C, 1, 0x0, 1, 0x0, 0x0, 0x0, 0x0, 0x0, 0xFFFF, 0x0⟩,
  ⟨0x40010110, 1, 0x0, 1, 0x0, 0xFFFF, 0x0, 0x0, 0x0, 0xFFFF, 0x0⟩,
  ⟨0x40010114, 1, 0x0, 1, 0x0, 0x0, 0x0, 0x0, 0x0, 0xFFFFFFFF, 0x0⟩,
  ⟨0x40010120, 4, 0x4, 1, 0x0, 0xFFFF071F, 0x0, 0x0, 0x0, 0xFFFF071F, 0x80000000⟩]

/-- Register rows of the LTN page (R647; 22_lantern.md). -/
def regsOfLTN : List RegSpec := [
  ⟨0x40011000, 1, 0x0, 1, 0x0, 0xF03, 0x0, 0x0, 0x0, 0xF03, 0x202⟩,
  ⟨0x40011004, 1, 0x0, 1, 0x0, 0x7F, 0x0, 0x0, 0x0, 0x7F, 0x28⟩,
  ⟨0x40011008, 1, 0x0, 1, 0x0, 0x7F7F, 0x0, 0x0, 0x0, 0x7F7F, 0x4D00⟩,
  ⟨0x4001100C, 1, 0x0, 1, 0x0, 0x3FF03FF, 0x0, 0x0, 0x0, 0x3FF03FF, 0x400080⟩,
  ⟨0x40011010, 1, 0x0, 1, 0x0, 0x0, 0x0, 0x0, 0x0, 0x13F7F, 0x2C28⟩,
  ⟨0x40011014, 1, 0x0, 1, 0x0, 0xFFFF0F00, 0x0, 0x0, 0x0, 0xFFFF0F07, 0x505F0F00⟩,
  ⟨0x40011018, 1, 0x0, 1, 0x0, 0x0, 0x3FF, 0x0, 0x0, 0x3FF, 0x0⟩,
  ⟨0x4001101C, 1, 0x0, 1, 0x0, 0x3FF, 0x0, 0x0, 0x0, 0x3FF, 0x7F⟩,
  ⟨0x40011020, 1, 0x0, 1, 0x0, 0x0, 0x0, 0x0, 0x0, 0xFFFFFFF, 0x555555⟩,
  ⟨0x40011024, 1, 0x0, 1, 0x0, 0xF, 0x0, 0x0, 0x0, 0xF, 0x0⟩,
  ⟨0x40011030, 1, 0x0, 1, 0x0, 0x0, 0x0, 0x0, 0x0, 0xFFFFFFFF, 0xE100000⟩,
  ⟨0x40011034, 1, 0x0, 1, 0x0, 0xF, 0x0, 0x0, 0x0, 0xF, 0x0⟩,
  ⟨0x40011038, 1, 0x0, 1, 0x0, 0x0, 0x0, 0x0, 0x0, 0x3FFFFFF, 0x0⟩,
  ⟨0x4001103C, 1, 0x0, 1, 0x0, 0x0, 0x0, 0x0, 0xFFFFFFFF, 0xFFFFFFFF, 0x0⟩]

/-- Register rows of the EMB page (R673; 23_ember_standby.md). -/
def regsOfEMB : List RegSpec := [
  ⟨0x40012000, 1, 0x0, 1, 0x0, 0xF, 0x0, 0x0, 0x0, 0xF, 0x0⟩,
  ⟨0x40012004, 1, 0x0, 1, 0x0, 0xFF, 0x0, 0x0, 0x0, 0xFF, 0x32⟩,
  ⟨0x40012008, 1, 0x0, 1, 0x0, 0xFFF, 0x0, 0x0, 0x0, 0xFFF, 0xC1C⟩,
  ⟨0x4001200C, 1, 0x0, 1, 0x0, 0x0, 0x0, 0x0, 0x0, 0xFF37, 0x0⟩,
  ⟨0x40012010, 1, 0x0, 1, 0x0, 0x0, 0x7F, 0x0, 0x0, 0x7F, 0x0⟩,
  ⟨0x40012014, 1, 0x0, 1, 0x0, 0x7F, 0x0, 0x0, 0x0, 0x7F, 0x1E⟩,
  ⟨0x40012100, 1, 0x0, 1, 0x0, 0x3, 0x0, 0x0, 0x0, 0x133, 0x0⟩,
  ⟨0x40012104, 1, 0x0, 1, 0x0, 0x1F, 0x0, 0x0, 0x0, 0x1F, 0x0⟩,
  ⟨0x40012108, 1, 0x0, 1, 0x0, 0xFF0F, 0x0, 0x0, 0x0, 0xFF0F, 0x2100⟩,
  ⟨0x4001210C, 1, 0x0, 1, 0x0, 0x0, 0x11F, 0x0, 0x0, 0x11F, 0x0⟩,
  ⟨0x40012110, 1, 0x0, 1, 0x0, 0x0, 0x1F, 0x0, 0x0, 0x1F, 0x0⟩,
  ⟨0x40012114, 1, 0x0, 1, 0x0, 0x1F, 0x0, 0x0, 0x0, 0x1F, 0x7⟩,
  ⟨0x40012120, 1, 0x0, 1, 0x0, 0x0, 0x0, 0x0, 0x0, 0x7FFF, 0x0⟩,
  ⟨0x40012124, 1, 0x0, 1, 0x0, 0xFFFFFFFF, 0x0, 0x0, 0x0, 0xFFFFFFFF, 0x0⟩,
  ⟨0x40012128, 1, 0x0, 1, 0x0, 0xFFFFFFFF, 0x0, 0x0, 0x0, 0xFFFFFFFF, 0x0⟩,
  ⟨0x4001212C, 1, 0x0, 1, 0x0, 0xFF, 0x0, 0x0, 0x0, 0xFF, 0x0⟩,
  ⟨0x40012130, 1, 0x0, 1, 0x0, 0x0, 0x0, 0x0, 0x0, 0x3, 0x0⟩,
  ⟨0x40012140, 16, 0x4, 1, 0x0, 0xFFFFFFFF, 0x0, 0x0, 0x0, 0xFFFFFFFF, 0x0⟩]

/-- Register rows of the ADC page (R622; 21_serial_gpio.md). -/
def regsOfADC : List RegSpec := [
  ⟨0x40013000, 1, 0x0, 1, 0x0, 0x4, 0x0, 0x0, 0x0, 0x4, 0x4⟩,
  ⟨0x40013004, 1, 0x0, 1, 0x0, 0xFFFF, 0x0, 0x0, 0x0, 0xFFFF, 0x3FF⟩,
  ⟨0x40013008, 1, 0x0, 1, 0x0, 0x3F01, 0x0, 0x0, 0x0, 0x3F01, 0x0⟩,
  ⟨0x4001300C, 1, 0x0, 1, 0x0, 0x0, 0x3, 0x0, 0x0, 0x77, 0x0⟩,
  ⟨0x40013010, 1, 0x0, 1, 0x0, 0x3, 0x0, 0x0, 0x0, 0x3, 0x2⟩,
  ⟨0x40013014, 1, 0x0, 1, 0x0, 0x0, 0x0, 0x0, 0x0, 0xFFFFFFFF, 0x0⟩,
  ⟨0x40013040, 16, 0x4, 1, 0x0, 0x0, 0x0, 0x0, 0x80000000, 0x80000FFF, 0x0⟩]

/-- Register rows of the VLM page (R130; 04_vellum.md), part 1. -/
def regsOfVLM0 : List RegSpec := [
  ⟨0x40014000, 1, 0x0, 1, 0x0, 0xF03, 0x0, 0x0, 0x0, 0xF03, 0x601⟩,
  ⟨0x40014004, 1, 0x0, 1, 0x0, 0x0, 0x0, 0x0, 0x0, 0x3F, 0x20⟩,
  ⟨0x40014008, 1, 0x0, 1, 0x0, 0x0, 0x1F, 0x0, 0x0, 0x1F, 0x0⟩,
  ⟨0x4001400C, 1, 0x0, 1, 0x0, 0x0, 0x0, 0x0, 0x0, 0xFFFFFFFF, 0x0⟩,
  ⟨0x40014010, 1, 0x0, 1, 0x0, 0x0, 0x0, 0x0, 0x0, 0xFFFFFFFF, 0x0⟩,
  ⟨0x40014014, 1, 0x0, 1, 0x0, 0x0, 0x0, 0x0, 0x0, 0x3FFFFFF, 0x0⟩,
  ⟨0x40014018, 1, 0x0, 1, 0x0, 0x0, 0x0, 0x0, 0x0, 0x80F77FFF, 0x0⟩,
  ⟨0x40014020, 1, 0x0, 1, 0x0, 0x3, 0x0, 0x0, 0x0, 0x3, 0x2⟩,
  ⟨0x40014024, 1, 0x0, 1, 0x0, 0x0, 0x0, 0x0, 0x0, 0xFFFFFFFF, 0x0⟩,
  ⟨0x40014028, 4, 0x4, 1, 0x0, 0x0, 0xFFFFFFFF, 0x0, 0x0, 0xFFFFFFFF, 0x0⟩,
  ⟨0x40014040, 1, 0x0, 1, 0x0, 0x0, 0x0, 0x0, 0x0, 0x3FF03FF, 0x0⟩,
  ⟨0x40014044, 1, 0x0, 1, 0x0, 0x0, 0x0, 0x0, 0x0, 0x3FF03FF, 0x0⟩,
  ⟨0x40014048, 1, 0x0, 1, 0x0, 0x0, 0x0, 0x0, 0x3FF, 0x3FF, 0x0⟩,
  ⟨0x40014050, 1, 0x0, 1, 0x0, 0x7F, 0x0, 0x0, 0x0, 0x7F, 0x0⟩,
  ⟨0x40014054, 1, 0x0, 1, 0x0, 0x0, 0x0, 0x0, 0x0, 0xFFFFFFFF, 0x0⟩,
  ⟨0x40014080, 1, 0x0, 1, 0x0, 0xFF0F, 0x0, 0x0, 0x0, 0xFF0F, 0x80F⟩,
  ⟨0x40014084, 1, 0x0, 1, 0x0, 0x0, 0x3F, 0x0, 0x0, 0x3F, 0x0⟩,
  ⟨0x40014088, 1, 0x0, 1, 0x0, 0x3F, 0x0, 0x0, 0x0, 0x3F, 0x3F⟩,
  ⟨0x40014090, 4, 0x4, 1, 0x0, 0x0, 0xFFFFFFFF, 0x0, 0x0, 0xFFFFFFFF, 0x0⟩,
  ⟨0x400140A0, 1, 0x0, 1, 0x0, 0x2077F, 0x0, 0x0, 0x0, 0x2077F, 0x0⟩,
  ⟨0x400140A4, 1, 0x0, 1, 0x0, 0x0, 0x0, 0x0, 0x0, 0xFF01FFFF, 0x0⟩,
  ⟨0x400140B0, 1, 0x0, 1, 0x0, 0x1F, 0x0, 0x0, 0x0, 0x1F, 0x0⟩,
  ⟨0x400140B4, 1, 0x0, 1, 0x0, 0x0, 0x0, 0x0, 0x0, 0x1F, 0x0⟩,
  ⟨0x400140C0, 4, 0x4, 1, 0x0, 0x0, 0x0, 0xFFFFFFFF, 0x0, 0xFFFFFFFF, 0x0⟩]

/-- Register rows of the VLM page (R130; 04_vellum.md), part 2. -/
def regsOfVLM1 : List RegSpec := [
  ⟨0x400140E0, 1, 0x0, 1, 0x0, 0x3FFE001, 0x0, 0x0, 0x0, 0x3FFE001, 0x0⟩,
  ⟨0x400140E4, 1, 0x0, 1, 0x0, 0x0, 0x0, 0x0, 0x0, 0xFFFFFFFF, 0x0⟩,
  ⟨0x400140E8, 1, 0x0, 1, 0x0, 0x0, 0x0, 0x0, 0x0, 0xFFFFFFFF, 0x0⟩,
  ⟨0x400140F0, 3, 0x4, 1, 0x0, 0xFFFFFFFF, 0x0, 0x0, 0x0, 0xFFFFFFFF, 0x0⟩,
  ⟨0x400140FC, 1, 0x0, 1, 0x0, 0x0, 0x0, 0x0, 0x0, 0x0, 0x0⟩]

/-- Register rows of the VLM page. -/
def regsOfVLM : List RegSpec := regsOfVLM0 ++ regsOfVLM1

/-- Register rows of the SER page (R621; 21_serial_gpio.md). -/
def regsOfSER : List RegSpec := [
  ⟨0x40015000, 2, 0x40, 1, 0x0, 0x3F, 0x0, 0x0, 0x0, 0x3F, 0x6⟩,
  ⟨0x40015004, 2, 0x40, 1, 0x0, 0xFFFFF, 0x0, 0x0, 0x0, 0xFFFFF, 0x341⟩,
  ⟨0x40015008, 2, 0x40, 1, 0x0, 0x1F1F, 0x0, 0x0, 0x0, 0x1F1F, 0x1⟩,
  ⟨0x4001500C, 2, 0x40, 1, 0x0, 0x0, 0x0, 0x0, 0x0, 0xFF, 0x0⟩,
  ⟨0x40015010, 2, 0x40, 1, 0x0, 0x0, 0x3F0000, 0x0, 0x0, 0x3F3F3F, 0x0⟩,
  ⟨0x40015014, 2, 0x40, 1, 0x0, 0x3F, 0x0, 0x0, 0x0, 0x3F, 0x34⟩,
  ⟨0x40015100, 1, 0x0, 1, 0x0, 0x1FF, 0x0, 0x0, 0x0, 0x1FF, 0x4⟩,
  ⟨0x40015104, 1, 0x0, 1, 0x0, 0x7FFFFFF, 0x0, 0x0, 0x0, 0x7FFFFFF, 0x103⟩,
  ⟨0x40015108, 1, 0x0, 1, 0x0, 0xFFFFFFFF, 0x0, 0x0, 0x0, 0xFFFFFFFF, 0x0⟩,
  ⟨0x4001510C, 1, 0x0, 1, 0x0, 0x0, 0x6, 0x0, 0x0, 0x7, 0x0⟩,
  ⟨0x40015110, 1, 0x0, 1, 0x0, 0x2, 0x0, 0x0, 0x0, 0x2, 0x0⟩,
  ⟨0x40015200, 4, 0x80, 1, 0x0, 0x7, 0x0, 0x0, 0x0, 0x7, 0x0⟩,
  ⟨0x40015204, 4, 0x80, 1, 0x0, 0x3F3F7F, 0x0, 0x0, 0x0, 0x3F3F7F, 0x0⟩,
  ⟨0x40015208, 4, 0x80, 1, 0x0, 0x0, 0x7E, 0x0, 0x0, 0x3F7F, 0x0⟩,
  ⟨0x4001520C, 4, 0x80, 1, 0x0, 0x3F, 0x0, 0x0, 0x0, 0x3F, 0x3F⟩,
  ⟨0x40015220, 4, 0x80, 8, 0x4, 0xFFFFFFFF, 0x0, 0x0, 0x0, 0xFFFFFFFF, 0x0⟩,
  ⟨0x40015240, 4, 0x80, 8, 0x4, 0x0, 0x0, 0x0, 0x0, 0xFFFFFFFF, 0x0⟩,
  ⟨0x40015400, 64, 0x4, 1, 0x0, 0xFFFFFFFF, 0x0, 0x0, 0x0, 0xFFFFFFFF, 0x0⟩]

/-- Register rows of the GPIO page (R623; 21_serial_gpio.md). -/
def regsOfGPIO : List RegSpec := [
  ⟨0x40016000, 2, 0x4, 1, 0x0, 0x0, 0x0, 0x0, 0x0, 0xFFFFFFFF, 0x0⟩,
  ⟨0x40016008, 2, 0x4, 1, 0x0, 0xFFFFFFFF, 0x0, 0x0, 0x0, 0xFFFFFFFF, 0x0⟩,
  ⟨0x40016010, 2, 0x4, 1, 0x0, 0x0, 0x0, 0x0, 0x0, 0x0, 0x0⟩,
  ⟨0x40016018, 2, 0x4, 1, 0x0, 0x0, 0x0, 0x0, 0x0, 0x0, 0x0⟩,
  ⟨0x40016020, 2, 0x4, 1, 0x0, 0x0, 0xFFFFFFFF, 0x0, 0x0, 0xFFFFFFFF, 0x0⟩,
  ⟨0x40016100, 48, 0x4, 1, 0x0, 0x1777, 0x0, 0x0, 0x0, 0x1777, 0x0⟩]

/-- Register rows of the DBG page (R726; 25_lifecycle_debug.md). -/
def regsOfDBG : List RegSpec := [
  ⟨0x40017000, 1, 0x0, 1, 0x0, 0x0, 0x0, 0x0, 0x0, 0xFF, 0x0⟩,
  ⟨0x40017004, 1, 0x0, 1, 0x0, 0x0, 0x0, 0x0, 0x0, 0x0, 0x0⟩,
  ⟨0x40017008, 1, 0x0, 1, 0x0, 0x0, 0x0, 0x0, 0x0, 0xFF, 0x0⟩,
  ⟨0x4001700C, 1, 0x0, 1, 0x0, 0x0, 0x1F, 0x0, 0x0, 0x1F, 0x0⟩,
  ⟨0x40017010, 1, 0x0, 1, 0x0, 0x1F, 0x0, 0x0, 0x0, 0x1F, 0x1F⟩,
  ⟨0x40017014, 1, 0x0, 1, 0x0, 0x0, 0x0, 0x0, 0x0, 0xFFFFFFFF, 0x0⟩]

/-- Register rows of the YLX page (R164 (core n at +0x1000·n; own page alias 0x0011_0000); 05_yelex_cores.md). -/
def regsOfYLX : List RegSpec := [
  ⟨0x00120000, 8, 0x1000, 1, 0x0, 0x0, 0x0, 0x0, 0x0, 0xF, 0x0⟩,
  ⟨0x00120004, 8, 0x1000, 1, 0x0, 0x11, 0x0, 0x0, 0x0, 0x11, 0x10⟩,
  ⟨0x00120008, 8, 0x1000, 1, 0x0, 0x0, 0x18, 0x0, 0x0, 0x3F, 0x0⟩,
  ⟨0x0012000C, 8, 0x1000, 1, 0x0, 0x1, 0x0, 0x0, 0x0, 0x1, 0x0⟩,
  ⟨0x00120010, 8, 0x1000, 1, 0x0, 0xFFFFFFFF, 0x0, 0x0, 0x0, 0xFFFFFFFF, 0x0⟩,
  ⟨0x00120014, 8, 0x1000, 1, 0x0, 0x0, 0xC, 0x0, 0x0, 0xF, 0x1⟩,
  ⟨0x00120020, 8, 0x1000, 1, 0x0, 0xFFFFFF80, 0x0, 0x0, 0x0, 0xFFFFFF80, 0x0⟩,
  ⟨0x00120024, 8, 0x1000, 1, 0x0, 0xFFFFFFFC, 0x0, 0x0, 0x0, 0xFFFFFFFC, 0x0⟩,
  ⟨0x00120028, 8, 0x1000, 1, 0x0, 0xF, 0x0, 0x0, 0x0, 0xF, 0x0⟩,
  ⟨0x0012002C, 8, 0x1000, 1, 0x0, 0x0, 0x0, 0x0, 0x0, 0x1F, 0x0⟩,
  ⟨0x00120030, 8, 0x1000, 1, 0x0, 0x0, 0x0, 0x0, 0x0, 0xFFFFFFFF, 0x0⟩,
  ⟨0x00120040, 8, 0x1000, 1, 0x0, 0x7B, 0x0, 0x4, 0x0, 0x7F, 0xA⟩,
  ⟨0x00120044, 8, 0x1000, 1, 0x0, 0xFFFFFFFF, 0x0, 0x0, 0x0, 0xFFFFFFFF, 0xFFFFFFF⟩,
  ⟨0x00120048, 8, 0x1000, 1, 0x0, 0x0, 0x0, 0x0, 0x0, 0x0, 0x0⟩,
  ⟨0x0012004C, 8, 0x1000, 1, 0x0, 0x0, 0x0, 0x0, 0x0, 0xFFFFFFFF, 0xFFFFFFF⟩,
  ⟨0x00120050, 8, 0x1000, 1, 0x0, 0x0, 0x0, 0x0, 0x0, 0xFFFFFF, 0x0⟩,
  ⟨0x00120054, 8, 0x1000, 1, 0x0, 0x0, 0x0, 0x0, 0x0, 0xFFFC, 0x0⟩,
  ⟨0x00120100, 8, 0x1000, 8, 0x8, 0xFFFFFFC0, 0x0, 0x0, 0x0, 0xFFFFFFC0, 0x0⟩,
  ⟨0x00120104, 8, 0x1000, 8, 0x8, 0x3F1F, 0x0, 0x20, 0x0, 0x3F3F, 0x0⟩,
  ⟨0x00120140, 8, 0x1000, 1, 0x0, 0x1, 0x0, 0x0, 0x0, 0x1, 0x0⟩]

/-- Register rows of the IRQ page (R222; 07_interrupts.md). -/
def regsOfIRQ : List RegSpec := [
  ⟨0x40002800, 1, 0x0, 1, 0x0, 0x0, 0x0, 0x0, 0x0, 0x7, 0x0⟩,
  ⟨0x40002804, 1, 0x0, 1, 0x0, 0x0, 0x0, 0x0, 0x0, 0x0, 0x0⟩,
  ⟨0x40002808, 1, 0x0, 1, 0x0, 0x0, 0x0, 0x0, 0x0, 0x0, 0x0⟩,
  ⟨0x4000280C, 1, 0x0, 1, 0x0, 0x0, 0x0, 0x0, 0x0, 0xFFFFFFFF, 0x0⟩,
  ⟨0x40002810, 6, 0x4, 1, 0x0, 0x0, 0x0, 0x0, 0x0, 0xFFFFFFFF, 0x0⟩]

/-- Register rows of the IRQB page (R222 (bank of core c at model key 0x5000_0000 + 0x1000·c); 07_interrupts.md). -/
def regsOfIRQB : List RegSpec := [
  ⟨0x50000000, 8, 0x1000, 1, 0x0, 0x0, 0x0, 0x0, 0x0, 0x1F1F80FF, 0x108000⟩,
  ⟨0x50000004, 8, 0x1000, 1, 0x0, 0x0, 0x0, 0x0, 0x0, 0x0, 0x0⟩,
  ⟨0x50000008, 8, 0x1000, 1, 0x0, 0x1F, 0x0, 0x0, 0x0, 0x1F, 0x10⟩,
  ⟨0x5000000C, 8, 0x1000, 1, 0x0, 0x1, 0x0, 0x0, 0x0, 0x1, 0x0⟩,
  ⟨0x50000010, 8, 0x1000, 1, 0x0, 0x0, 0x3, 0x0, 0x0, 0x3, 0x0⟩,
  ⟨0x50000040, 8, 0x1000, 6, 0x4, 0xFFFFFFFF, 0x0, 0x0, 0x0, 0xFFFFFFFF, 0x0⟩,
  ⟨0x50000060, 8, 0x1000, 6, 0x4, 0x0, 0x0, 0x0, 0x0, 0xFFFFFFFF, 0x0⟩,
  ⟨0x50000080, 8, 0x1000, 6, 0x4, 0x0, 0x0, 0x0, 0x0, 0xFFFFFFFF, 0x0⟩,
  ⟨0x500000A0, 8, 0x1000, 24, 0x4, 0xFFFFFFFF, 0x0, 0x0, 0x0, 0xFFFFFFFF, 0xFFFFFFFF⟩,
  ⟨0x50000100, 8, 0x1000, 16, 0x4, 0x0, 0x0, 0x0, 0x0, 0x1FFF, 0x0⟩]

/-- Does the row hold the register at address a? -/
def RegSpec.has (r : RegSpec) (a : Nat) : Bool :=
  (List.range r.cnt).any fun i => (List.range r.cnt2).any fun j => a == r.base + r.step * i + r.step2 * j

/-- The rows that may hold an address, by its page (R758). -/
def regRows (a : Nat) : List RegSpec :=
  match a / 0x1000 with
  | 0x40000 => regsOfSYS
  | 0x40001 => regsOfLCY
  | 0x40002 => regsOfIRQ
  | 0x40003 => regsOfTMR
  | 0x40004 => regsOfCHK
  | 0x40005 => regsOfBOB
  | 0x40006 => regsOfMBX
  | 0x40007 => regsOfPRK
  | 0x40008 => regsOfPRK
  | 0x40009 => regsOfGND
  | 0x4000A => regsOfMTF
  | 0x4000B => regsOfEYE
  | 0x4000C => regsOfAPQ
  | 0x4000D => regsOfAPQ
  | 0x4000E => regsOfBMO
  | 0x4000F => regsOfSND
  | 0x40010 => regsOfAUD
  | 0x40011 => regsOfLTN
  | 0x40012 => regsOfEMB
  | 0x40013 => regsOfADC
  | 0x40014 => regsOfVLM
  | 0x40015 => regsOfSER
  | 0x40016 => regsOfGPIO
  | 0x40017 => regsOfDBG
  | p =>
    if 0x120 ≤ p ∧ p < 0x128 then regsOfYLX
    else if 0x50000 ≤ p ∧ p < 0x50008 then regsOfIRQB
    else if 0x50020 ≤ p ∧ p < 0x50022 then regsOfSNDV
    else []

/-- The row of the register at address a, if R758 lists one there (R759). -/
def regSpec (a : Nat) : Option RegSpec := (regRows a).find? fun r => r.has a

/-- Does a register stand at this address (R758, R759)? -/
def isReg (a : Nat) : Bool := (regSpec a).isSome

/-- What a register's stored bits become when software stores v (R6): RW bits take v, W1C bits written 1 clear, W1S bits
written 1 set, every other bit is unchanged (R4: reserved bits ignore writes). -/
def RegSpec.store (r : RegSpec) (old v : Word) : Word :=
  (((old &&& ~~~(w32 r.rw)) ||| (v &&& w32 r.rw)) &&& ~~~(v &&& w32 r.w1c)) ||| (v &&& w32 r.w1s)

end Sys2Proof.Machine
end

