-- ==== Sys2Proof/Machine/State.lean ====
section
/-! DEFINITION. The block's state as plain data: the register file, memory, every unit's own state, and the queue of
commands that wait, first in, first out. Every field's default is its value after a cold reset from VIN. -/

namespace Sys2Proof.Machine

/-- Why a command stops with a fault. No meaning of this model raises one: every event the spec describes has an
effect. Kept so that the type is closed and not empty. -/
inductive Fault where
  /-- Raised by no command. Safe: a model that never stops on it claims nothing from it. -/
  | none
deriving DecidableEq, Repr

/-- Why a command is refused. -/
inductive Refusal where
  /-- Raised by exec for a row whose meaning is not written yet. Safe: nothing is claimed of the row. -/
  | notModelled (mnemonic : String)
deriving DecidableEq, Repr

/-- Supervisor or user mode of a core (05). -/
inductive Mode where
  | S
  | U
deriving DecidableEq, Repr

/-- A Pricking's own state beside its registers (03). Times are commands: the counters move only by commands. -/
structure PrkBeam where
  /-- HTOTAL in force, taken at the counter start (R68, R72). -/
  htotal : Nat := 0x420
  /-- HACTIVE in force. -/
  hactive : Nat := 0x320
  /-- HFRONT in force. -/
  hfront : Nat := 0x028
  /-- HSYNC in force. -/
  hsync : Nat := 0x080
  /-- VTOTAL in force. -/
  vtotal : Nat := 0x20D
  /-- VACTIVE in force; VB0 is line VACTIVE (R66). -/
  vactive : Nat := 0x1E0
  /-- VFRONT in force. -/
  vfront : Nat := 0x00A
  /-- VSYNC in force. -/
  vsync : Nat := 0x002
  /-- LEAD in force. -/
  lead : Nat := 2
  /-- Commit line in force (R79). -/
  commitLine : Nat := 0x1E0
  /-- The synthesizer runs or locks (R72, R73). -/
  synOn : Bool := false
  /-- Between a RUN write and its counter start (R72). -/
  locking : Bool := false
  /-- Relocking after a loss of lock (R65). -/
  relocking : Bool := false
  /-- RUN written 0 while the Beam runs: a stop is armed (R73). -/
  stopArmed : Bool := false
  /-- INT taken at the RUN write (R63). -/
  synInt : Nat := 0x10
  /-- POST taken at the RUN write (R63). -/
  synPost : Nat := 0x30
  /-- Centre rate applied, INT × 2^24 + FRAC (R60, R63). -/
  centre : Nat := 0x10A1CAC1
  /-- GENLOCK integrator (R83). -/
  freqOff : Rat := 0
  /-- GENLOCK offset computed at the last edge (R83). -/
  offset : Rat := 0
  /-- GENLOCK offset applied at the last VB0 (R83). -/
  appOffset : Rat := 0
  /-- Consecutive edges with |e| ≤ 2 (R84). -/
  glkIn : Nat := 0
  /-- Consecutive edges with |e| > 16 (R84). -/
  glkOut : Nat := 0
  /-- Consecutive edges with offset at a limit (R84). -/
  glkLimit : Nat := 0
  /-- Least slack reported so far, by line (R80, R81). -/
  slack : List (Nat × Int) := []
  /-- Least slack of the lines completed in the present frame (R81). -/
  frameSlack : Option Int := none
  /-- Lines begun since reset: the model's own serial number of the present line. -/
  serial : Nat := 0
  /-- A frame has begun since the counter start (R91). -/
  frameBegun : Bool := false
  /-- PRK_CTRL.GLK has been written 0 since the last VB0 (R86). -/
  glkClr : Bool := false
deriving DecidableEq, Repr

/-- A request of an event crossing that a consumer has not acknowledged yet (R41): the Bobbin channel, or the ADC where there is
none, the kind of event (1 a timer event of R545, 2 a unit request of R586) and its number. -/
structure EvReq where
  dst : Option BobCh
  src : Nat
  sel : Nat
deriving DecidableEq, Repr

/-- One FSYNC driver (R87 to R91). -/
structure FsPort where
  /-- PRK_FS_CTRLn as in force (R90). -/
  ctrl : Word := 0x00010000
  /-- PRK_FS_POSn as in force (R90). -/
  pos : Word := 0
  /-- The pulse in progress: its Beam and its width in pixel periods. -/
  pulse : Option (Beam × Nat) := none
  /-- Writes that wait for a line 0, oldest first: the Beam whose line 0 takes the write, whether it went to PRK_FS_POSn, and
  the register as written (R90). -/
  pend : List (Beam × Bool × Word) := []
deriving DecidableEq, Repr

/-- A request to Vellum: 1 to 8 words within one granule (R100). -/
structure VReq where
  cls : VClass
  /-- Index of the requester (R111). -/
  idx : Nat
  write : Bool
  /-- Offset A of the first word. -/
  off : Nat
  /-- Number of words. -/
  n : Nat
  /-- The bytes of a write, none where the byte enable is 0 (R100); of a read, the bytes taken at its grant. -/
  bytes : List (Option Byte)
  /-- Words of a read that were uncorrectable at its grant, by offset (R107). -/
  bad : List Nat := []
  /-- The handshake is acknowledged (R114 to R117). -/
  acked : Bool
  /-- A read's token comes from its class's reserve and not from the pool (R115). -/
  own : Bool
  /-- The bank arbiter has granted it (R113). -/
  granted : Bool
deriving DecidableEq, Repr

/-- What a completed read delivered to its requester. -/
structure VDelivery where
  cls : VClass
  idx : Nat
  off : Nat
  bytes : List Byte
  /-- The words marked uncorrectable, by offset. -/
  bad : List Nat
deriving DecidableEq, Repr

/-- Where a bank stands in the scrub slot (R121, R123). -/
inductive SlotSt where
  | idle | active | done | missed
deriving DecidableEq, Repr

/-- One bank of the controller: logical banks 0 to 95, spares 96 to 101. -/
structure BankSt where
  /-- Next word to scrub (R121). -/
  pos : Nat := 0
  /-- Consecutive slots missed (R124). -/
  misses : Nat := 0
  slot : SlotSt := .idle
  /-- Scrub reads of the slot not yet granted. -/
  left : Nat := 0
  /-- The rest of the slot runs above BEAM (R122). -/
  promoted : Bool := false
  /-- The bank has ended a pass since the last increment of VLM_SCRUB_PASS (R121). -/
  ended : Bool := false
  /-- VLM_BANK_STAT.CE (R106). -/
  ce : Nat := 0
  /-- VLM_BANK_STAT.UE (R107). -/
  ue : Nat := 0
  /-- Correctable errors found in the pass in progress (R677). -/
  passCe : Nat := 0
  /-- Requester last granted, by class number (R113). -/
  rr : List (Nat × Nat) := []
deriving DecidableEq, Repr

/-- The Vellum controller beside its registers (04). -/
structure Vlm where
  /-- Requests waiting or in flight, oldest first. -/
  reqs : List VReq := []
  /-- The last reads delivered, newest first, one per requester. -/
  delivered : List VDelivery := []
  /-- Banks, by number; unlisted ones stand at their reset values. -/
  banks : List (Nat × BankSt) := []
  /-- Logical bank to physical bank; an unlisted bank is served by itself (R97, R128). -/
  map : List (Nat × Nat) := []
  /-- A slot is in progress (R121), as VLM_STAT.SCRUB_ACTIVE shows. -/
  slotOpen : Bool := false
  /-- The tick from which the next free-period slot is counted: the free period came into force, or its last slot opened (R120). -/
  freeFrom : BitVec 64 := 0
  /-- The tick at which the slot in progress opened (R122). -/
  slotAt : BitVec 64 := 0
  /-- Syndromes of the uncorrectable words whose check bits a read has met, by address (R105). -/
  syn : List (Nat × Byte) := []
  /-- Uncorrectable words of the free spares: 65536 × bank + word, sorted (R107). -/
  spareUe : List Nat := []
  /-- Shed step 1 was released in this interval of blanking; the copier waits for the next one (R129). -/
  copyHold : Option (Nat × Nat) := none
deriving DecidableEq, Repr

/-- What a WAITUNTIL waits for (R195). -/
structure WaitFor where
  /-- 0 Beam A position, 1 Beam B position, 2 TIME_LO. -/
  src : Nat
  value : Word
deriving DecidableEq, Repr

/-- A Yelex core beside its YLX page (05, 06) and its interrupt bank (07). -/
structure CoreSt where
  /-- g0 to g15; slot 13 is the S copy of g13 and slot 15 is not used (R165, R167). -/
  g : Vector Word 16 := Vector.replicate 16 0
  /-- The U copy of g13 (R165). -/
  usp : Word := 0
  p1 : Bool := false
  p2 : Bool := false
  p3 : Bool := false
  /-- The event latch (R193, R194). -/
  latch : Bool := false
  pc : Word := 0
  mode : Mode := .S
  /-- Asleep in WFE (R194). -/
  asleep : Bool := false
  /-- Asleep in the park window of the ROM (R136). -/
  parked : Bool := false
  /-- Waiting in WAITUNTIL (R195). -/
  wait : Option WaitFor := none
  /-- In debug halt (R723). -/
  halted : Bool := false
  /-- Stores to register pages issued and not yet landed, oldest first, each with U mode or not (R146, R147). -/
  stores : List (Nat × Word × Bool) := []
  /-- Watchdog stage 1 has been reached since the last kick (R161). -/
  stage1 : Bool := false
  /-- Next word of the local scrubber (R144). -/
  lmScrub : Nat := 0
  /-- The interrupt priority stack, top first: (source, running priority before) (R210). -/
  stack : List (Nat × Nat) := []
  /-- The running priority, 16 when none is served (R207). -/
  runPrio : Nat := 16
  /-- Pending bits of the pulse sources, sorted (R206). -/
  pulse : List Nat := []
  /-- IRQ_VIEW.CORE of this core (R222). -/
  view : Fin 8 := 0
  /-- This core's copies of the index ports (palette, motif attribute and SND_VSEL), by register address. -/
  ports : List (Nat × Word) := []
deriving DecidableEq, Repr

/-- One entry of the fault journal before its sequence number is given (R697). -/
structure JrnEntry where
  time : BitVec 64
  source : Nat
  event : Nat
  unit : Nat
  d0 : Word
  d1 : Word
  d2 : Word
  frameA : Word
deriving DecidableEq, Repr

/-- Where a fetched pixel's colour comes from: a palette entry of its Beam, or the pixel itself (R358). -/
inductive PixSrc where
  | index (palette i : Nat)
  | argb (a r g b : Nat)
deriving DecidableEq, Repr

/-- A fetched pixel of a plane, with what Appliqué takes along (R354, R358). -/
structure RawPix where
  src : PixSrc
  prio : Nat
  blend : Nat
  /-- The pixel depends on an uncorrectable word (R110). -/
  bad : Bool
deriving DecidableEq, Repr

/-- An entry of the affine table (R372). -/
structure AffEntry where
  a : Int
  b : Int
  c : Int
  d : Int
  x0 : Int
  y0 : Int
  /-- The entry was read with an uncorrectable word. -/
  bad : Bool
deriving DecidableEq, Repr

/-- A plane's live registers captured for one line, clamped (R361, R374). -/
structure PlaneSnap where
  beam : Beam
  line : Nat
  format : Nat
  tile : Nat
  mapBase : Nat
  mapW : Nat
  mapH : Nat
  tileBase : Nat
  scrollX : Nat
  scrollY : Nat
  winX : Nat
  winY : Nat
  winW : Nat
  winH : Nat
  affine : Bool
  /-- The line's affine entry; none where it is not read (R375). -/
  aff : Option AffEntry
  /-- The pixels that the fetch had read when the cache was flushed (R368). -/
  got : List RawPix := []
deriving DecidableEq, Repr

/-- The pixels a plane has fetched for one line, from column x0 on. -/
structure LineBuf where
  beam : Beam
  line : Nat
  x0 : Nat
  px : List RawPix
deriving DecidableEq, Repr

/-- One ground plane beside its registers (12). -/
structure PlaneSt where
  /-- Lines captured whose fetch is not complete. -/
  snaps : List PlaneSnap := []
  /-- Lines whose fetch was not complete when they had been output: they still report their slack (R81). -/
  late : List PlaneSnap := []
  /-- The line buffer: lines fetched and not yet taken. -/
  bufs : List LineBuf := []
  /-- The tile cache: granule offset, its bytes, and which of its words are uncorrectable; most recently used first. -/
  cache : List (Nat × List Byte × Byte) := []
deriving DecidableEq, Repr

/-- A live palette entry that changed, with the Beam's line serial and pixel at which the write landed (R359, R360). -/
structure PalChange where
  serial : Nat
  pixel : Nat
  entry : Nat
  old : Word
deriving DecidableEq, Repr

/-- A motif selected for a line, with the words of its entry as evaluated (R392, R393). -/
structure MotifSel where
  entry : Nat
  words : List Word
deriving DecidableEq, Repr

/-- The row of one motif on one line: its column, pixels and what they carry (R385 to R387). -/
structure MotifRow where
  x0 : Int
  px : List (PixSrc × Bool)
  alpha : Nat
  prio : Nat
  blend : Nat
deriving DecidableEq, Repr

/-- The motif engine of one Beam (13). -/
structure MotifBeam where
  /-- The attribute shadow: word w of entry e at 8 e + w. -/
  attr : List (Nat × Word) := []
  /-- A commit-point load runs (R389). -/
  loading : Bool := false
  /-- Lines evaluated whose graphics are not complete: the motifs of each. -/
  evals : List (Nat × List MotifSel) := []
  /-- Lines whose graphics were not complete when they had been output: they still report their slack (R81). -/
  late : List (Nat × List MotifSel) := []
  /-- The evaluation of line 0 waits for the load to end (R389). -/
  waits : Bool := false
  /-- Lines complete: the rows of each, lowest entry first. -/
  bufs : List (Nat × List MotifRow) := []
deriving DecidableEq, Repr

/-- The motif engine's state that both Beams share. -/
structure MotifSt where
  /-- Logical slices marked failed, 16 × Beam + k, sorted (R394, R684). -/
  failed : List Nat := []
  /-- The slice that the spare serves (R685). -/
  spareFor : Option Nat := none
  /-- Slices whose last check mismatched (R684). -/
  suspects : List Nat := []
  /-- An MTF_INVAL reload that waits: first entry, count, mask, and the Beams whose loads it waits for (R398). -/
  inval : Option (Nat × Nat × Nat × List Nat) := none
deriving DecidableEq, Repr

/-- A pixel as sent, D bits a channel. -/
structure Rgb where
  r : Nat
  g : Nat
  b : Nat
deriving DecidableEq, Repr

/-- APQ_MODE, APQ_BACKDROP and APQ_ORDER captured for a line (R452). -/
structure ApqSnap where
  line : Nat
  mode : Word
  backdrop : Word
  order : List Nat
  /-- The line was output before its composite started: then whether windows are drawn on it (R454, R80). -/
  late : Option Bool := none
deriving DecidableEq, Repr

/-- A signature region as captured for a frame (R462), with its CRC so far. -/
structure SigRegion where
  en : Bool := false
  x : Nat := 0
  y : Nat := 0
  w : Nat := 0
  h : Nat := 0
  crc : Word := 0xFFFFFFFF
  uncertain : Bool := false
deriving DecidableEq, Repr

/-- A write that waits for a transfer to end (R459): to a shadow register, or to a shadow palette entry. -/
inductive HeldWrite where
  | reg (a : Nat) (v : Word)
  | spal (key : Nat) (v : Word)
deriving DecidableEq, Repr

/-- One Appliqué beside its registers (15). -/
structure ApqBeam where
  /-- Lines of the frame whose composite has started (R453). -/
  started : Nat := 0
  /-- The line whose spans fall due, and the next span of it. -/
  outLine : Nat := 0
  outSpan : Nat := 0
  /-- Error of the temporal dither, by channel; none stands for the line's seed (R450). -/
  err : Option (Nat × Nat × Nat) := none
  snaps : List ApqSnap := []
  /-- The output line store (R455). -/
  store : List Rgb := []
  /-- The spans of outLine sent so far. -/
  sent : List Rgb := []
  /-- Lines captured with an overtake that are not yet output (R424, R465). -/
  overtook : List Nat := []
  regions : Vector SigRegion 16 := Vector.replicate 16 {}
  /-- First frayed line of the frame (R454). -/
  frayLine : Option Nat := none
  /-- A request landed during TRANSFER (R457, R461). -/
  armAfter : Bool := false
  /-- PRK_FRAME when the request landed that set ARMED: its transfer waits for the commit point of a later frame (R457). -/
  armOf : Word := 0
  /-- Writes that wait for the transfer to end, oldest first (R459). -/
  held : List HeldWrite := []
  /-- APQ_COMMIT_FRAME of every transfer ended since the last reset, oldest first: the model's own count, for COMMIT. -/
  ends : List Word := []
deriving DecidableEq, Repr

/-- The values a camera frame uses, clamped at its start (R418). -/
structure EyeGeom where
  /-- 0 double, 1 triple, 2 race. -/
  mode : Nat
  argb : Bool
  bt709 : Bool
  dt : Nat
  ring : Nat
  base : Nat
  stride : Nat
  cropX : Nat
  cropY : Nat
  cropW : Nat
  cropH : Nat
  outW : Nat
  outH : Nat
deriving DecidableEq, Repr

/-- A camera frame received or still landing (R410 to R420). -/
structure EyeFrame where
  /-- The model's own serial number of the frame on its port. -/
  serial : Nat
  geom : EyeGeom
  fnum : Half
  /-- Physical pipeline from the frame start on (R407). -/
  pipe : Nat
  /-- The pipeline writes no further row of this frame (R682). -/
  dead : Bool
  /-- Buffer written in frame mode (R421). -/
  buf : Nat
  /-- Input rows in arrival order, as 8-bit pixels after R412 and R419. -/
  rows : List (List Rgb) := []
  /-- The greatest width received. -/
  width : Nat := 0
  /-- Running CRC-32C of R429. -/
  crc : Word := 0xFFFFFFFF
  /-- Its end has been received. -/
  ended : Bool := false
  /-- The next output row. -/
  next : Nat := 0
  /-- The output row in progress started with two taps (R437). -/
  taps2 : Bool
deriving DecidableEq, Repr

/-- A ring slot's tag (R423) and whether a window capture has read the row (R425). -/
structure RingTag where
  frame : Nat
  row : Nat
  read : Bool
deriving DecidableEq, Repr

/-- A window's pixels for one line of its Beam, as captured (R424, R428). -/
structure WinBuf where
  beam : Beam
  line : Nat
  x0 : Nat
  alpha : Nat
  px : List RawPix
deriving DecidableEq, Repr

/-- One Eyelet port beside its registers (14). -/
structure EyePort where
  /-- Camera frames whose rows are not all landed, oldest first; the last may still be arriving. -/
  frames : List EyeFrame := []
  /-- Frames started so far: the model's own numbering. -/
  serial : Nat := 0
  /-- F of R424. -/
  raceF : Option Nat := none
  /-- A deskew alignment waits for the next frame start (R411). -/
  deskewPend : Bool := false
  /-- A received deskew alignment is applied (R411). -/
  deskewOn : Bool := false
  /-- Last pixel accepted since the port start (R419). -/
  lastPix : Rgb := { r := 0, g := 0, b := 0 }
  /-- PCRC of the complete frame before, and the length of its run (R430). -/
  lastPcrc : Option Word := none
  run : Nat := 0
  /-- Frame number of the frame start before (R431). -/
  lastFn : Option Half := none
  /-- Newest complete buffer (R421). -/
  newest : Option Nat := none
  /-- Complete buffers not yet displayed (R421). -/
  unshown : List Nat := []
  /-- Ring slot tags (R423). -/
  tags : List (Nat × RingTag) := []
  /-- The last window line captured: Beam, frame, window line, pixels (R424). -/
  lastRow : Option (Beam × Word × Nat × List RawPix) := none
  /-- Window lines captured and not yet taken. -/
  bufs : List WinBuf := []
  /-- EYE_POLICY and EYE_LOST as PORT_POLICY has set them for the next frame start (R327). -/
  policy : Option (Word × Word) := none
  /-- The pipeline that the last frame start took from EYE_PIPE_MAP; at reset the port's own (R407). -/
  pipe : Nat := 0
deriving DecidableEq, Repr

/-- The output block of one Beam beside its registers (16); its two links run alike (R473). -/
structure BmoBeam where
  /-- Words queued and not yet released, oldest first (R481). -/
  fifo : List Word := []
  /-- Released command packets that wait to be sent (R481). -/
  ready : List (List Word) := []
  /-- Packets of a hold list that wait to be sent (R486, R490). -/
  list : List (List Word) := []
  /-- The link's first frame since its start has begun (R474). -/
  frameOn : Bool := false
  /-- The link is inside a frame: its next line is not line 0. -/
  inFrame : Bool := false
  /-- Step 1 of a hold entry has ended (R486). -/
  listDone : Bool := false
  /-- The held frame, once its line 0 packet has started (R486). -/
  heldFrame : Option Word := none
  /-- After a release that ended in LP-11 the link waits for EN to be written 0 and then 1 (R490). -/
  needEn : Bool := false
  /-- The Mark-1 state is part of a release (R490). -/
  marking : Bool := false
  /-- The counters have stopped by R73 and the last line is still to be sent (R764). -/
  ending : Bool := false
  /-- Byte clocks that command packets have taken of a line, and that line's serial number (R482). -/
  cmdUsed : Nat × Nat := (0, 0)
deriving DecidableEq, Repr

/-- A gain change in progress (R508, R509). -/
structure GainChange where
  ramp : Bool
  fromL : Nat
  fromR : Nat
  target : Nat
  /-- N of R509, or Nt of R508, in frames. -/
  n : Nat
  /-- Frames of the change so far. -/
  k : Nat := 0
  doneL : Bool := false
  doneR : Bool := false
deriving DecidableEq, Repr

/-- A gain of two channels (R506 to R510). -/
structure GainSt where
  l : Nat := 0x8000
  r : Nat := 0x8000
  change : Option GainChange := none
  /-- The signals of the last frame (R508). -/
  sl : Int := 0
  sr : Int := 0
deriving DecidableEq, Repr

/-- A logical voice beside its registers (17); the values a voice takes at ARM stand here. -/
structure VoiceSt where
  base : Nat := 0
  length : Nat := 0
  loopStart : Nat := 0
  loopLen : Nat := 0
  format : Nat := 0
  bus : Nat := 0
  attackMs : Nat := 0
  releaseMs : Nat := 0
  /-- Position P, with 16 fraction bits (R503). -/
  pos : Nat := 0
  /-- Envelope E (R505). -/
  env : Nat := 0
  /-- Frames of the attack, 0 when none runs. -/
  na : Nat := 0
  /-- Step of the release. -/
  step : Nat := 0
  gain : GainSt := {}
  /-- The voice starts at gain 0 and ramps (R507). -/
  startRamp : Bool := false
  /-- Outputs of the last frame (R527). -/
  outL : Int := 0
  outR : Int := 0
  /-- Mute factor in 64ths (R528). -/
  fade : Nat := 64
deriving DecidableEq, Repr

/-- A biquad stage's coefficients (R515). -/
structure Biquad where
  b0 : Int := 0
  b1 : Int := 0
  b2 : Int := 0
  a1 : Int := 0
  a2 : Int := 0
deriving DecidableEq, Repr

/-- A biquad stage's state on one channel (R516). -/
structure BiquadSt where
  x1 : Int := 0
  x2 : Int := 0
  y1 : Int := 0
  y2 : Int := 0
deriving DecidableEq, Repr

/-- The effect block in force (R515). -/
structure EfxBlock where
  nbq : Nat := 0
  delayEn : Bool := false
  stages : List Biquad := []
  delayBase : Nat := 0
  delayLen : Nat := 1
  fb : Int := 0
  mix : Int := 0
  limT : Nat := 1
  limRel : Nat := 1
deriving DecidableEq, Repr

/-- A sound bus beside its registers (R511 to R518). -/
structure BusSt where
  gain : GainSt := {}
  efx : EfxBlock := {}
  /-- The offset of an effect block whose read is in progress (R515). -/
  loading : Option Nat := none
  bqL : List BiquadSt := List.replicate 4 {}
  bqR : List BiquadSt := List.replicate 4 {}
  /-- Write index of the delay line (R516), and the frames for which it is taken to hold 0 (R515). -/
  w : Nat := 0
  zeros : Nat := 0
  /-- F of R513 with its movement: from, target, frames done. -/
  f : Nat := 65536
  fFrom : Nat := 65536
  fTarget : Nat := 65536
  fK : Nat := 256
  /-- F starts at its target in the next frame (R513). -/
  fJump : Bool := false
deriving DecidableEq, Repr

/-- An audio port beside its registers (R519 to R524). -/
structure AudPort where
  /-- FIFO of a slave port that is not the reference (R523). -/
  fifo : List (List Int) := []
  /-- The last frame it passed on. -/
  last : List Int := []
deriving DecidableEq, Repr

/-- The sound engine's own state (17). -/
structure SndSt where
  /-- Logical voices; unlisted ones stand at their reset values. -/
  voices : List (Nat × VoiceSt) := []
  buses : Vector BusSt 8 := Vector.replicate 8 {}
  ports : Vector AudPort 3 := Vector.replicate 3 {}
  /-- The frame computed for output ports 0 and 1, and the frame last sent. -/
  next0 : List Int := []
  next1 : List Int := []
  prev0 : List Int := []
  prev1 : List Int := []
  /-- Consecutive slave frames in and out of the range of R522. -/
  lockIn : Nat := 0
  lockOut : Nat := 0
  /-- The voice checker's rotation, and the voices whose last visit mismatched (R686). -/
  chkNext : Nat := 0
  chkBad : List Nat := []
deriving DecidableEq, Repr

/-- The timer stages beside their registers (18). -/
structure TmrSt where
  /-- Prescalers (R539). -/
  pre : Vector Nat 16 := Vector.replicate 16 0
  /-- The compare value in force, and the buffered low half (R538). -/
  tcmp : BitVec 64 := 0xFFFFFFFFFFFFFFFF
  tcmpLo : Word := 0xFFFFFFFF
  /-- The compare has been raised for the value in force. -/
  passed : Bool := false
  /-- The LP stepper is in use, and its accumulator (R549, R550). -/
  lp : Bool := false
  acc : Nat := 0
  /-- Channel and event of the occurrences that take effect at the next tick edge (R546). -/
  late : List (Nat × Nat) := []
deriving DecidableEq, Repr

/-- The parameters a check channel has latched (R558, R559). -/
structure ChkSt where
  w : Nat := 32
  poly : Nat := 0x1EDC6F41
  init : Nat := 0xFFFFFFFF
  xorout : Nat := 0xFFFFFFFF
  refin : Bool := true
  refout : Bool := true
deriving DecidableEq, Repr

/-- A Bobbin descriptor as read (R575). -/
structure BobDesc where
  srcHost : Bool
  dstHost : Bool
  srcFix : Bool
  dstFix : Bool
  d2 : Bool
  irq : Bool
  trig : Bool
  rowTrig : Bool
  last : Bool
  rows : Nat
  count : Nat
  src : Nat
  dst : Nat
  srcStride : Nat
  dstStride : Nat
  next : Nat
deriving DecidableEq, Repr

/-- What a Bobbin channel does next. -/
inductive BobPhase where
  /-- It is stopped. -/
  | idle
  /-- It fetches the descriptor that BOB_CURn names. -/
  | fetch
  /-- It waits for a trigger (R587). -/
  | wait
  /-- It moves the row in force. -/
  | move
  /-- It waits for a host read of n bytes (R582). -/
  | host (n : Nat)
  /-- It is being aborted, and its host read has not ended yet (R591). -/
  | abort
deriving DecidableEq, Repr

/-- A Bobbin channel beside its registers (20). -/
structure BobSt where
  phase : BobPhase := .idle
  desc : Option BobDesc := none
deriving DecidableEq, Repr

/-- A UART beside its registers (21). -/
structure UartSt where
  /-- The transmit FIFO; its first character is the one being sent (R599). -/
  tx : List Byte := []
  /-- UART_CTRL and UART_BAUD in force for the character being sent (R600). -/
  sending : Option (Word × Word) := none
  /-- The receive FIFO: each entry as UART_DATA returns it (R603, R621). -/
  rx : List Word := []
  /-- UART_CTRL before its last write, for a character whose start bit came before that write (R600). -/
  oldCtrl : Word := 0x6
  /-- The receive timeout has been raised since the last character (R604). -/
  timedOut : Bool := false
deriving DecidableEq, Repr

/-- A transaction of the boot-flash master (R605, R606): the opcode, the address bytes as sent, the line mode (0 1-1-1, 1 1-1-4, 2 1-4-4),
the dummy cycles, its direction, how many data bytes, the bytes it writes, FL_SCK's divisor, and whether it samples late. -/
structure FlashTx where
  op : Nat
  addr : List Byte
  mode : Nat
  dummy : Nat
  write : Bool
  len : Nat
  data : List Byte
  div : Nat
  late : Bool
deriving DecidableEq, Repr

/-- What an I2C master does on its bus (R609, R611). -/
inductive I2cOp where
  /-- A start or repeated start, then the address byte with its direction bit. -/
  | start (addr : Nat) (read : Bool)
  /-- A byte is written. -/
  | write (b : Byte)
  /-- A byte is read, and acknowledged or not. -/
  | read (ack : Bool)
  /-- A stop. -/
  | stop
deriving DecidableEq, Repr

/-- The I2C transaction in progress (R611): address, bytes to write, bytes to read, SPEED. -/
structure I2cTx where
  addr : Nat
  wr : List Byte
  rlen : Nat
  speed : Nat
deriving DecidableEq, Repr

/-- Serial units, ADC and GPIO beside their registers (21). -/
structure SerSt where
  uart : Vector UartSt 2 := Vector.replicate 2 {}
  i2c : Vector (Option I2cTx) 4 := Vector.replicate 4 none
  /-- ADC_SEQ as read by the sequence that runs (R614). -/
  adcSeq : Option Half := none
  /-- The filtered levels of the 48 GPIO balls, as GPIO_IN reads them (R618, R729). -/
  balls : BitVec 48 := 0
  /-- The boot-flash balls are driven: from ROM step 5 on, or from the first write to the QSPI block (R596, R738, R739). -/
  flashOn : Bool := false
deriving DecidableEq, Repr

/-- Darning beside its registers (24). -/
structure DrnSt where
  /-- Darns since the last start (DARN_STATUS). -/
  darns : Nat := 0
  /-- Cores that Tirba has marked failed until the next reset (R690). -/
  coreFailed : List Nat := []
  /-- Cores that have failed the core self-test (R689). -/
  selfFail : List Nat := []
  /-- Core 0 has had its one restart (R693). -/
  core0Restarted : Bool := false
  /-- Units whose detection has concluded that they have failed and that Tirba has still to darn, by kind and unit, oldest first
  (R675). -/
  want : List (Nat × Nat) := []
  /-- The Tirba log, a mirror of the fault journal: entries of 32 bytes, oldest first (R696). -/
  log : List (List Byte) := []
deriving DecidableEq, Repr

/-- Lantern beside its registers (22). -/
structure LtnSt where
  /-- The least slack that each Beam reported for lines completed since the last decision (R628). -/
  s : Vector (Option Int) 2 := Vector.replicate 2 none
  /-- Each Beam has completed a frame since its start (R628). -/
  first : Vector Bool 2 := Vector.replicate 2 false
  /-- Down steps in this frame of the pacing Beam (R628). -/
  downs : Nat := 0
  /-- Consecutive decisions with ICORE below LO % of C (R641). -/
  low : Nat := 0
  /-- Sense current (10 mA) and duty (0.1 %) of each phase (R647). -/
  sense : Vector (Nat × Nat) 14 := Vector.replicate 14 (0, 0)
  /-- Phases that limit their current at 3.0 A (R631). -/
  limited : List Nat := []
  /-- Spares engaged that do not carry their share yet, each with the phase it replaces (R634). -/
  engaging : List (Nat × Nat) := []
  /-- Pixel 0 of a line of the pacing Beam has come, and its decision has not been taken yet (R627). -/
  due : Bool := false
  /-- The time from which the free period in force counts (R627). -/
  freeAt : BitVec 64 := 0
  /-- Since when LIMIT has read 1, or its last advance (R641). -/
  limitAt : Option (BitVec 64) := none
deriving DecidableEq, Repr

/-- Ember and the wake logic beside their registers (23). -/
structure EmbSt where
  /-- VIN as last seen, in mV. -/
  vin : Nat := 3300
  /-- The charge current applied, in mA (R652). -/
  cur : Rat := 0
  /-- PROBE has found no cell and waits for its repeat (R651). -/
  noCell : Bool := false
  /-- VIN has fallen below 2.70 V during this STANDBY (R664). -/
  fell : Bool := false
  /-- A wake event has begun a wake start that has not run yet (R666, R667). -/
  waking : Bool := false
  /-- LP ticks since the RTC's last calibration (R658); the always-on domain holds them. -/
  calTicks : Nat := 0
  /-- Levels of WAKE0 and WAKE1. -/
  wakeLvl : Vector Bool 2 := Vector.replicate 2 false
  /-- The retained journal holds a hold record of the Beam (R489). -/
  holdRec : Vector Bool 2 := Vector.replicate 2 false
deriving DecidableEq, Repr

/-- A fuse: of a group (its number), or a hash fuse of key slot k (100 + k), and its index (R703). -/
abbrev Fuse := Nat × Nat

/-- The operation that the fuse sequencer runs (R710): a key slot with the hash to blow, then the groups in order. -/
structure LcyOp where
  hash : Option (Nat × BitVec 256)
  groups : List Nat
deriving DecidableEq, Repr

/-- The life-cycle unit beside its registers (25). The fuses start as this part carries them (Config) and are never unblown. -/
structure LcySt where
  /-- Blown fuses of each group, by its number (R703). -/
  groups : Vector (BitVec 5) 47 := Vector.ofFn fun g => Config.fuseGroup g.val
  /-- Blown hash fuses of each key slot (R703). -/
  hash : Vector (BitVec 256) 4 := Vector.ofFn fun k => Config.fuseHash k.val
  /-- The operation in progress (R714). -/
  op : Option LcyOp := none
deriving DecidableEq, Repr

/-- The JTAG port and debug access (R716 to R723). -/
structure DbgSt where
  /-- The TAP's instruction (R716). -/
  ir : BitVec 5 := 2
  /-- The boundary register as captured (R716). -/
  captured : BitVec 258 := 0
  /-- The boundary register's update latches, from which EXTEST and CLAMP drive (R717). -/
  drive : BitVec 258 := 0
  /-- The latest challenge with its time, unless it is used up (R719, R720). -/
  challenge : Option (List Byte × BitVec 64) := none
  /-- The response being checked, with the challenge that it answers, if it came in time (R719, R720). -/
  checking : Option (List Byte × Option (List Byte)) := none
  /-- Failed responses, saturating at 3 (R720). -/
  fails : Nat := 0
  blocked : Bool := false
  /-- The level granted (R720). -/
  level : Option Nat := none
  /-- DONE, ERROR and the read data of the last DBG_CMD (R722). -/
  cmdDone : Bool := false
  cmdError : Bool := false
  cmdData : Word := 0
deriving DecidableEq, Repr

/-- The host link beside the MBX registers (09), with the part of the PCI Express configuration space that acts on the
device (R220, R246, R250). -/
structure HostSt where
  /-- The selected link is enabled (R231). -/
  up : Bool := false
  /-- The function is in D3hot (R250). -/
  d3 : Bool := false
  /-- Bus Master Enable. -/
  busMaster : Bool := false
  msiEnable : Bool := false
  /-- Vectors granted by Multiple Message Enable, as a power of two's exponent. -/
  msiGrant : Nat := 0
  msiMask : Word := 0
  /-- Max_Read_Request_Size, as 128 × 2^k bytes. -/
  readSize : Nat := 2
  /-- Address and data of the MSI capability (R246). -/
  msiAddr : BitVec 64 := 0
  msiData : BitVec 16 := 0
  /-- Base addresses that the host has set: BAR0, and BAR2 with BAR3 (R247). -/
  bar0 : Word := 0
  bar2 : BitVec 64 := 0
  /-- Uncorrectable error status of Advanced Error Reporting (R246). -/
  aer : Word := 0
  /-- Status of the last QSPI write frame, and the count of accepted ones modulo 256 (R272). -/
  frameStatus : Nat := 0
  frameCount : Nat := 0
  /-- Doorbells that wait for earlier host writes to land, oldest first: the ring, the value, and how many of the oldest host
  writes in the Vellum controller it waits for (R16). -/
  bells : List (Ring × Word × Nat) := []
deriving DecidableEq, Repr

/-- A completion that is ready to be posted (R263, R288). -/
structure Reply where
  tag : Word
  status : Nat
  detail : Nat
  sqHead : Nat
  /-- Bytes 8 on; the rest of the slot is 0. -/
  result : List Byte
  notify : Bool
  /-- It belongs to a command in flight. -/
  cmd : Bool
  /-- The reset that DEVICE_RESET orders after its completion: cold or not (R340). -/
  reset : Option Bool := none
deriving DecidableEq, Repr

/-- A command in flight (10): its slots, what Tirba knows of it, and how far it has run. -/
structure Cmd where
  /-- Header and extension slots. -/
  desc : List Byte
  /-- Submission head after its slots (R288). -/
  sqHead : Nat
  session : Option Nat
  /-- Number in the order of fetching. -/
  serial : Nat
  /-- Its completion is discarded (R268, R251). -/
  discard : Bool
  /-- It ends with this status and DETAIL whatever it holds (R284, R294). -/
  failed : Option (Nat × Nat)
  /-- 0 before its start, 1 while its payload is read from host memory; later stages are the command's own. -/
  stage : Nat
  /-- What the command keeps between its stages. -/
  keep : List Nat
  /-- The payload as far as it has been read from host memory. -/
  payload : List Byte
  /-- A read of the payload has failed. -/
  readFailed : Bool
  /-- The first command fetched since the ring's enable: CHAIN is ignored (R280). -/
  first : Bool := false
deriving DecidableEq, Repr

/-- A record of a command that has ended (R300): TAG, status, and whether its completion was discarded. -/
structure EndRecord where
  tag : Word
  status : Nat
  discarded : Bool
deriving DecidableEq, Repr

/-- A ring as Tirba keeps it (R254 to R268). -/
structure RingSt where
  /-- The table entry has been checked since the enable (R256). -/
  checked : Bool := false
  sqBase : Nat := 0
  cqBase : Nat := 0
  log2 : Nat := 0
  maxExt : Nat := 0
  sqHost : Bool := false
  cqHost : Bool := false
  /-- Commands in flight that have not ended, oldest first. -/
  flight : List Cmd := []
  /-- Completions to be posted, oldest first (R263). -/
  posts : List Reply := []
  /-- Nothing has been fetched since the enable (R280). -/
  fresh : Bool := true
  /-- The last command ended with OK; none since the enable (R280). -/
  prevOk : Option Bool := none
  /-- Newest first, at most 16 (R300). -/
  history : List EndRecord := []
  /-- A header slot read from host memory, with the extension slots read so far. -/
  header : Option (List Byte) := none
deriving DecidableEq, Repr

/-- An open session (R292). -/
structure Session where
  version : Nat
  /-- The rings that it owns, rising. -/
  rings : List Nat
  /-- Its SESSION_CLOSE has been fetched: later commands are ABORTED (R294). -/
  closing : Bool
  /-- Commands fetched since then (R311). -/
  aborted : Nat
deriving DecidableEq, Repr

/-- Who waits for a bus-master read. -/
inductive BmOwner where
  | header (ring : Ring)
  | ext (ring : Ring)
  | payload (ring : Ring)
  | bobbin (n : BobCh)
deriving DecidableEq, Repr

/-- A bus-master read of host memory in flight (R246, R257). -/
structure BmRead where
  owner : BmOwner
  len : Nat
  got : List Byte
deriving DecidableEq, Repr

/-- The signatures of a completed frame as Tirba keeps them (R323). -/
structure SigFrame where
  frame : Word
  enabled : Half
  uncertain : Half
  raw : List Word
  folded : List Word
deriving DecidableEq, Repr

/-- The raster program of a beam core (R347 to R350). -/
structure RasterSt where
  /-- 0 empty, 1 loaded, 2 running, 3 trapped, 4 held by watchdog stage 2, 5 held by double fault. -/
  state : Nat := 0
  codeBase : Nat := 0
  dataBase : Nat := 0
  pc2 : Nat := 0
  pd2 : Nat := 0
  entry : Nat := 0
  /-- Code and initial data as loaded. -/
  code : List Byte := []
  data : List Byte := []
  dataSize : Nat := 0
  params : List Word := []
  wdg : Word := 0
  cause : Nat := 0
  epc : Word := 0
  faddr : Word := 0
  traps : Nat := 0
  /-- Base and SIZE of MPU regions 4 to 6 as they stood at the load, none where a region covers nothing (R155, R348). -/
  cover : List (Option (Nat × Nat)) := []
  /-- The time of the core's last trap or fault (R690). -/
  faultAt : BitVec 64 := 0
deriving DecidableEq, Repr

/-- Core 7 has adopted a beam core's program (R690). -/
structure AdoptSt where
  core : Core
  beam : Beam
  /-- The time of the fault; the program starts at the first VB0 at least 1 ms later. -/
  since : BitVec 64
  /-- The program is to start by itself: it ran, or a fault held it. -/
  starts : Bool
  /-- The adopted program has started. -/
  started : Bool
deriving DecidableEq, Repr

/-- Tirba, the firmware that the spec describes (10, 11, 24). -/
structure TirbaSt where
  sessions : Vector (Option Session) 8 := Vector.replicate 8 none
  rings : Vector RingSt 64 := Vector.replicate 64 {}
  /-- The ring last fetched from (R283). -/
  last : Nat := 63
  /-- Commands fetched since reset. -/
  serial : Nat := 0
  bm : List BmRead := []
  /-- Beam-core programs, by core. -/
  rasters : Vector RasterSt 8 := Vector.replicate 8 {}
  adopt : Option AdoptSt := none
  /-- Ports that have had a PORT_CONFIG since the last reset (R318, R326). -/
  ports : List Nat := []
  /-- The last completed frames of each Beam, newest first, at most 8 (R323). -/
  sigs : Vector (List SigFrame) 2 := Vector.replicate 2 []
  /-- The slot booted and the slot running: 0 A, 1 B, 2 host (R343). -/
  bootSlot : Nat := 0
  runSlot : Nat := 0
  runSeq : Word := 0
  /-- Where the running image was loaded in core 0's local memory, and its length (R238). -/
  runLoad : Nat := 0x00100000
  runLen : Nat := 0
  /-- The entry of the running image, as kept in core 7's local memory (R693). -/
  runEntry : Word := 0
  /-- The header of the running image (R238). -/
  runHeader : List Byte := []
  /-- A reset that DEVICE_RESET has ordered: cold or not, and when it falls due (R340). -/
  resetDue : Option (Bool × BitVec 64) := none
  /-- DEVICE_RESET has ended: nothing more is fetched or run (R340). -/
  frozen : Bool := false
  /-- Beams that Tirba has started since the last reset (R699). -/
  started : Vector Bool 2 := Vector.replicate 2 false
  /-- Core 7 has failed: no adoption any more (R692). -/
  core7Lost : Bool := false
  /-- Tirba has started since the last reset: it has applied the darn record (R694). -/
  applied : Bool := false
deriving DecidableEq, Repr

/-- Where the device stands between its resets (R730, R732): running, waiting for its start, or in lockout. -/
inductive RstPhase where
  | run | wait | lockout
deriving DecidableEq, Repr

/-- The reset controller and the boot ROM (26, 08). -/
structure RstSt where
  phase : RstPhase := .run
  /-- The ROM's sequence on core 0: 0 none to run, 1 to run from its start, 2 waiting for VIO_C at step 5 (R228, R733). -/
  rom : Nat := 1
  /-- The fatal fault that caused the last start: true for the Vellum controller (R734). -/
  fatal : Option Bool := none
deriving DecidableEq, Repr

/-- What leaves the device at its pins and links: the model's own record (assumption 5). -/
inductive Output where
  /-- An FSYNC ball drives a level, or goes high-impedance (none) (R87, R91). -/
  | fsync (port : Port) (level : Option Bool)
  /-- A write to host memory by the bus master, none for a byte it does not enable. -/
  | hostWrite (addr : Nat) (bytes : List (Option Byte))
  /-- An MSI: its vector, and the address and message data it is sent with (R220, R246). -/
  | msi (vector : Nat) (addr : BitVec 64) (data : Nat)
  /-- A completion TLP of a host read: data, poisoned or not (R110, R246). -/
  | hostRead (bytes : List Byte) (poisoned : Bool)
  /-- The lanes of a DSI link go to a state, coded as BMO_STATx.LINK (R473, R474, R484). -/
  | dsiLanes (link : Fin 4) (state : Nat)
  /-- A DSI link starts its HS clock, with its lane order and polarities (BMO_LANEx) (R469, R474). -/
  | dsiStart (link : Fin 4) (map pol : Nat)
  /-- A DSI link sends the initial deskew (R469, R474). -/
  | dsiDeskew (link : Fin 4)
  /-- A DSI link sends a sync packet in a virtual channel: VSS, or HSS (R475). -/
  | dsiSync (link : Fin 4) (vc : Nat) (vss : Bool)
  /-- A DSI link sends the pixel packet of a line in a virtual channel: with its DCS command byte in command mode, in a format
  (BMO_CTRLx.FMT), its pixels (R475, R477). -/
  | dsiLine (link : Fin 4) (vc line : Nat) (dcs : Option Nat) (fmt : Nat) (px : List Rgb)
  /-- A DSI link sends a blanking packet (0x19), to the byte clock edge of pixel HACTIVE (R476). -/
  | dsiBlank (link : Fin 4) (vc : Nat)
  /-- A DSI link ends an HS transmission with an EoTp (0x08) (R476). -/
  | dsiEotp (link : Fin 4)
  /-- The data lanes of a DSI link spend the time to the next packet in LP-11, or it is filled with blanking packets (R476, R477). -/
  | dsiRest (link : Fin 4) (lp : Bool)
  /-- A DSI link sends a command packet in a virtual channel, in HS or by LPDT (R482). -/
  | dsiCommand (link : Fin 4) (vc : Nat) (hs : Bool) (packet : List Word)
  /-- An output port sends a frame in the I2S or the TDM form: the slots as W-bit words (R494, R520, R521). -/
  | audio (port : Fin 3) (i2s : Bool) (w : Nat) (slots : List Nat)
  /-- The outputs of an audio port: 0 high-impedance, 1 low, 2 driving (R524). -/
  | audioPins (port : Fin 3) (state : Nat)
  /-- The bus master asks host memory for bytes (R582). -/
  | hostAsk (addr len : Nat)
  /-- A UART sends a character: its bits from the start bit on, and the bit period in ticks (R598). -/
  | uart (u : Fin 2) (bits : List Bool) (period : Nat)
  /-- The boot-flash master starts a transaction (R606). -/
  | flash (t : FlashTx)
  /-- An I2C master starts a transaction (R611): what it does on the bus, and the ticks that SCL is low and high (R610). -/
  | i2c (m : Fin 4) (ops : List I2cOp) (low high : Nat)
  /-- A unit request of R586's table is raised. -/
  | unitRequest (sel : Nat)
  /-- A data register leaves at TDO: its length in bits and its value (R716). -/
  | tdo (len val : Nat)
  /-- A host request completes with Unsupported Request (R248, R250). -/
  | unsupported
  /-- What the QSPI slave drives in a frame after the turnaround clock (R270): bytes of 0xFF that the host waits, then nibbles, bit 3
  of each on HQ_IO3. -/
  | qspiFrame (wait : Nat) (nibbles : List (BitVec 4))
  /-- Every signal ball goes high-impedance, the host link's among them or not (R736 to R738). -/
  | ballsFloat (host : Bool)
  /-- A command of the boot flash without an address: 0x66 and 0x99, the flash reset (R228, R608), and 0x06, write enable. -/
  | flashCode (code : Nat)
  /-- A read of the boot flash from an address (R228, R237, R238). -/
  | flashRead (addr len : Nat)
  /-- The erase of a 64 KiB slot of the boot flash, and the programming of bytes from an address on (R237): its page programs, with
their write enables and status reads (R608). -/
  | flashErase (addr : Nat)
  | flashProgram (addr : Nat) (bytes : List Byte)
deriving DecidableEq, Repr

/-- Everything of the block but the queue of waiting commands. -/
structure Chip where
  /-- The register file: registers that do not stand at their reset value, by address. -/
  regs : List (Nat × Word) := []
  /-- Core-local memories and Vellum, bytes by address (R96, R133). -/
  mem : List Host.Cell := []
  /-- Words whose stored check bits are uncorrectable, by address, sorted (R107, R108, R143). -/
  ue : List Nat := []
  /-- The 64-bit time counter (R536). -/
  time : BitVec 64 := 0
  /-- Journal entries that wait to be written (R698). -/
  jrnQ : List JrnEntry := []
  /-- The model's own record of what has left the device, oldest first. -/
  out : List Output := []
  /-- The model's own count of free values used (assumption 2). -/
  freeCount : Nat := 0
  /-- Requests of events that wait for their consumer's acknowledge, oldest first (R41). -/
  reqs : List EvReq := []
  prk : Vector PrkBeam 2 := Vector.replicate 2 {}
  fs : Vector FsPort 8 := Vector.replicate 8 {}
  vlm : Vlm := {}
  cores : Vector CoreSt 8 := Vector.replicate 8 {}
  planes : Vector PlaneSt 8 := Vector.replicate 8 {}
  /-- Live palettes: entry 4096 × Beam + 256 × palette + index (R358). -/
  palLive : List (Nat × Word) := []
  /-- Shadow palettes, numbered alike (R362). -/
  palShadow : List (Nat × Word) := []
  /-- Live palette entries changed in the last lines, newest first (R359). -/
  palLog : List PalChange := []
  motifB : Vector MotifBeam 2 := Vector.replicate 2 {}
  motif : MotifSt := {}
  apq : Vector ApqBeam 2 := Vector.replicate 2 {}
  eye : Vector EyePort 8 := Vector.ofFn fun n => { pipe := n.val }
  /-- Filter coefficients by 512 × port + 256 × direction + 8 × phase + tap; an unlisted one is 256 at tap 3 and 0
  elsewhere (R416, R440). -/
  eyeCoef : List (Nat × BitVec 10) := []
  /-- Failed physical pipelines: each serves no port until the next cold reset (R683). -/
  pipeFailed : List Nat := []
  bmo : Vector BmoBeam 2 := Vector.replicate 2 {}
  snd : SndSt := {}
  tmr : TmrSt := {}
  chk : Vector ChkSt 8 := Vector.replicate 8 {}
  bob : Vector BobSt 16 := Vector.replicate 16 {}
  ser : SerSt := {}
  drn : DrnSt := {}
  ltn : LtnSt := {}
  emb : EmbSt := {}
  lcy : LcySt := {}
  dbg : DbgSt := {}
  host : HostSt := {}
  tirba : TirbaSt := {}
  rst : RstSt := {}
deriving DecidableEq, Repr

/-- The block: its units and the commands that wait, first in, first out. -/
structure State where
  chip : Chip := {}
  pending : List Instr := []
deriving DecidableEq, Repr

/-- The machine right after a cold reset from VIN: every field at the value the spec states for reset, or at the value
the log names (assumptions 1 to 3), and no command waiting. -/
def State.reset : State := { chip := {}, pending := [] }

end Sys2Proof.Machine
end

