-- ==== Sys2Proof/Machine/Ops.lean ====
section
/-! DEFINITION. The named operations every unit uses: registers, memory, the time counter, the fault journal, free
values, and the two records of the SYS page that many units write. -/

namespace Sys2Proof.Machine

/-- What a register holds after a cold reset (R5): its table's reset value; the fuse registers hold their fuses (R55,
R95), and MBX_VECk starts with the vectors (4k + j) mod 32 (R277). -/
def regReset (a : Nat) : Word :=
  if a = R.SYS_SPEED then w32 (Config.slowRef.toNat * 65536)
  else if a = R.PRK_REFOSC then w32 Config.refOscTrim.toNat
  else if 0x40006080 ≤ a ∧ a < 0x400060C0 then
    let k := (a - 0x40006080) / 4
    w32 (4 * k % 32 + (4 * k + 1) % 32 * 2 ^ 8 + (4 * k + 2) % 32 * 2 ^ 16 + (4 * k + 3) % 32 * 2 ^ 24)
  else match regSpec a with
    | some r => w32 r.reset
    | none => 0

/-- The register at address a, as stored. -/
def Chip.rd (c : Chip) (a : Nat) : Word := Sparse.get (regReset a) c.regs a

/-- The register at address a set to v by the hardware. -/
def Chip.wr (a : Nat) (v : Word) (c : Chip) : Chip := { c with regs := Sparse.set (regReset a) c.regs a v }

/-- Bits [hi:lo] of a register. -/
def Chip.rf (c : Chip) (a hi lo : Nat) : Nat := fld (c.rd a) hi lo

/-- Bit i of a register. -/
def Chip.rb (c : Chip) (a i : Nat) : Bool := tb (c.rd a) i

/-- Bits [hi:lo] of a register set to v. -/
def Chip.wf (a hi lo v : Nat) (c : Chip) : Chip := c.wr a (setFld (c.rd a) hi lo v)

/-- Bit i of a register set to b. -/
def Chip.wb (a i : Nat) (b : Bool) (c : Chip) : Chip := c.wr a (setBit (c.rd a) i b)

/-- Bit i of a register set (a sticky bit sets). -/
def Chip.sb (a i : Nat) (c : Chip) : Chip := c.wb a i true

/-- A sticky bit that sets when b holds. -/
def Chip.sbIf (b : Bool) (a i : Nat) (c : Chip) : Chip := if b then c.sb a i else c

/-- A count register incremented, saturating at 2^32 − 1. -/
def Chip.incSat (a : Nat) (c : Chip) : Chip := c.wr a (w32 (satInc 0xFFFFFFFF (c.rd a).toNat))

/-- A count register incremented, wrapping. -/
def Chip.incWrap (a : Nat) (c : Chip) : Chip := c.wr a (c.rd a + 1)

/-- An operation applied when b holds. -/
def Chip.when (b : Bool) (f : Chip → Chip) (c : Chip) : Chip := if b then f c else c

/-- What software's store of v leaves in a plain register (R6). -/
def Chip.store (a : Nat) (v : Word) (c : Chip) : Chip :=
  match regSpec a with
  | some r => c.wr a (r.store (c.rd a) v)
  | none => c

/-- A register stands at an address of the register pages (R758, R759): the IRQ page shows a bank twice, and the voice window
stands for the selected voice's registers. -/
def pageReg (a : Nat) : Bool :=
  if a / 0x1000 = 0x40002 then
    let off := a % 0x1000
    if off < 0x800 then isReg (R.IRQ_CUR 0 + off % 0x400) && decide (off % 0x400 < 0x140) else isReg a
  else if 0x4000F100 ≤ a ∧ a < 0x4000F130 then a % 4 == 0
  else decide (0x40000000 ≤ a) && decide (a < 0x40018000) && isReg a

/-! ### Memory: core-local memories and Vellum, byte by byte (R96, R133) -/

/-- What a byte of memory reads as that nothing has written: 0x00. R134 gives it for core-local memory; for Vellum the
spec gives none (assumption 3, DESIGN CHOICE, unsafe). -/
def memDefault : Byte := 0

/-- Base of Vellum in the core address map (R96). -/
def vlmBase : Nat := 0x10000000

/-- Bytes of Vellum (R96). -/
def vlmSize : Nat := 0x3000000

/-- Base of the core-local memory of core n (R133). -/
def lmBase (n : Nat) : Nat := 0x00200000 + n * 0x10000

/-- The byte of memory at address a. -/
def Chip.byte (c : Chip) (a : Nat) : Byte := Sparse.get memDefault c.mem a

/-- The byte of memory at address a set. -/
def Chip.setByte (a : Nat) (b : Byte) (c : Chip) : Chip := { c with mem := Sparse.set memDefault c.mem a b }

/-- n bytes of memory from address a. -/
def Chip.bytes (c : Chip) (a : Nat) : Nat → List Byte
  | 0 => []
  | n + 1 => c.byte a :: Chip.bytes c (a + 1) n

/-- Bytes written to memory from address a on. -/
def Chip.setBytes : Nat → List Byte → Chip → Chip
  | _, [], c => c
  | a, b :: t, c => Chip.setBytes (a + 1) t (c.setByte a b)

/-- Bytes of memory as a little-endian number (R3). -/
def Chip.memLE (c : Chip) (a n : Nat) : Nat := leNat (c.bytes a n)

/-- n bytes of Vellum from offset A. -/
def Chip.vbytes (c : Chip) (off n : Nat) : List Byte := c.bytes (vlmBase + off) n

/-- A little-endian number of n bytes read from Vellum offset A. -/
def Chip.vle (c : Chip) (off n : Nat) : Nat := c.memLE (vlmBase + off) n

/-- Is any word of the n bytes from Vellum offset A marked uncorrectable (R107)? -/
def Chip.vBad (c : Chip) (off n : Nat) : Bool :=
  c.ue.any fun w => decide (vlmBase + off < w + 8) && decide (w < vlmBase + off + n)

/-- The marks of uncorrectable words after a write of n bytes from address a: a word written whole is correct again, a
word written in part stays marked (R108). Vellum words have 8 bytes, local words 4 (05). -/
def clearMarks (a n : Nat) (ue : List Nat) : List Nat :=
  ue.filter fun w =>
    let sz := if vlmBase ≤ w then 8 else 4
    !(decide (a ≤ w) && decide (w + sz ≤ a + n))

/-- The syndromes known after a write of n bytes from address a: a word that it touches has new check bits (R105, R108). -/
def clearSyn (a n : Nat) (syn : List (Nat × Byte)) : List (Nat × Byte) :=
  syn.filter fun e => !(decide (a < e.1 + 8) && decide (e.1 < a + n))

/-- Bytes written to memory by a requester, the marks of R108 following. -/
def Chip.memWrite (a : Nat) (bs : List Byte) (c : Chip) : Chip :=
  { c.setBytes a bs with ue := clearMarks a bs.length c.ue, vlm := { c.vlm with syn := clearSyn a bs.length c.vlm.syn } }

/-- Bytes written to Vellum from offset A on. -/
def Chip.vWrite (off : Nat) (bs : List Byte) (c : Chip) : Chip := c.memWrite (vlmBase + off) bs

/-- Memory in canonical form (addresses strictly rising, no byte listed at what an unlisted byte reads as). -/
def Chip.memWf (c : Chip) : Bool := Sparse.wf (fun _ => memDefault) c.mem

/-- The register file in canonical form. -/
def Chip.regsWf (c : Chip) : Bool := Sparse.wf regReset c.regs

/-! ### Time, outputs, free values, the journal -/

/-- TIME_LO: the low word of the time counter (R536). -/
def Chip.timeLo (c : Chip) : Word := c.time.setWidth 32

/-- Something leaves the device. -/
def Chip.emit (o : Output) (c : Chip) : Chip := { c with out := c.out ++ [o] }

/-- The number of the next free value; each use advances it (assumption 2). -/
def Chip.fresh (c : Chip) : Nat × Chip := (c.freeCount, { c with freeCount := c.freeCount + 1 })

/-- A fault journal entry is queued with the time and the frame of Beam A at the event (R697, R698). Its sequence number
and its place in Vellum come when it is written (JOURNAL_ENTRY_WRITE). -/
def Chip.journal (source event unit : Nat) (d0 d1 d2 : Word) (c : Chip) : Chip :=
  { c with jrnQ := c.jrnQ ++ [{ time := c.time, source, event, unit, d0, d1, d2, frameA := c.rd (R.PRK_FRAME 0) }] }

/-- An access log record (R244): the record's bit sets with the source and address of the access; a record that arrives
while one is held sets LOST. The record held keeps its source and address (assumption 12, DEDUCED). -/
def Chip.accLog (bit requester : Nat) (addr : Word) (c : Chip) : Chip :=
  if c.rf R.SYS_ACCLOG 1 0 ≠ 0 then c.sb R.SYS_ACCLOG 2
  else ((c.sb R.SYS_ACCLOG bit).wf R.SYS_ACCLOG 11 8 requester).wr R.SYS_ACCLOG_ADDR addr

/-- An event of a clocked island merges with its unacknowledged occurrence: bit i of SYS_XING sets (R42). -/
def Chip.merge (unacked : Bool) (i : Nat) (c : Chip) : Chip := c.sbIf unacked R.SYS_XING i

/-- The selection of BOB_TRIGn names this kind of event: SRC 1 with a timer event, SRC 2 with a unit request (R586). -/
def Chip.bobTrigOf (c : Chip) (n : BobCh) (src sel : Nat) : Bool :=
  (src == 1 || src == 2) && c.rf (R.BOB_TRIG n) 1 0 == src && c.rf (R.BOB_TRIG n) 13 8 == sel
    && (if src = 1 then decide (sel ≤ 32) else decide (sel ≤ 11))

/-- The ADC's trigger is timer event sel (R614). -/
def Chip.adcTrigOf (c : Chip) (src sel : Nat) : Bool :=
  src == 1 && c.rb R.ADC_TRIG 0 && c.rf R.ADC_TRIG 13 8 == sel && decide (sel ≤ 32)

/-- The consumers that select an event, each with its request (R41). -/
def Chip.reqsOf (c : Chip) (src sel : Nat) : List EvReq :=
  (if c.adcTrigOf src sel then [{ dst := none, src, sel }] else [])
    ++ ((List.finRange 16).filter fun n => c.bobTrigOf n src sel).map fun n => { dst := some n, src, sel }

/-- A consumer has not acknowledged the occurrence before of this event (R42). -/
def Chip.reqHeld (c : Chip) (src sel : Nat) : Bool := c.reqs.any fun r => r.src == src && r.sel == sel

/-- An occurrence of an event: its request goes to every consumer that selects it and is held until that consumer's row
acknowledges it (R41). An occurrence that finds the one before unacknowledged merges with it, and the bit of its island sets in
SYS_XING (R42); an event that comes from no island (none) has its requests one after another. -/
def Chip.request (src sel : Nat) (unacked : Bool) (xing : Option Nat) (c : Chip) : Chip :=
  match xing with
  | some i =>
    if unacked || c.reqHeld src sel then c.merge true i else { c with reqs := c.reqs ++ c.reqsOf src sel }
  | none => { c with reqs := c.reqs ++ c.reqsOf src sel }

/-- A consumer acknowledges the oldest request that it holds of an event. -/
def Chip.ack (r : EvReq) (c : Chip) : Chip := { c with reqs := c.reqs.erase r }

/-- Is the boot ROM locked (R233)? -/
def Chip.romLocked (c : Chip) : Bool := c.rb R.SYS_BOOT_CTRL 0

/-- Core n. -/
def Chip.core (c : Chip) (n : Core) : CoreSt := c.cores[n]

/-- Core n changed. -/
def Chip.onCore (n : Core) (f : CoreSt → CoreSt) (c : Chip) : Chip := { c with cores := upd c.cores n f }

/-- The Pricking of Beam b. -/
def Chip.beam (c : Chip) (b : Beam) : PrkBeam := c.prk[b]

/-- The Pricking of Beam b changed. -/
def Chip.onBeam (b : Beam) (f : PrkBeam → PrkBeam) (c : Chip) : Chip := { c with prk := upd c.prk b f }

/-! ### Beam position -/

/-- The Beam's counters run (PRK_STAT.RUNNING). -/
def Chip.running (c : Chip) (b : Beam) : Bool := c.rb (R.PRK_STAT b) 0

/-- The line counter of a Beam. -/
def Chip.line (c : Chip) (b : Beam) : Nat := c.rf (R.PRK_POS b) 26 14

/-- The pixel counter of a Beam. -/
def Chip.pixel (c : Chip) (b : Beam) : Nat := c.rf (R.PRK_POS b) 13 0

/-- The Beam's counters set to a position. -/
def Chip.setPos (b : Beam) (line pixel : Nat) (c : Chip) : Chip :=
  c.wr (R.PRK_POS b) (w32 (line % 8192 * 16384 + pixel % 16384))

/-- The Beam is in blanking (R140): lines VB0 to VTOTAL − 1, or pixels HACTIVE on; a stopped Beam reads so too. -/
def Chip.blanking (c : Chip) (b : Beam) : Bool :=
  !c.running b || decide ((c.beam b).vactive ≤ c.line b) || decide ((c.beam b).hactive ≤ c.pixel b)

/-- The interval of blanking in which the Beam stands: the vertical blanking by its frame, or a line's by its serial number. -/
def Chip.blankId (c : Chip) (b : Beam) : Nat × Nat :=
  if (c.beam b).vactive ≤ c.line b then (1, (c.rd (R.PRK_FRAME b)).toNat) else (0, (c.beam b).serial)

/-! ### Writes held by a shadow transfer (R459) -/

/-- A shadow transfer of Beam b is in progress (R456). -/
def Chip.inTransfer (c : Chip) (b : Beam) : Bool := c.rf (R.APQ_COMMIT b) 5 4 == 2

/-- The Beam whose transfer holds a write to this register: an APQ shadow or MTF_SH_CFG of that Beam, or any plane or
window shadow block (R459). -/
def Chip.heldBy (c : Chip) (a : Nat) : Option Beam :=
  let own (b : Beam) : Bool := a == R.MTF_SH_CFGA + 4 * b.val ||
    (a / 0x1000 == 0x4000C + b.val && ((0x080 ≤ a % 0x1000 && a % 0x1000 < 0x09C) || (0x180 ≤ a % 0x1000 && a % 0x1000 < 0x200)))
  let both : Bool := (0x40009800 ≤ a && a < 0x40009A00) || (0x4000B700 ≤ a && a < 0x4000B780)
  if c.inTransfer 0 && (own 0 || both) then some 0
  else if c.inTransfer 1 && (own 1 || both) then some 1
  else none

/-- A write waits for the transfer of Beam b to end, and HELD sets (R459). -/
def Chip.hold (b : Beam) (w : HeldWrite) (c : Chip) : Chip :=
  { c with apq := upd c.apq b fun q => { q with held := q.held ++ [w] } }.sb (R.APQ_STICKY b) 5

/-- What a command answers. -/
abbrev Out := Host.Outcome State Fault Refusal

/-- A command's effect on everything but the queue, answered as the next state. -/
def Chip.next (c : Chip) (s : State) : Out := .next { s with chip := c }

end Sys2Proof.Machine
end

