-- ==== Sys2Proof/Machine/Pricking.lean ====
section
/-! DEFINITION. The pricking (03): synthesizer, timing, counters, beam events, slack, GENLOCK and FSYNC. What an event does
in other units is added in BeamEvents.lean. -/

namespace Sys2Proof.Machine

/-- One unit of INT in the multiplier x = INT × 2^24 + FRAC (R60). -/
def synUnit : Nat := 2 ^ 24

/-- Least and greatest multiplier: VCO 1,200 MHz and 2,400 MHz over 96 MHz (R61). -/
def synMin : Nat := 25 * 2 ^ 23
/-- See synMin. -/
def synMax : Nat := 25 * 2 ^ 24

/-- The multiplier in the registers. -/
def Chip.synRegs (c : Chip) (b : Beam) : Nat := c.rf (R.PRK_SYN_INT b) 4 0 * synUnit + c.rf (R.PRK_SYN_FRAC b) 23 0

/-- POST clamped for a multiplier x: from ceil(VCO / 600 MHz) to floor(VCO / 10 MHz), within 2 and 120 (R61). -/
def clampPost (x post : Nat) : Nat :=
  clampN (max 2 (ceilDiv (96 * x) (600 * synUnit))) (min 120 (96 * x / (10 * synUnit))) post

/-- R61: the synthesizer settings are checked, corrected, written back, and SYN_CLAMP sets on a correction. -/
def Chip.synClamp (b : Beam) (c : Chip) : Chip :=
  let x := c.synRegs b
  let p := c.rf (R.PRK_SYN_INT b) 14 8
  let x' := clampN synMin synMax x
  let p' := clampPost x' p
  if x' = x ∧ p' = p then c
  else (((c.wf (R.PRK_SYN_INT b) 4 0 (x' / synUnit)).wf (R.PRK_SYN_FRAC b) 23 0 (x' % synUnit)).wf
    (R.PRK_SYN_INT b) 14 8 p').sb (R.PRK_STICKY b) 0

/-- PRK_CTRL.RUN written 1 (R72, R73): a stopped Beam begins a start; a Beam with a stop armed cancels it. DESIGN CHOICE
(assumption 100): where the synthesizer still runs at that write (after LOCK_RETURN with RUN 0, or while a link sends its last
line), SYN_LOCKED stays 1 while it locks for the start, on which R62 says nothing. -/
def Chip.runSet (b : Beam) (c : Chip) : Chip :=
  if c.rb (R.PRK_CTRL b) 0 then c
  else
    let c := c.sb (R.PRK_CTRL b) 0
    if c.running b then c.onBeam b fun k => { k with stopArmed := false }
    else
      let c := c.synClamp b
      c.onBeam b fun k => { k with
        synOn := true, locking := true, relocking := false
        synInt := c.rf (R.PRK_SYN_INT b) 4 0, synPost := c.rf (R.PRK_SYN_INT b) 14 8, centre := c.synRegs b }

/-- PRK_CTRL.RUN written 0 (R73, R65): a running Beam is armed to stop; a start still locking is abandoned. -/
def Chip.runClr (b : Beam) (c : Chip) : Chip :=
  if !c.rb (R.PRK_CTRL b) 0 then c
  else
    let c := c.wb (R.PRK_CTRL b) 0 false
    if c.running b then c.onBeam b fun k => { k with stopArmed := true }
    else if (c.beam b).locking then
      (c.onBeam b fun k => { k with locking := false, synOn := false }).wb (R.PRK_STAT b) 1 false
    else c

/-- The values of the R67 table, in table order with LEAD first (R68). -/
structure Timing where
  lead : Nat
  htotal : Nat
  hactive : Nat
  hfront : Nat
  hsync : Nat
  vtotal : Nat
  vactive : Nat
  vfront : Nat
  vsync : Nat
deriving DecidableEq, Repr

/-- The timing registers of a Beam. -/
def Chip.timingRegs (c : Chip) (b : Beam) : Timing :=
  { lead := c.rf (R.PRK_PREFETCH b) 3 0, htotal := c.rf (R.PRK_HTOTAL b) 13 0, hactive := c.rf (R.PRK_HACTIVE b) 13 0
    hfront := c.rf (R.PRK_HSYNC b) 11 0, hsync := c.rf (R.PRK_HSYNC b) 27 16
    vtotal := c.rf (R.PRK_VTOTAL b) 12 0, vactive := c.rf (R.PRK_VACTIVE b) 12 0
    vfront := c.rf (R.PRK_VSYNC b) 11 0, vsync := c.rf (R.PRK_VSYNC b) 27 16 }

/-- R68: LEAD, then the values of the table in order, each against limits from the values already clamped. -/
def Timing.clamp (t : Timing) : Timing :=
  let lead := clampN 2 8 t.lead
  let htotal := clampN 64 16383 t.htotal
  let hactive := clampN 16 (min 4096 (htotal - 16)) t.hactive
  let hfront := clampN 1 (htotal - hactive - 2) t.hfront
  let hsync := clampN 1 (htotal - hactive - hfront - 1) t.hsync
  let vtotal := clampN 16 8191 t.vtotal
  let vactive := clampN 1 (min 4096 (vtotal - lead - 2)) t.vactive
  let vfront := clampN 1 (vtotal - vactive - 2) t.vfront
  let vsync := clampN 1 (vtotal - vactive - vfront - 1) t.vsync
  { lead, htotal, hactive, hfront, hsync, vtotal, vactive, vfront, vsync }

/-- A clamp moved a horizontal value. -/
def Timing.hDiffers (t u : Timing) : Bool :=
  !(t.htotal == u.htotal && t.hactive == u.hactive && t.hfront == u.hfront && t.hsync == u.hsync)

/-- A clamp moved LEAD or a vertical value. -/
def Timing.vDiffers (t u : Timing) : Bool :=
  !(t.lead == u.lead && t.vtotal == u.vtotal && t.vactive == u.vactive && t.vfront == u.vfront && t.vsync == u.vsync)

/-- R68: the timing is clamped, written back and taken. -/
def Chip.takeTiming (b : Beam) (c : Chip) : Chip :=
  let t := c.timingRegs b
  let u := t.clamp
  let c := (((c.wf (R.PRK_PREFETCH b) 3 0 u.lead).wf (R.PRK_HTOTAL b) 13 0 u.htotal).wf (R.PRK_HACTIVE b) 13 0 u.hactive)
  let c := (c.wf (R.PRK_HSYNC b) 11 0 u.hfront).wf (R.PRK_HSYNC b) 27 16 u.hsync
  let c := (c.wf (R.PRK_VTOTAL b) 12 0 u.vtotal).wf (R.PRK_VACTIVE b) 12 0 u.vactive
  let c := (c.wf (R.PRK_VSYNC b) 11 0 u.vfront).wf (R.PRK_VSYNC b) 27 16 u.vsync
  let c := (c.sbIf (t.hDiffers u) (R.PRK_STICKY b) 1).sbIf (t.vDiffers u) (R.PRK_STICKY b) 2
  c.onBeam b fun k => { k with
    htotal := u.htotal, hactive := u.hactive, hfront := u.hfront, hsync := u.hsync
    vtotal := u.vtotal, vactive := u.vactive, vfront := u.vfront, vsync := u.vsync, lead := u.lead }

/-- R78, R79: the comparator takes APQ_COMMIT_LINE, clamped from VB0 to VTOTAL − LEAD − 1. -/
def Chip.takeCommitLine (b : Beam) (c : Chip) : Chip :=
  let k := c.beam b
  let l := c.rf (R.APQ_COMMIT_LINE b) 12 0
  let l' := clampN k.vactive (k.vtotal - k.lead - 1) l
  (c.sbIf (l' != l) (R.PRK_STICKY b) 3).onBeam b fun k => { k with commitLine := l' }

/-! ### Beam events -/

/-- The unit request of R586's table that a beam event is: VB0, PFS and COMMIT of each Beam. -/
def evSel (b : Beam) (bit : Nat) : Option Nat :=
  match bit with
  | 2 => some (3 * b.val)
  | 4 => some (3 * b.val + 1)
  | 3 => some (3 * b.val + 2)
  | _ => none

/-- Event bits of PRK_EV_STAT: 0 HS, 1 VS, 2 VB0, 3 COMMIT, 4 PFS (R94). The event's request is held for the Bobbins that select
it (R41); an event whose occurrence before is still unacknowledged, by them or by another consumer, merges with it (R42). -/
def Chip.raiseEv (b : Beam) (bit : Nat) (unacked : Bool) (c : Chip) : Chip :=
  match evSel b bit with
  | some sel => (c.sb (R.PRK_EV_STAT b) bit).request 2 sel unacked (some b.val)
  | none => (c.sb (R.PRK_EV_STAT b) bit).merge unacked b.val

/-- Pixel of HS in every line (R74). -/
def PrkBeam.hsPixel (k : PrkBeam) : Nat := k.hactive + k.hfront

/-! ### Slack (R80, R81) -/

/-- A fetcher reports its slack for line l; the least report of the line counts (R81). -/
def PrkBeam.report (l : Nat) (x : Int) (k : PrkBeam) : PrkBeam :=
  { k with slack := match k.slack.find? (fun e => e.1 == l) with
      | some (_, y) => (l, min x y) :: k.slack.filter (fun e => e.1 != l)
      | none => (l, x) :: k.slack }

/-- Signed 16-bit slack field, saturating, +32,767 where nothing was reported (R81). -/
def slackField : Option Int → Nat
  | none => 0x7FFF
  | some x => toField 16 (satS 16 x)

/-- The least of two reports, none being no report. -/
def minOpt : Option Int → Option Int → Option Int
  | none, y => y
  | x, none => x
  | some x, some y => some (min x y)

/-- Line m has been completed: LINE_MIN shows its least slack, and the frame's least follows (R81). -/
def Chip.lineDone (b : Beam) (m : Nat) (c : Chip) : Chip :=
  let r := ((c.beam b).slack.find? fun e => e.1 == m).map (·.2)
  (c.wf (R.PRK_SLACK b) 15 0 (slackField r)).onBeam b fun k => { k with
    slack := k.slack.filter (fun e => e.1 != m), frameSlack := minOpt k.frameSlack r }

/-- FRAME_MIN takes the least slack of the frame just shown (R81). -/
def Chip.frameMin (b : Beam) (c : Chip) : Chip :=
  (c.wf (R.PRK_SLACK b) 31 16 (slackField (c.beam b).frameSlack)).onBeam b fun k => { k with frameSlack := none }

/-! ### The applied rate at a VB0 (R63, R83, R86) -/

/-- The centre rate moves toward a target by at most 1,000 ppm of itself (R63; whole steps, assumption 6). -/
def rateStep (cur target : Nat) : Nat :=
  let lim := cur / 1000
  if cur ≤ target then min target (cur + lim) else max target (cur - lim)

/-- PRK_GLK_ERR.OFFSET: the applied offset in units of 0.1 ppm (R95); a value between two units is a free value. -/
def offsetField (q : Rat) : Nat :=
  let u := q * 10000000
  if u.den = 1 then toField 16 u.num else (Config.glkOffsetField q).toNat

/-- The rate changes made at a VB0; a write of 0 to GLK since the VB0 before clears the offsets here, whatever GLK reads now
(R86). -/
def Chip.rateAtVb0 (b : Beam) (c : Chip) : Chip :=
  let glk := c.rb (R.PRK_CTRL b) 1 && !(c.beam b).glkClr
  let tgt := (c.beam b).synInt * synUnit + c.rf (R.PRK_SYN_FRAC b) 23 0
  let c := c.onBeam b fun k => { k with
    centre := rateStep k.centre tgt
    freqOff := if glk then k.freqOff else 0
    offset := if glk then k.offset else 0
    appOffset := if glk then k.offset else 0
    glkClr := false }
  c.wf (R.PRK_GLK_ERR b) 31 16 (offsetField (c.beam b).appOffset)

/-- The FRAC applied: centre rate × (1 + offset), rounded to nearest (R83). DESIGN CHOICE (assumption 100): R83 gives no rule for
a tie, and a half rounds upward. -/
def PrkBeam.appliedRate (k : PrkBeam) : Int := roundQ ((k.centre : Rat) * (1 + k.appOffset))

/-! ### GENLOCK (R83 to R86) -/

/-- x wrapped into −f/2 .. f/2 − 1 (R83). DESIGN CHOICE (assumption 100): for an odd f, where these bounds are no integers, the
range is −(f − 1)/2 .. (f − 1)/2. -/
def wrapHalf (f x : Int) : Int :=
  if f ≤ 0 then x else
  let r := x % f
  if 2 * r < f then r else r - f

/-- A GENLOCK rising edge captured at a pixel of the present line (R83, R84, R85). -/
def Chip.glkEdge (b : Beam) (pixel : Nat) (c : Chip) : Chip :=
  let k := c.beam b
  let f := k.htotal * k.vtotal
  let target := c.rf (R.PRK_GLK_POS b) 26 14 * k.htotal + c.rf (R.PRK_GLK_POS b) 13 0
  let captured := c.line b * k.htotal + pixel
  let e := wrapHalf f ((target : Int) - captured)
  let lim : Rat := 1 / 1000
  let fo := clampQ (-lim) lim (k.freqOff + (e : Rat) / (64 * (f : Rat)))
  let off := clampQ (-lim) lim (fo + (e : Rat) / (4 * (f : Rat)))
  let inN := if e.natAbs ≤ 2 then k.glkIn + 1 else 0
  let outN := if 16 < e.natAbs then k.glkOut + 1 else 0
  let limN := if off = lim ∨ off = -lim then k.glkLimit + 1 else 0
  let c := c.wf (R.PRK_GLK_ERR b) 15 0 (toField 16 (satS 16 e))
  let c := c.onBeam b fun k => { k with freqOff := fo, offset := off, glkIn := inN, glkOut := outN, glkLimit := limN }
  let c := if 8 ≤ inN then c.sb (R.PRK_STAT b) 2 else c
  let c := if 2 ≤ outN then c.wb (R.PRK_STAT b) 2 false else c
  let c := c.sbIf (decide (8 ≤ limN)) (R.PRK_STICKY b) 7
  c.wb (R.PRK_STAT b) 3 false

/-- Loss of GENLOCK (R85). -/
def Chip.glkLoss (b : Beam) (c : Chip) : Chip :=
  (((c.sb (R.PRK_STAT b) 3).sb (R.PRK_STICKY b) 6).wb (R.PRK_STAT b) 2 false).onBeam b fun k =>
    { k with glkIn := 0, glkOut := 0, glkLimit := 0 }

/-! ### FSYNC (R87 to R93) -/

/-- The Beam an FSYNC driver follows, as in force. -/
def FsPort.beam (p : FsPort) : Beam := if tb p.ctrl 1 then 1 else 0

/-- The level of an FSYNC ball: none is high-impedance (R91). -/
def FsPort.level (p : FsPort) : Option Bool :=
  if tb p.ctrl 0 then some (p.pulse.isSome != tb p.ctrl 2) else none

/-- R89: position, width and phase clamped against the timing in force on the chosen Beam. -/
def fsClamp (k : PrkBeam) (ctrl pos : Word) : Word × Word :=
  let width := min (fld ctrl 31 16) (k.htotal * k.vtotal - 1)
  let phase := min (fld ctrl 11 8) (fld ctrl 7 4)
  let pix := min (fld pos 13 0) (k.htotal - 1)
  let line := min (fld pos 26 14) (k.vtotal - 1)
  (setFld (setFld ctrl 31 16 width) 11 8 phase, setFld (setFld pos 13 0 pix) 26 14 line)

/-- The ball of port n as it stands leaves the device. -/
def Chip.fsEmit (n : Port) (c : Chip) : Chip := c.emit (.fsync n (c.fs[n]).level)

/-- The settings that the writes of a list leave in a port: the last write to each register counts. -/
def fsWritten (ws : List (Beam × Bool × Word)) (ctrl pos : Word) : Word × Word :=
  ws.foldl (fun r w => if w.2.1 then (r.1, w.2.2) else (w.2.2, r.2)) (ctrl, pos)

/-- Settings of FSYNC port n take effect: those in force with the writes of a list, clamped, written back, taken (R89, R90). A
register that a later write still waits in keeps that write. -/
def Chip.fsTake (n : Port) (ws rest : List (Beam × Bool × Word)) (c : Chip) : Chip :=
  let p := c.fs[n]
  let (ctrl, pos) := fsWritten ws p.ctrl p.pos
  let b : Beam := if tb ctrl 1 then 1 else 0
  let (ctrl', pos') := fsClamp (c.beam b) ctrl pos
  let c := c.sbIf (ctrl' != ctrl || pos' != pos) (R.PRK_STICKY 0) 4
  let c := if rest.any (fun w => !w.2.1) then c else c.wr (R.PRK_FS_CTRL n) ctrl'
  let c := if rest.any (fun w => w.2.1) then c else c.wr (R.PRK_FS_POS n) pos'
  { c with fs := upd c.fs n fun p => { p with ctrl := ctrl', pos := pos', pend := rest } }.fsEmit n

/-- Line 0 or a counter start of Beam b: every FSYNC port takes the writes that wait for it, and a port that follows the Beam has
its settings clamped again against the timing in force (R89, R90). DESIGN CHOICE (assumption 100): writes still waiting when
their Beam stops are taken at its next counter start, or with the next write to the port that lands meanwhile, so before a
line 0; R90 does not say what the stop does to them. -/
def Chip.fsTakeAll (b : Beam) (c : Chip) : Chip :=
  forEach (List.finRange 8) (fun n c =>
    let ws := (c.fs[n]).pend.filter fun w => w.1 == b
    if ws ≠ [] ∨ (c.fs[n]).beam = b then c.fsTake n ws ((c.fs[n]).pend.filter fun w => w.1 != b) else c) c

/-- A write lands in PRK_FS_CTRLn or PRK_FS_POSn: it waits for line 0 of the Beam that PRK_FS_CTRLn.BEAM names before the write,
and while that Beam is stopped it takes effect at once (R90). -/
def Chip.fsLanded (n : Port) (isPos : Bool) (a : Nat) (v : Word) (c : Chip) : Chip :=
  let b : Beam := if c.rb (R.PRK_FS_CTRL n) 1 then 1 else 0
  let c := c.store a v
  let w : Beam × Bool × Word := (b, isPos, c.rd a)
  if c.running b then { c with fs := upd c.fs n fun p => { p with pend := p.pend ++ [w] } }
  else c.fsTake n (((c.fs[n]).pend.filter fun w => w.1 == b) ++ [w]) ((c.fs[n]).pend.filter fun w => w.1 != b)

/-- The pulses that follow Beam b end (R65, R73, R91). -/
def Chip.fsStop (b : Beam) (c : Chip) : Chip :=
  forEach (List.finRange 8) (fun n c =>
    match (c.fs[n]).pulse with
    | some (b', _) => if b' = b then { c with fs := upd c.fs n fun p => { p with pulse := none } }.fsEmit n else c
    | none => c) c

/-- The FSYNC pulse of port n starts when its driver is on, its Beam has begun a frame, the frame is one of R88 and the
counters stand on the line of PRK_FS_POSn and not past its pixel (R87, R88, R91). WIDTH 0 acts as 1 (R95). DESIGN CHOICE
(assumption 100): a pulse that falls due while an earlier one of the port is still in progress is not issued; R87 does not say
what overlapping pulses do. -/
def Chip.fsStart (n : Port) (c : Chip) : Chip :=
  let p := c.fs[n]
  let b := p.beam
  let line := fld p.pos 26 14
  let pix := fld p.pos 13 0
  if tb p.ctrl 0 ∧ c.running b ∧ (c.beam b).frameBegun ∧ c.line b = line ∧ c.pixel b ≤ pix ∧ p.pulse = none
      ∧ (c.rd (R.PRK_FRAME b)).toNat % (fld p.ctrl 7 4 + 1) = fld p.ctrl 11 8 then
    let c := c.setPos b line pix
    { c with fs := upd c.fs n fun p => { p with pulse := some (b, max 1 (fld p.ctrl 31 16)) } }.fsEmit n
  else c

/-- The FSYNC pulse of port n ends after its width (R87). -/
def Chip.fsEnd (n : Port) (c : Chip) : Chip :=
  if (c.fs[n]).pulse.isSome then { c with fs := upd c.fs n fun p => { p with pulse := none } }.fsEmit n else c

/-- The position at which port n's receiver met a frame start packet (R93); the pixel is observed. -/
def Chip.fsCapture (n : Port) (pixel : Nat) (c : Chip) : Chip :=
  let b := (c.fs[n]).beam
  c.wr (R.PRK_FS_CAP n) (w32 (2 ^ 31 + c.line b % 8192 * 16384 + pixel % 16384))

/-! ### The registers of the PRK pages -/

/-- A store lands in a register of a PRK page. -/
def Chip.storePrk (b : Beam) (a : Nat) (v : Word) (c : Chip) : Chip :=
  let off := a % 0x1000
  if off = 0x000 then
    let c := if tb v 0 then c.runSet b else c.runClr b
    (c.wb (R.PRK_CTRL b) 1 (tb v 1)).onBeam b fun k => { k with glkClr := k.glkClr || !tb v 1 }
  else if b = 0 ∧ 0x080 ≤ off ∧ off < 0x0C0 then
    c.fsLanded ⟨(off - 0x080) / 8 % 8, Nat.mod_lt _ (by decide)⟩ (off / 4 % 2 == 1) a v
  else c.store a v

/-- SYS_SPEED.COUNT takes the laps observed in the last 1,024 ticks (R55, R57). -/
def execSpeedUpdate (laps : BitVec 16) (s : State) : Out :=
  (s.chip.wf R.SYS_SPEED 15 0 laps.toNat).next s

/-- PRK_CTRL.RUN changes from 0 to 1 (R72, R61). -/
def execRunWrite (b : Beam) (s : State) : Out := (s.chip.runSet b).next s

/-- PRK_CTRL.RUN written 0 (R73). -/
def execRunClear (b : Beam) (s : State) : Out := (s.chip.runClr b).next s

/-- The HS event at pixel HACTIVE + HFRONT of the present line (R74). -/
def execHs (b : Beam) (unacked : Bool) (s : State) : Out :=
  let c := s.chip
  let k := c.beam b
  if c.running b then ((c.setPos b (c.line b) k.hsPixel).raiseEv b 0 unacked).next s else c.next s

/-- The VS event at pixel HACTIVE + HFRONT of line VACTIVE + VFRONT (R74). -/
def execVs (b : Beam) (unacked : Bool) (s : State) : Out :=
  let c := s.chip
  let k := c.beam b
  if c.running b ∧ c.line b = k.vactive + k.vfront then
    ((c.setPos b (c.line b) k.hsPixel).raiseEv b 1 unacked).next s
  else c.next s

/-- A GENLOCK rising edge with the pixel the Beam's counters showed (R83); with TE_LOCK the Beam steers by TE (R483). -/
def execGenlockEdge (b : Beam) (pixel : BitVec 14) (s : State) : Out :=
  let c := s.chip
  if c.rb (R.PRK_CTRL b) 1 ∧ c.running b ∧ ¬c.rb (R.BMO_CTRL b) 14 then (c.glkEdge b pixel.toNat).next s else c.next s

/-- No GENLOCK edge arrived in time (R85). -/
def execGenlockLoss (b : Beam) (s : State) : Out :=
  let c := s.chip
  if c.rb (R.PRK_CTRL b) 1 ∧ c.running b ∧ ¬c.rb (R.BMO_CTRL b) 14 then (c.glkLoss b).next s else c.next s

/-- An FSYNC pulse starts (R87). -/
def execFsyncPulseStart (n : Port) (s : State) : Out := (s.chip.fsStart n).next s

/-- An FSYNC pulse ends (R87). -/
def execFsyncPulseEnd (n : Port) (s : State) : Out := (s.chip.fsEnd n).next s

end Sys2Proof.Machine
end

