-- ==== Sys2Proof/Machine/Vellum.lean ====
section
/-! DEFINITION. Vellum (04): the address decode, errors and their record, requests, tokens, arbitration, scrubbing, and the
bank side of the darn copy (R677 to R681 of 24). -/

namespace Sys2Proof.Machine

/-- Channel of an offset (R97). -/
def vChannel (off : Nat) : Nat := off / 64 % 8

/-- Logical bank of an offset: 8 × stripe + channel (R97). -/
def vBank (off : Nat) : Nat := 8 * (off / 2 ^ 22 % 16) + vChannel off

/-- Word within its bank (R97). -/
def vWord (off : Nat) : Nat := off / 512 % 8192 * 8 + off / 8 % 8

/-- Offset of word w of logical bank b: the decode of R97 read backward. -/
def vOffset (b w : Nat) : Nat := b / 8 * 2 ^ 22 + w / 8 * 512 + b % 8 * 64 + w % 8 * 8

/-- Bank n of the controller (logical bank, or 96 + n for a spare). -/
def Chip.bank (c : Chip) (n : Nat) : BankSt := Sparse.get {} c.vlm.banks n

/-- Bank n changed. -/
def Chip.onBank (n : Nat) (f : BankSt → BankSt) (c : Chip) : Chip :=
  { c with vlm := { c.vlm with banks := Sparse.set {} c.vlm.banks n (f (c.bank n)) } }

/-- The physical bank that serves a bank (R128). -/
def Chip.physBank (c : Chip) (n : Nat) : Nat := Sparse.get n c.vlm.map n

/-- Spare bank 96 + n is in use by a logical bank. -/
def Chip.spareUsed (c : Chip) (p : Nat) : Bool := c.vlm.map.any fun e => e.2 == p

/-- Shed step s is in force (R640). -/
def Chip.shed (c : Chip) (s : Nat) : Bool :=
  decide (s ≤ c.rf R.LTN_SHED 2 0) && c.rb R.LTN_SHED (8 + s - 1)

/-- The free period comes into force now (R120). -/
def Chip.freeStart (c : Chip) : Chip := { c with vlm := { c.vlm with freeFrom := c.time } }

/-- A darn copy is in progress (DRN_COPY_STAT.ACTIVE). -/
def Chip.copyActive (c : Chip) : Bool := c.rb R.DRN_COPY_STAT 16

/-- The reference of the scrubber in force: 0 Beam A, 1 Beam B, 2 the free period (R120). -/
def Chip.scrubRef (c : Chip) : Nat :=
  match c.rf R.VLM_SCRUB_CTRL 1 0 with
  | 0 => if c.running 0 then 0 else 2
  | 1 => if c.running 1 then 1 else 2
  | _ => 2

/-! ### Errors (R105 to R109, R677) -/

/-- Class number in VLM_ERR_INFO (R111). -/
def clsCode : VClass → Nat
  | .beam => 0 | .eyelet => 1 | .sound => 2 | .core => 3 | .bobbin => 4 | .host => 5 | .scrub => 6

/-- Spares that Tirba may choose: neither in use, nor suspect, nor under a copy (R677, R678). DESIGN CHOICE (assumption 101):
DARN_STATUS counts these as the spare banks still free (R25), so a suspect spare does not count, and likewise no spare voice
that has failed. -/
def Chip.freeSpares (c : Chip) : List Nat :=
  (List.range 6).filter fun k =>
    !c.spareUsed (96 + k) && !c.rb (R.DRN_SUSPECT 3) k && !(c.copyActive && min 5 (c.rf R.DRN_COPY 10 8) == k)

/-- Tirba has a unit to darn (R675). -/
def Chip.wantDarn (kind u : Nat) (c : Chip) : Chip :=
  { c with drn := { c.drn with want := if c.drn.want.contains (kind, u) then c.drn.want else c.drn.want ++ [(kind, u)] } }

/-- A bank becomes suspect (R677): its bit and the sticky bit set, and the journal takes a SUSPECT entry of DARN when the
bit was clear (assumption 13). A logical bank that no spare serves is Tirba's to darn; where no spare is free or under way for it, Tirba
posts NO_SPARE (R675). -/
def Chip.suspect (n : Nat) (c : Chip) : Chip :=
  let a := R.DRN_SUSPECT (if n < 96 then n / 32 else 3)
  let i := if n < 96 then n % 32 else n - 96
  if c.rb a i then c.sb R.DRN_STICKY 0
  else
    let c := (c.sb a i).sb R.DRN_STICKY 0
    let c := c.journal 0x0A 0x01 n (c.rd R.DRN_STICKY) (c.rd R.VLM_ERR_ADDR) 0
    if 96 ≤ n ∨ c.physBank n ≠ n then c
    else if c.freeSpares = [] ∧ ¬(c.copyActive ∧ c.rf R.DRN_COPY 6 0 = n) then c.journal 0x0A 0x06 n 0 0 0
    else c.wantDarn 0 n

/-- The error record (R109): while STICKY.UE is 0 it holds the most recent error. -/
def Chip.errRecord (ue : Bool) (syn : Byte) (bank : Nat) (cls : VClass) (idx off : Nat) (c : Chip) : Chip :=
  if c.rb R.VLM_STICKY 1 then c
  else (c.wr R.VLM_ERR_ADDR (w32 (off / 8 * 8))).wr R.VLM_ERR_INFO
    (w32 (syn.toNat + bank * 2 ^ 8 + clsCode cls * 2 ^ 16 + idx % 16 * 2 ^ 20 + b2n ue * 2 ^ 31))

/-- A single-bit error in a word of a bank: corrected, written back, counted (R106); the bank may become suspect (R677). -/
def Chip.vCe (bank : Nat) (cls : VClass) (idx off : Nat) (syn : Byte) (c : Chip) : Chip :=
  let c := c.errRecord false syn bank cls idx off
  let c := (c.incSat R.VLM_CE_COUNT).sb R.VLM_STICKY 0
  let c := c.onBank bank fun k => { k with ce := satInc 0xFFFF k.ce, passCe := k.passCe + 1 }
  c.when (c.rb R.DRN_CTRL 0 && decide (max 1 (c.rf R.DRN_CTRL 15 8) ≤ (c.bank bank).passCe)) (Chip.suspect bank)

/-- An uncorrectable error in a word of a bank: counted, recorded by R109, the bank suspect (R107, R677). -/
def Chip.vUe (bank : Nat) (cls : VClass) (idx off : Nat) (syn : Byte) (c : Chip) : Chip :=
  let had := c.rb R.VLM_STICKY 1
  let c := c.errRecord true syn bank cls idx off
  let c := (c.incSat R.VLM_UE_COUNT).sb R.VLM_STICKY (if had then 4 else 1)
  (c.onBank bank fun k => { k with ue := satInc 0xFF k.ue }).suspect bank

/-- The word at offset off is stored with an uncorrectable error from now on (R107: each later read reports it again), and its
check bits keep the syndrome met (R105). -/
def Chip.markUe (off : Nat) (syn : Byte) (c : Chip) : Chip :=
  let a := vlmBase + off / 8 * 8
  { c with ue := insertSorted a c.ue, vlm := { c.vlm with syn := (a, syn) :: c.vlm.syn.filter fun e => e.1 != a } }

/-- The syndrome of the uncorrectable word at offset off: the one met before, or free where its check bits come from a merge
(R105, R108). -/
def Chip.ueSyn (c : Chip) (off : Nat) : Byte :=
  ((c.vlm.syn.find? fun e => e.1 == vlmBase + off / 8 * 8).map (·.2)).getD (Config.ueSyndrome (off / 8 * 8))

/-- What a read finds in one word that is marked uncorrectable or not: the standing mark, else a new finding (R106, R107). -/
def Chip.vFindIn (bad : Bool) (cls : VClass) (idx off : Nat) (e : Option Ecc) (c : Chip) : Chip :=
  if bad then c.vUe (vBank off) cls idx off (c.ueSyn off)
  else match e with
    | some (.ce s) => c.vCe (vBank off) cls idx off s
    | some (.ue s) => (c.markUe off s).vUe (vBank off) cls idx off s
    | none => c

/-- What a read finds in one word as it stands. -/
def Chip.vFind (cls : VClass) (idx off : Nat) (e : Option Ecc) (c : Chip) : Chip :=
  c.vFindIn (c.vBad (off / 8 * 8) 8) cls idx off e


/-! ### Requests, tokens and arbitration (R100 to R102, R111 to R118) -/

/-- Tokens of a class's reserve (R114). -/
def clsReserve : VClass → Nat
  | .beam => 192 | .eyelet => 96 | .sound => 32 | _ => 0

/-- Tokens of the pool (R114). -/
def poolTokens : Nat := 192

/-- Reserve tokens a class holds. -/
def Vlm.ownHeld (v : Vlm) (k : VClass) : Nat := (v.reqs.filter fun r => r.acked && !r.write && r.own && r.cls = k).length

/-- Pool tokens a class holds. -/
def Vlm.poolHeldBy (v : Vlm) (k : VClass) : Nat :=
  (v.reqs.filter fun r => r.acked && !r.write && !r.own && r.cls = k).length

/-- Pool tokens held by all classes. -/
def Vlm.poolHeld (v : Vlm) : Nat := (v.reqs.filter fun r => r.acked && !r.write && !r.own).length

/-- Tokens held in all. -/
def Vlm.held (v : Vlm) : Nat := (v.reqs.filter fun r => r.acked && !r.write).length

/-- The token a class would take: from its reserve first (some true), then from the pool (some false) (R115). -/
def Vlm.token (v : Vlm) (k : VClass) : Option Bool :=
  if v.ownHeld k < clsReserve k then some true
  else if v.poolHeld < poolTokens then some false
  else none

/-- VLM_TOK_PEAK follows the tokens held (R130). -/
def Chip.tokPeak (c : Chip) : Chip :=
  if c.rf R.VLM_TOK_PEAK 9 0 < c.vlm.held then c.wf R.VLM_TOK_PEAK 9 0 c.vlm.held else c

/-- A unit's read that begins and ends within a command holds one token meanwhile, which the peak counts (R114, R130). -/
def Chip.tokTouch (cls : VClass) (c : Chip) : Chip :=
  if (c.vlm.token cls).isSome ∧ c.rf R.VLM_TOK_PEAK 9 0 < c.vlm.held + 1 then c.wf R.VLM_TOK_PEAK 9 0 (c.vlm.held + 1) else c

/-- A unit's read of n bytes from an offset by a requester, with what the ECC check newly finds by word from the first: every word
that is marked is reported again (R107). The bytes are those stored; the flag says that some word is uncorrectable. -/
def Chip.vReadEcc (cls : VClass) (idx off n : Nat) (find : List (Option Ecc)) (c : Chip) : List Byte × Bool × Chip :=
  let words := List.range (if n = 0 then 0 else (off + n - 1) / 8 + 1 - off / 8)
  let d := forEach words (fun i c => c.vFind cls idx ((off / 8 + i) * 8) (find[i]?.join)) (c.when (n != 0) (Chip.tokTouch cls))
  (c.vbytes off n, d.vBad off n, d)

/-- A unit's read that meets no new error. -/
def Chip.vRead (cls : VClass) (idx off n : Nat) (c : Chip) : List Byte × Bool × Chip := c.vReadEcc cls idx off n []

/-- Is this a request of R100: 1 to 8 words in one granule of Vellum? -/
def reqOk (off n : Nat) : Bool :=
  decide (1 ≤ n) && decide (off % 8 = 0) && decide (off % 64 + 8 * n ≤ 64) && decide (off + 8 * n ≤ vlmSize)

/-- Write requests buffered for a channel (R117). -/
def Vlm.buffered (v : Vlm) (ch : Nat) : Nat :=
  (v.reqs.filter fun r => r.write && r.acked && !r.granted && vChannel r.off == ch).length

/-- The first element of a list that satisfies p, changed. -/
def changeFirst {α : Type} (p : α → Bool) (f : α → α) : List α → List α
  | [] => []
  | a :: t => if p a then f a :: t else a :: changeFirst p f t

/-- The first element of a list that satisfies p, removed. -/
def removeFirst {α : Type} (p : α → Bool) : List α → List α
  | [] => []
  | a :: t => if p a then t else a :: removeFirst p t

/-- The requests replaced. -/
def Chip.setReqs (l : List VReq) (c : Chip) : Chip := { c with vlm := { c.vlm with reqs := l } }

/-- Reads that one requester may have outstanding (R118): a Bobbin channel 8, a core 2. -/
def readBound : VClass → Option Nat
  | .bobbin => some 8
  | .core => some 2
  | _ => none

/-- The requester has as many reads outstanding as it may (R118, R148). -/
def Vlm.atBound (v : Vlm) (cls : VClass) (idx : Nat) : Bool :=
  match readBound cls with
  | some k => decide (k ≤ (v.reqs.filter fun r => r.acked && !r.write && decide (r.cls = cls) && r.idx == idx).length)
  | none => false

/-- A read waits for a token, and not for its requester's own bound. -/
def Vlm.wants (v : Vlm) (r : VReq) : Bool := !r.write && !r.acked && !v.atBound r.cls r.idx

/-- A read handshake (R114 to R116): it is acknowledged at once when its requester is below its bound (R118), its class finds a
token, and no request of its class, nor for the pool one of a higher class, waits before it (R115); else it waits. -/
def Chip.issueRead (cls : VClass) (idx off n : Nat) (c : Chip) : Chip :=
  let v := c.vlm
  let same := v.reqs.any fun r => v.wants r && decide (r.cls = cls)
  let above := v.reqs.any fun r => v.wants r && decide (clsCode r.cls < clsCode cls)
  let t := if same || v.atBound cls idx || (above && v.token cls == some false) then none else v.token cls
  let r : VReq := { cls, idx, write := false, off, n, bytes := [], acked := t.isSome, own := t.getD false, granted := false }
  (c.setReqs (c.vlm.reqs ++ [r])).tokPeak

/-- A write handshake (R117): acknowledged while the channel's buffer has room. -/
def Chip.issueWrite (cls : VClass) (idx off n : Nat) (bytes : List (Option Byte)) (c : Chip) : Chip :=
  let waits := c.vlm.reqs.any fun r => r.write && !r.acked && vChannel r.off == vChannel off
  let room := decide (c.vlm.buffered (vChannel off) < 16)
  let r : VReq := { cls, idx, write := true, off, n, bytes, acked := !waits && room, own := false, granted := false }
  c.setReqs (c.vlm.reqs ++ [r])

/-- The classes, highest priority first (R111). -/
def clsAll : List VClass := [.beam, .eyelet, .sound, .core, .bobbin, .host, .scrub]

/-- A freed token goes to a waiting read: the highest class that can take one, its oldest request whose requester is below its
bound (R115, R116, R118). -/
def Chip.acquire (c : Chip) : Chip :=
  let waiting (k : VClass) : Bool := c.vlm.reqs.any fun r => c.vlm.wants r && decide (r.cls = k)
  match clsAll.find? fun k => waiting k && (c.vlm.token k).isSome with
  | none => c
  | some k =>
    (c.setReqs (changeFirst (fun r => c.vlm.wants r && decide (r.cls = k))
      (fun r => { r with acked := true, own := (c.vlm.token k).getD false }) c.vlm.reqs)).tokPeak

/-- A waiting write of a channel is taken into its buffer (R117). -/
def Chip.acceptWrite (ch : Nat) (c : Chip) : Chip :=
  if c.vlm.buffered ch < 16 then
    c.setReqs (changeFirst (fun r => r.write && !r.acked && vChannel r.off == ch) (fun r => { r with acked := true }) c.vlm.reqs)
  else c

/-- Two requests of one requester name a common word. -/
def VReq.meets (r s : VReq) : Bool :=
  decide (r.cls = s.cls) && r.idx == s.idx && decide (r.off < s.off + 8 * s.n) && decide (s.off < r.off + 8 * r.n)

/-- The requests that wait at a bank, of a list in the order of issue: a read that a write of its own requester to one of its
words stands before is not among them, though that write still waits for its channel's buffer (R102). -/
def waitAt (n : Nat) : List VReq → List VReq → List VReq
  | _, [] => []
  | before, r :: t =>
    let held := !r.write && before.any fun s => s.write && s.meets r
    if r.acked && !r.granted && vBank r.off == n && !held then r :: waitAt n (r :: before) t else waitAt n (r :: before) t

/-- The requests that wait at a bank. -/
def Chip.atBank (c : Chip) (n : Nat) : List VReq := waitAt n [] c.vlm.reqs

/-- How far an index stands after the last one granted, in round-robin order of 16 indices (R113). -/
def rrDist (last idx : Nat) : Nat := (idx + 16 - last - 1) % 16

/-- The request the arbiter grants: highest class, then round robin, then the requester's oldest (R113, R102). DESIGN CHOICE
(assumption 101): after reset the round robin of a class starts at index 0, on which R113 says nothing. -/
def Chip.arbitrate (c : Chip) (n : Nat) : Option VReq :=
  let ws := c.atBank n
  match clsAll.find? fun k => ws.any fun r => decide (r.cls = k) with
  | none => none
  | some k =>
    let last := Sparse.get 15 (c.bank n).rr (clsCode k)
    let cs := ws.filter fun r => decide (r.cls = k)
    match (List.range 16).find? fun d => cs.any fun r => rrDist last (r.idx % 16) == d with
    | none => none
    | some d => cs.find? fun r => rrDist last (r.idx % 16) == d

/-- The bytes a write request stores: enabled bytes only (R101). -/
def storeEnabled : Nat → List (Option Byte) → Chip → Chip
  | _, [], c => c
  | a, none :: t, c => storeEnabled (a + 1) t c
  | a, some b :: t, c => storeEnabled (a + 1) t (c.setByte a b)

/-- The marks after a write request: a word whose 8 bytes are all enabled is correct again (R108). -/
def clearWritten (a : Nat) (bytes : List (Option Byte)) (ue : List Nat) : List Nat :=
  ue.filter fun w => !(decide (a ≤ w) && decide (w + 8 ≤ a + bytes.length) &&
    ((bytes.drop (w - a)).take 8).all Option.isSome)

/-- A write request takes effect (R101, R108); while its bank is copied the spare takes it too (R127), which one memory
by logical address shows. -/
def Chip.applyWrite (r : VReq) (c : Chip) : Chip :=
  let a := vlmBase + r.off
  { storeEnabled a r.bytes c with
    ue := clearWritten a r.bytes c.ue, vlm := { c.vlm with syn := clearSyn a r.bytes.length c.vlm.syn } }

/-- The offsets of the words of a request that are marked uncorrectable. -/
def Chip.badWords (c : Chip) (off n : Nat) : List Nat :=
  ((List.range n).map fun i => off + 8 * i).filter fun o => c.vBad o 8

/-- A bank is free (R112, R113, R122): a promoted scrub run goes first, then the request of the highest class, then a
scrub read of the slot. A read takes its words as they stand at the grant (R18). -/
def Chip.grant (n : Nat) (c : Chip) : Chip :=
  let k := c.bank n
  if k.promoted && decide (0 < k.left) then (c.tokTouch .scrub).onBank n fun k => { k with left := 0 }
  else match c.arbitrate n with
    | none => if 0 < k.left then (c.tokTouch .scrub).onBank n fun k => { k with left := k.left - 1 } else c
    | some r =>
      let c := c.onBank n fun k => { k with rr := Sparse.set 15 k.rr (clsCode r.cls) (r.idx % 16) }
      if r.write then (c.applyWrite r).setReqs (removeFirst (fun x => decide (x = r)) c.vlm.reqs)
      else c.setReqs (changeFirst (fun x => decide (x = r)) (fun x => { x with
        granted := true, bytes := (c.vbytes r.off (8 * r.n)).map some, bad := c.badWords r.off r.n }) c.vlm.reqs)

/-- A requester's oldest granted read delivers the words that it took at its grant after the ECC check, and frees its token
(R105, R114). The findings stand by word of the request. -/
def Chip.readDone (cls : VClass) (idx : Nat) (find : List (Option Ecc)) (c : Chip) : Chip :=
  match c.vlm.reqs.find? fun r => r.granted && !r.write && decide (r.cls = cls) && r.idx == idx with
  | none => c
  | some r =>
    let word (i : Nat) : Nat := r.off + 8 * i
    let found (i : Nat) : Bool := match find[i]?.join with
      | some (.ue _) => true
      | _ => false
    let c := forEach (List.range r.n) (fun i c => c.vFindIn (r.bad.contains (word i)) cls idx (word i) (find[i]?.join)) c
    let bad := ((List.range r.n).filter fun i => r.bad.contains (word i) || found i).map word
    let d : VDelivery := { cls, idx, off := r.off, bytes := r.bytes.map (·.getD 0), bad }
    { c with vlm := { c.vlm with
        reqs := removeFirst (fun x => decide (x = r)) c.vlm.reqs
        delivered := d :: c.vlm.delivered.filter fun x => !(decide (x.cls = cls) && x.idx == idx) } }

/-! ### Scrubbing (R119 to R125) -/

/-- Is this bank scrubbed: a logical bank, or a spare that is free (R119)? -/
def Chip.scrubbed (c : Chip) (n : Nat) : Bool := decide (n < 96) || !c.spareUsed n

/-- Is this bank the source or the destination of a running darn copy (R123)? -/
def Chip.inCopy (c : Chip) (n : Nat) : Bool :=
  c.copyActive && (n == c.rf R.DRN_COPY 6 0 || n == 96 + min 5 (c.rf R.DRN_COPY 10 8))

/-- The slot ends when no bank of it is still active (R121). -/
def Chip.slotClose (c : Chip) : Chip :=
  { c with vlm := { c.vlm with slotOpen := (List.range 102).any fun n => decide ((c.bank n).slot = .active) } }

/-- A bank misses its slot (R123, R124). -/
def Chip.bankMiss (n : Nat) (c : Chip) : Chip :=
  let c := c.onBank n fun k => { k with slot := .missed, left := 0, promoted := false, misses := k.misses + 1 }
  if 4 ≤ (c.bank n).misses then
    (c.sb (R.VLM_SCRUB_LATE (if n < 96 then n / 32 else 3)) (if n < 96 then n % 32 else n - 96)).sb R.VLM_STICKY 2
  else c

/-- A scrub slot opens (R120, R121, R123): every scrubbed bank has 256 reads to come, or misses the slot. A copier that waits
for the next slot after a shed goes on (R129). DESIGN CHOICE (assumption 101): a bank that has not completed the slot before
begins anew with 256 reads and counts no miss, since R123 names no such miss. -/
def Chip.slotOpen (c : Chip) : Chip :=
  let pause := c.rb R.VLM_CTRL 1 || c.shed 1
  let c := { c with vlm := { c.vlm with slotAt := c.time, copyHold := if c.scrubRef = 2 then none else c.vlm.copyHold } }
  (forEach (List.range 102) (fun n c =>
    if !c.scrubbed n then c.onBank n fun k => { k with slot := .idle, left := 0 }
    else if pause || c.inCopy n then c.bankMiss n
    else c.onBank n fun k => { k with slot := .active, left := 256, promoted := false }) c).slotClose

/-- Every bank still active in the slot misses it: shed step 1 was entered (R123). -/
def Chip.slotShed (c : Chip) : Chip :=
  (forEach (List.range 102) (fun n c => if (c.bank n).slot = .active then c.bankMiss n else c) c).slotClose

/-- The unfinished banks of the slot are promoted (R122). -/
def Chip.slotPromote (c : Chip) : Chip :=
  forEach (List.range 102) (fun n c =>
    if (c.bank n).slot = .active ∧ 0 < (c.bank n).left then c.onBank n fun k => { k with promoted := true } else c) c

/-- One word of a scrub read: a spare's own words have no offset, so the one recorded for them is a free value. An uncorrectable
word of a free spare is kept, and each later scrub read reports it again (R107). -/
def Chip.scrubWord (n w : Nat) (e : Option Ecc) (c : Chip) : Chip :=
  let key := n * 65536 + w
  let off := (Config.spareErrOffset key).toNat
  if n < 96 then c.vFind .scrub 0 (vOffset n w) e
  else if c.vlm.spareUe.contains key then c.vUe n .scrub 0 off (Config.ueSyndrome (vlmSize + key))
  else match e with
    | none => c
    | some (.ce s) => c.vCe n .scrub 0 off s
    | some (.ue s) => { c with vlm := { c.vlm with spareUe := insertSorted key c.vlm.spareUe } }.vUe n .scrub 0 off s

/-- The pass count: it increments when every scrubbed bank has ended a pass since the last increment (R121), and each
bank's correctable errors are counted anew for R677. -/
def Chip.passEnd (c : Chip) : Chip :=
  if (List.range 102).all fun n => !c.scrubbed n || (c.bank n).ended then
    forEach (List.range 102) (fun n c => c.onBank n fun k => { k with ended := false, passCe := 0 })
      (c.incWrap R.VLM_SCRUB_PASS)
  else c

/-- A bank whose 256 reads have been granted completes its slot with these findings, by word of its 256 (R121, R124). -/
def Chip.slotDone (n : Nat) (find : List (Nat × Ecc)) (c : Chip) : Chip :=
  let k := c.bank n
  if k.slot = .active ∧ k.left = 0 then
    let marked := (List.range 256).filter fun i =>
      let w := (k.pos + i) % 65536
      if n < 96 then c.vBad (vOffset n w) 8 else c.vlm.spareUe.contains (n * 65536 + w)
    let words := (List.range 256).filter fun i => marked.contains i || find.any fun f => f.1 == i
    let c := forEach words (fun i c =>
      c.scrubWord n ((k.pos + i) % 65536) ((find.find? fun f => f.1 == i).map (·.2))) c
    let pos := (k.pos + 256) % 65536
    (c.onBank n fun k => { k with
      pos, slot := .done, left := 0, promoted := false, misses := 0, ended := k.ended || pos == 0 }).slotClose.passEnd
  else c

/-- SCRUB_EN is 0: no slot, no misses (R125). DESIGN CHOICE (assumption 101): a slot in progress ends at once and each bank keeps
its position; R125 speaks of openings and misses only. -/
def Chip.scrubOff (c : Chip) : Chip :=
  (forEach (List.range 102) (fun n c => c.onBank n fun k => { k with
    slot := .idle, left := 0, promoted := false, misses := 0 }) c).slotClose

/-! ### The darn record and the darns counted (R675, R694) -/

/-- Entry i of the darn record: a halfword of AON_RJ4 to AON_RJ7. -/
def Chip.recEntry (c : Chip) (i : Nat) : Nat := c.rf (R.AON_RJ (4 + i / 2)) (16 * (i % 2) + 15) (16 * (i % 2))

/-- Entry i of the darn record written. -/
def Chip.setRecEntry (i v : Nat) (c : Chip) : Chip := c.wf (R.AON_RJ (4 + i / 2)) (16 * (i % 2) + 15) (16 * (i % 2)) v

/-- A valid entry of the darn record (R694). -/
def recWord (kind spare unit : Nat) : Nat := 0x8000 + kind * 2 ^ 13 + spare * 2 ^ 8 + unit

/-- A darn is recorded (R694): in the first empty entry; banks, pipelines and slices come before voices, so that without an
empty entry they take the last voice's. -/
def Chip.recordAdd (kind spare unit : Nat) (c : Chip) : Chip :=
  let w := recWord kind spare unit
  if (List.range 8).any fun i => c.recEntry i == w then c
  else match (List.range 8).find? fun i => c.recEntry i / 0x8000 == 0 with
    | some i => c.setRecEntry i w
    | none =>
      match (List.range 8).reverse.find? fun i => c.recEntry i / 2 ^ 13 == 7 with
      | some i => if kind = 3 then c else c.setRecEntry i w
      | none => c

/-- Tirba has darned a unit: the darn is counted, and recorded where it is a bank's (kind 0), a pipeline's, a slice's or a
voice's (R675, R694). -/
def Chip.darned (kind spare unit : Nat) (c : Chip) : Chip :=
  let c := c.when (decide (kind < 4)) (Chip.recordAdd kind spare unit)
  { c with drn := { c.drn with darns := c.drn.darns + 1 } }

/-! ### The darn copier (R126 to R129, R678 to R681) -/

/-- A running copy ends without a map switch: COPY_ABORT sets and is journaled (R680). -/
def Chip.copyAbort (c : Chip) : Chip :=
  if c.copyActive then
    let c := (c.wb R.DRN_COPY_STAT 16 false).sb R.DRN_STICKY 2
    c.journal 0x0A 0x04 (c.rf R.DRN_COPY 6 0) (c.rd R.DRN_STICKY) 0 0
  else c

/-- The map entry of a bank switches to a spare, and the bank replaced is retired (R128, R678 step 4). -/
def Chip.mapSwitch (bank spare : Nat) (c : Chip) : Chip :=
  { c with vlm := { c.vlm with
      map := Sparse.set bank c.vlm.map bank (96 + spare), spareUe := c.vlm.spareUe.filter fun k => k / 65536 != 96 + spare } }

/-- The uncorrectable words of a spare stand in the bank that it is to serve (R107). -/
def Chip.spareMarks (bank spare : Nat) (c : Chip) : Chip :=
  forEach (c.vlm.spareUe.filter fun k => k / 65536 == 96 + spare)
    (fun k c => { c with ue := insertSorted (vlmBase + vOffset bank (k % 65536)) c.ue }) c

/-- The contents of a bank become undefined (R681). -/
def Chip.undefBank (bank : Nat) (c : Chip) : Chip :=
  let (k, c) := c.fresh
  forEach (List.range 65536) (fun w c =>
    let a := vlmBase + vOffset bank w
    c.memWrite a ((List.range 8).map fun i => Config.undefByte k (a + i))) c

/-- GO with NOCOPY: the map switches at once (R681). -/
def Chip.copyNoCopy (bank spare : Nat) (c : Chip) : Chip :=
  if c.physBank bank = 96 + spare then c else ((c.undefBank bank).spareMarks bank spare).mapSwitch bank spare

/-- GO without NOCOPY: a copy begins, and Tirba posts COPY_START (R678). The bank and the spare miss the slot that they are in
(R123). -/
def Chip.copyGo (bank spare : Nat) (c : Chip) : Chip :=
  let c := { c with vlm := { c.vlm with copyHold := none } }
  let c := (forEach [bank, 96 + spare] (fun n c => if (c.bank n).slot = .active then c.bankMiss n else c) c).slotClose
  (c.wr R.DRN_COPY_STAT (bitW 16)).journal 0x0A 0x02 bank (c.rd R.DRN_STICKY) 0 0

/-- DRN_COPY written (R678, R680, R681): ABORT stops a copy; a GO while a copy runs is ignored. A BANK that names no
logical bank starts nothing. -/
def Chip.storeDrnCopy (v : Word) (c : Chip) : Chip :=
  if c.copyActive then (if tb v 18 then c.copyAbort else c)
  else
    let c := c.store R.DRN_COPY v
    let bank := c.rf R.DRN_COPY 6 0
    let spare := min 5 (c.rf R.DRN_COPY 10 8)
    if !tb v 16 || decide (95 < bank) then c
    else if tb v 17 then c.copyNoCopy bank spare
    else c.copyGo bank spare

/-- Shed step 1 is released: a copy goes on at the next interval of blanking, or with the free period as reference at the next
slot (R129). -/
def Chip.copyRelease (c : Chip) : Chip :=
  let id := match c.scrubRef with
    | 0 => c.blankId 0
    | 1 => c.blankId 1
    | _ => (2, 0)
  if c.copyActive then { c with vlm := { c.vlm with copyHold := some id } } else c

/-- The copier may move a granule now: in blanking or with the free period as reference, and while no request waits at its source
bank, whose class is above its own (R113, R126); after a shed from the next interval of blanking or slot on (R129). -/
def Chip.copyMay (c : Chip) : Bool :=
  c.copyActive && !c.shed 1 && (c.atBank (c.rf R.DRN_COPY 6 0)).isEmpty &&
  match c.scrubRef with
  | 0 => c.blanking 0 && c.vlm.copyHold != some (c.blankId 0)
  | 1 => c.blanking 1 && c.vlm.copyHold != some (c.blankId 1)
  | _ => c.vlm.copyHold.isNone

/-- The copier moves one granule of 8 words (R679); after the last word the map switches (R128, R678). The findings stand
by word of the granule. -/
def Chip.copyGranule (find : List (Option Ecc)) (c : Chip) : Chip :=
  if c.copyMay then
    let bank := c.rf R.DRN_COPY 6 0
    let spare := min 5 (c.rf R.DRN_COPY 10 8)
    let next := c.rf R.DRN_COPY_STAT 15 0
    let c := { c with vlm := { c.vlm with copyHold := none } }.tokTouch .scrub
    let c := forEach (List.range 8) (fun i c => c.vFind .scrub 1 (vOffset bank (next + i)) (find[i]?.join)) c
    let bad := ((List.range 8).filter fun i => c.vBad (vOffset bank (next + i)) 8).length
    let c := c.wf R.DRN_COPY_STAT 31 24 (min 255 (c.rf R.DRN_COPY_STAT 31 24 + bad))
    let c := c.wf R.DRN_COPY_STAT 15 0 (next + 8)
    if next + 8 < 65536 then c
    else
      let c := ((c.mapSwitch bank spare).wb R.DRN_COPY_STAT 16 false).sb R.DRN_STICKY 1
      (c.journal 0x0A 0x03 bank (c.rd R.DRN_STICKY) 0 0).darned 0 spare bank
  else c

/-- VLM_CTRL.CNT_CLR: the error counts clear (R130). -/
def Chip.cntClr (c : Chip) : Chip :=
  forEach (List.range 102) (fun n c => c.onBank n fun k => { k with ce := 0, ue := 0 })
    ((c.wr R.VLM_CE_COUNT 0).wr R.VLM_UE_COUNT 0)

/-! ### What the VLM registers read -/

/-- VLM_STAT (R130). -/
def Chip.vlmStat (c : Chip) : Word :=
  w32 (b2n c.vlm.slotOpen + b2n (c.rb R.VLM_CTRL 1 || c.shed 1) * 2 + b2n (c.shed 1) * 4 + b2n c.copyActive * 8
    + c.scrubRef * 16)

/-- VLM_BANK_STAT of the bank selected (R130, R131). -/
def Chip.bankStat (c : Chip) : Word :=
  let n := c.rf R.VLM_BANK_SEL 6 0
  if 101 < n then 0
  else
    let k := c.bank n
    w32 (k.ce + k.ue * 2 ^ 16 + c.physBank n * 2 ^ 24
      + b2n (if n < 96 then c.physBank n != n else c.spareUsed n) * 2 ^ 31)

/-- VLM_TOK0 and VLM_TOK1 (R130). -/
def Chip.tok0 (c : Chip) : Word :=
  w32 (c.vlm.ownHeld .beam + c.vlm.poolHeldBy .beam + (c.vlm.ownHeld .eyelet + c.vlm.poolHeldBy .eyelet) * 2 ^ 16)
/-- See tok0. -/
def Chip.tok1 (c : Chip) : Word :=
  w32 (c.vlm.ownHeld .sound + c.vlm.poolHeldBy .sound + c.vlm.poolHeld * 2 ^ 16)

/-! ### Commands -/

/-- A requester issues a read of n + 1 words (R100). -/
def execVellumRead (cls : VClass) (idx : Fin 16) (off : BitVec 26) (n : Fin 8) (s : State) : Out :=
  let c := s.chip
  if reqOk off.toNat (n.val + 1) then (c.issueRead cls idx.val off.toNat (n.val + 1)).next s else c.next s

/-- A requester issues a write with one byte enable per byte (R100). -/
def execVellumWrite (cls : VClass) (idx : Fin 16) (off : BitVec 26) (bytes : List (Option Byte)) (s : State) : Out :=
  let c := s.chip
  if bytes.length % 8 = 0 ∧ reqOk off.toNat (bytes.length / 8) then
    (c.issueWrite cls idx.val off.toNat (bytes.length / 8) bytes).next s
  else c.next s

/-- A waiting read obtains a freed token (R116). -/
def execTokenAcquire (s : State) : Out := s.chip.acquire.next s

/-- A write handshake of a channel is acknowledged (R117). -/
def execWriteAccept (ch : Fin 8) (s : State) : Out := (s.chip.acceptWrite ch.val).next s

/-- CNT_CLR written 1 (R130). -/
def execCntClr (s : State) : Out := s.chip.cntClr.next s

/-- Ticks of the free period (R120), and from the opening of its slot to the promotion (R122). -/
def freePeriod : Nat := 1600000
/-- See freePeriod. -/
def promoteTicks : Nat := 800000

/-- A slot is due (R120): with a Beam as reference at its VB0, with the free period 1,600,000 ticks after it came into force or
after its slot before. -/
def Chip.slotDue (c : Chip) : Bool :=
  match c.scrubRef with
  | 0 => c.line 0 == (c.beam 0).vactive && c.pixel 0 == 0
  | 1 => c.line 1 == (c.beam 1).vactive && c.pixel 1 == 0
  | _ => decide (freePeriod ≤ (c.time - c.vlm.freeFrom).toNat)

/-- A free-period slot counts the next one from its own time. -/
def Chip.slotCount (c : Chip) : Chip :=
  if c.scrubRef = 2 then { c with vlm := { c.vlm with freeFrom := c.vlm.freeFrom + BitVec.ofNat 64 freePeriod } } else c

/-- A scrub slot opens when it is due, while SCRUB_EN is 1 (R120, R125). -/
def execScrubSlotOpen (s : State) : Out :=
  let c := s.chip
  if c.rb R.VLM_CTRL 0 ∧ c.slotDue then c.slotCount.slotOpen.next s else c.next s

/-- The promotion is due (R122): with a Beam as reference at its PFS, with the free period 800,000 ticks after the slot opened. -/
def Chip.promoteDue (c : Chip) : Bool :=
  match c.scrubRef with
  | 0 => c.line 0 == (c.beam 0).vtotal - (c.beam 0).lead && c.pixel 0 == 0
  | 1 => c.line 1 == (c.beam 1).vtotal - (c.beam 1).lead && c.pixel 1 == 0
  | _ => decide (promoteTicks ≤ (c.time - c.vlm.slotAt).toNat)

/-- The slot's unfinished reads are promoted when that is due (R122). -/
def execScrubPromote (s : State) : Out := if s.chip.promoteDue then s.chip.slotPromote.next s else s.chip.next s

/-- A bank completes its slot (R121). -/
def execScrubSlotComplete (n : Bank) (find : List (Nat × Ecc)) (s : State) : Out := (s.chip.slotDone n.val find).next s

/-- The darn copier moves one granule (R679). -/
def execDarnCopyGranule (find : List (Option Ecc)) (s : State) : Out := (s.chip.copyGranule find).next s

end Sys2Proof.Machine
end

