-- ==== Sys2Proof/Machine/Planes.lean ====
section
/-! DEFINITION. Ground planes and palettes (12): line capture, fetch through the tile cache, live and shadow palettes. -/

namespace Sys2Proof.Machine

/-- Plane p changed. -/
def Chip.onPlane (p : Plane) (f : PlaneSt → PlaneSt) (c : Chip) : Chip := { c with planes := upd c.planes p f }

/-! ### Palettes -/

/-- Number of a palette entry. -/
def palKey (b : Beam) (entry : Nat) : Nat := 4096 * b.val + entry % 4096

/-- A live palette write lands at a pixel of the present line (R360): the entry changes, and the change is kept with that position
for the lookups of R359. -/
def Chip.palWrite (b : Beam) (pixel entry : Nat) (v : Word) (c : Chip) : Chip :=
  let k := palKey b entry
  let ch : PalChange := { serial := (c.beam b).serial, pixel := max (c.pixel b) pixel, entry := k, old := Sparse.get 0 c.palLive k }
  { c with palLive := Sparse.set 0 c.palLive k v, palLog := ch :: c.palLog }

/-- The live palette entry as a lookup at line serial s, pixel x, saw it: writes that landed at that position or later do
not act on it (R359, R360; assumption 7). DESIGN CHOICE (assumption 111): of the lookups that start inside a landing window, which R50
and R360 leave to either entry, those before the landing see the old one and those after it the new one. -/
def Chip.palAt (c : Chip) (b : Beam) (serial pixel entry : Nat) : Word :=
  let k := palKey b entry
  c.palLog.foldl (fun v ch =>
    if ch.entry = k ∧ (serial < ch.serial ∨ (serial = ch.serial ∧ pixel ≤ ch.pixel)) then ch.old else v)
    (Sparse.get 0 c.palLive k)

/-- Changes older than two lines of a Beam no longer matter to any lookup. -/
def Chip.palPrune (b : Beam) (c : Chip) : Chip :=
  let s := (c.beam b).serial
  { c with palLog := c.palLog.filter fun ch => !(ch.entry / 4096 == b.val) || decide (s ≤ ch.serial + 2) }

/-- A shadow palette write (R362). -/
def Chip.spalWrite (b : Beam) (entry : Nat) (v : Word) (c : Chip) : Chip :=
  { c with palShadow := Sparse.set 0 c.palShadow (palKey b entry) v }

/-- The 16 shadow palettes of a Beam move into its live palettes (R362); lookups that started before still see what they held
(R359, R363). -/
def Chip.palTransfer (b : Beam) (c : Chip) : Chip :=
  let mine (l : List (Nat × Word)) : List (Nat × Word) := l.filter fun e => e.1 / 4096 == b.val
  let keep := c.palLive.filter fun e => !(e.1 / 4096 == b.val)
  let mv := mine c.palShadow
  let log := (mine c.palLive ++ mv).map fun e =>
    ({ serial := (c.beam b).serial, pixel := c.pixel b, entry := e.1, old := Sparse.get 0 c.palLive e.1 } : PalChange)
  { c with palLive := if b.val = 0 then mv ++ keep else keep ++ mv, palLog := log ++ c.palLog }

/-- This core's copy of an index port (R383, R406). -/
def Chip.port (c : Chip) (n : Core) (a : Nat) : Word := Sparse.get 0 (c.core n).ports a

/-- This core's copy of an index port set. -/
def Chip.setPort (n : Core) (a : Nat) (v : Word) (c : Chip) : Chip :=
  c.onCore n fun k => { k with ports := Sparse.set 0 k.ports a v }

/-- INC: the index advances by 1 after a DATA access, wrapping within m (R382, R405). -/
def Chip.portInc (n : Core) (a m : Nat) (c : Chip) : Chip :=
  let v := c.port n a
  if tb v 16 then c.setPort n a (w32 ((v.toNat % m + 1) % m + 65536)) else c

/-- A store to a live palette DATA port by a core lands at a pixel: the entry at the core's index, then INC (R360, R383). -/
def Chip.livePalData (n : Core) (b : Beam) (pixel : Nat) (v : Word) (c : Chip) : Chip :=
  let ia := if b.val = 0 then R.GND_PALA_IDX else R.GND_PALB_IDX
  (c.palWrite b pixel ((c.port n ia).toNat % 4096) v).portInc n ia 4096

/-- The same for a store whose landing no command places: it lands after the Beam's last event, and where is free (assumption 111). -/
def Chip.livePalStore (n : Core) (b : Beam) (v : Word) (c : Chip) : Chip :=
  let (k, c) := c.fresh
  c.livePalData n b (c.pixel b + Config.landDelay k) v

/-- A store to a shadow palette DATA port by a core. -/
def Chip.shadowPalData (n : Core) (b : Beam) (v : Word) (c : Chip) : Chip :=
  let ia := if b.val = 0 then R.GND_SPALA_IDX else R.GND_SPALB_IDX
  let e := (c.port n ia).toNat % 4096
  (if c.inTransfer b then c.hold b (.spal (palKey b e) v) else c.spalWrite b e v).portInc n ia 4096

/-! ### Line capture (R361, R371 to R376, R379) -/

/-- Bits per pixel of a format (R352). -/
def bppOf (format : Nat) : Nat := match format with | 0 => 2 | 1 => 4 | 2 => 8 | 3 => 16 | _ => 32

/-- WIN_W or WIN_H clamped to the active area (R374). -/
def winClamp (pos size active : Nat) : Nat := if active ≤ pos then 0 else min size (active - pos)

/-- A signed little-endian field read from Vellum. -/
def Chip.vleS (c : Chip) (off n : Nat) : Int := signed (8 * n) (c.vle off n)

/-- The affine entry of a window line; none past the end of Vellum (R372, R375). -/
def Chip.affEntry (c : Chip) (off : Nat) : Option AffEntry :=
  if off + 16 ≤ vlmSize then
    some { a := c.vleS off 2, b := c.vleS (off + 2) 2, c := c.vleS (off + 4) 2, d := c.vleS (off + 6) 2
           x0 := c.vleS (off + 8) 4, y0 := c.vleS (off + 12) 4, bad := c.vBad off 16 }
  else none

/-- Plane p is drawn as the fallback of a window of Beam b that is enabled and under FALLBACK (R433, R435). -/
def Chip.fallbackOn (c : Chip) (b : Beam) (p : Plane) : Bool :=
  (List.finRange 8).any fun n => c.rf (R.EYE_STAT n) 5 4 == 3 && c.rf (R.EYE_POLICY n) 18 16 == p.val
    && c.rb (R.EYE_WIN_CTRL n) 0 && c.rb (R.EYE_WIN_CTRL n) 1 == decide (b.val = 1)

/-- Plane p captures its live registers for line l of Beam b (R361). A plane that is off, on the other Beam, or shed
captures nothing; a clamp or a bad format sets its sticky bit; a line the window does not cover needs no fetch. A plane of a bad
format is not drawn, and reports its slack like any other (R376, R378). -/
def Chip.planeCapture (b : Beam) (l : Nat) (p : Plane) (c : Chip) : Chip :=
  let ctrl := c.rd (R.GND_CTRL p)
  if !(tb ctrl 0 || c.fallbackOn b p) || tb ctrl 1 != decide (b.val = 1) || (c.shed 4 && tb ctrl 4) then c
  else
    let k := c.beam b
    let mw := c.rf (R.GND_MAP_SIZE p) 15 0
    let mh := c.rf (R.GND_MAP_SIZE p) 31 16
    let wx := c.rf (R.GND_WIN_POS p) 15 0
    let wy := c.rf (R.GND_WIN_POS p) 31 16
    let ww := c.rf (R.GND_WIN_SIZE p) 15 0
    let wh := c.rf (R.GND_WIN_SIZE p) 31 16
    let mw' := clampN 1 256 mw
    let mh' := clampN 1 256 mh
    let ww' := winClamp wx ww k.hactive
    let wh' := winClamp wy wh k.vactive
    let fmt := fld ctrl 10 8
    let c := c.sbIf (mw' != mw || mh' != mh) R.GND_STICKY p
    let c := c.sbIf (ww' != ww || wh' != wh) R.GND_STICKY (8 + p)
    let c := c.sbIf (decide (5 ≤ fmt)) R.GND_STICKY (24 + p)
    if ww' = 0 ∨ l < wy ∨ wy + wh' ≤ l then c
    else
      let affine := tb ctrl 3 && decide (6 ≤ p.val)
      let off := (c.rd (R.GND_AFF_BASE p)).toNat + 16 * (l - wy)
      let aff := if affine then c.affEntry off else none
      let c := c.when (affine && aff.isSome) fun c => (c.vRead .beam b (off / 64 * 64) 64).2.2
      let c := c.sbIf (affine && aff.isNone) R.GND_STICKY (16 + p)
      let snap : PlaneSnap :=
        { beam := b, line := l, format := fmt, tile := if tb ctrl 2 then 16 else 8
          mapBase := (c.rd (R.GND_MAP_BASE p)).toNat, mapW := mw', mapH := mh'
          tileBase := (c.rd (R.GND_TILE_BASE p)).toNat
          scrollX := c.rf (R.GND_SCROLL p) 15 0, scrollY := c.rf (R.GND_SCROLL p) 31 16
          winX := wx, winY := wy, winW := ww', winH := wh', affine, aff }
      c.onPlane p fun s => { s with
        snaps := s.snaps.filter (fun x => !(x.beam == b && x.line == l)) ++ [snap]
        late := s.late.filter fun x => !(x.beam == b && x.line == l) }

/-! ### Fetch (R352 to R357, R366 to R370, R373) -/

/-- The plane pixel (u, v) that window pixel i of the line shows (R357, R373). -/
def PlaneSnap.uv (s : PlaneSnap) (i : Nat) : Nat × Nat :=
  let w := s.mapW * s.tile
  let h := s.mapH * s.tile
  match s.aff with
  | some e =>
    let j : Int := (s.line : Int) - s.winY
    let uf := e.x0 + 256 * (e.a * i + e.b * j)
    let vf := e.y0 + 256 * (e.c * i + e.d * j)
    (((uf / 65536) % (w : Int)).toNat, ((vf / 65536) % (h : Int)).toNat)
  | none => ((i + s.scrollX) % w, (s.line - s.winY + s.scrollY) % h)

/-- A granule of tile graphics through the plane's cache: a hit becomes the most recently used; a miss reads Vellum and
replaces the least recently used of 1,024 (R367). Its uncorrectable words stay so until the flush (R370). -/
def Chip.cacheRead (b : Beam) (p : Plane) (g : Nat) (c : Chip) : List Byte × Byte × Chip :=
  let st := c.planes[p]
  match st.cache.find? fun e => e.1 == g with
  | some e => (e.2.1, e.2.2, c.onPlane p fun s => { s with cache := e :: s.cache.filter fun x => x.1 != g })
  | none =>
    let (bs, _, c) := c.vRead .beam b g 64
    let bad := BitVec.ofNat 8 (ofBits ((List.range 8).map fun w => c.vBad (g + 8 * w) 8))
    (bs, bad, c.onPlane p fun s => { s with cache := ((g, bs, bad) :: s.cache).take 1024 })

/-- RGB565 widened to 8 bits a channel by bit replication (R358, R412). -/
def rgb565 (v : Nat) : PixSrc :=
  let r := v / 2048 % 32
  let g := v / 32 % 64
  let b := v % 32
  .argb 255 (r * 8 + r / 4) (g * 4 + g / 16) (b * 8 + b / 4)

/-- A 32-bit pixel as ARGB8888 (R352). -/
def argb32 (v : Nat) : PixSrc := .argb (v / 2 ^ 24 % 256) (v / 2 ^ 16 % 256) (v / 2 ^ 8 % 256) (v % 256)

/-- The pixel of a format at bit offset `bit` of a list of bytes (R352). -/
def pixelOf (format palette bit : Nat) (bs : List Byte) : PixSrc :=
  let n := bppOf format
  let v := leNat ((bs.drop (bit / 8)).take 4) / 2 ^ (bit % 8) % 2 ^ n
  match format with
  | 3 => rgb565 v
  | 4 => argb32 v
  | _ => .index palette v

/-- A transparent pixel. -/
def clearPix : RawPix := { src := .argb 0 0 0 0, prio := 0, blend := 0, bad := false }

/-- One window pixel of a fetch: its map entry, its tile granule, its colour source (R353 to R357, R375). -/
def Chip.planePixel (p : Plane) (s : PlaneSnap) (i : Nat) (c : Chip) : RawPix × Chip :=
  let (u, v) := s.uv i
  let eo := s.mapBase + 4 * (v / s.tile * s.mapW + u / s.tile)
  if vlmSize < eo + 4 then (clearPix, c.sb R.GND_STICKY (16 + p))
  else
    let e := w32 (c.vle eo 4)
    let size := s.tile * s.tile * bppOf s.format / 8
    let base := s.tileBase + fld e 19 0 * size
    if vlmSize < base + size then (clearPix, c.sb R.GND_STICKY (16 + p))
    else
      let px := if tb e 24 then s.tile - 1 - u % s.tile else u % s.tile
      let py := if tb e 25 then s.tile - 1 - v % s.tile else v % s.tile
      let bit := (py * s.tile + px) * bppOf s.format
      let g := (base + bit / 8) / 64 * 64
      let (bs, bad, c) := c.cacheRead s.beam p g
      ({ src := pixelOf s.format (fld e 23 20) ((base + bit / 8 - g) * 8 + bit % 8) bs
         prio := fld e 27 26, blend := fld e 31 28, bad := bad.getLsbD ((base + bit / 8 - g) / 8) || c.vBad eo 4 || s.aff.any AffEntry.bad }, c)

/-- Neighbours that are equal merged. -/
def dedup : List Nat → List Nat
  | [] => []
  | a :: t => match dedup t with
    | [] => [a]
    | b :: r => if a = b then b :: r else a :: b :: r

/-- The reads of map entries that a line makes, as offsets and lengths: granules of a plain line, single entries of an
affine line where the entry changes from pixel to pixel (R377). -/
def PlaneSnap.mapReads (s : PlaneSnap) : List (Nat × Nat) :=
  let offs := (List.range s.winW).map fun i =>
    let (u, v) := s.uv i
    s.mapBase + 4 * (v / s.tile * s.mapW + u / s.tile)
  let inside (l : List Nat) : List Nat := l.filter fun o => decide (o + 4 ≤ vlmSize)
  if s.affine then (inside (dedup offs)).map fun o => (o, 4) else (dedup ((inside offs).map fun o => o / 64 * 64)).map fun o => (o, 64)

/-- The line's pixels, left to right. -/
def Chip.planePixels (p : Plane) (s : PlaneSnap) : List Nat → Chip → List RawPix × Chip
  | [], c => ([], c)
  | i :: t, c =>
    let (x, c) := c.planePixel p s i
    let (xs, c) := Chip.planePixels p s t c
    (x :: xs, c)

/-- A line that draws nothing: its affine entry was not read (R375), or its format is bad (R376). -/
def PlaneSnap.blank (s : PlaneSnap) : Bool := (s.affine && s.aff.isNone) || decide (5 ≤ s.format)

/-- The first m pixels of a captured line are read, beyond those already read. -/
def Chip.fetchTo (p : Plane) (s : PlaneSnap) (m : Nat) (c : Chip) : List RawPix × Chip :=
  if s.blank then ([], c)
  else
    let (px, c) := Chip.planePixels p s ((List.range (min m s.winW)).drop s.got.length) c
    (s.got ++ px, c)

/-- A fetch reads the rest of its line: its pixels. -/
def Chip.fetchLine (p : Plane) (s : PlaneSnap) (c : Chip) : List RawPix × Chip :=
  let c := if s.blank then c else forEach s.mapReads (fun r c => (c.vRead .beam s.beam r.1 r.2).2.2) c
  c.fetchTo p s s.winW

/-- A fetcher reports its slack for a line of its Beam that may be over (R80, R81). -/
def Chip.reportSlack (b : Beam) (l : Nat) (late : Bool) (slack : Int) (c : Chip) : Chip :=
  let m := c.line b
  if !late || m = l then c.onBeam b (PrkBeam.report l slack)
  else
    let c := if m = l + 1 then
        let old := signed 16 (c.rf (R.PRK_SLACK b) 15 0)
        c.wf (R.PRK_SLACK b) 15 0 (slackField (some (min old slack)))
      else c
    if m < (c.beam b).vactive then c.onBeam b fun k => { k with frameSlack := minOpt k.frameSlack (some slack) } else c

/-- Plane p completes the fetch of line l of Beam b: the line buffer takes its pixels, and the slack is reported (R378). A line that
has been output meanwhile only reports. -/
def Chip.planeFetch (p : Plane) (b : Beam) (l : Nat) (slack : Int) (c : Chip) : Chip :=
  let is (x : PlaneSnap) : Bool := x.beam == b && x.line == l
  match (c.planes[p]).snaps.find? is, (c.planes[p]).late.find? is with
  | some s, _ =>
    let (px, c) := c.fetchLine p s
    let buf : LineBuf := { beam := b, line := l, x0 := s.winX, px }
    let c := c.onPlane p fun st => { st with
      snaps := st.snaps.filter (fun x => !is x)
      bufs := st.bufs.filter (fun x => !(x.beam == b && x.line == l)) ++ [buf] }
    c.reportSlack b l false slack
  | none, some s =>
    let (_, c) := c.fetchLine p s
    (c.onPlane p fun st => { st with late := st.late.filter fun x => !is x }).reportSlack b l true slack
  | none, none => c

/-- Fetches in progress keep the data that they have read, how much is free (assumption 111). -/
def Chip.keepRead (p : Plane) : List PlaneSnap → Chip → List PlaneSnap × Chip
  | [], c => ([], c)
  | s :: t, c =>
    let (k, c) := c.fresh
    let (px, c) := c.fetchTo p s (Config.fetchDone k)
    let (r, c) := Chip.keepRead p t c
    ({ s with got := px } :: r, c)

/-- The cache of plane p is flushed: a fetch in progress completes with the data it has already read (R367, R368). -/
def Chip.planeFlush (p : Plane) (c : Chip) : Chip :=
  let (l, c) := c.keepRead p (c.planes[p]).snaps
  c.onPlane p fun s => { s with snaps := l, cache := [] }

/-- GND_TILE_INVAL: the caches of the named planes flush (R368). -/
def Chip.tileInval (mask : Nat) (c : Chip) : Chip :=
  forEach (List.finRange 8) (fun p c => if mask / 2 ^ p.val % 2 = 1 then c.planeFlush p else c) c

/-- The planes of a Beam flush their caches at PFS (R367). -/
def Chip.cacheFlush (b : Beam) (c : Chip) : Chip :=
  forEach (List.finRange 8) (fun p c => if c.rb (R.GND_CTRL p) 1 = decide (b.val = 1) then c.planeFlush p else c) c

/-- Offsets of the eight registers of a plane block. -/
def planeOffs : List Nat := [0x00, 0x04, 0x08, 0x0C, 0x10, 0x14, 0x18, 0x1C]

/-- The transfer of the plane shadows of Beam b (R362, R365). -/
def Chip.planeTransfer (b : Beam) (c : Chip) : Chip :=
  forEach (List.finRange 8) (fun p c =>
    if c.rb (R.GND_SH_CTRL p) 1 = decide (b.val = 1) then
      let moves := c.rb (R.GND_CTRL p) 0 && c.rb (R.GND_CTRL p) 1 != decide (b.val = 1)
      let c := forEach planeOffs (fun o c => c.wr (R.GND_CTRL p + o) (c.rd (R.GND_SH_CTRL p + o))) c
      c.sbIf moves R.GND_STICKY2 p
    else c) c

/-- A store to a register of the GND page by core n (R371, R382). -/
def Chip.storeGnd (n : Core) (a : Nat) (v : Word) (c : Chip) : Chip :=
  let off := a % 0x1000
  if off = 0x00C then c.tileInval (fld v 7 0)
  else if off = 0x040 ∨ off = 0x080 ∨ off = 0x0C0 ∨ off = 0x0D0 then c.setPort n a (v &&& w32 0x10FFF)
  else if off = 0x044 then c.livePalStore n 0 v
  else if off = 0x084 then c.livePalStore n 1 v
  else if off = 0x0C4 then c.shadowPalData n 0 v
  else if off = 0x0D4 then c.shadowPalData n 1 v
  else
    let v := if 0x400 ≤ off ∧ off % 0x40 = 0 ∧ off / 0x40 % 16 < 6 then setBit v 3 false else v
    match c.heldBy a with
    | some b => c.hold b (.reg a v)
    | none => c.store a v

/-- What a register of the GND page reads for core n; a DATA read advances the index with INC. -/
def Chip.readGnd (n : Core) (a : Nat) (c : Chip) : Word × Chip :=
  let off := a % 0x1000
  let data (b : Beam) (m : List (Nat × Word)) (ia : Nat) : Word × Chip :=
    (Sparse.get 0 m (palKey b (c.port n ia).toNat), c.portInc n ia 4096)
  if off = 0x040 ∨ off = 0x080 ∨ off = 0x0C0 ∨ off = 0x0D0 then (c.port n a, c)
  else if off = 0x044 then data 0 c.palLive R.GND_PALA_IDX
  else if off = 0x084 then data 1 c.palLive R.GND_PALB_IDX
  else if off = 0x0C4 then data 0 c.palShadow R.GND_SPALA_IDX
  else if off = 0x0D4 then data 1 c.palShadow R.GND_SPALB_IDX
  else (c.rd a, c)

/-! ### Commands -/

/-- Plane p completes the fetch of line l of Beam b with a measured slack (R378). -/
def execPlaneFetchComplete (p : Plane) (b : Beam) (l : BitVec 13) (slack : Int) (s : State) : Out :=
  (s.chip.planeFetch p b l.toNat slack).next s

/-- A write to GND_TILE_INVAL lands (R368). -/
def execTileInval (mask : Byte) (s : State) : Out := (s.chip.tileInval mask.toNat).next s

/-- A write to a live palette DATA port by core n lands at a pixel of the Beam's present line (R360). -/
def execLivePaletteWrite (n : Core) (b : Beam) (v : Word) (s : State) (pixel : BitVec 14 := 0) : Out :=
  (s.chip.livePalData n b pixel.toNat v).next s

/-- A write to a shadow palette DATA port by core n (R362). -/
def execShadowPaletteWrite (n : Core) (b : Beam) (v : Word) (s : State) : Out := (s.chip.shadowPalData n b v).next s

end Sys2Proof.Machine
end

