-- ==== Sys2Proof/Machine/Eyelet.lean ====
section
/-! DEFINITION. Eyelet ports (14): camera frames, colour and scaling, frame and race mode, windows, and the freeze monitor. -/

namespace Sys2Proof.Machine

/-- Port n changed. -/
def Chip.onEye (n : Port) (f : EyePort → EyePort) (c : Chip) : Chip := { c with eye := upd c.eye n f }

/-! ### Geometry (R418) -/

/-- A crop's size within a limit: 0 acts as 1, and a crop past the limit is cut to it, to no less than 1. -/
def cropClamp (pos size lim : Nat) : Nat :=
  let s := max 1 size
  if pos + s ≤ lim then s else max 1 (lim - pos)

/-- The values a frame of port n would use now (R418). -/
def Chip.eyeGeom (c : Chip) (n : Port) : EyeGeom :=
  let ctrl := c.rd (R.EYE_CTRL n)
  let x := c.rf (R.EYE_CROP_POS n) 12 0
  let y := c.rf (R.EYE_CROP_POS n) 28 16
  let w := cropClamp x (c.rf (R.EYE_CROP_SIZE n) 12 0) 4096
  let h := cropClamp y (c.rf (R.EYE_CROP_SIZE n) 28 16) 3072
  { mode := if fld ctrl 2 1 = 3 then 0 else fld ctrl 2 1
    argb := tb ctrl 3, bt709 := tb ctrl 4, dt := fld ctrl 21 16
    ring := clampN 16 128 (fld ctrl 31 24)
    base := (c.rd (R.EYE_BUF n)).toNat, stride := (c.rd (R.EYE_STRIDE n)).toNat
    cropX := x, cropY := y, cropW := w, cropH := h
    outW := clampN 1 w (c.rf (R.EYE_OUT_SIZE n) 12 0), outH := clampN 1 h (c.rf (R.EYE_OUT_SIZE n) 28 16) }

/-- Bytes of an output pixel (R417). -/
def EyeGeom.bpp (g : EyeGeom) : Nat := if g.argb then 4 else 2

/-- The sticky bits of the clamps at a frame start (R418). -/
def Chip.eyeClampBits (n : Port) (g : EyeGeom) (c : Chip) : Chip :=
  let cut (pos size lim : Nat) : Bool := size == 0 || decide (lim < pos + size)
  let crop := cut g.cropX (c.rf (R.EYE_CROP_SIZE n) 12 0) 4096 || cut g.cropY (c.rf (R.EYE_CROP_SIZE n) 28 16) 3072
  let scale := g.outW != c.rf (R.EYE_OUT_SIZE n) 12 0 || g.outH != c.rf (R.EYE_OUT_SIZE n) 28 16
    || (g.mode == 2 && g.ring != c.rf (R.EYE_CTRL n) 31 24)
  (c.sbIf crop (R.EYE_STICKY n) 2).sbIf scale (R.EYE_STICKY n) 4

/-! ### Input pixels (R412) -/

/-- A signed value shifted right by 8 and clamped to a byte. -/
def byteOf (x : Int) : Nat := (clampI 0 255 (x / 256)).toNat

/-- YUV to RGB (R412). -/
def yuvRgb (bt709 : Bool) (y cb cr : Nat) : Rgb :=
  let c : Int := (y : Int) - 16
  let d : Int := (cb : Int) - 128
  let e : Int := (cr : Int) - 128
  if bt709 then
    { r := byteOf (298 * c + 459 * e + 128), g := byteOf (298 * c - 55 * d - 136 * e + 128), b := byteOf (298 * c + 541 * d + 128) }
  else
    { r := byteOf (298 * c + 409 * e + 128), g := byteOf (298 * c - 100 * d - 208 * e + 128), b := byteOf (298 * c + 516 * d + 128) }

/-- A grey pixel. -/
def grey (b : Byte) : Rgb := { r := b.toNat, g := b.toNat, b := b.toNat }

/-- The colour of a pixel source that carries one. -/
def PixSrc.rgb : PixSrc → Rgb
  | .argb _ r g b => { r, g, b }
  | .index _ _ => { r := 0, g := 0, b := 0 }

/-- Payload bytes to pixels, group by group; the byte order within a group is CSI-2's own (assumption 20, PRESUMED), and
bytes past the last whole group carry no pixel. -/
def yuvPixels (bt709 : Bool) : List Byte → List Rgb
  | cb :: y0 :: cr :: y1 :: t =>
    yuvRgb bt709 y0.toNat cb.toNat cr.toNat :: yuvRgb bt709 y1.toNat cb.toNat cr.toNat :: yuvPixels bt709 t
  | _ => []
/-- See yuvPixels. -/
def rgb565Pixels : List Byte → List Rgb
  | a :: b :: t => (rgb565 (a.toNat + 256 * b.toNat)).rgb :: rgb565Pixels t
  | _ => []
/-- See yuvPixels. -/
def rgb888Pixels : List Byte → List Rgb
  | b :: g :: r :: t => { r := r.toNat, g := g.toNat, b := b.toNat } :: rgb888Pixels t
  | _ => []
/-- See yuvPixels. -/
def raw10Pixels : List Byte → List Rgb
  | a :: b :: c :: d :: _ :: t => grey a :: grey b :: grey c :: grey d :: raw10Pixels t
  | _ => []
/-- See yuvPixels. -/
def raw12Pixels : List Byte → List Rgb
  | a :: b :: _ :: t => grey a :: grey b :: raw12Pixels t
  | _ => []

/-- The pixels of a payload by data type (R408, R412); those of a type R408 does not list are free values. -/
def eyePixels (dt : Nat) (bt709 : Bool) (bs : List Byte) : List Rgb :=
  if dt = 0x1E then yuvPixels bt709 bs
  else if dt = 0x22 then rgb565Pixels bs
  else if dt = 0x24 then rgb888Pixels bs
  else if dt = 0x2A then bs.map grey
  else if dt = 0x2B then raw10Pixels bs
  else if dt = 0x2C then raw12Pixels bs
  else (Config.otherTypePixels (BitVec.ofNat 6 dt) bs).map fun p => { r := fld p 23 16, g := fld p 15 8, b := fld p 7 0 }

/-- R419: the pixels named by index are dropped and replaced by the last pixel accepted, in the row or before it. -/
def overflowPixels (lost : List Nat) : Nat → Rgb → List Rgb → List Rgb
  | _, _, [] => []
  | i, last, p :: t => if lost.contains i then last :: overflowPixels lost (i + 1) last t else p :: overflowPixels lost (i + 1) p t

/-! ### Crop and scale (R413 to R415) -/

/-- Input row r has delivered at least one pixel. -/
def EyeFrame.full (f : EyeFrame) (r : Nat) : Bool := !(f.rows.getD r []).isEmpty

/-- Input row r is known: received, or the frame is over. -/
def EyeFrame.known (f : EyeFrame) (r : Nat) : Bool := f.ended || decide (r < f.rows.length)

/-- R413 search outward from row r at distances d, d + 1, …: none while it is not decided, some none when no row has a
pixel. -/
def EyeFrame.nearest (f : EyeFrame) (r : Nat) : Nat → Nat → Option (Option Nat)
  | 0, _ => if f.ended then some none else none
  | fuel + 1, d =>
    if d ≤ r ∧ f.full (r - d) then some (some (r - d))
    else if f.full (r + d) then some (some (r + d))
    else if f.known (r + d) then EyeFrame.nearest f r fuel (d + 1)
    else none

/-- The input row that crop row y takes its pixels from (R413), once it is received (R420). -/
def EyeFrame.source (f : EyeFrame) (y : Nat) : Option (Option Nat) :=
  let r := f.geom.cropY + y
  if f.known r then f.nearest r 16384 0 else none

/-- Crop pixel x of an input row: past its end, its last pixel (R413). -/
def EyeFrame.cropPix (f : EyeFrame) (r x : Nat) : Rgb :=
  let row := f.rows.getD r []
  row.getD (min (f.geom.cropX + x) (row.length - 1)) { r := 0, g := 0, b := 0 }

/-- R414: base and phase of output position j. -/
def scalePos (j size out : Nat) : Nat × Nat :=
  let pos := (2 * j + 1) * size * 65536 / (2 * out) - 32768
  (pos / 65536, pos % 65536 / 2048)

/-- Coefficient c[phase][k] of a port and direction (R416). -/
def Chip.coef (c : Chip) (n : Port) (dir phase k : Nat) : Int :=
  let key := 512 * n.val + 256 * dir + 8 * phase + k
  (Sparse.get (if k = 3 then 256 else 0) c.eyeCoef key).toInt

/-- The taps of output position j: source positions, clamped, with their weights (R414, R415). -/
def Chip.taps (c : Chip) (n : Port) (dir : Nat) (two : Bool) (j size out : Nat) : List (Nat × Int) :=
  let (base, phase) := scalePos j size out
  let pos (p : Int) : Nat := (clampI 0 (size - 1) p).toNat
  if two then [(pos base, 256 - 8 * (phase : Int)), (pos (base + 1), 8 * (phase : Int))]
  else (List.range 8).map fun (k : Nat) => (pos ((base : Int) - 3 + k), c.coef n dir phase k)

/-- R415: the weighted sum of three channels. -/
def filterTaps (l : List (Rgb × Int)) : Rgb :=
  let ch (f : Rgb → Nat) : Nat := byteOf (l.foldl (fun s p => s + p.2 * (f p.1 : Int)) 128)
  { r := ch (·.r), g := ch (·.g), b := ch (·.b) }

/-- Crop rows that output row j depends on: those whose coefficient is not 0; both of two taps (R420). -/
def Chip.rowDeps (c : Chip) (n : Port) (f : EyeFrame) (j : Nat) : List Nat :=
  let ts := c.taps n 1 f.taps2 j f.geom.cropH f.geom.outH
  (if f.taps2 then ts else ts.filter fun t => t.2 != 0).map (·.1)

/-- Output row j of a frame whose rows are received. -/
def Chip.eyeRow (c : Chip) (n : Port) (f : EyeFrame) (j : Nat) : List Rgb :=
  let g := f.geom
  let src (y : Nat) : Nat := ((f.source y).join).getD 0
  let vt := (c.taps n 1 f.taps2 j g.cropH g.outH).filter fun t => t.2 != 0
  (List.range g.outW).map fun i =>
    let ht := c.taps n 0 f.taps2 i g.cropW g.outW
    filterTaps (vt.map fun t => (filterTaps (ht.map fun u => (f.cropPix (src t.1) u.1, u.2)), t.2))

/-- R417: a row's bytes. -/
def eyeBytes (argb : Bool) (px : List Rgb) : List Byte :=
  px.flatMap fun p =>
    if argb then leBytes 4 (255 * 2 ^ 24 + p.r * 2 ^ 16 + p.g * 2 ^ 8 + p.b)
    else leBytes 2 (p.r / 8 * 2048 + p.g / 4 * 32 + p.b / 8)

/-! ### Events and actions (R430 to R433, R683) -/

/-- The pipeline of port n, as mapped. -/
def Chip.pipeOf (c : Chip) (n : Port) : Nat := c.rf R.EYE_PIPE_MAP (4 * n.val + 3) (4 * n.val)

/-- The port's pipeline, the one its last frame start took (R407), is failed, and no spare serves the port (R683). -/
def Chip.pipeLost (c : Chip) (n : Port) : Bool := c.pipeFailed.contains (c.eye[n]).pipe

/-- An event is raised: 0 FROZEN, 1 STALLED, 2 LOST (R433). -/
def Chip.eyeRaise (n : Port) (e : Nat) (c : Chip) : Chip :=
  if c.rb (R.EYE_STAT n) (1 + e) then c
  else
    let c := ((c.sb (R.EYE_STAT n) (1 + e)).sb (R.EYE_STICKY n) (16 + e)).incSat (R.EYE_EVCNT n)
    c.journal 0x04 (16 + e) n.val (c.rd (R.EYE_STAT n)) 0 0

/-- An event clears. -/
def Chip.eyeClear (n : Port) (e : Nat) (c : Chip) : Chip := c.wb (R.EYE_STAT n) (1 + e) false

/-- The action of the standing event of highest rank: 0 none, 1 KEEP, 2 HATCH, 3 FALLBACK (R433). -/
def Chip.standingAction (c : Chip) (n : Port) : Nat :=
  let act (hi lo : Nat) : Nat := match c.rf (R.EYE_POLICY n) hi lo with
    | 0 => 1 | 2 => 3 | _ => 2
  if c.rb (R.EYE_STAT n) 3 || c.pipeLost n then act 13 12
  else if c.rb (R.EYE_STAT n) 2 then act 11 10
  else if c.rb (R.EYE_STAT n) 1 then act 9 8
  else 0

/-- The action in force (EYE_STATn.ACTION). -/
def Chip.eyeAction (c : Chip) (n : Port) : Nat := c.rf (R.EYE_STAT n) 5 4

/-- R422, R433 at a commit point of Beam b: for each window of the Beam, the action changes, then the newest complete buffer
becomes the displayed one unless KEEP holds it. -/
def Chip.eyeCommit (b : Beam) (c : Chip) : Chip :=
  forEach (List.finRange 8) (fun n c =>
    if c.rb (R.EYE_WIN_CTRL n) 1 = decide (b.val = 1) then
      let c := c.wf (R.EYE_STAT n) 5 4 (c.standingAction n)
      if (c.eyeGeom n).mode ≠ 2 ∧ c.eyeAction n ≠ 1 then
        match (c.eye[n]).newest with
        | some i =>
          ((c.wf (R.EYE_STAT n) 9 8 i).sb (R.EYE_STAT n) 12).onEye n fun p =>
            { p with unshown := p.unshown.filter (· != i) }
        | none => c
      else c
    else c) c

/-! ### Camera frames (R409 to R411, R420 to R425, R429 to R431) -/

/-- The port runs. -/
def Chip.eyeRunning (c : Chip) (n : Port) : Bool := c.rb (R.EYE_STAT n) 0

/-- The frame that is still arriving. -/
def EyePort.current (p : EyePort) : Option EyeFrame := p.frames.find? fun f => !f.ended

/-- The frame that is still arriving changed. -/
def EyePort.onCurrent (g : EyeFrame → EyeFrame) (p : EyePort) : EyePort := { p with frames := changeOne p.frames }
where
  /-- The first frame that is not over changed. -/
  changeOne : List EyeFrame → List EyeFrame
    | [] => []
    | f :: t => if f.ended then f :: changeOne t else g f :: t

/-- A header error (R409): the packet is dropped. -/
def Chip.hdrErr (n : Port) (c : Chip) : Chip := (c.incSat (R.EYE_PKTERR n)).sb (R.EYE_STICKY n) 6

/-- PCRC of the payload bytes that a frame has hashed (R429). -/
def EyeFrame.pcrc (f : EyeFrame) : Word := f.crc ^^^ 0xFFFFFFFF

/-- The frame still arriving ends (R410, R413, R429): PCRC and STAMP, the sizes received, and whether rows were filled. -/
def Chip.frameOver (n : Port) (f : EyeFrame) (c : Chip) : Chip :=
  let g := f.geom
  let c := (c.wr (R.EYE_PCRC n) f.pcrc).wr (R.EYE_STAMP n) (crc32c (leBytes 4 f.pcrc.toNat ++ leBytes 2 f.fnum.toNat))
  let filled := (List.range g.cropH).any fun y => decide ((f.rows.getD (g.cropY + y) []).length < g.cropX + g.cropW)
  let c := (c.wf (R.EYE_RECV n) 12 0 (min 4096 f.width)).wf (R.EYE_RECV n) 28 16 (min 3072 f.rows.length)
  let c := c.sbIf (filled && f.rows.any fun r => !r.isEmpty) (R.EYE_STICKY n) 2
  c.onEye n (EyePort.onCurrent fun f => { f with ended := true })

/-- The port stops (R436): it no longer runs; the buffers and the ring stay. -/
def Chip.eyeStopped (n : Port) (c : Chip) : Chip := c.wb (R.EYE_STAT n) 0 false

/-- A PORT_POLICY that waits for the port's next frame start acts (R327). -/
def Chip.policyTake (n : Port) (c : Chip) : Chip :=
  match (c.eye[n]).policy with
  | none => c
  | some (p, l) => ((c.store (R.EYE_POLICY n) p).store (R.EYE_LOST n) l).onEye n fun k => { k with policy := none }

/-- A frame start packet of the port's virtual channel (R407, R410, R411, R418, R421, R431, R432); the pixel is that of the
Beam position captured (R93). -/
def Chip.frameStart (n : Port) (fnum : Half) (pixel : Nat) (c : Chip) : Chip :=
  let c : Chip := (c.policyTake n).fsCapture n pixel
  let c : Chip := match (c.eye[n]).current with
    | some f => (c.frameOver n f).sb (R.EYE_STICKY n) 8
    | none => c
  let c : Chip := c.eyeClear n 2
  let c := if fnum = 0 then c.sb (R.EYE_STICKY n) 9
    else if (c.eye[n]).lastFn = some fnum then c.eyeRaise n 1 else c.eyeClear n 1
  let c := c.wr (R.EYE_FNUM n) (fnum.setWidth 32)
  let g : EyeGeom := c.eyeGeom n
  let c := c.eyeClampBits n g
  let pipe := c.pipeOf n
  let p := c.eye[n]
  let shown := if c.rb (R.EYE_STAT n) 12 then some (c.rf (R.EYE_STAT n) 9 8) else none
  let bufs : Nat := if g.mode = 1 then 3 else 2
  let buf : Nat := if g.mode = 2 then 0 else
    ((List.range bufs).find? fun i =>
      some i != shown && !(g.mode == 1 && p.newest == some i)).getD 0
  let c := if g.mode = 2 then c else
    (if p.unshown.contains buf then c.incSat (R.EYE_SKIP n) else c).wf (R.EYE_STAT n) 11 10 buf
  let taps2 := c.shed 2
  let c := (c.wf (R.EYE_STAT n) 27 16 0).wb (R.EYE_STAT n) 6 taps2
  c.onEye n fun p => { p with
    frames := p.frames ++ [{ serial := p.serial, geom := g, fnum, pipe, dead := 9 ≤ pipe || c.pipeFailed.contains pipe, buf, taps2 }]
    serial := p.serial + 1, raceF := if g.mode = 2 then some p.serial else p.raceF
    pipe, deskewOn := p.deskewOn || p.deskewPend, deskewPend := false, lastFn := some fnum
    newest := if g.mode ≠ 2 ∧ p.newest = some buf then none else p.newest
    unshown := if g.mode = 2 then p.unshown else p.unshown.filter (· != buf) }

/-- A row of type DT (R410, R412, R419, R429): `lost` names the pixels that found the port's buffer full. -/
def Chip.inputRow (n : Port) (f : EyeFrame) (bs : List Byte) (lost : List Nat) (c : Chip) : Chip :=
  if 3072 ≤ f.rows.length then c.sb (R.EYE_STICKY n) 3
  else
    let px := eyePixels f.geom.dt f.geom.bt709 bs
    let c := c.sbIf (decide (4096 < px.length)) (R.EYE_STICKY n) 3
    let px := px.take 4096
    let c := c.sbIf (lost.any fun i => decide (i < px.length)) (R.EYE_STICKY n) 5
    let row := overflowPixels lost 0 (c.eye[n]).lastPix px
    let crc := if f.rows.length % 8 = 0 then crc32cUpd bs f.crc else f.crc
    (c.onEye n (EyePort.onCurrent fun f => { f with rows := f.rows ++ [row], width := max f.width px.length, crc })).onEye n
      fun p => { p with lastPix := row.getLastD p.lastPix }

/-- A long packet of the port's virtual channel (R409, R410). -/
def Chip.longPacket (n : Port) (dt : Nat) (bs : List Byte) (crcBad : Bool) (lost : List Nat) (c : Chip) : Chip :=
  if dt = 0x12 then c
  else
    let c := if crcBad then (c.incSat (R.EYE_PKTERR n)).sb (R.EYE_STICKY n) 7 else c
    match (c.eye[n]).current with
    | none => c.sb (R.EYE_STICKY n) 11
    | some f => if dt = f.geom.dt then c.inputRow n f bs lost else c.sb (R.EYE_STICKY n) 11

/-- The freeze monitor at the end of a complete frame (R430). -/
def Chip.freezeCheck (n : Port) (pcrc : Word) (c : Chip) : Chip :=
  let p := c.eye[n]
  let same := p.lastPcrc == some pcrc
  let run := if same then p.run + 1 else 1
  let c := c.onEye n fun p => { p with lastPcrc := some pcrc, run }
  let c := if same then c else if p.lastPcrc.isSome then c.eyeClear n 0 else c
  let fn := c.rf (R.EYE_POLICY n) 7 0
  if fn ≠ 0 ∧ max 2 fn ≤ run then c.eyeRaise n 0 else c

/-- A frame end packet (R410, R413, R421, R429, R430, R436). -/
def Chip.frameEnd (n : Port) (c : Chip) : Chip :=
  match (c.eye[n]).current with
  | none => c
  | some f =>
    let c := c.frameOver n f
    let empty := f.rows.all List.isEmpty
    let inc := empty || (f.dead && f.geom.mode != 2)
    let c := if inc then c.sb (R.EYE_STICKY n) 8
      else
        let c := (c.incSat (R.EYE_FRAMES n)).freezeCheck n f.pcrc
        if f.geom.mode = 2 then c
        else c.onEye n fun p => { p with newest := some f.buf, unshown := insertSorted f.buf p.unshown }
    if c.rb (R.EYE_CTRL n) 0 then c else c.eyeStopped n

/-- A deskew sequence (R411). -/
def Chip.deskew (n : Port) (c : Chip) : Chip :=
  if (c.eye[n]).current.isSome then c.sb (R.EYE_STICKY n) 10
  else c.onEye n fun p => { p with deskewPend := true }

/-- The spare pipeline may serve a port: it has not failed and serves none (R683). -/
def Chip.pipeSpare (c : Chip) : Bool :=
  !c.pipeFailed.contains 8 && !(List.range 8).any fun n => c.rf R.EYE_PIPE_MAP (4 * n + 3) (4 * n) == 8

/-- The pipeline of a frame fails its check (R682): it is Tirba's to darn, and without a free spare Tirba posts NO_SPARE (R675). -/
def Chip.pipeFail (n : Port) (pipe : Nat) (c : Chip) : Chip :=
  let c := (c.sb R.EYE_PIPE_STAT pipe).journal 0x05 pipe pipe (c.rd R.EYE_PIPE_STAT ||| bitW pipe) 0 0
  let c := { c with pipeFailed := insertSorted pipe c.pipeFailed }
  let c := if c.pipeSpare then c.wantDarn 1 n else c.journal 0x0A 0x06 n.val 0 0 0
  c.onEye n fun p => { p with frames := p.frames.map fun f => if f.pipe = pipe then { f with dead := true } else f }

/-- The tag of a ring slot and the lap it may make (R423, R425). -/
def Chip.ringTag (n : Port) (f : EyeFrame) (slot : Nat) (c : Chip) : Chip :=
  let old := (c.eye[n]).tags.find? fun t => t.1 == slot
  let lap := c.rb (R.EYE_WIN_CTRL n) 0 && old.any fun t => !t.2.read
  let c := if lap then
      (c.wf (R.EYE_RACECNT n) 31 16 (satInc 0xFFFF (c.rf (R.EYE_RACECNT n) 31 16))).sb (R.EYE_STICKY n) 1
    else c
  c.onEye n fun p => { p with
    tags := p.tags.filter (fun t => t.1 != slot) ++ [(slot, { frame := f.serial, row := f.next, read := false })] }

/-- A frame that has nothing to land: failed, whole, or without a pixel (R413). -/
def EyeFrame.landed (f : EyeFrame) : Bool := f.ended && (f.dead || decide (f.geom.outH ≤ f.next) || f.rows.all List.isEmpty)

/-- The next output row of the oldest frame lands, when the rows it depends on are received (R417, R420, R421, R423, R437).
`fail` is an observed failure of the pipeline's check, made while PIPE_CHK is 1 (R682). Bytes past the end of Vellum reach no
memory (assumption 8). -/
def Chip.rowLand (n : Port) (fail : Bool) (c : Chip) : Chip :=
  match (c.eye[n]).frames with
  | [] => c
  | f :: _ =>
    if f.geom.outH ≤ f.next ∨ ¬(c.rowDeps n f f.next).all (fun y => (f.source y).any Option.isSome) then c
    else if f.dead then c
    else if fail ∧ c.rb R.DRN_CTRL 3 then c.pipeFail n f.pipe
    else
      let g := f.geom
      let off := if g.mode = 2 then g.base + f.next % g.ring * g.stride
        else g.base + f.buf * g.stride * g.outH + f.next * g.stride
      let bs := (eyeBytes g.argb (c.eyeRow n f f.next)).take (vlmSize - off)
      let c := c.vWrite off bs
      let c := if g.mode = 2 then c.ringTag n f (f.next % g.ring) else c
      let newest := (c.eye[n]).serial = f.serial + 1
      let two := c.shed 2
      let c := if newest then (c.wf (R.EYE_STAT n) 27 16 (min 4095 (f.next + 1))).wb (R.EYE_STAT n) 6 two else c
      c.onEye n fun p => { p with frames := match p.frames with
        | f :: t =>
          let f := { f with next := f.next + 1, taps2 := two }
          if f.landed then t else f :: t
        | [] => [] }

/-- Frames with nothing more to land are forgotten. -/
def Chip.eyePrune (n : Port) (c : Chip) : Chip := c.onEye n fun p => { p with frames := p.frames.filter fun f => !f.landed }

/-! ### Start and stop (R436, R438) -/

/-- The port starts. -/
def Chip.eyeStart (n : Port) (c : Chip) : Chip :=
  let c := c.policyTake n
  let c := (c.sb (R.EYE_CTRL n) 0).sb (R.EYE_STAT n) 0
  let c := (((c.wr (R.EYE_FRAMES n) 0).wr (R.EYE_PKTERR n) 0).wr (R.EYE_EVCNT n) 0).wr (R.EYE_SKIP n) 0
  let c := ((c.wr (R.EYE_RACECNT n) 0).eyeClear n 0).eyeClear n 1
  let c := (c.wb (R.EYE_STAT n) 12 false).wf (R.EYE_STAT n) 27 16 0
  c.onEye n fun p => { p with
    frames := [], lastPcrc := none, run := 0, lastFn := none, newest := none, unshown := []
    deskewPend := false, lastPix := { r := 0, g := 0, b := 0 } }

/-- RUN written 1: a stopped port starts; a port that is to stop goes on. -/
def Chip.eyeRun (n : Port) (c : Chip) : Chip :=
  if c.eyeRunning n then c.sb (R.EYE_CTRL n) 0 else c.eyeStart n

/-- RUN written 0: the port stops at the next frame end, or at once. -/
def Chip.eyeHalt (n : Port) (c : Chip) : Chip :=
  let c := c.wb (R.EYE_CTRL n) 0 false
  if (c.eye[n]).current.isSome then c else c.eyeStopped n

/-- The port stops at once, and the frame in progress ends incomplete (R436, R438). -/
def Chip.eyeAbort (n : Port) (c : Chip) : Chip :=
  if c.eyeRunning n then
    let c := match (c.eye[n]).current with
      | some f => (c.frameOver n f).sb (R.EYE_STICKY n) 8
      | none => c
    (c.onEye n fun p => { p with frames := [] }).eyeStopped n
  else c

/-- On entry to DIM every port stops as by ABORT and keeps its registers (R438). -/
def Chip.eyeDim (c : Chip) : Chip := forEach (List.finRange 8) (fun n c => c.eyeAbort n) c

/-- On return to RUN a port whose RUN bit is 1 starts again (R438). -/
def Chip.eyeResume (c : Chip) : Chip :=
  forEach (List.finRange 8) (fun n c => if c.rb (R.EYE_CTRL n) 0 then c.eyeStart n else c) c

/-! ### The window (R424, R428, R434, R765) -/

/-- Hatch pixel (i, j) (R434). -/
def Chip.hatchPix (c : Chip) (i j : Nat) : RawPix :=
  let v := if (i + j) / 8 % 2 = 1 then c.rd R.EYE_HATCH1 else c.rd R.EYE_HATCH0
  { src := argb32 v.toNat, prio := 0, blend := 1, bad := false }

/-- A window line read from Vellum; past its end the pixels are transparent. -/
def Chip.winRead (b : Beam) (g : EyeGeom) (off w : Nat) (c : Chip) : List RawPix × Chip :=
  let len := min (w * g.bpp) (vlmSize - off)
  let (bs, _, c) := c.vRead .beam b off len
  ((List.range w).map fun i =>
    if len < (i + 1) * g.bpp then clearPix
    else { src := pixelOf (if g.argb then 4 else 3) 0 (8 * i * g.bpp) bs, prio := 0, blend := 1
           bad := c.vBad (off + i * g.bpp) g.bpp }, c)

/-- A Beam's frame in which a line captured now is shown: the next one for lines captured before line 0. -/
def Chip.captureFrame (c : Chip) (b : Beam) : Word :=
  if (c.beam b).vactive ≤ c.line b then c.rd (R.PRK_FRAME b) + 1 else c.rd (R.PRK_FRAME b)

/-- The pixels of window line j, w wide, of a port in race mode, and whether it is an overtake (R424). -/
def Chip.raceLine (n : Port) (b : Beam) (g : EyeGeom) (j w : Nat) (c : Chip) : List RawPix × Bool × Chip :=
  let p := c.eye[n]
  match p.raceF with
  | none => ([], false, c)
  | some fr =>
    let slot := j % g.ring
    if p.tags.any fun t => t.1 == slot && t.2.frame == fr && t.2.row == j then
      let c := c.onEye n fun p => { p with tags := p.tags.map fun t => if t.1 = slot then (slot, { t.2 with read := true }) else t }
      let (px, c) := c.winRead b g (g.base + slot * g.stride) w
      (px, false, c)
    else
      let c := (c.wf (R.EYE_RACECNT n) 15 0 (satInc 0xFFFF (c.rf (R.EYE_RACECNT n) 15 0))).sb (R.EYE_STICKY n) 0
      let px := match p.lastRow with
        | some (b', f', j', px) => if j ≠ 0 ∧ b' = b ∧ f' = c.captureFrame b ∧ j' + 1 = j then px else []
        | none => []
      (px, true, c)

/-- The window of port n captures its live registers for line l of Beam b and fetches the line (R428, R424). An overtake is
kept for the signatures of the line (R465). -/
def Chip.winCapture (b : Beam) (l : Nat) (n : Port) (c : Chip) : Chip :=
  let ctrl := c.rd (R.EYE_WIN_CTRL n)
  if !tb ctrl 0 || tb ctrl 1 != decide (b.val = 1) || (c.shed 4 && tb ctrl 2) || c.eyeAction n == 3 then c
  else
    let k := c.beam b
    let g := c.eyeGeom n
    let wx := c.rf (R.EYE_WIN_POS n) 15 0
    let wy := c.rf (R.EYE_WIN_POS n) 31 16
    let w := winClamp wx g.outW k.hactive
    let h := winClamp wy g.outH k.vactive
    let c := c.sbIf (w != g.outW || h != g.outH) (R.EYE_STICKY n) 12
    if w = 0 ∨ l < wy ∨ wy + h ≤ l then c
    else
      let j := l - wy
      let race := g.mode == 2
      let (px, lapse, c) :=
        if c.eyeAction n = 2 ∨ (c.eyeAction n = 1 ∧ race) then ((List.range w).map fun i => c.hatchPix i j, false, c)
        else if race then c.raceLine n b g j w
        else if c.rb (R.EYE_STAT n) 12 then
          let (px, c) := c.winRead b g (g.base + c.rf (R.EYE_STAT n) 9 8 * g.stride * g.outH + j * g.stride) w
          (px, false, c)
        else ([], false, c)
      let c := if lapse then { c with apq := upd c.apq b fun q => { q with overtook := insertSorted l q.overtook } } else c
      c.onEye n fun p => { p with
        lastRow := some (b, c.captureFrame b, j, px)
        bufs := p.bufs.filter (fun x => !(x.beam == b && x.line == l)) ++ [{ beam := b, line := l, x0 := wx, alpha := fld ctrl 15 8, px }] }

/-- The window shadows whose shadow BEAM names Beam b are copied (R428). -/
def Chip.winTransfer (b : Beam) (c : Chip) : Chip :=
  forEach (List.finRange 8) (fun n c =>
    if c.rb (R.EYE_WIN_SH_CTRL n) 1 = decide (b.val = 1) then
      (c.wr (R.EYE_WIN_CTRL n) (c.rd (R.EYE_WIN_SH_CTRL n))).wr (R.EYE_WIN_POS n) (c.rd (R.EYE_WIN_SH_POS n))
    else c) c

/-! ### The EYE page (R440) -/

/-- Coefficient number reached by EYE_COEF_IDX: taps 2 × PAIR and the next. -/
def Chip.coefKey (c : Chip) : Nat := 2 * (c.rd R.EYE_COEF_IDX).toNat % 4096

/-- INC of EYE_COEF_IDX: [10:0] advances. -/
def Chip.coefInc (c : Chip) : Chip :=
  if c.rb R.EYE_COEF_IDX 16 then c.wf R.EYE_COEF_IDX 10 0 (c.rf R.EYE_COEF_IDX 10 0 + 1) else c

/-- The reset value of a coefficient (R440). -/
def coefReset (key : Nat) : BitVec 10 := if key % 8 = 3 then 256 else 0

/-- A write to EYE_COEF_DATA. -/
def Chip.coefWrite (v : Word) (c : Chip) : Chip :=
  let k := c.coefKey
  let m := Sparse.set (coefReset k) c.eyeCoef k (BitVec.ofNat 10 (fld v 9 0))
  { c with eyeCoef := Sparse.set (coefReset (k + 1)) m (k + 1) (BitVec.ofNat 10 (fld v 25 16)) }.coefInc

/-- A write to EYE_CTRLn, its ABORT apart (R436, R424). -/
def Chip.eyeCtrlRun (n : Port) (v : Word) (c : Chip) : Chip :=
  if c.rb (R.EYE_CTRL n) 0 then if tb v 0 then c else c.eyeHalt n
  else
    let c := if fld v 2 1 = c.rf (R.EYE_CTRL n) 2 1 then c else c.onEye n fun p => { p with raceF := none }
    let c := c.store (R.EYE_CTRL n) (setBit v 0 false)
    if tb v 0 then c.eyeRun n else c

/-- A write to EYE_CTRLn (R436): ABORT acts after the rest of its write, and RUN then reads 0 (assumption 109). -/
def Chip.eyeCtrl (n : Port) (v : Word) (c : Chip) : Chip :=
  let c := c.eyeCtrlRun n v
  if tb v 11 then (c.eyeAbort n).wb (R.EYE_CTRL n) 0 false else c

/-- A store lands in a register of the EYE page. -/
def Chip.storeEye (a : Nat) (v : Word) (c : Chip) : Chip :=
  let off := a % 0x1000
  if off = 0x014 then c.coefWrite v
  else if 0x100 ≤ off ∧ off < 0x500 then
    let n : Port := ⟨(off - 0x100) / 0x80 % 8, Nat.mod_lt _ (by decide)⟩
    let o := (off - 0x100) % 0x80
    if o = 0 then c.eyeCtrl n v
    else if c.rb (R.EYE_CTRL n) 0 ∧ o ≠ 0x1C ∧ o ≠ 0x20 ∧ o ≠ 0x28 ∧ o ≠ 0x2C then c
    else
      let c' := c.store a v
      if o = 0x08 ∧ c'.rd a ≠ c.rd a then c'.onEye n fun p => { p with raceF := none } else c'
  else match c.heldBy a with
    | some b => c.hold b (.reg a v)
    | none => c.store a v

/-- What a register of the EYE page reads; a DATA read advances the index with INC. -/
def Chip.readEye (a : Nat) (c : Chip) : Word × Chip :=
  let off := a % 0x1000
  if off = 0x014 then
    let k := c.coefKey
    let get (k : Nat) : Nat := (Sparse.get (coefReset k) c.eyeCoef k).toNat
    (w32 (get k + get (k + 1) * 2 ^ 16), c.coefInc)
  else if 0x100 ≤ off ∧ off < 0x500 ∧ (off - 0x100) % 0x80 = 0x24 then
    let n : Port := ⟨(off - 0x100) / 0x80 % 8, Nat.mod_lt _ (by decide)⟩
    (if c.pipeLost n then setBit (c.rd a) 3 true else c.rd a, c)
  else (c.rd a, c)

/-! ### Commands -/

/-- A frame start packet reaches port n: its virtual channel, frame number, whether its header is uncorrectable, and the
pixel of the Beam position at its receipt (R409, R410). -/
def execFrameStartPacket (n : Port) (vc : Fin 4) (hdrBad : Bool) (fnum : Half) (pixel : BitVec 14) (s : State) : Out :=
  let c := s.chip
  if ¬c.eyeRunning n then c.next s
  else if hdrBad then (c.hdrErr n).next s
  else if c.rf (R.EYE_CTRL n) 9 8 ≠ vc.val then c.next s
  else ((c.frameStart n fnum pixel.toNat).eyePrune n).next s

/-- A long packet reaches port n: its virtual channel and data type, whether its header is uncorrectable or its payload
checksum fails, its payload, and the pixels that found the buffer full (R409, R419). -/
def execLongPacket (n : Port) (vc : Fin 4) (dt : BitVec 6) (hdrBad crcBad : Bool) (bytes : List Byte) (lost : List Nat)
    (s : State) : Out :=
  let c := s.chip
  if ¬c.eyeRunning n then c.next s
  else if hdrBad then (c.hdrErr n).next s
  else if c.rf (R.EYE_CTRL n) 9 8 ≠ vc.val then c.next s
  else (c.longPacket n dt.toNat bytes crcBad lost).next s

/-- A frame end packet reaches port n (R409, R410). -/
def execFrameEndPacket (n : Port) (vc : Fin 4) (hdrBad : Bool) (s : State) : Out :=
  let c := s.chip
  if ¬c.eyeRunning n then c.next s
  else if hdrBad then (c.hdrErr n).next s
  else if c.rf (R.EYE_CTRL n) 9 8 ≠ vc.val then c.next s
  else ((c.frameEnd n).eyePrune n).next s

/-- A deskew sequence reaches port n (R411). -/
def execDeskewSequence (n : Port) (s : State) : Out :=
  let c := s.chip
  if c.eyeRunning n then (c.deskew n).next s else c.next s

/-- The next output row of port n lands, or its pipeline's check fails (R420, R682). -/
def execOutputRowLand (n : Port) (fail : Bool) (s : State) : Out := ((s.chip.rowLand n fail).eyePrune n).next s

/-- No frame start within LOST_MS (R432). -/
def execLostTimeout (n : Port) (s : State) : Out :=
  let c := s.chip
  if c.eyeRunning n ∧ c.rf (R.EYE_LOST n) 9 0 ≠ 0 then (c.eyeRaise n 2).next s else c.next s

/-- EYE_CTRLn.RUN written 1 (R436). -/
def execEyeRunStart (n : Port) (s : State) : Out := (s.chip.eyeRun n).next s

/-- EYE_CTRLn.RUN written 0 (R436). -/
def execEyeRunStop (n : Port) (s : State) : Out := (s.chip.eyeHalt n).next s

/-- EYE_CTRLn.ABORT written 1 (R436). -/
def execEyeAbort (n : Port) (s : State) : Out := ((s.chip.eyeAbort n).wb (R.EYE_CTRL n) 0 false).next s

end Sys2Proof.Machine
end

