-- ==== Sys2Proof/Machine/Motifs.lean ====
section
/-! DEFINITION. The motif engine (13): attribute shadows and their loads, the evaluation of a line, and its graphics. -/

namespace Sys2Proof.Machine

/-- The motif engine of Beam b changed. -/
def Chip.onMotif (b : Beam) (f : MotifBeam → MotifBeam) (c : Chip) : Chip := { c with motifB := upd c.motifB b f }

/-- Live MTF_CFG of a Beam. -/
def mtfCfg (b : Beam) : Nat := R.MTF_CFGA + 4 * b.val

/-- Word w of entry e of a Beam's attribute shadow. -/
def Chip.attrWord (c : Chip) (b : Beam) (e w : Nat) : Word := Sparse.get 0 (c.motifB[b]).attr (8 * e + w)

/-- A word of the attribute shadow set. -/
def Chip.setAttr (b : Beam) (e w : Nat) (v : Word) (c : Chip) : Chip :=
  c.onMotif b fun m => { m with attr := Sparse.set 0 m.attr (8 * e + w) v }

/-- Entry e is loaded from the Beam's table (R384, R388); one received with an uncorrectable word is loaded with EN cleared,
and LOAD_UE sets (R110, R390). An entry past the end of Vellum reaches no memory and is loaded as zeros (assumption 8). -/
def Chip.loadEntry (b : Beam) (e : Nat) (c : Chip) : Chip :=
  let off := fld (c.rd (mtfCfg b)) 25 6 * 64 + 32 * e
  if vlmSize < off + 32 then forEach (List.range 8) (fun w c => c.setAttr b e w 0) c
  else
    let (_, bad, c) := c.vRead .beam b off 32
    let c := c.sbIf bad R.MTF_STICKY 8
    forEach (List.range 8) (fun w c =>
      let v := w32 (c.vle (off + 4 * w) 4)
      c.setAttr b e w (if w = 0 && bad then setBit v 0 false else v)) c

/-- The load at a commit point of Beam b, when the live EN is 1 (R388 step 2). -/
def Chip.motifLoad (b : Beam) (c : Chip) : Chip :=
  if c.rb (mtfCfg b) 0 then
    (forEach (List.range 1024) (fun e c => c.loadEntry b e) c).onMotif b fun m => { m with loading := true }
  else c

/-- The reload that an MTF_INVAL asks for (R398). -/
def Chip.reload (first count mask : Nat) (c : Chip) : Chip :=
  let es := (List.range (min count (1024 - first))).map fun i => first + i
  forEach (List.finRange 2) (fun b c =>
    if mask / 2 ^ b.val % 2 = 1 then forEach es (fun e c => c.loadEntry b e) c else c) c

/-- A write to MTF_INVAL (R398): ignored with INVAL_DROP while BUSY; nothing for a count or a mask of 0; else BUSY, and the
reload runs at once or, while a commit-point load runs, when that ends. -/
def Chip.mtfInval (v : Word) (c : Chip) : Chip :=
  let first := fld v 9 0
  let count := fld v 20 10
  let mask := fld v 25 24
  if c.rb R.MTF_INVAL_STAT 0 then c.sb R.MTF_STICKY 9
  else if count = 0 ∨ mask = 0 then c
  else
    let c := c.sb R.MTF_INVAL_STAT 0
    let loads := (List.finRange 2).filterMap fun b => if (c.motifB[b]).loading then some b.val else none
    if loads.isEmpty then c.reload first count mask
    else { c with motif := { c.motif with inval := some (first, count, mask, loads) } }

/-- A load that a reload waits for has ended; the reload runs once all have (R398). -/
def Chip.reloadNext (b : Beam) (c : Chip) : Chip :=
  match c.motif.inval with
  | none => c
  | some (f, n, m, w) =>
    let w := w.filter (· != b.val)
    if w.isEmpty then ({ c with motif := { c.motif with inval := none } } : Chip).reload f n m
    else { c with motif := { c.motif with inval := some (f, n, m, w) } }

/-- The reload of an MTF_INVAL ends and BUSY clears (R398); one that still waits does not end. -/
def Chip.motifReloadEnd (c : Chip) : Chip := if c.motif.inval.isSome then c else c.wb R.MTF_INVAL_STAT 0 false

/-! ### One motif on one line -/

/-- The entry's values in use, after the clamps of R399. -/
structure MotifGeom where
  x : Int
  y : Int
  w : Nat
  h : Nat
  stepX : Nat
  stepY : Nat
deriving DecidableEq, Repr

/-- Word w of a selected entry. -/
def mw (words : List Word) (w : Nat) : Word := words.getD w 0

/-- Geometry of an entry (R384, R399). -/
def motifGeom (ws : List Word) : MotifGeom :=
  { x := signed 16 (fld (mw ws 1) 15 0), y := signed 16 (fld (mw ws 1) 31 16)
    w := clampN 8 256 (fld (mw ws 2) 8 0), h := clampN 8 256 (fld (mw ws 2) 24 16)
    stepX := clampN 0x40 0x400 (fld (mw ws 3) 15 0), stepY := clampN 0x40 0x400 (fld (mw ws 3) 31 16) }

/-- Output columns and rows (R385). -/
def MotifGeom.ow (g : MotifGeom) : Nat := ceilDiv (256 * g.w) g.stepX
/-- See ow. -/
def MotifGeom.oh (g : MotifGeom) : Nat := ceilDiv (256 * g.h) g.stepY

/-- W, H or a step was clamped (R399): (size, scale). -/
def motifClamps (ws : List Word) : Bool × Bool :=
  let g := motifGeom ws
  (g.w != fld (mw ws 2) 8 0 || g.h != fld (mw ws 2) 24 16, g.stepX != fld (mw ws 3) 15 0 || g.stepY != fld (mw ws 3) 31 16)

/-- Vellum offset and bytes of the source row that line l shows (R385). -/
def motifRowAt (ws : List Word) (l : Nat) : Nat × Nat :=
  let g := motifGeom ws
  let sy := ((l : Int) - g.y).toNat * g.stepY / 256
  let sy := if tb (mw ws 0) 16 then g.h - 1 - sy else sy
  (fld (mw ws 4) 25 6 * 64 + sy * (fld (mw ws 5) 15 2 * 4), ceilDiv (g.w * bppOf (fld (mw ws 0) 14 12)) 8)

/-- Is an enabled entry of Beam b selected on line l (R393)? -/
def motifMeets (ws : List Word) (l hactive : Nat) : Bool :=
  let g := motifGeom ws
  decide (g.y ≤ l) && decide ((l : Int) ≤ g.y + g.oh - 1) && decide (g.x < hactive) && decide (0 ≤ g.x + g.ow - 1)

/-- The evaluation of line l of Beam b (R392 to R394, R399): clamps and bad formats set their bits, the entries that meet
the line are selected in order, ranks past 256 and those of a failed slice without a spare are not drawn. Graphics follow on an active
line. -/
def Chip.motifEval (b : Beam) (l : Nat) (c : Chip) : Chip :=
  let hact := (c.beam b).hactive
  let words (e : Nat) : List Word := (List.range 8).map fun w => c.attrWord b e w
  let mine := (List.range 1024).filter fun e =>
    tb (c.attrWord b e 0) 0 && tb (c.attrWord b e 0) 1 == decide (b.val = 1)
  let ws := mine.map fun e => (e, words e)
  let c := c.sbIf (ws.any fun e => (motifClamps e.2).1) R.MTF_STICKY 2
  let c := c.sbIf (ws.any fun e => (motifClamps e.2).2) R.MTF_STICKY 3
  let c := c.sbIf (ws.any fun e => decide (5 ≤ fld (mw e.2 0) 14 12)) R.MTF_STICKY 4
  let sel := ws.filter fun e => decide (fld (mw e.2 0) 14 12 < 5) && motifMeets e.2 l hact
  let c := c.sbIf (sel.any fun e => decide (vlmSize < (motifRowAt e.2 l).1 + (motifRowAt e.2 l).2)) R.MTF_STICKY 5
  let hi := 8 + 16 * b.val
  let c := if c.rf R.MTF_PEAK hi (hi - 8) < sel.length then c.wf R.MTF_PEAK hi (hi - 8) (min 511 sel.length) else c
  let dead (k : Nat) : Bool := c.motif.failed.contains (16 * b.val + k) && c.motif.spareFor != some (16 * b.val + k)
  let ranked := (List.range sel.length).zip sel
  let drawn := ranked.filter fun r => decide (r.1 < 256) && !dead (r.1 / 16)
  let c := if drawn.length < sel.length then
      (c.sb R.MTF_STICKY b).incSat (R.MTF_OVER_COUNTA + 4 * b.val)
    else c
  if l < (c.beam b).vactive then
    c.onMotif b fun m => { m with
      evals := m.evals.filter (fun x => x.1 != l) ++ [(l, drawn.map fun r => { entry := r.2.1, words := r.2.2 })]
      late := m.late.filter fun x => x.1 != l }
  else c

/-- A line that the motif layer, off or shed, does not evaluate has no motifs (R402, R441). -/
def Chip.motifNone (b : Beam) (l : Nat) (c : Chip) : Chip :=
  if l < (c.beam b).vactive then
    c.onMotif b fun m => { m with evals := m.evals.filter (fun x => x.1 != l), bufs := m.bufs.filter (fun x => x.1 != l) ++ [(l, [])] }
  else c

/-- The commit-point load of Beam b ends: an evaluation of line 0 that waited for it starts (R389), and then a reload (R398). -/
def Chip.motifLoadEnd (b : Beam) (c : Chip) : Chip :=
  if (c.motifB[b]).loading then
    let waits := (c.motifB[b]).waits
    let c := c.onMotif b fun m => { m with loading := false, waits := false }
    (if waits then c.motifEval b 0 else c).reloadNext b
  else c

/-- The row of one motif on line l: reads its graphics (R385, R386); a row past the end of Vellum is transparent (R399). -/
def Chip.motifRow (b : Beam) (l : Nat) (m : MotifSel) (c : Chip) : MotifRow × Chip :=
  let ws := m.words
  let g := motifGeom ws
  let w0 := mw ws 0
  let (off, len) := motifRowAt ws l
  let row (px : List (PixSrc × Bool)) : MotifRow :=
    { x0 := g.x, px, alpha := fld w0 31 24, prio := fld w0 3 2, blend := fld w0 7 4 }
  if vlmSize < off + len then (row [], c)
  else
    let (bs, _, c) := c.vRead .beam b off len
    let bpp := bppOf (fld w0 14 12)
    let px := (List.range g.ow).map fun i =>
      let sx := i * g.stepX / 256
      let sx := if tb w0 15 then g.w - 1 - sx else sx
      (pixelOf (fld w0 14 12) (fld w0 11 8) (sx * bpp) bs, c.vBad (off + sx * bpp / 8) (max 1 (bpp / 8)))
    (row px, c)

/-- The rows of the selected motifs, in order. -/
def Chip.motifRows (b : Beam) (l : Nat) : List MotifSel → Chip → List MotifRow × Chip
  | [], c => ([], c)
  | m :: t, c =>
    let (r, c) := c.motifRow b l m
    let (rs, c) := Chip.motifRows b l t c
    (r :: rs, c)

/-- The motif layer of Beam b completes line l and reports its slack (R401); a line that has been output meanwhile only reports. -/
def Chip.motifLine (b : Beam) (l : Nat) (slack : Int) (c : Chip) : Chip :=
  match (c.motifB[b]).evals.find? fun e => e.1 == l, (c.motifB[b]).late.find? fun e => e.1 == l with
  | none, none => c
  | none, some e =>
    let (_, c) := Chip.motifRows b l e.2 c
    (c.onMotif b fun m => { m with late := m.late.filter fun x => x.1 != l }).reportSlack b l true slack
  | some e, _ =>
    let (rows, c) := Chip.motifRows b l e.2 c
    let c := c.onMotif b fun m => { m with
      evals := m.evals.filter (fun x => x.1 != l), bufs := m.bufs.filter (fun x => x.1 != l) ++ [(l, rows)] }
    c.reportSlack b l false slack

/-- A live attribute write by core n (R395, R405): the word at its index, word 0 keeping the shadow's BEAM bit, then INC. -/
def Chip.liveAttr (n : Core) (b : Beam) (v : Word) (c : Chip) : Chip :=
  let ia := if b.val = 0 then R.MTF_LIVEA_IDX else R.MTF_LIVEB_IDX
  let i := (c.port n ia).toNat % 8192
  let v := if i % 8 = 0 then setBit v 1 (tb (c.attrWord b (i / 8) 0) 1) else v
  (c.setAttr b (i / 8) (i % 8) v).portInc n ia 8192

/-- MTF_SLICE_STAT (R405). -/
def Chip.sliceStat (c : Chip) : Word :=
  let b := c.rf R.MTF_SLICE_SEL 0 0
  let failed := (List.range 16).foldl (fun v k => v + b2n (c.motif.failed.contains (16 * b + k)) * 2 ^ (16 + k)) 0
  w32 (c.motif.spareFor.getD 0 + b2n c.motif.spareFor.isSome * 32 + failed)

/-- A store to a register of the MTF page by core n. -/
def Chip.storeMtf (n : Core) (a : Nat) (v : Word) (c : Chip) : Chip :=
  let off := a % 0x1000
  if off = 0x024 then c.mtfInval v
  else if off = 0x040 ∨ off = 0x080 then c.setPort n a (v &&& w32 0x11FFF)
  else if off = 0x044 then c.liveAttr n 0 v
  else if off = 0x084 then c.liveAttr n 1 v
  else match c.heldBy a with
    | some b => c.hold b (.reg a v)
    | none => c.store a v

/-- What a register of the MTF page reads for core n; a DATA read advances the index with INC, a PEAK read clears it. -/
def Chip.readMtf (n : Core) (a : Nat) (c : Chip) : Word × Chip :=
  let off := a % 0x1000
  let data (b : Beam) (ia : Nat) : Word × Chip :=
    let i := (c.port n ia).toNat % 8192
    (c.attrWord b (i / 8) (i % 8), c.portInc n ia 8192)
  if off = 0x040 ∨ off = 0x080 then (c.port n a, c)
  else if off = 0x044 then data 0 R.MTF_LIVEA_IDX
  else if off = 0x084 then data 1 R.MTF_LIVEB_IDX
  else if off = 0x020 then (c.rd a, c.wr a 0)
  else if off = 0x030 then (c.sliceStat, c)
  else (c.rd a, c)

/-! ### Commands -/

/-- The commit-point load of a Beam ends (R389). -/
def execMotifLoadEnd (b : Beam) (s : State) : Out := (s.chip.motifLoadEnd b).next s

/-- The evaluation of line L of Beam b starts at pixel HACTIVE of line L − 2 (R392). With the layer off or shed (R402) the
line has no motifs; an evaluation of line 0 that meets a load still running sets LOAD_LATE and waits for it (R389). -/
def Chip.motifStart (b : Beam) (c : Chip) : Chip :=
  let k := c.beam b
  let l := (c.line b + 2) % k.vtotal
  if !c.running b then c
  else
    let c := c.setPos b (c.line b) (max (c.pixel b) k.hactive)
    if !c.rb (mtfCfg b) 0 || (c.shed 4 && c.rb (mtfCfg b) 1) then c.motifNone b l
    else if (c.motifB[b]).loading && l == 0 then (c.sb R.MTF_STICKY (6 + b)).onMotif b fun m => { m with waits := true }
    else c.motifEval b l

/-- The evaluation of a line of Beam b starts (R392). -/
def execMotifEvaluation (b : Beam) (s : State) : Out := (s.chip.motifStart b).next s

/-- The motif layer completes line l with a measured slack (R401). -/
def execMotifLineComplete (b : Beam) (l : BitVec 13) (slack : Int) (s : State) : Out :=
  (s.chip.motifLine b l.toNat slack).next s

/-- A live attribute write by core n lands (R395). -/
def execLiveAttributeWrite (n : Core) (b : Beam) (v : Word) (s : State) : Out := (s.chip.liveAttr n b v).next s

/-- A write to MTF_INVAL (R398). -/
def execMtfInval (v : Word) (s : State) : Out := (s.chip.mtfInval v).next s

/-- An MTF_INVAL reload ends (R398). -/
def execMtfReloadEnd (s : State) : Out := s.chip.motifReloadEnd.next s

end Sys2Proof.Machine
end

