-- ==== Sys2Proof/Machine/Applique.lean ====
section
/-! DEFINITION. Appliqué (15): the stack and its order, blending, dither, spans and frays, commits and transfers, and the
region signatures. -/

namespace Sys2Proof.Machine

/-- The Appliqué of Beam b changed. -/
def Chip.onApq (b : Beam) (f : ApqBeam → ApqBeam) (c : Chip) : Chip := { c with apq := upd c.apq b f }

/-! ### Order (R442) -/

/-- The identifiers of R442: planes 0x00 to 0x07, the motif layer 0x08, windows 0x10 to 0x17. -/
def layerKnown (i : Nat) : Bool := decide (i ≤ 8) || (decide (0x10 ≤ i) && decide (i ≤ 0x17))

/-- The fixed order. -/
def fixedOrder : List Nat :=
  [0x08, 0x10, 0x11, 0x12, 0x13, 0x14, 0x15, 0x16, 0x17, 0, 1, 2, 3, 4, 5, 6, 7]

/-- The table in APQ_ORDER, positions 0 to 16, read up to the first 0xFF. -/
def orderTable (ws : List Word) : List Nat :=
  ((ws.flatMap fun w => [fld w 7 0, fld w 15 8, fld w 23 16, fld w 31 24]).take 17).takeWhile (· != 0xFF)

/-- A position keeps its identifier unless it is unknown or a repeat; skipped positions are none. -/
def orderKeep : List Nat → List Nat → List (Option Nat)
  | _, [] => []
  | seen, i :: t => if layerKnown i && !seen.contains i then some i :: orderKeep (i :: seen) t else none :: orderKeep seen t

/-- The layers of a snapshot, by position, topmost first. -/
def ApqSnap.layers (s : ApqSnap) : List (Option Nat) := if tb s.mode 0 then orderKeep [] s.order else fixedOrder.map some

/-- R452: the snapshot of line l; an unknown or repeated identifier sets ORDER. -/
def Chip.apqCapture (b : Beam) (l : Nat) (c : Chip) : Chip :=
  let s : ApqSnap := { line := l, mode := c.rd (R.APQ_MODE b), backdrop := c.rd (R.APQ_BACKDROP b)
                       order := orderTable ((List.range 5).map fun k => c.rd (R.APQ_ORDER b k)) }
  let c := c.sbIf (s.layers.any Option.isNone) (R.APQ_STICKY b) 2
  c.onApq b fun q => { q with snaps := q.snaps.filter (fun x => x.line != l) ++ [s] }

/-! ### Blend arithmetic (R444 to R447) -/

/-- An 8-bit value widened to 10 bits (R444). -/
def wide (c : Nat) : Nat := c * 4 + c / 64

/-- The 8-bit form (R445, R386). -/
def mix8 (a x y : Nat) : Nat := let t := a * x + (255 - a) * y + 128; (t + t / 256) / 256

/-- mix of R445. -/
def mix (a x y : Nat) : Nat := let t := wide a * x + (1023 - wide a) * y + 512; (t + t / 1024) / 1024

/-- mul of R445. -/
def mul10 (p q : Nat) : Nat := let t := p * q + 512; (t + t / 1024) / 1024

/-- The blend classes of R446; 6 to 15 act as 1. -/
def blendClass (k a x y : Nat) : Nat :=
  match k with
  | 0 => x
  | 2 => min 1023 (x + mul10 (1023 - wide a) y)
  | 3 => min 1023 (y + mul10 (wide a) x)
  | 4 => mix a (mul10 x y) y
  | 5 => mix a (x + y - mul10 x y) y
  | _ => mix a x y

/-- A layer's pixel as it reaches the blend pipeline (R443, R444). -/
structure LayerPix where
  a : Nat
  r : Nat
  g : Nat
  b : Nat
  prio : Nat
  blend : Nat
  bad : Bool
deriving DecidableEq, Repr

/-- One layer pixel onto the colour so far (R447). -/
def blendPix (col : Rgb) (p : LayerPix) : Rgb :=
  if p.a = 0 then col
  else { r := blendClass p.blend p.a (wide p.r) col.r, g := blendClass p.blend p.a (wide p.g) col.g
         b := blendClass p.blend p.a (wide p.b) col.b }

/-! ### Layer pixels -/

/-- Where and when a pixel of line L is looked up in the palettes (R359): the line's serial number and the pixel. -/
structure PalTime where
  serial : Nat
  pixel : Nat

/-- The palette lead of R359: pixel x − 32 of the line, or of the line before. -/
def palTime (serial htotal x : Nat) : PalTime :=
  if 32 ≤ x then { serial, pixel := x - 32 } else { serial := serial - 1, pixel := htotal + x - 32 }

/-- A pixel source resolved to ARGB (R358). -/
def Chip.resolve (c : Chip) (b : Beam) (t : PalTime) : PixSrc → Nat × Nat × Nat × Nat
  | .index pal i =>
    let v := (c.palAt b t.serial t.pixel (256 * pal + i)).toNat
    (v / 2 ^ 24 % 256, v / 2 ^ 16 % 256, v / 2 ^ 8 % 256, v % 256)
  | .argb a r g b => (a, r, g, b)

/-- The pixel of a list that starts at column x0. -/
def pxAt {α : Type} (x0 x : Nat) (px : List α) : Option α := if x < x0 then none else px[x - x0]?

/-- The motif layer's pixel: the lowest entry whose pixel is not transparent (R386, R387). -/
def Chip.motifPix (c : Chip) (b : Beam) (t : PalTime) (x : Nat) : List MotifRow → Option LayerPix
  | [] => none
  | m :: rest =>
    let i : Int := (x : Int) - m.x0
    match if i < 0 then none else m.px[i.toNat]? with
    | none => Chip.motifPix c b t x rest
    | some (src, bad) =>
      let (pa, r, g, bl) := c.resolve b t src
      let a := mix8 m.alpha pa 0
      if a = 0 ∧ ¬bad then Chip.motifPix c b t x rest
      else some { a, r, g, b := bl, prio := m.prio, blend := m.blend, bad }

/-- The pixel that a layer has at column x of a line, if any. -/
def Chip.layerPix (c : Chip) (b : Beam) (l x : Nat) (t : PalTime) (id : Nat) : Option LayerPix :=
  if id < 8 then
    match (c.planes.toList.getD id {}).bufs.find? fun u => u.beam == b && u.line == l with
    | none => none
    | some u => (pxAt u.x0 x u.px).map fun p =>
      let (a, r, g, bl) := c.resolve b t p.src
      { a, r, g, b := bl, prio := p.prio, blend := p.blend, bad := p.bad }
  else if id = 8 then
    match (c.motifB[b]).bufs.find? fun u => u.1 == l with
    | none => none
    | some u => c.motifPix b t x u.2
  else
    match (c.eye.toList.getD (id - 0x10) {}).bufs.find? fun u => u.beam == b && u.line == l with
    | none => none
    | some u => (pxAt u.x0 x u.px).map fun p =>
      let (_, r, g, bl) := c.resolve b t p.src
      { a := if p = clearPix then 0 else u.alpha, r, g, b := bl, prio := 0, blend := 1, bad := p.bad }

/-- Layer pixels in ascending key (R443): by PRIORITY, then from the last position to the first. -/
def byKey (ps : List LayerPix) : List LayerPix :=
  [0, 1, 2, 3].flatMap fun k => (ps.filter fun p => p.prio == k).reverse

/-- The composite of one pixel (R447): its 10-bit colour, whether it depends on an uncorrectable word, and whether a class
6 to 15 acted. -/
def Chip.compPix (c : Chip) (b : Beam) (s : ApqSnap) (t : PalTime) (x : Nat) : Rgb × Bool × Bool :=
  let ps := byKey (s.layers.filterMap fun o => o.bind fun id => c.layerPix b s.line x t id)
  let back : Rgb := { r := wide (fld s.backdrop 23 16), g := wide (fld s.backdrop 15 8), b := wide (fld s.backdrop 7 0) }
  (ps.foldl blendPix back, ps.any (·.bad), ps.any fun p => decide (6 ≤ p.blend) && p.a != 0)

/-! ### Dither (R448 to R450) -/

/-- The matrix M of R448. -/
def ditherM (l x : Nat) : Nat :=
  (([[0, 8, 2, 10], [12, 4, 14, 6], [3, 11, 1, 9], [15, 7, 13, 5]].getD (l % 4) []).getD (x % 4) 0)

/-- Bits per channel sent: 8, or 6 with FMT RGB666 in either form (R448). -/
def Chip.depth (c : Chip) (b : Beam) : Nat := if c.rf (R.BMO_CTRL b) 5 4 = 1 ∨ c.rf (R.BMO_CTRL b) 5 4 = 2 then 6 else 8

/-- Ordered dither of one channel (R449). -/
def ditherOrd (d m col : Nat) : Nat := min (2 ^ d - 1) ((col + m / 2 ^ (4 - (10 - d))) / 2 ^ (10 - d))

/-- Temporal dither of one channel: the output and the error carried on (R450). -/
def ditherErr (d err col : Nat) : Nat × Nat :=
  let k := 10 - d
  let s := col + err
  let q := min (2 ^ d - 1) (s / 2 ^ k)
  (q, min (2 ^ k - 1) (s - q * 2 ^ k))

/-- Temporal dither along a span. -/
def ditherRun (d : Nat) : Nat × Nat × Nat → List Rgb → List Rgb × (Nat × Nat × Nat)
  | e, [] => ([], e)
  | (er, eg, eb), p :: t =>
    let (r, er) := ditherErr d er p.r
    let (g, eg) := ditherErr d eg p.g
    let (b, eb) := ditherErr d eb p.b
    let (ps, e) := ditherRun d (er, eg, eb) t
    ({ r, g, b } :: ps, e)

/-! ### Spans (R453 to R455, R463, R465) -/

/-- The regions that cover line l of the frame: those with a pixel there. -/
def SigRegion.onLine (s : SigRegion) (l : Nat) : Bool :=
  s.en && decide (0 < s.w) && decide (s.y ≤ l) && decide (l < s.y + s.h)

/-- The regions of a line become UNCERTAIN (R465). -/
def Chip.uncertain (b : Beam) (l : Nat) (c : Chip) : Chip :=
  c.onApq b fun q => { q with regions := q.regions.map fun s => if s.onLine l then { s with uncertain := true } else s }

/-- Pixels sent on a line from column x0 on go into the regions' CRCs (R463). -/
def SigRegion.feed (l x0 : Nat) (px : List Rgb) (s : SigRegion) : SigRegion :=
  if s.onLine l then
    let lo := s.x - x0
    let mine := if s.x + s.w ≤ x0 then [] else (px.take (s.x + s.w - x0)).drop lo
    { s with crc := crc32cUpd (mine.flatMap fun p => [BitVec.ofNat 8 p.r, BitVec.ofNat 8 p.g, BitVec.ofNat 8 p.b]) s.crc }
  else s

/-- The snapshot of a line, when it has been captured. -/
def ApqBeam.snap (q : ApqBeam) (l : Nat) : Option ApqSnap := q.snaps.find? fun s => s.line == l

/-- Every layer has finished or does not fetch line l (R453): the planes, and the motif layer once it has evaluated the line. -/
def Chip.layersReady (c : Chip) (b : Beam) (l : Nat) : Bool :=
  let m := c.motifB[b]
  let gone : Bool := match (c.apq[b]).snap l with
    | some s => s.late.isSome
    | none => false
  ((c.apq[b]).snap l).isSome
  && (List.finRange 8).all (fun p => !((c.planes[p]).snaps ++ (c.planes[p]).late).any fun s => s.beam == b && s.line == l)
  && !(m.evals ++ m.late).any (fun e => e.1 == l)
  && (gone || !c.rb (mtfCfg b) 0 || m.bufs.any fun e => e.1 == l)

/-- Windows are drawn on line l. -/
def Chip.winsOn (c : Chip) (b : Beam) (l : Nat) : Bool :=
  (List.finRange 8).any fun n => (c.eye[n]).bufs.any fun u => u.beam == b && u.line == l

/-- The composite of the next line starts (R453), also of one whose spans have all fallen due (R454); `slack` is the least that the
line's windows report (R80). -/
def Chip.compositeStart (b : Beam) (slack : Option Int) (c : Chip) : Chip :=
  let l := (c.apq[b]).started
  match (c.apq[b]).snap l with
  | none => c
  | some s =>
    if c.running b ∧ l < (c.beam b).vactive ∧ c.layersReady b l then
      let c := match slack with
        | some x => if s.late.getD (c.winsOn b l) then c.reportSlack b l s.late.isSome x else c
        | none => c
      c.onApq b fun q => { q with
        started := l + 1, snaps := if s.late.isSome then q.snaps.filter fun s => s.line != l else q.snaps }
    else c

/-- Line l of a list of a plane's captures, and the rest. -/
def splitLine (b : Beam) (l : Nat) (ss : List PlaneSnap) : List PlaneSnap × List PlaneSnap :=
  ss.partition fun x => x.beam == b && x.line == l

/-- A line has been output: the line store holds it, and its buffers are free (R455). A fetch of it that is not complete, and a
composite of it that has not started, go on (R81, R454). After the last line the next frame's composites follow. -/
def Chip.lineSent (b : Beam) (l : Nat) (c : Chip) : Chip :=
  let wins := c.winsOn b l
  let c := forEach (List.finRange 8) (fun p c => c.onPlane p fun s => { s with
    snaps := (splitLine b l s.snaps).2, late := s.late ++ (splitLine b l s.snaps).1
    bufs := s.bufs.filter (fun x => !(x.beam == b && x.line == l)) }) c
  let c := forEach (List.finRange 8) (fun n c => c.onEye n fun p => { p with
    bufs := p.bufs.filter (fun x => !(x.beam == b && x.line == l)) }) c
  let c := c.onMotif b fun m => { m with
    evals := m.evals.filter (fun x => x.1 != l), late := m.late ++ m.evals.filter (fun x => x.1 == l), bufs := m.bufs.filter (fun x => x.1 != l) }
  c.onApq b fun q => { q with
    store := q.sent, sent := [], err := none, outLine := l + 1, outSpan := 0
    started := if (c.beam b).vactive ≤ l + 1 then 0 else q.started
    snaps := if l < q.started then q.snaps.filter (fun s => s.line != l)
      else q.snaps.map fun s => if s.line = l then { s with late := some wins } else s }

/-- The live registers as a snapshot, for a line that has none. -/
def Chip.apqSnap (c : Chip) (b : Beam) (l : Nat) : ApqSnap :=
  ((c.apq[b]).snaps.find? fun s => s.line == l).getD
    { line := l, mode := c.rd (R.APQ_MODE b), backdrop := c.rd (R.APQ_BACKDROP b)
      order := orderTable ((List.range 5).map fun k => c.rd (R.APQ_ORDER b k)) }

/-- No fetcher has reported a negative slack for line l of Beam b, which is not over or just over (R81). -/
def Chip.slackOk (c : Chip) (b : Beam) (l : Nat) : Bool :=
  if c.line b = l then ((c.beam b).slack.find? fun e => e.1 == l).all fun e => decide (0 ≤ e.2)
  else decide (0 ≤ signed 16 (c.rf (R.PRK_SLACK b) 15 0))

/-- A line whose every slack is 0 or more has its spans complete before they are due (R52, R453); the slack of its windows comes with
the start of its composite. -/
def Chip.inTime (c : Chip) (b : Beam) (l : Nat) : Bool :=
  c.slackOk b l && (decide (l < (c.apq[b]).started) || (c.layersReady b l && !c.winsOn b l))

/-- Span s of line l falls due (R454): sent as composited when it is complete and depends on no uncorrectable word, else a
fray that repeats the line store. -/
def Chip.spanSend (b : Beam) (l s : Nat) (complete : Bool) (c : Chip) : Chip :=
  let k := c.beam b
  let q := c.apq[b]
  let snap := c.apqSnap b l
  let x0 := 64 * s
  let xs := (List.range (min 64 (k.hactive - x0))).map fun i => x0 + i
  let serial := k.serial - (c.line b - l)
  let comp := xs.map fun x => c.compPix b snap (palTime serial k.htotal x) x
  let done := c.inTime b l || (complete && decide (l < q.started))
  let ok := done && !(comp.any fun p => p.2.1)
  let d := c.depth b
  let f := (c.rd (R.PRK_FRAME b)).toNat
  let cols := comp.map (·.1)
  let seed := ditherM l f / 2 ^ (4 - (10 - d))
  let (tmp, err) := ditherRun d (q.err.getD (seed, seed, seed)) cols
  let temporal := tb snap.mode 1
  let px := if temporal then tmp else (xs.zip cols).map fun xc =>
    let m := ditherM l xc.1
    { r := ditherOrd d m xc.2.r, g := ditherOrd d m xc.2.g, b := ditherOrd d m xc.2.b }
  let old := xs.map fun x => q.store.getD x { r := 0, g := 0, b := 0 }
  let out := if ok then px else old
  let c := c.sbIf (done && comp.any fun p => p.2.2) (R.APQ_STICKY b) 1
  let c := if ok then c else ((c.incWrap (R.APQ_FRAY_COUNT b)).sb (R.APQ_STICKY b) 0).uncertain b l
  c.onApq b fun q => { q with
    sent := q.sent ++ out, outSpan := s + 1, err := if ok && temporal then some err else none
    frayLine := if ok then q.frayLine else q.frayLine.orElse fun _ => some l
    regions := q.regions.map (SigRegion.feed l x0 out) }

/-- The next span falls due at pixel 64 s + 128 of its line (R453). -/
def Chip.spanDue (b : Beam) (complete : Bool) (c : Chip) : Chip :=
  let k := c.beam b
  let q := c.apq[b]
  let l := q.outLine
  let s := q.outSpan
  let x := 64 * s + 128
  if c.running b ∧ l < k.vactive ∧ l ≤ c.line b ∧ (c.line b = l ∨ k.htotal ≤ x) then
    let c := if c.line b = l ∧ x < k.htotal then c.setPos b l x else c
    let c := if s = 0 ∧ q.overtook.contains l then
        (c.uncertain b l).onApq b fun q => { q with overtook := q.overtook.filter (· != l) }
      else c
    let c := c.spanSend b l s complete
    if k.hactive ≤ 64 * (s + 1) then c.lineSent b l else c
  else c

/-- The first frayed line of the frame is recorded at VB0 (R454). -/
def Chip.frayVb0 (b : Beam) (c : Chip) : Chip :=
  match (c.apq[b]).frayLine with
  | some l => (c.wr (R.APQ_FRAY_LINE b) (w32 (l % 8192 + 2 ^ 31))).onApq b fun q => { q with frayLine := none }
  | none => c

/-- The output starts a new frame at line 0. -/
def Chip.apqFrame (b : Beam) (c : Chip) : Chip := c.onApq b fun q => { q with
  started := if q.outLine < (c.beam b).vactive then 0 else q.started, outLine := 0, outSpan := 0, sent := [], err := none }

/-- The buffers of a Beam that starts or stops are empty; a start fills the line store with 0 (R455). -/
def Chip.apqClear (b : Beam) (c : Chip) : Chip :=
  let c := forEach (List.finRange 8) (fun p c => c.onPlane p fun s => { s with
    snaps := s.snaps.filter (fun x => x.beam != b), late := s.late.filter (fun x => x.beam != b), bufs := s.bufs.filter (fun x => x.beam != b) }) c
  let c := forEach (List.finRange 8) (fun n c => c.onEye n fun p => { p with bufs := p.bufs.filter (fun x => x.beam != b) }) c
  let c := c.onMotif b fun m => { m with evals := [], late := [], waits := false, bufs := [] }
  c.onApq b fun q => { q with
    started := 0, outLine := (c.beam b).vactive, outSpan := 0, err := none, snaps := [], store := [], sent := [], overtook := [] }

/-! ### Region signatures (R462 to R464) -/

/-- Region r captured and clamped (R462): the region, and whether a clamp moved it. -/
def Chip.sigRegion (c : Chip) (b : Beam) (r : Nat) : SigRegion × Bool :=
  let k := c.beam b
  let x := c.rf (R.APQ_SIG_POS b r) 12 0
  let y := c.rf (R.APQ_SIG_POS b r) 28 16
  let w := c.rf (R.APQ_SIG_SIZE b r) 12 0
  let h := c.rf (R.APQ_SIG_SIZE b r) 28 16
  let w' := winClamp x w k.hactive
  let h' := winClamp y h k.vactive
  ({ en := c.rb (R.APQ_SIG_SIZE b r) 31, x, y, w := w', h := h' }, w' != w || h' != h)

/-- The regions are captured at PFS for the next frame (R462); its composites follow once the frame before is output. -/
def Chip.regionCapture (b : Beam) (c : Chip) : Chip :=
  let rs := Vector.ofFn fun r : Fin 16 => c.sigRegion b r
  let c := c.sbIf (rs.any (·.2)) (R.APQ_STICKY b) 3
  c.onApq b fun q => { q with regions := rs.map (·.1), started := if (c.beam b).vactive ≤ q.outLine then 0 else q.started }

/-- FOLDED of a region: the CRC-32C of RAW and the frame (R463, R568). -/
def folded (raw f : Word) : Word := crc32c (leBytes 4 raw.toNat ++ leBytes 4 f.toNat)

/-- The signatures of the frame just shown are published at VB0 (R464). -/
def Chip.publish (b : Beam) (c : Chip) : Chip :=
  let f := c.rd (R.PRK_FRAME b)
  let rs := (c.apq[b]).regions
  let c := forEach (List.finRange 16) (fun r c =>
    let s := rs[r]
    let raw := if s.en then s.crc ^^^ 0xFFFFFFFF else 0
    (c.wr (R.APQ_SIG_RAW b r) raw).wr (R.APQ_SIG_FOLD b r) (if s.en then folded raw f else 0)) c
  let mask (p : SigRegion → Bool) : Nat := ofBits (rs.toList.map p)
  ((c.wr (R.APQ_SIG_FRAME b) f).wr (R.APQ_SIG_MASK b) (w32 (mask (·.en) + mask (fun s => s.en && s.uncertain) * 65536))).sb
    (R.APQ_STICKY b) 4

/-! ### Commit (R456 to R461) -/

/-- APQ_COMMIT.STATE set: 0 IDLE, 1 PENDING, 2 TRANSFER, 3 ARMED. -/
def Chip.commitState (b : Beam) (v : Nat) (c : Chip) : Chip := c.wf (R.APQ_COMMIT b) 5 4 v

/-- Offsets of the APQ registers that a transfer copies, from shadow to live (R458). -/
def apqMoves : List (Nat × Nat) :=
  ((List.range 7).map fun k => (0x080 + 4 * k, 0x040 + 4 * k)) ++ ((List.range 32).map fun k => (0x180 + 4 * k, 0x100 + 4 * k))

/-- The transfer of Beam b (R458): every shadow of the Beam into its live register. -/
def Chip.transfer (b : Beam) (c : Chip) : Chip :=
  let c := ((c.commitState b 2).planeTransfer b).palTransfer b
  let c := (c.wr (R.MTF_CFGA + 4 * b.val) (c.rd (R.MTF_SH_CFGA + 4 * b.val))).winTransfer b
  let base := R.APQ_COMMIT b
  forEach apqMoves (fun m c => c.wr (base + m.2) (c.rd (base + m.1))) c

/-- A request lands (R456, R457, R461). -/
def Chip.commitReq (b : Beam) (c : Chip) : Chip :=
  let st := c.rf (R.APQ_COMMIT b) 5 4
  let c := c.sb (R.APQ_COMMIT b) 0
  let c := if st = 0 ∨ (st = 2 ∧ ¬(c.apq[b]).armAfter) then c.onApq b fun q => { q with armOf := c.rd (R.PRK_FRAME b) } else c
  if st = 2 then c.onApq b fun q => { q with armAfter := true }
  else if st ≠ 0 then c
  else if ¬c.running b then c.transfer b
  else if c.line b < (c.beam b).commitLine then c.commitState b 1
  else c.commitState b 3

/-- A transfer ends (R458, R459): COMMIT_FRAME is written, the writes that waited land, and STATE becomes IDLE, or ARMED for
a request that landed meanwhile; on a stopped Beam that request's own transfer starts (R461). -/
def Chip.transferEnd (b : Beam) (c : Chip) : Chip :=
  if c.inTransfer b then
    let held := (c.apq[b]).held
    let arm := (c.apq[b]).armAfter
    let f := c.rd (R.PRK_FRAME b) + 1
    let c := c.wr (R.APQ_COMMIT_FRAME b) f
    let c := (c.commitState b (if arm then 3 else 0)).wb (R.APQ_COMMIT b) 0 arm
    let c := c.onApq b fun q => { q with held := [], armAfter := false, ends := q.ends ++ [f] }
    let c := forEach held (fun w c => match w with
      | .reg a v => match c.heldBy a with
        | some b' => c.hold b' w
        | none => c.store a v
      | .spal k v => { c with palShadow := Sparse.set 0 c.palShadow k v }) c
    if arm && !c.running b then c.transfer b else c
  else c

/-- The commit point of Beam b (R458): a held request is transferred; the motif load and the buffer selection take place
whether or not it is. A request that landed at or after the commit point of its frame waits for that of a later frame (R457). -/
def Chip.commitPoint (b : Beam) (c : Chip) : Chip :=
  let st := c.rf (R.APQ_COMMIT b) 5 4
  let c := if st = 1 ∨ (st = 3 ∧ (c.apq[b]).armOf ≠ c.rd (R.PRK_FRAME b)) then c.transfer b else c
  (c.motifLoad b).eyeCommit b

/-- The counters stop: a request still held is served (R457). -/
def Chip.commitAtStop (b : Beam) (c : Chip) : Chip :=
  let st := c.rf (R.APQ_COMMIT b) 5 4
  if st = 1 ∨ st = 3 then c.transfer b else c

/-! ### The APQ pages (R468) -/

/-- A store lands in a register of an APQ page. -/
def Chip.storeApq (b : Beam) (a : Nat) (v : Word) (c : Chip) : Chip :=
  if a % 0x1000 = 0x000 then if tb v 0 then c.commitReq b else c
  else match c.heldBy a with
    | some b' => c.hold b' (.reg a v)
    | none => c.store a v

/-! ### Commands -/

/-- The composite of the next line of Beam b starts (R453). -/
def execCompositeStart (b : Beam) (slack : Option Int) (s : State) : Out := (s.chip.compositeStart b slack).next s

/-- The next span of Beam b falls due, composited in time or not (R454). -/
def execSpanDue (b : Beam) (complete : Bool) (s : State) : Out := (s.chip.spanDue b complete).next s

/-- APQ_COMMIT.REQ written 1 (R456). -/
def execCommitRequest (b : Beam) (s : State) : Out := (s.chip.commitReq b).next s

/-- The transfer of Beam b ends (R459). -/
def execTransferEnd (b : Beam) (s : State) : Out := (s.chip.transferEnd b).next s

end Sys2Proof.Machine
end

