-- ==== Sys2Proof/Machine/BeamOut.lean ====
section
/-! DEFINITION. Beam outputs (16): the DSI links, their command queue, tearing effect, and holding the glass. -/

namespace Sys2Proof.Machine

/-- The output block of Beam b changed. -/
def Chip.onBmo (b : Beam) (f : BmoBeam → BmoBeam) (c : Chip) : Chip := { c with bmo := upd c.bmo b f }

/-- BMO_STATx.LINK: 0 high-impedance, 1 LP-11, 2 running, 3 ULPS, 4 Mark-1. -/
def Chip.link (c : Chip) (b : Beam) : Nat := c.rf (R.BMO_STAT b) 2 0


/-- BMO_STATx.HOLD: 0 NONE, 1 ENTERING, 2 HELD, 3 RELEASING. -/
def Chip.holdSt (c : Chip) (b : Beam) : Nat := c.rf (R.BMO_STAT b) 5 4

/-- HOLD set. -/
def Chip.setHold (b : Beam) (v : Nat) (c : Chip) : Chip := c.wf (R.BMO_STAT b) 5 4 v

/-- MODE in use: 3 acts as 0. -/
def Chip.bmoMode (c : Chip) (b : Beam) : Nat := if c.rf (R.BMO_CTRL b) 2 1 = 3 then 0 else c.rf (R.BMO_CTRL b) 2 1

/-- FMT in use: 3 acts as 0. -/
def Chip.bmoFmt (c : Chip) (b : Beam) : Nat := if c.rf (R.BMO_CTRL b) 5 4 = 3 then 0 else c.rf (R.BMO_CTRL b) 5 4

/-- LANES in use. -/
def Chip.bmoLanes (c : Chip) (b : Beam) : Nat := clampN 1 4 (c.rf (R.BMO_CTRL b) 12 10)

/-- DUAL. -/
def Chip.dual (c : Chip) (b : Beam) : Bool := c.rb (R.BMO_CTRL b) 3

/-- The two links of a Beam. -/
def beamLinks (b : Beam) : Fin 4 × Fin 4 := if b.val = 0 then (0, 1) else (2, 3)

/-- The links that run: the first of the Beam, with DUAL both (R473). -/
def Chip.links (c : Chip) (b : Beam) : List (Fin 4) :=
  if c.dual b then [(beamLinks b).1, (beamLinks b).2] else [(beamLinks b).1]

/-- Something leaves on every link of a Beam that runs. -/
def Chip.onLinks (b : Beam) (f : Fin 4 → Output) (c : Chip) : Chip := forEach (c.links b) (fun l c => c.emit (f l)) c

/-- The second link's lanes follow LINK with DUAL at 1, and stay high-impedance with DUAL at 0 (R473). -/
def Chip.secondLanes (b : Beam) (c : Chip) : Chip := c.emit (.dsiLanes (beamLinks b).2 (if c.dual b then c.link b else 0))

/-- LINK set, with the state of the lanes. -/
def Chip.setLink (b : Beam) (v : Nat) (c : Chip) : Chip :=
  ((c.wf (R.BMO_STAT b) 2 0 v).emit (.dsiLanes (beamLinks b).1 v)).secondLanes b

/-- The virtual channel of a Beam's packets. -/
def Chip.dsiVc (c : Chip) (b : Beam) : Nat := c.rf (R.BMO_CTRL b) 9 8

/-! ### The check of R472 -/

/-- Columns of one link. -/
def Chip.linkCols (c : Chip) (b : Beam) : Nat := if c.dual b then (c.beam b).hactive / 2 else (c.beam b).hactive

/-- P of R472, four times. -/
def Chip.payload4 (c : Chip) (b : Beam) : Nat :=
  c.linkCols b * (if c.bmoFmt b = 1 then 9 else 12) + (if c.bmoMode b = 2 then 4 else 0)

/-- Four times the lane bit rate, and four times 1 Mb/s, in one unit (R470). -/
def Chip.laneRate (c : Chip) (b : Beam) : Nat × Nat :=
  let k := c.beam b
  (96 * k.appliedRate.toNat * c.rf (R.BMO_RATE b) 9 0, 16 * synUnit * k.synPost)

/-- A link above 1,500 Mb/s sends the initial deskew (R469, R474). -/
def Chip.deskewLinks (b : Beam) (c : Chip) : Chip :=
  if 1500 * (c.laneRate b).2 < (c.laneRate b).1 then c.onLinks b .dsiDeskew else c

/-- Conditions on rate, and on format (R472). -/
def Chip.linkCheck (c : Chip) (b : Beam) : Bool × Bool :=
  let k := c.beam b
  let num := c.rf (R.BMO_RATE b) 9 0
  let bits := (c.laneRate b).1
  let unit := (c.laneRate b).2
  let words := ceilDiv (c.payload4 b + 24) (4 * c.bmoLanes b)
  let rate := decide (1 ≤ num) && k.htotal * num % 128 == 0 && decide (80 * unit ≤ bits) && decide (bits ≤ 2500 * unit)
    && (if c.bmoMode b = 0 then decide (words * 128 ≤ k.hactive * num)
        else decide ((words + 48) * 128 ≤ (k.hactive + k.hfront) * num))
  let fmt := (c.bmoFmt b != 1 || c.linkCols b % 4 == 0) && (!c.dual b || k.hactive % 2 == 0)
  (rate, fmt)

/-! ### Command packets (R480, R481) -/

/-- The command data types of R469; true for a long packet, none for any other type. -/
def cmdLong (dt : Nat) : Option Bool :=
  if dt = 0x39 ∨ dt = 0x29 then some true
  else if dt = 0x05 ∨ dt = 0x15 ∨ dt = 0x03 ∨ dt = 0x13 ∨ dt = 0x23 then some false
  else none

/-- Words of the packet with this header; none for a bad packet (R480). -/
def packetWords (h : Word) : Option Nat :=
  match cmdLong (fld h 7 0) with
  | none => none
  | some long =>
    if fld h 31 24 ≠ 0 then none
    else if long then (if 252 < fld h 23 8 then none else some (1 + ceilDiv (fld h 23 8) 4))
    else some 1

/-- Queued words into packets: the whole packets, the words of one not yet whole, and whether a bad packet was met. -/
def splitPackets : Nat → List Word → List (List Word) × List Word × Bool
  | 0, ws => ([], ws, false)
  | _, [] => ([], [], false)
  | fuel + 1, h :: t =>
    match packetWords h with
    | none => ([], [], true)
    | some n =>
      if (h :: t).length < n then ([], h :: t, false)
      else
        let (ps, rest, bad) := splitPackets fuel ((h :: t).drop n)
        ((h :: t).take n :: ps, rest, bad)

/-- Words queued: those not released and those of released packets (R481). -/
def BmoBeam.level (q : BmoBeam) : Nat := q.fifo.length + (q.ready.map List.length).sum

/-- A word written to BMO_CMD_FIFOx (R481). -/
def Chip.cmdWord (b : Beam) (v : Word) (c : Chip) : Chip :=
  if 64 ≤ (c.bmo[b]).level then c.sb (R.BMO_STICKY b) 4
  else c.onBmo b fun q => { q with fifo := q.fifo ++ [v] }

/-- SEND: every whole packet queued is released; a bad packet is discarded with everything after it (R481). -/
def Chip.cmdSend (b : Beam) (c : Chip) : Chip :=
  let (ps, rest, bad) := splitPackets 64 (c.bmo[b]).fifo
  (c.sbIf bad (R.BMO_STICKY b) 5).onBmo b fun q => { q with fifo := rest, ready := q.ready ++ ps }

/-! ### Hold lists (R486, R490) -/

/-- A hold list read from Vellum: its packets, or none when it reaches past Vellum, holds a bad packet, or is read with an
uncorrectable word. Bytes past a multiple of 4 are not part of it, and a packet that the list cuts short is bad. -/
def Chip.holdList (b : Beam) (base len : Nat) (c : Chip) : Option (List (List Word)) × Chip :=
  let n := min 256 len / 4
  if vlmSize < base + 4 * n then (none, c)
  else
    let (bs, bad, c) := c.vRead .beam b base (4 * n)
    let ws := (List.range n).map fun i => w32 (leNat ((bs.drop (4 * i)).take 4))
    let (ps, rest, e) := splitPackets 64 ws
    (if bad || e || !rest.isEmpty then none else some ps, c)

/-- ENTER written 1 (R486, R491). -/
def Chip.holdEnter (b : Beam) (c : Chip) : Chip :=
  if c.holdSt b ≠ 0 ∨ c.link b ≠ 2 then c.sb (R.BMO_STICKY b) 6
  else
    let (l, c) := c.holdList b (c.rd (R.BMO_ENTER_BASE b)).toNat (c.rf (R.BMO_ENTER_LEN b) 8 0)
    match l with
    | none => c.sb (R.BMO_STICKY b) 5
    | some ps => (c.setHold b 1).onBmo b fun q => { q with list := ps, listDone := ps.isEmpty, heldFrame := none }

/-- RELEASE written 1 (R490, R491): the link leaves ULPS. -/
def Chip.holdRelease (b : Beam) (c : Chip) : Chip :=
  if c.holdSt b ≠ 2 then c.sb (R.BMO_STICKY b) 6
  else (((c.setHold b 3).wb (R.BMO_HOLD b) 2 false).setLink b 4).onBmo b fun q => { q with marking := true }

/-- Step 3 of a release finds EN at 0: it ends there (R490). -/
def Chip.releaseStep3 (b : Beam) (c : Chip) : Chip :=
  if c.holdSt b = 3 ∧ ¬c.rb (R.BMO_CTRL b) 0 ∧ (c.bmo[b]).list.isEmpty ∧ c.link b = 1 then c.setHold b 0 else c

/-- Mark-1 ends after 1,000 µs: LP-11 (R484), with a deskew above 1,500 Mb/s (R469); in a release the exit list is read and checked (R490). -/
def Chip.markEnd (b : Beam) (c : Chip) : Chip :=
  if c.link b ≠ 4 then c
  else
    let c := (c.setLink b 1).deskewLinks b
    if (c.bmo[b]).marking then
      let c := c.onBmo b fun q => { q with marking := false }
      let (l, c) := c.holdList b (c.rd (R.BMO_EXIT_BASE b)).toNat (c.rf (R.BMO_EXIT_LEN b) 8 0)
      match l with
      | none => ((c.sb (R.BMO_STICKY b) 5).setHold b 0).onBmo b fun q => { q with needEn := true }
      | some ps => (c.onBmo b fun q => { q with list := ps }).releaseStep3 b
    else c

/-! ### The link (R474 to R479, R764) -/

/-- The HS clock of each link of a Beam starts with its lane order and polarities, and then the deskew (R469, R474). -/
def Chip.hsStart (b : Beam) (c : Chip) : Chip :=
  let a := R.BMO_LANE b
  let c := c.emit (.dsiStart (beamLinks b).1 (c.rf a 7 0) (c.rf a 20 16))
  let c := if c.dual b then c.emit (.dsiStart (beamLinks b).2 (c.rf a 15 8) (c.rf a 28 24)) else c
  c.deskewLinks b

/-- A VB0 of the Beam: a link that waits to start is checked and starts (R474), or enters HELD by START_HELD (R489). -/
def Chip.linkStart (b : Beam) (c : Chip) : Chip :=
  let c := c.releaseStep3 b
  let q := c.bmo[b]
  if c.rb (R.BMO_CTRL b) 0 ∧ c.running b ∧ c.link b = 1 ∧ ¬q.needEn then
    let (rate, fmt) := c.linkCheck b
    let c := (c.sbIf (!rate) (R.BMO_STICKY b) 0).sbIf (!fmt) (R.BMO_STICKY b) 1
    if rate ∧ fmt ∧ q.list.isEmpty then
      if c.rb (R.BMO_HOLD b) 2 ∧ c.holdSt b = 0 then ((c.setHold b 2).setLink b 3).wr (R.BMO_HOLD_FRAME b) 0
      else ((c.setLink b 2).hsStart b).onBmo b fun q => { q with frameOn := false, inFrame := false, ending := false }
    else c
  else c

/-- The synthesizer of a Beam that has stopped by R73 stops once its link has sent the last line. -/
def Chip.synStop (b : Beam) (c : Chip) : Chip :=
  let k := c.beam b
  if c.running b || k.locking || k.relocking || (c.bmo[b]).ending then c
  else (c.wb (R.PRK_STAT b) 1 false).onBeam b fun k => { k with synOn := false }

/-- The packets of a Beam go out in command mode: MODE, or the held frame (R477, R486). -/
def Chip.cmdMode (c : Chip) (b : Beam) : Bool := c.bmoMode b == 2 || (c.bmo[b]).heldFrame.isSome

/-- The data lanes rest in LP-11 between packets: in command mode, or with BLLP_LP (R476, R477). -/
def Chip.restsLp (c : Chip) (b : Beam) : Bool := c.cmdMode b || c.rb (R.BMO_CTRL b) 6

/-- An HS transmission ends, with an EoTp where EOTP is 1 (R476). -/
def Chip.hsEnd (b : Beam) (c : Chip) : Chip := if c.rb (R.BMO_CTRL b) 7 then c.onLinks b .dsiEotp else c

/-- After a packet of a running link: the BLLP, in LP-11 or filled with blanking packets (R476, R477; assumption 112). -/
def Chip.bllp (b : Beam) (c : Chip) : Chip :=
  if c.restsLp b then (c.hsEnd b).onLinks b (.dsiRest · true) else c.onLinks b (.dsiRest · false)

/-- The link leaves HS for LP-11; an HS transmission in progress ends. -/
def Chip.linkLp (b : Beam) (c : Chip) : Chip :=
  let c := c.when (c.link b == 2 && !c.restsLp b) (Chip.hsEnd b)
  ((c.setLink b 1).onBmo b fun q => { q with frameOn := false, inFrame := false, ending := false }).synStop b

/-- A hold entry ends without a hold (R486). -/
def Chip.holdCancel (b : Beam) (c : Chip) : Chip :=
  if c.holdSt b = 1 then (c.setHold b 0).onBmo b fun q => { q with list := [], listDone := false, heldFrame := none } else c

/-- The counters stop after a loss of lock (R479). -/
def Chip.linkUnlock (b : Beam) (c : Chip) : Chip :=
  let c := c.holdCancel b
  if c.link b = 2 then (c.linkLp b).sb (R.BMO_STICKY b) 3 else c

/-- The counters stop by R73 (R764): the last line is still sent; an entry whose held frame it does not complete ends. -/
def Chip.linkBeamStop (b : Beam) (c : Chip) : Chip :=
  let c := if (c.bmo[b]).heldFrame = some (c.rd (R.PRK_FRAME b)) then c else c.holdCancel b
  if c.link b ≠ 2 then c
  else if (c.bmo[b]).inFrame then c.onBmo b fun q => { q with ending := true }
  else c.linkLp b

/-- The frame stopped by EN has ended (R474). -/
def Chip.linkStop (b : Beam) (c : Chip) : Chip :=
  if c.link b = 2 ∧ ¬c.rb (R.BMO_CTRL b) 0 ∧ c.holdSt b = 0 ∧ ¬(c.bmo[b]).inFrame then c.linkLp b else c

/-- The sync packet in the present line of a Beam is that of the HS of the line before, VSS where VS fell there (R74, R475). -/
def Chip.isVss (c : Chip) (b : Beam) : Bool :=
  let k := c.beam b
  (c.line b + k.vtotal - 1) % k.vtotal == k.vactive + k.vfront

/-- A sync packet, VSS or HSS, leaves on a running link in video mode, at the pixel of HS, where it is the one due (R475, R477). -/
def Chip.syncPacket (b : Beam) (vss : Bool) (c : Chip) : Chip :=
  if c.running b ∧ c.link b = 2 ∧ ¬c.cmdMode b ∧ vss = c.isVss b then
    let k := c.beam b
    let c := c.setPos b (c.line b) (max (c.pixel b) (k.hactive + k.hfront))
    (c.onLinks b (.dsiSync · (c.dsiVc b) vss)).bllp b
  else c

/-- The DCS command of a line in command mode: write_memory_start for line 0, else write_memory_continue (R477). -/
def dcsOf (l : Nat) : Nat := if l = 0 then 0x2C else 0x3C

/-- The pixel packet of a line on the Beam's links: the columns of each (R473); in non-burst video a blanking packet follows, and then
the BLLP (R476). -/
def Chip.sendLine (b : Beam) (l : Nat) (px : List Rgb) (c : Chip) : Chip :=
  let half := (c.beam b).hactive / 2
  let parts := if c.dual b then [px.take half, px.drop half] else [px]
  let dcs := if c.cmdMode b then some (dcsOf l) else none
  let c := forEach ((c.links b).zip parts) (fun lp c => c.emit (.dsiLine lp.1 (c.dsiVc b) l dcs (c.bmoFmt b) lp.2)) c
  (c.when (!c.cmdMode b && c.bmoMode b == 0) (Chip.onLinks b (.dsiBlank · (c.dsiVc b)))).bllp b

/-- The last line of a frame has been sent: the held frame parks the link (R486 steps 3 and 4); a stopped Beam's link goes to
LP-11 (R764). -/
def Chip.linkFrameEnd (b : Beam) (c : Chip) : Chip :=
  let q := c.bmo[b]
  match q.heldFrame with
  | some f =>
    ((((c.setLink b 3).setHold b 2).wr (R.BMO_HOLD_FRAME b) f).onBmo b fun q => { q with
      inFrame := false, frameOn := false, ending := false, heldFrame := none, listDone := false }).synStop b
  | none => if q.ending then c.linkLp b else c.onBmo b fun q => { q with inFrame := false }

/-- The pixel packet of line L leaves from pixel 0 of line L + 1 (R475): its pixels as the line store holds them. The packet
of line 0 begins a frame, which is the held frame when an entry's list has been sent (R486). -/
def Chip.pixelPacket (b : Beam) (c : Chip) : Chip :=
  let k := c.beam b
  let n := c.line b
  if c.link b = 2 ∧ 1 ≤ n ∧ n ≤ k.vactive ∧ (c.running b ∨ (c.bmo[b]).ending) then
    let l := n - 1
    let q := c.bmo[b]
    let c := if l = 0 then
        let c := c.onBmo b fun q => { q with
          frameOn := true, inFrame := true
          heldFrame := if c.holdSt b = 1 ∧ q.listDone then some (c.rd (R.PRK_FRAME b)) else none }
        if c.holdSt b = 3 then c.setHold b 0 else c
      else c
    if ¬(c.bmo[b]).frameOn ∨ (l ≠ 0 ∧ ¬q.inFrame) then c
    else
      let c := c.sendLine b l (c.apq[b]).store
      if l + 1 = k.vactive then c.linkFrameEnd b else c
  else c

/-- Byte clocks that a command packet needs in HS (R482): for its bytes on the lanes, and 48. -/
def Chip.cmdClocks (c : Chip) (b : Beam) (p : List Word) : Nat := ceilDiv (4 * p.length) (c.bmoLanes b) + 48

/-- Byte clocks that command packets have taken of the present line. -/
def Chip.cmdTaken (c : Chip) (b : Beam) : Nat :=
  if (c.bmo[b]).cmdUsed.2 = (c.beam b).serial then (c.bmo[b]).cmdUsed.1 else 0

/-- A command packet fits into the present line before its next sync packet: a vertical blanking line of the link with enough of its
byte clocks left (R470, R475, R482; assumption 112). -/
def Chip.cmdFits (c : Chip) (b : Beam) (p : List Word) : Bool :=
  let k := c.beam b
  (decide (k.vactive < c.line b) || c.line b == 0)
    && decide ((c.cmdTaken b + c.cmdClocks b p) * 128 ≤ k.htotal * c.rf (R.BMO_RATE b) 9 0)

/-- A command packet leaves on the Beam's links: in HS it takes its byte clocks of the line, and the BLLP goes on; or by LPDT. -/
def Chip.packetOut (b : Beam) (p : List Word) (c : Chip) : Chip :=
  let hs := c.link b == 2
  let used := (c.cmdTaken b + c.cmdClocks b p, (c.beam b).serial)
  let c := c.onLinks b (.dsiCommand · (c.dsiVc b) hs p)
  if hs then (c.onBmo b fun q => { q with cmdUsed := used }).bllp b else c

/-- The next command packet is sent (R482): in HS on the link's vertical blanking lines where it fits, or by LPDT while it drives LP-11;
a hold list goes before queued packets. -/
def Chip.commandSend (b : Beam) (c : Chip) : Chip :=
  let q := c.bmo[b]
  let may (p : List Word) : Bool := if c.link b = 2 then c.cmdFits b p else c.link b == 1
  match q.list, q.ready with
  | p :: t, _ =>
    if may p then
      ((c.packetOut b p).onBmo b fun q => { q with list := t, listDone := q.listDone || t.isEmpty }).releaseStep3 b
    else c
  | [], p :: t => if may p then (c.packetOut b p).onBmo b fun q => { q with ready := t } else c
  | [], [] => c

/-! ### ULPS and power states (R484, R485) -/

/-- BMO_CTRLx.ULPS written. -/
def Chip.ulpsWrite (b : Beam) (v : Bool) (c : Chip) : Chip :=
  if c.holdSt b ≠ 0 then c
  else
    let c := c.wb (R.BMO_CTRL b) 15 v
    if v ∧ c.link b = 1 then c.setLink b 3
    else if ¬v ∧ c.link b = 3 then c.setLink b 4
    else c

/-- Entry to DIM: a link that is not held enters ULPS (R485). -/
def Chip.bmoDim (c : Chip) : Chip :=
  forEach (List.finRange 2) (fun b c =>
    let c := c.holdCancel b
    if c.holdSt b = 2 ∨ c.link b = 0 then c else (c.linkLp b).setLink b 3) c

/-- Return to RUN: a link that is not held leaves ULPS (R484, R485). -/
def Chip.bmoResume (c : Chip) : Chip :=
  forEach (List.finRange 2) (fun b c => if c.holdSt b = 2 ∨ c.link b ≠ 3 then c else c.setLink b 4) c

/-! ### EN and the other fields of BMO_CTRL -/

/-- EN written (R474, R490). -/
def Chip.enWrite (b : Beam) (v : Bool) (c : Chip) : Chip :=
  let was := c.rb (R.BMO_CTRL b) 0
  let c := c.wb (R.BMO_CTRL b) 0 v
  let c := if v ∧ c.link b = 0 then c.setLink b 1 else c
  if v ∧ ¬was then c.onBmo b fun q => { q with needEn := false } else c

/-- The link runs or is held: most settings ignore writes (R492). -/
def Chip.bmoBusy (c : Chip) (b : Beam) : Bool := c.link b == 2 || c.holdSt b != 0

/-- A write to BMO_CTRLx. -/
def Chip.bmoCtrl (b : Beam) (v : Word) (c : Chip) : Chip :=
  let a := R.BMO_CTRL b
  let c := if c.bmoBusy b then (c.wb a 13 (tb v 13)).wb a 14 (tb v 14)
    else
      let was := c.dual b
      let c := c.wr a ((v &&& w32 0x7FFE) ||| (c.rd a &&& w32 0x8001))
      if c.dual b = was then c else c.secondLanes b
  (c.enWrite b (tb v 0)).ulpsWrite b (tb v 15)

/-- A write to BMO_HOLDx. -/
def Chip.bmoHold (b : Beam) (v : Word) (c : Chip) : Chip :=
  let c := c.wb (R.BMO_HOLD b) 2 (tb v 2)
  let c := if tb v 0 then c.holdEnter b else c
  if tb v 1 then c.holdRelease b else c

/-- A store lands in a register of the BMO page. -/
def Chip.storeBmo (a : Nat) (v : Word) (c : Chip) : Chip :=
  let b : Beam := if a % 0x1000 < 0x100 then 0 else 1
  let o := a % 0x100
  if o = 0x00 then c.bmoCtrl b v
  else if o = 0x04 ∨ o = 0x08 then if c.bmoBusy b then c else c.store a v
  else if o = 0x18 then c.bmoHold b v
  else if o = 0x40 then c.cmdWord b v
  else if o = 0x44 then if tb v 0 then c.cmdSend b else c
  else c.store a v

/-- What a register of the BMO page reads; ENTER, RELEASE and SEND read 1 until the entry, the release or the packets are done (R6). -/
def Chip.readBmo (a : Nat) (c : Chip) : Word :=
  let b : Beam := if a % 0x1000 < 0x100 then 0 else 1
  let o := a % 0x100
  if o = 0x0C then setBit (c.rd a) 6 (!(c.bmo[b]).ready.isEmpty)
  else if o = 0x18 then w32 ((c.rd a).toNat / 4 * 4 + b2n (c.holdSt b == 1) + 2 * b2n (c.holdSt b == 3))
  else if o = 0x44 then w32 ((c.bmo[b]).level * 2 ^ 16 + b2n (!(c.bmo[b]).ready.isEmpty))
  else c.rd a

/-! ### Tearing effect (R483) -/

/-- The Beam steers by its TE input (R483). -/
def Chip.teSteers (c : Chip) (b : Beam) : Bool := c.rb (R.BMO_CTRL b) 14 && c.rb (R.PRK_CTRL b) 1

/-- A TE rising edge at a pixel of the present line. -/
def Chip.teEdge (b : Beam) (pixel : Nat) (c : Chip) : Chip :=
  let c := if c.rb (R.BMO_CTRL b) 13 then
      c.wr (R.BMO_TE_CAP b) (w32 (2 ^ 31 + c.line b % 8192 * 16384 + pixel % 16384))
    else c
  if c.teSteers b && c.running b then c.glkEdge b pixel else c

/-- No TE edge within 2 × VTOTAL lines; with TE_LOCK, holdover by R85. -/
def Chip.teMiss (b : Beam) (c : Chip) : Chip :=
  let c := if c.rb (R.BMO_CTRL b) 13 then c.sb (R.BMO_STICKY b) 2 else c
  if c.teSteers b && c.running b then c.glkLoss b else c

/-! ### Commands -/

/-- A link stopped by EN ends its frame (R474). -/
def execLinkStop (b : Beam) (s : State) : Out := (s.chip.linkStop b).next s

/-- The sync packet that is due leaves, VSS or HSS (R475); the other of the two does not. -/
def execSyncPacket (b : Beam) (vss : Bool) (s : State) : Out := (s.chip.syncPacket b vss).next s

/-- The pixel packet of the line before the present one leaves (R475). -/
def execPixelPacket (b : Beam) (s : State) : Out := (s.chip.pixelPacket b).next s

/-- A write to BMO_CMD_FIFOx (R481). -/
def execCmdFifoWrite (b : Beam) (v : Word) (s : State) : Out := (s.chip.cmdWord b v).next s

/-- BMO_CMD_CTRLx.SEND written 1 (R481). -/
def execCmdSend (b : Beam) (s : State) : Out := (s.chip.cmdSend b).next s

/-- A released command packet is sent (R482). -/
def execCommandPacketSend (b : Beam) (s : State) : Out := (s.chip.commandSend b).next s

/-- A TE rising edge with the pixel of the Beam's counters (R483); the ball of the TE input is in FUNC 1 (R617). -/
def execTeEdge (b : Beam) (pixel : BitVec 14) (s : State) : Out :=
  if s.chip.rf (R.GPIO_PAD (9 + b.val)) 2 0 = 1 then (s.chip.teEdge b pixel.toNat).next s else s.chip.next s

/-- No TE edge in time (R483). -/
def execTeMiss (b : Beam) (s : State) : Out := (s.chip.teMiss b).next s

/-- BMO_CTRLx.ULPS written (R484). -/
def execUlpsWrite (b : Beam) (v : Bool) (s : State) : Out := (s.chip.ulpsWrite b v).next s

/-- Mark-1 ends (R484). -/
def execMark1End (b : Beam) (s : State) : Out := (s.chip.markEnd b).next s

/-- BMO_HOLDx.ENTER written 1 (R486). -/
def execHoldEnter (b : Beam) (s : State) : Out := (s.chip.holdEnter b).next s

/-- BMO_HOLDx.RELEASE written 1 (R490). -/
def execHoldRelease (b : Beam) (s : State) : Out := (s.chip.holdRelease b).next s

end Sys2Proof.Machine
end

