-- ==== Sys2Proof/Machine/Cores.lean ====
section
/-! DEFINITION. The Yelex cores beside their instructions (05, and the bank side of 07): start, hold and release, traps,
memory protection, watchdogs, local-memory errors, and the YLX page. -/

namespace Sys2Proof.Machine

/-- The core is held by YLX_PCTRL.HOLD. -/
def Chip.heldCore (c : Chip) (n : Core) : Bool := c.rb (R.YLX_PCTRL n) 0

/-- The cores are supplied: the device is past its start, and neither in HOLD nor in STANDBY (R662, R731). -/
def Chip.coresUp (c : Chip) : Bool := decide (c.rst.phase = .run) && decide (c.rf R.AON_PWR 5 4 < 2)

/-- The core can take its next instruction: neither held, asleep, waiting, nor in debug halt. -/
def Chip.runs (c : Chip) (n : Core) : Bool :=
  c.coresUp && !c.heldCore n && !(c.core n).asleep && (c.core n).wait.isNone && !(c.core n).halted

/-- The core that runs an instruction has not been reset or held meanwhile. -/
def Chip.goesOn (c : Chip) (n : Core) : Bool := c.coresUp && !c.heldCore n && !(c.core n).asleep

/-- Start of the park window (R136). -/
def parkWindow : Word := 0x00007FC0

/-- The interrupt bank's registers at their reset values (R218). -/
def Chip.bankReset (n : Core) (c : Chip) : Chip :=
  let c := (c.wr (R.IRQ_PMASK n) 16).wr (R.IRQ_SLEEP n) 0
  let c := c.wr (R.IRQ_STAT n) 0
  let c := forEach (List.range 6) (fun k c => (c.wr (R.IRQ_EN n k) 0).wr (R.IRQ_ACT n k) 0) c
  forEach (List.range 24) (fun k c => c.wr (R.IRQ_PRIO n k) 0xFFFFFFFF) c

/-- The core's own state at a start: general registers, predicates, latch and stack 0 (R168, R218); its stores still land
and its YLX copies keep. -/
def CoreSt.start (k : CoreSt) (pc : Word) (parked : Bool) : CoreSt :=
  { k with
    g := Vector.replicate 16 0, usp := 0, p1 := false, p2 := false, p3 := false, latch := false, pc, mode := .S
    asleep := parked, parked, wait := none, halted := false, stack := [], runPrio := 16, pulse := [] }

/-- The core is held in reset (R138). -/
def Chip.coreHold (n : Core) (c : Chip) : Chip :=
  (c.sb (R.YLX_PCTRL n) 0).onCore n fun k => { k with asleep := false, parked := false, wait := none, halted := false }

/-- A core's YLX page at an address: core n's own, or the peer view (R132). -/
def ylxAt (n : Core) (a : Nat) : Option (Core × Nat) :=
  if 0x00110000 ≤ a ∧ a < 0x00111000 then some (n, a - 0x00110000)
  else if 0x00120000 ≤ a ∧ a < 0x00128000 then some (⟨(a - 0x00120000) / 0x1000 % 8, Nat.mod_lt _ (by decide)⟩, a % 0x1000)
  else none

/-- The core leaves its hold (R138): S mode, interrupts and MPU disabled, region locks open (R154), its bank reset (R218),
at the ROM's start or, after ROM_LOCK, asleep in the park window (R136). -/
def Chip.coreRelease (n : Core) (c : Chip) : Chip :=
  let c := c.wb (R.YLX_PCTRL n) 0 false
  let c := (c.wr (R.YLX_ESTAT n) 0).wr (R.YLX_MPU_CTRL n) 0
  let c := forEach (List.range 8) (fun k c => c.wb (R.YLX_MPU_ATTR n k) 5 false) c
  let c := (c.wb (R.YLX_RST_CAUSE n) 0 false).wb (R.YLX_RST_CAUSE n) 1 true
  let lock := c.romLocked
  (c.bankReset n).onCore n fun k => k.start (if lock then parkWindow else 0) lock

/-- YLX_PCTRL.RESTART: the core is held and then released (R138). -/
def Chip.coreRestart (n : Core) (c : Chip) : Chip := (c.coreHold n).coreRelease n

/-! ### Taking a trap (R156 to R159) -/

/-- Trap causes (05). -/
inductive Cause where
  | undef | mpuFetch | mpuLoad | mpuStore | misalign | noTarget | vlmUe | localUe | fetchLocked | soft
deriving DecidableEq, Repr

/-- YLX_CAUSE of a trap (R159's table). -/
def Cause.code : Cause → Nat
  | .undef => 1 | .mpuFetch => 2 | .mpuLoad => 3 | .mpuStore => 4 | .misalign => 5
  | .noTarget => 6 | .vlmUe => 7 | .localUe => 8 | .fetchLocked => 9 | .soft => 10

/-- Steps 2 and 3 of R157: IE to PIE, the mode to PMODE, S mode with IE at 0; INTRAP is set by a trap and left by an
interrupt. -/
def Chip.enterS (n : Core) (trap : Bool) (c : Chip) : Chip :=
  let e := c.rd (R.YLX_ESTAT n)
  let e := setBit (setBit (setBit e 1 (tb e 0)) 2 (decide ((c.core n).mode = .U))) 0 false
  let e := if trap then setBit e 3 true else e
  (c.wr (R.YLX_ESTAT n) e).onCore n fun k => { k with mode := .S }

/-- The beam core whose raster program runs on core n: its own, or on core 7 the adopted one (R690). -/
def Chip.rasterOn (c : Chip) (n : Core) : Option Core :=
  if n = 7 then
    match c.tirba.adopt with
    | some a => if a.started then some a.core else none
    | none => none
  else if n = 0 then none else some n

/-- The raster program of beam core r changed. -/
def Chip.onRaster (r : Core) (f : RasterSt → RasterSt) (c : Chip) : Chip :=
  { c with tirba := { c.tirba with rasters := upd c.tirba.rasters r f } }

/-- A trap on core n from U mode or not: a program that runs there is trapped (R350). -/
def Chip.rasterTrap (n : Core) (user : Bool) (c : Chip) : Chip :=
  match c.rasterOn n with
  | none => c
  | some r =>
    let cause := c.rf (R.YLX_CAUSE n) 4 0
    let epc := c.rd (R.YLX_EPC n)
    let faddr := c.rd (R.YLX_FADDR n)
    c.onRaster r fun p =>
      let p := { p with faultAt := c.time }
      if user ∧ p.state = 2 then { p with state := 3, traps := p.traps + 1, cause, epc, faddr } else p

/-- A fault holds core n: a program there reads as held (R350), 4 by the watchdog and 5 by a double fault. -/
def Chip.rasterHeld (n : Core) (st : Nat) (c : Chip) : Chip :=
  match c.rasterOn n with
  | none => c
  | some r => c.onRaster r fun p =>
    { p with faultAt := c.time, state := if p.state = 2 ∨ p.state = 3 then st else p.state }

/-- A core fault of the double kind (R159): the core is held, and the journal takes an entry. -/
def Chip.doubleFault (n : Core) (c : Chip) : Chip :=
  let c := (c.sb (R.YLX_STAT n) 3).sb (R.YLX_RST_CAUSE n) 3
  ((c.coreHold n).rasterHeld n 5).journal 0x02 3 n.val (c.rd (R.YLX_STAT n)) (c.rd (R.YLX_FADDR n)) 0

/-- Taking a trap (R157): EPC, CAUSE and, where there is one, FADDR are written, the core enters S mode and fetches from
VBASE; a trap while INTRAP is 1 is a double fault (R159). -/
def Chip.trap (n : Core) (cause : Cause) (faddr : Option Word) (c : Chip) : Chip :=
  if c.rb (R.YLX_ESTAT n) 3 then c.doubleFault n
  else
    let c := (c.wr (R.YLX_EPC n) ((c.core n).pc &&& ~~~3#32)).wr (R.YLX_CAUSE n) (w32 cause.code)
    let c := match faddr with
      | some a => c.wr (R.YLX_FADDR n) a
      | none => c
    let c := (c.rasterTrap n (decide ((c.core n).mode = .U))).enterS n true
    let v := c.rd (R.YLX_VBASE n)
    c.onCore n fun k => { k with pc := v }

/-- The return from a trap or interrupt (R158). -/
def Chip.eret (n : Core) (c : Chip) : Chip :=
  let e := c.rd (R.YLX_ESTAT n)
  let epc := c.rd (R.YLX_EPC n)
  (c.wr (R.YLX_ESTAT n) (setBit (setBit e 0 (tb e 1)) 3 false)).onCore n fun k =>
    { k with mode := if tb e 2 then .U else .S, pc := epc }

/-! ### Memory protection (R149 to R155) -/

/-- Kinds of access: fetch, load, store. -/
inductive Acc where
  | x | r | w
deriving DecidableEq, Repr

/-- The cause of a refused access (R159's table). -/
def Acc.mpuCause : Acc → Cause
  | .x => .mpuFetch | .r => .mpuLoad | .w => .mpuStore

/-- SIZE below 6 acts as 6 and above 32 as 32 (R149). -/
def mpuSize (v : Nat) : Nat := min 32 (max 6 v)

/-- Does region k of the core match an address (R149)? -/
def Chip.mpuMatch (c : Chip) (n : Core) (k : Nat) (a : Word) : Bool :=
  let at' := c.rd (R.YLX_MPU_ATTR n k)
  let sz := mpuSize (fld at' 13 8)
  tb at' 0 && a.toNat / 2 ^ sz == (c.rd (R.YLX_MPU_BASE n k)).toNat / 2 ^ sz

/-- Does region k permit an access (R150)? -/
def Chip.mpuPermits (c : Chip) (n : Core) (k : Nat) (acc : Acc) : Bool :=
  match acc with
  | .r => c.rb (R.YLX_MPU_ATTR n k) 1
  | .w => c.rb (R.YLX_MPU_ATTR n k) 2
  | .x => c.rb (R.YLX_MPU_ATTR n k) 3

/-- The core's own local memory, by its own address or through the peer window (R133). -/
def ownLm (n : Core) (a : Nat) : Bool :=
  (decide (0x00100000 ≤ a) && decide (a < 0x00110000)) || (decide (lmBase n ≤ a) && decide (a < lmBase n + 0x10000))

/-- Pages no U-mode access reaches: the YLX pages and the IRQ, LCY and DBG pages (R152). -/
def uDenied (a : Nat) : Bool :=
  (decide (0x00110000 ≤ a) && decide (a < 0x00111000)) || (decide (0x00120000 ≤ a) && decide (a < 0x00128000)) ||
  a / 0x1000 == 0x40001 || a / 0x1000 == 0x40002 || a / 0x1000 == 0x40017

/-- A load of YLX_CORE_ID, the exception of R152. -/
def isCoreId (a : Nat) : Bool :=
  a == 0x00110000 || (decide (0x00120000 ≤ a) && decide (a < 0x00128000) && a % 0x1000 == 0)

/-- Does memory protection permit an access (R149 to R152)? A load of YLX_CORE_ID in U mode, the one exception to R152, still goes
through the region check (assumption 102, DEDUCED). -/
def Chip.mpuOk (c : Chip) (n : Core) (acc : Acc) (a : Word) : Bool :=
  let ks := [7, 6, 5, 4, 3, 2, 1, 0]
  match (c.core n).mode with
  | .U =>
    if uDenied a.toNat && !(decide (acc = .r) && isCoreId a.toNat) then false
    else if !c.rb (R.YLX_MPU_CTRL n) 0 then decide (acc ≠ .w) && ownLm n a.toNat
    else match ks.find? fun k => c.mpuMatch n k a with
      | some k => c.mpuPermits n k acc
      | none => false
  | .S =>
    match ks.find? fun k => c.rb (R.YLX_MPU_ATTR n k) 4 && c.mpuMatch n k a with
    | some k => c.mpuPermits n k acc
    | none => true

/-! ### Watchdog (R160 to R163) -/

/-- A write to YLX_WDG_KICK (R160). -/
def Chip.wdgKick (n : Core) (v : Word) (c : Chip) : Chip :=
  if v = 0x0000C1A5 then
    (c.wr (R.YLX_WDG_COUNT n) (c.rd (R.YLX_WDG_LOAD n))).onCore n fun k => { k with stage1 := false }
  else c

/-- Power state in force: 0 RUN, 1 DIM, 2 HOLD, 3 STANDBY (R662). -/
def Chip.power (c : Chip) : Nat := c.rf R.AON_PWR 5 4

/-- The watchdog of a core counts now (R160). -/
def Chip.wdgCounts (c : Chip) (n : Core) : Bool :=
  c.rb (R.YLX_WDG_CTRL n) 0 && c.power == 0 && !((c.core n).halted && c.rb (R.YLX_WDG_CTRL n) 1)

/-- The count of an enabled watchdog has reached 0 (R161, R162). -/
def Chip.wdgExpired (c : Chip) (n : Core) : Bool := c.wdgCounts n && decide (c.rd (R.YLX_WDG_COUNT n) = 0)

/-- The first expiry without a kick, and every expiry while STAGE2_EN is 0 (R161, R162). -/
def Chip.wdgStage1 (n : Core) (c : Chip) : Chip :=
  if c.wdgExpired n && (!(c.core n).stage1 || !c.rb (R.YLX_WDG_CTRL n) 3) then
    ((c.sb (R.YLX_STAT n) 4).wr (R.YLX_WDG_COUNT n) (c.rd (R.YLX_WDG_LOAD n))).onCore n fun k => { k with stage1 := true }
  else c

/-- The second expiry without a kick (R162). -/
def Chip.wdgStage2 (n : Core) (c : Chip) : Chip :=
  if c.wdgExpired n && (c.core n).stage1 && c.rb (R.YLX_WDG_CTRL n) 3 then
    let c := ((c.coreHold n).rasterHeld n 4).sb (R.YLX_RST_CAUSE n) 2
    c.journal 0x02 2 n.val (c.rd (R.YLX_STAT n)) 0 0
  else c

/-- A watchdog whose count has reached 0 takes its stage (R161, R162). -/
def Chip.wdgExpire (n : Core) (c : Chip) : Chip :=
  if (c.core n).stage1 && c.rb (R.YLX_WDG_CTRL n) 3 then c.wdgStage2 n else c.wdgStage1 n

/-- One tick of the enabled watchdogs (R160): the counts go down. At 0 the stage follows as its command, or at the next tick
where the command has not come (assumption 9). -/
def Chip.wdgTick (c : Chip) : Chip :=
  forEach (List.finRange 8) (fun n c =>
    let c := c.wdgExpire n
    if c.wdgCounts n then c.wr (R.YLX_WDG_COUNT n) (w32 ((c.rd (R.YLX_WDG_COUNT n)).toNat - 1)) else c) c

/-! ### Local memory errors (R143, R144) -/

/-- A single-bit error in a core's local memory: corrected and counted (R143). -/
def Chip.lmCe (n : Nat) (c : Chip) : Chip :=
  c.wf (R.YLX_LM_ERR n) 15 0 (satInc 0xFFFF (c.rf (R.YLX_LM_ERR n) 15 0))

/-- An uncorrectable error in word w of a core's local memory: counted and recorded (R143). -/
def Chip.lmUe (n w : Nat) (c : Chip) : Chip :=
  (c.wf (R.YLX_LM_ERR n) 23 16 (satInc 0xFF (c.rf (R.YLX_LM_ERR n) 23 16))).wf (R.YLX_LM_ERR_ADDR n) 15 2 w

/-- The word of local memory at an address is marked uncorrectable. -/
def Chip.lmBad (c : Chip) (a : Nat) : Bool := c.ue.contains (a / 4 * 4)

/-- What the check of a read of word w by a fetch, a load or a Bobbin finds (R143): a single-bit error is corrected and counted; an
uncorrectable word is marked, and the read itself then counts it and traps (assumption 103). -/
def Chip.lmFinds (n w : Nat) (e : Option Ecc) (c : Chip) : Chip :=
  let a := lmBase n + 4 * w
  match e with
  | some (.ce _) => if c.lmBad a then c else c.lmCe n
  | some (.ue _) => { c with ue := insertSorted a c.ue }
  | none => c

/-- The local scrubber of core n reads its next word (R144), with what the check finds there. -/
def Chip.lmScrub (n : Core) (e : Option Ecc) (c : Chip) : Chip :=
  if c.rb (R.YLX_CTRL n) 4 then
    let w := (c.core n).lmScrub
    let a := lmBase n + 4 * w
    let c := match e with
      | some (.ce _) => if c.lmBad a then c.lmUe n w else c.lmCe n
      | some (.ue _) => { c with ue := insertSorted a c.ue }.lmUe n w
      | none => if c.lmBad a then c.lmUe n w else c
    c.onCore n fun k => { k with lmScrub := (w + 1) % 16384 }
  else c

/-! ### The YLX page (R164) -/

/-- A store to a register of core n's YLX page. -/
def Chip.storeYlx (n : Core) (off : Nat) (v : Word) (c : Chip) : Chip :=
  let a := 0x00120000 + 0x1000 * n.val + off
  if off = 0x00C then
    if tb v 1 then c.coreRestart n
    else if tb v 0 then c.coreHold n
    else if c.heldCore n then c.coreRelease n else c
  else if off = 0x040 ∨ off = 0x044 then
    if c.rb (R.YLX_WDG_CTRL n) 2 then c else c.store a v
  else if off = 0x048 then c.wdgKick n v
  else if off = 0x050 then
    if tb v 31 then c.wr (R.YLX_LM_ERR n) 0 else c
  else if 0x100 ≤ off ∧ off < 0x140 then
    if c.rb (R.YLX_MPU_ATTR n ((off - 0x100) / 8)) 5 then c else c.store a v
  else c.store a v

/-- What a register of core n's YLX page reads (R164). -/
def Chip.readYlx (n : Core) (off : Nat) (c : Chip) : Word :=
  let k := c.core n
  if off = 0x000 then w32 n.val
  else if off = 0x008 then
    c.rd (R.YLX_STAT n) ||| w32 (b2n (decide (k.mode = .U)) + b2n k.asleep * 2 + b2n (c.heldCore n) * 4 + b2n k.halted * 32)
  else c.rd (0x00120000 + 0x1000 * n.val + off)

/-! ### Commands -/

/-- YLX_PCTRL.HOLD written 1 (R138). -/
def execCoreHold (n : Core) (s : State) : Out := (s.chip.coreHold n).next s

/-- YLX_PCTRL.HOLD written 0 (R138). -/
def execCoreRelease (n : Core) (s : State) : Out :=
  if s.chip.heldCore n then (s.chip.coreRelease n).next s else s.chip.next s

/-- YLX_PCTRL.RESTART written 1 (R138). -/
def execCoreRestart (n : Core) (s : State) : Out := (s.chip.coreRestart n).next s

/-- A word of local memory is read and checked: the local scrubber's next word (R144), or word w for the read that follows
(R143). -/
def execLmScrubRead (n : Core) (e : Option Ecc) (s : State) (w : Option (BitVec 14) := none) : Out :=
  match w with
  | none => (s.chip.lmScrub n e).next s
  | some w => (s.chip.lmFinds n w.toNat e).next s

/-- A write to YLX_WDG_KICK (R160). -/
def execWdgKick (n : Core) (v : Word) (s : State) : Out := (s.chip.wdgKick n v).next s

/-- YLX_WDG_CTRL.LOCK is set (R163). -/
def execWdgLock (n : Core) (s : State) : Out := (s.chip.sb (R.YLX_WDG_CTRL n) 2).next s

/-- Watchdog stage 1 (R161). -/
def execWdgStage1 (n : Core) (s : State) : Out := (s.chip.wdgStage1 n).next s

/-- Watchdog stage 2 (R162). -/
def execWdgStage2 (n : Core) (s : State) : Out := (s.chip.wdgStage2 n).next s

end Sys2Proof.Machine
end

