-- ==== Sys2Proof/Machine/Serial.lean ====
section
/-! DEFINITION. The service UARTs, the boot-flash master, the I2C masters, the telemetry ADC and GPIO (21). -/

namespace Sys2Proof.Machine

/-- The serial units changed. -/
def Chip.onSer (f : SerSt → SerSt) (c : Chip) : Chip := { c with ser := f c.ser }

/-- UART u. -/
def Chip.uart (c : Chip) (u : Fin 2) : UartSt := c.ser.uart[u]

/-- UART u changed. -/
def Chip.onUart (u : Fin 2) (f : UartSt → UartSt) (c : Chip) : Chip := c.onSer fun s => { s with uart := upd s.uart u f }

/-- A unit request of R586's table is raised: it goes to the Bobbins that select it and is held until they take it (R41). The
UARTs' requests come from a pin stage (PHY_OVR, R55); the ADC's and the capture's come from self-timed logic. -/
def Chip.unitReq (sel : Nat) (c : Chip) : Chip :=
  (c.emit (.unitRequest sel)).request 2 sel false (if 6 ≤ sel ∧ sel ≤ 9 then some 3 else none)

/-! ### UART (R598 to R604) -/

/-- The UART begins the next character when it may: enabled, in RUN (R597), none in progress. -/
def Chip.uartNext (u : Fin 2) (c : Chip) : Chip :=
  let s := c.uart u
  if s.sending.isNone ∧ s.tx ≠ [] ∧ c.rb (R.UART_CTRL u) 0 ∧ c.power = 0 then
    c.onUart u fun s => { s with sending := some (c.rd (R.UART_CTRL u), c.rd (R.UART_BAUD u)) }
  else c

/-- A write to UART_DATA (R599). -/
def Chip.uartWrite (u : Fin 2) (v : Byte) (c : Chip) : Chip :=
  if 32 ≤ (c.uart u).tx.length then c.sb (R.UART_STAT u) 21
  else (c.onUart u fun s => { s with tx := s.tx ++ [v] }).uartNext u

/-- The bits of a character under a UART_CTRL, in the order sent: start bit, data least significant first, parity, one or two stop
bits (R598). -/
def uartBits (ctrl : Word) (b : Byte) : List Bool :=
  let data := bitsOf (fld ctrl 2 1 + 5) b.toNat
  let odd := decide (data.count true % 2 = 1)
  let par := match fld ctrl 4 3 with
    | 1 => [odd]
    | 2 => [!odd]
    | _ => []
  false :: data ++ par ++ List.replicate (if tb ctrl 5 then 2 else 1) true

/-- The bit period of a UART_BAUD in ticks, 16 × (DIV + FRAC / 16); a DIV of 0 acts as 1 (R598). -/
def uartPeriod (baud : Word) : Nat := 16 * max 1 (fld baud 19 4) + fld baud 3 0

/-- A character is sent (R599); the transmit request rises as the level falls to TX_TRIG (R604). -/
def Chip.uartSent (u : Fin 2) (c : Chip) : Chip :=
  match (c.uart u).sending, (c.uart u).tx with
  | some (ctrl, baud), b :: t =>
    let c := (c.emit (.uart u (uartBits ctrl b) (uartPeriod baud))).onUart u fun s =>
      { s with tx := t, sending := none }
    let c := if t.length = c.rf (R.UART_FIFO u) 12 8 then c.unitReq (7 + 2 * u.val) else c
    c.uartNext u
  | _, _ => c

/-- A read of UART_DATA (R603, R621): the oldest character popped, or EMPTY. -/
def Chip.uartRead (u : Fin 2) (c : Chip) : Word × Chip :=
  match (c.uart u).rx with
  | [] => (bitW 31, c)
  | w :: t => (w, c.onUart u fun s => { s with rx := t })

/-- The majority of a bit's samples 7, 8 and 9 (R601). -/
def sampleMajority (s : BitVec 3) : Bool := decide (2 ≤ (bitsOf 3 s.toNat).count true)

/-- A bit's three samples differ (R601). -/
def sampleNoise (s : BitVec 3) : Bool := s != 0 && s != 7

/-- A frame as received under a UART_CTRL: data, framing error, parity error, break; none where bits are missing
(R598, R602, R603). bits follow the start bit. -/
def uartFrame (ctrl : Word) (bits : List Bool) : Option (Nat × Bool × Bool × Bool) :=
  let nd := fld ctrl 2 1 + 5
  let par := fld ctrl 4 3
  let hasPar := par == 1 || par == 2
  let data := bits.take nd
  let np := if hasPar then 1 else 0
  match (bits.drop nd).take np, bits.drop (nd + np) with
  | p, stop :: _ =>
    let ones := data.count true + p.count true
    let pe := hasPar && decide (ones % 2 ≠ (if par = 2 then 1 else 0))
    let brk := !stop && !data.contains true && !p.contains true
    some (ofBits data, !stop, pe, brk)
  | _, [] => none

/-- A character is received: the samples 7, 8 and 9 of its start bit, data bits, parity bit and stop bit; early, its start
bit came before the last write to UART_CTRL (R600 to R603). -/
def Chip.uartReceived (u : Fin 2) (early : Bool) (samples : List (BitVec 3)) (c : Chip) : Chip :=
  let a := R.UART_STAT u
  let c := c.sbIf (samples.any sampleNoise) a 19
  match samples.map sampleMajority with
  | false :: bits =>
    match uartFrame (if early then (c.uart u).oldCtrl else c.rd (R.UART_CTRL u)) bits with
    | none => c
    | some (d, fe, pe, brk) =>
      let c := ((c.sbIf fe a 16).sbIf pe a 17).sbIf brk a 18
      let c := c.onUart u fun s => { s with timedOut := false }
      let n := (c.uart u).rx.length
      if 32 ≤ n then c.sb a 20
      else
        let w := w32 (d + b2n fe * 2 ^ 8 + b2n pe * 2 ^ 9 + b2n brk * 2 ^ 10)
        let c := c.onUart u fun s => { s with rx := s.rx ++ [w] }
        if n + 1 = c.rf (R.UART_FIFO u) 4 0 then c.unitReq (6 + 2 * u.val) else c
  | _ => c

/-- 4 character times without a start bit: the receive request once while the level is above 0 (R604). -/
def Chip.uartTimeout (u : Fin 2) (c : Chip) : Chip :=
  if (c.uart u).rx ≠ [] ∧ ¬(c.uart u).timedOut then
    (c.unitReq (6 + 2 * u.val)).onUart u fun s => { s with timedOut := true }
  else c

/-! ### Boot flash (R605 to R608) -/

/-- Data bytes of a transaction: LEN above 256 acts as 256 (R621). -/
def flashLen (cmd : Word) : Nat := min 256 (fld cmd 26 18)

/-- QSPI_BUF as bytes. -/
def Chip.qspiBuf (c : Chip) (n : Nat) : List Byte :=
  ((List.range 64).flatMap fun k => leBytes 4 (c.rd (R.QSPI_BUF k)).toNat).take n

/-- Bytes placed in a run of registers from byte 0 on, little-endian. -/
def Chip.setRegBytes (base : Nat) (bs : List Byte) (c : Chip) : Chip :=
  forEach (List.range bs.length) (fun i c =>
    c.wf (base + i / 4 * 4) (i % 4 * 8 + 7) (i % 4 * 8) (bs.getD i 0).toNat) c

/-- The transaction that QSPI_CMD, QSPI_ADDR and QSPI_CTRL order: reserved settings act as R621 says, and the address goes out most
significant byte first (R606). -/
def Chip.flashTx (c : Chip) : FlashTx :=
  let cmd := c.rd R.QSPI_CMD
  let ctrl := c.rd R.QSPI_CTRL
  let n := match fld cmd 9 8 with
    | 0 => 0
    | 1 => 3
    | _ => 4
  { op := fld cmd 7 0, addr := (leBytes n (c.rd R.QSPI_ADDR).toNat).reverse, mode := if fld cmd 11 10 = 3 then 0 else fld cmd 11 10
    dummy := fld cmd 16 12, write := tb cmd 17, len := flashLen cmd, data := if tb cmd 17 then c.qspiBuf (flashLen cmd) else []
    div := max 1 (fld ctrl 7 0), late := tb ctrl 8 }

/-- QSPI_STAT.BUSY. -/
def Chip.qspiBusy (c : Chip) : Bool := c.rb R.QSPI_STAT 0

/-- A write to QSPI_CMD with GO (R606). In DIM no transaction starts (R597). -/
def Chip.qspiGo (v : Word) (c : Chip) : Chip :=
  if c.qspiBusy then c.sb R.QSPI_STAT 2
  else
    let c := c.store R.QSPI_CMD v
    if c.power ≠ 0 then c
    else (c.sb R.QSPI_STAT 0).emit (.flash c.flashTx)

/-- The transaction ends with the bytes that the flash has returned (R606). -/
def Chip.qspiDone (rx : List Byte) (c : Chip) : Chip :=
  if !c.qspiBusy then c
  else
    let cmd := c.rd R.QSPI_CMD
    let c := if tb cmd 17 then c else c.setRegBytes (R.QSPI_BUF 0) (rx.take (flashLen cmd))
    (c.wb R.QSPI_STAT 0 false).sb R.QSPI_STAT 1

/-! ### I2C (R609 to R612) -/

/-- The transaction of I2C master m changed. -/
def Chip.setI2c (m : Fin 4) (t : Option I2cTx) (c : Chip) : Chip := c.onSer fun s => { s with i2c := s.i2c.set m t }

/-- I2C_WBUF as bytes. -/
def Chip.i2cWbuf (c : Chip) (m : Fin 4) (n : Nat) : List Byte :=
  ((List.range 8).flatMap fun k => leBytes 4 (c.rd (R.I2C_WBUF m k)).toNat).take n

/-- What a transaction does on its bus (R611): the write part unless there is nothing to write but something to read, then the read
part, every byte but the last acknowledged, and a stop. -/
def I2cTx.ops (t : I2cTx) : List I2cOp :=
  (if t.wr = [] ∧ 0 < t.rlen then [] else .start t.addr false :: t.wr.map .write) ++
  (if t.rlen = 0 then [] else .start t.addr true :: (List.range t.rlen).map fun i => .read (i + 1 != t.rlen)) ++ [.stop]

/-- SCL low and high times in ticks (R610). -/
def i2cTimes (speed : Nat) : Nat × Nat :=
  match speed with
  | 0 => (480, 480)
  | 1 => (144, 96)
  | _ => (56, 40)

/-- The transaction on the bus: with I2C_CTRL.EN at 0, SCL and SDA are high-impedance and nothing is driven (R621). -/
def Chip.i2cDrive (m : Fin 4) (t : I2cTx) (c : Chip) : Chip :=
  if c.rb (R.I2C_CTRL m) 0 then c.emit (.i2c m t.ops (i2cTimes t.speed).1 (i2cTimes t.speed).2) else c

/-- A write to I2C_XFERm with GO (R611): lengths above 32 act as 32. In DIM no transaction starts (R597). -/
def Chip.i2cGo (m : Fin 4) (v : Word) (c : Chip) : Chip :=
  let c := c.store (R.I2C_XFER m) v
  if c.rb (R.I2C_STAT m) 0 then c.sb (R.I2C_STAT m) 6
  else if c.power ≠ 0 then c
  else
    let t : I2cTx := { addr := fld v 6 0, wr := c.i2cWbuf m (min 32 (fld v 13 8)), rlen := min 32 (fld v 21 16)
                       speed := min 2 (c.rf (R.I2C_CTRL m) 2 1) }
    ((c.sb (R.I2C_STAT m) 0).setI2c m (some t)).i2cDrive m t

/-- A transaction of master m ends, and a status bit sets. -/
def Chip.i2cEnd (m : Fin 4) (bit : Nat) (c : Chip) : Chip :=
  ((c.wb (R.I2C_STAT m) 0 false).setI2c m none).sb (R.I2C_STAT m) bit

/-- A transaction ends (R611, R612). -/
def Chip.i2cDone (m : Fin 4) (e : I2cEnd) (c : Chip) : Chip :=
  match c.ser.i2c[m] with
  | none => c
  | some t =>
    match e with
    | .ok rx => (c.setRegBytes (R.I2C_RBUF m 0) (rx.take t.rlen)).i2cEnd m 1
    | .nack idx => (((c.i2cEnd m 1).sb (R.I2C_STAT m) 2).wf (R.I2C_STAT m) 13 8 idx.toNat)
    | .arbLost => c.i2cEnd m 4
    | .busStuck => c.i2cEnd m 5

/-- SCL held low for 25 ms (R612). -/
def Chip.i2cTimeout (m : Fin 4) (c : Chip) : Chip := if c.rb (R.I2C_STAT m) 0 then c.i2cEnd m 3 else c

/-! ### Telemetry ADC (R613 to R616) -/

/-- ADC_STAT.QUEUED. -/
def Chip.adcQueued (c : Chip) : Nat := c.rf R.ADC_STAT 6 4

/-- A sequence starts: ADC_SEQ is read (R614). -/
def Chip.adcBegin (c : Chip) : Chip := c.onSer fun s => { s with adcSeq := some (BitVec.ofNat 16 (c.rf R.ADC_SEQ 15 0)) }

/-- A trigger (R614, R615): its sequence starts, or it waits, or it is dropped. In DIM no sequence starts (R597). -/
def Chip.adcTrigger (c : Chip) : Chip :=
  if c.ser.adcSeq.isNone ∧ c.adcQueued = 0 ∧ c.power = 0 then c.adcBegin
  else if c.adcQueued < 4 then c.wf R.ADC_STAT 6 4 (c.adcQueued + 1)
  else (c.incSat R.ADC_DROP).sb R.ADC_STAT 1

/-- The next queued sequence starts when it may. -/
def Chip.adcNext (c : Chip) : Chip :=
  if c.ser.adcSeq.isNone ∧ 0 < c.adcQueued ∧ c.power = 0 then (c.wf R.ADC_STAT 6 4 (c.adcQueued - 1)).adcBegin else c

/-- The codes of a sequence written to its channels' results, rising (R614). -/
def Chip.adcResults (ks : List Nat) (vs : List (BitVec 12)) (c : Chip) : Chip :=
  forEach (ks.zip vs) (fun e c => c.wr (R.ADC_RESULT e.1) (w32 (e.2.toNat + 2 ^ 31))) c

/-- The sequence ends (R614). -/
def Chip.adcEnd (codes : List (BitVec 12)) (c : Chip) : Chip :=
  match c.ser.adcSeq with
  | none => c
  | some q =>
    let c := (c.adcResults (setBitsOf 16 q.toNat) codes).onSer fun s => { s with adcSeq := none }
    ((c.sb R.ADC_STAT 0).unitReq 10).adcNext

/-- A calibration is requested; one that is requested while one runs merges with it (R616). -/
def Chip.adcCal (c : Chip) : Chip := c.sb R.ADC_STAT 2

/-- Return to RUN: what waits in the units of this chapter starts (R597). -/
def Chip.serResume (c : Chip) : Chip := ((c.uartNext 0).uartNext 1).adcNext

/-! ### GPIO (R617 to R620) -/

/-- GPIO_PADn.FUNC in force: 1 on balls 0 to 10, else 0 (R617). -/
def Chip.padFunc (c : Chip) (n : Nat) : Bool := c.rf (R.GPIO_PAD n) 2 0 == 1 && decide (n ≤ 10)

/-- GPIO_PADn.IMODE; 6 and 7 act as 0 (R620). -/
def Chip.padMode (c : Chip) (n : Nat) : Nat := let m := c.rf (R.GPIO_PAD n) 10 8; if 6 ≤ m then 0 else m

/-- What GPIO drives on a ball: a level, or none where it is high-impedance (R617). A ball in FUNC 1 is its function's. -/
def Chip.gpioDrive (c : Chip) (n : Nat) : Option Bool :=
  let v := c.rb (R.GPIO_OUT (n / 32)) (n % 32)
  if c.padFunc n || !c.rb (R.GPIO_PAD n) 4 || (c.rb (R.GPIO_PAD n) 5 && v) then none else some v

/-- The bits of register k that name balls: register 1 reaches ball 47 (R623). -/
def gpioMask (k : Nat) : Word := if k = 0 then 0xFFFFFFFF else 0x0000FFFF

/-- GPIO_INk (R618). -/
def Chip.gpioIn (c : Chip) (k : Nat) : Word := w32 (c.ser.balls.toNat / 2 ^ (32 * k) % 2 ^ 32)

/-- The bits of GPIO_ISTATk whose ball has a level mode, and those that read 1 now (R620). -/
def Chip.gpioLevels (c : Chip) (k : Nat) : Word × Word :=
  let lv (f : Nat → Bool) : Word := w32 (ofBits ((List.range 32).map fun i => decide (32 * k + i < 48) && f (32 * k + i)))
  (lv fun n => c.padMode n == 4 || c.padMode n == 5,
   lv fun n => (c.padMode n == 4 && tb c.ser.balls n) || (c.padMode n == 5 && !tb c.ser.balls n))

/-- GPIO_ISTATk (R620). -/
def Chip.gpioIstat (c : Chip) (k : Nat) : Word :=
  let (m, v) := c.gpioLevels k
  (c.rd (R.GPIO_ISTAT k) &&& ~~~m) ||| v

/-- GPIO_SETk written (R619). -/
def Chip.gpioSet (k : Fin 2) (v : Word) (c : Chip) : Chip :=
  c.wr (R.GPIO_OUT k) (c.rd (R.GPIO_OUT k) ||| (v &&& gpioMask k))

/-- GPIO_CLRk written (R619). -/
def Chip.gpioClr (k : Fin 2) (v : Word) (c : Chip) : Chip := c.wr (R.GPIO_OUT k) (c.rd (R.GPIO_OUT k) &&& ~~~v)

/-- Ball n reads a new level for some consecutive tick samples: with FILTER the change is taken from the third on (R618),
and an edge sets its ISTAT bit (R620). While VIO_B is not good every ball reads 0 (R729). -/
def Chip.gpioInput (n : Fin 48) (v : Bool) (samples : Nat) (c : Chip) : Chip :=
  if tb c.ser.balls n = v ∨ (v && !c.rb R.SYS_VIO 1) ∨ samples < (if c.rb (R.GPIO_PAD n) 12 then 3 else 1) then c
  else
    let c := c.onSer fun s => { s with balls := if v then s.balls ||| BitVec.ofNat 48 (2 ^ n.val) else s.balls &&& ~~~(BitVec.ofNat 48 (2 ^ n.val)) }
    let m := c.padMode n
    c.sbIf (m == 3 || (m == 1 && v) || (m == 2 && !v)) (R.GPIO_ISTAT (n / 32)) (n % 32)

/-! ### The SER, ADC and GPIO pages (R621 to R623) -/

/-- A store lands in a register of the SER page. -/
def Chip.storeSer (a : Nat) (v : Word) (c : Chip) : Chip :=
  let off := a % 0x1000
  if off < 0x080 then
    let u : Fin 2 := ⟨off / 0x40 % 2, Nat.mod_lt _ (by decide)⟩
    let o := off % 0x40
    if o = 0x00 then
      ((c.onUart u fun s => { s with oldCtrl := c.rd a }).store a v).uartNext u
    else if o = 0x0C then c.uartWrite u (v.setWidth 8)
    else c.store a v
  else if off = 0x100 ∨ off = 0x110 then (c.onSer fun s => { s with flashOn := true }).store a v
  else if a = R.QSPI_CMD then
    let c := c.onSer fun s => { s with flashOn := true }
    if c.qspiBusy then c.sb R.QSPI_STAT 2 else if tb v 31 then c.qspiGo v else c.store a v
  else if a = R.QSPI_ADDR ∨ 0x400 ≤ off then
    if c.qspiBusy then c.sb R.QSPI_STAT 2 else c.store a v
  else if 0x200 ≤ off ∧ off % 0x80 = 0x04 then
    if tb v 31 then c.i2cGo ⟨(off - 0x200) / 0x80 % 4, Nat.mod_lt _ (by decide)⟩ v else c.store a v
  else c.store a v

/-- A read of the SER page; GO reads 1 while its transaction runs (R6). -/
def Chip.readSer (a : Nat) (c : Chip) : Word × Chip :=
  let off := a % 0x1000
  if off < 0x080 then
    let u : Fin 2 := ⟨off / 0x40 % 2, Nat.mod_lt _ (by decide)⟩
    let o := off % 0x40
    if o = 0x0C then c.uartRead u
    else if o = 0x10 then
      (setFld (setFld (c.rd a) 5 0 (c.uart u).rx.length) 13 8 (c.uart u).tx.length, c)
    else (c.rd a, c)
  else if a = R.QSPI_CMD then (setBit (c.rd a) 31 c.qspiBusy, c)
  else if 0x200 ≤ off ∧ off < 0x400 ∧ off % 0x80 = 0x04 then (setBit (c.rd a) 31 (c.rb (a + 4) 0), c)
  else (c.rd a, c)

/-- A read of the ADC page: CAL reads 1 while its calibration runs (R6). -/
def Chip.readAdc (a : Nat) (c : Chip) : Word :=
  if a = R.ADC_CTRL then setBit (c.rd a) 1 (c.rb R.ADC_STAT 2) else c.rd a

/-- A store lands in a register of the ADC page. -/
def Chip.storeAdc (a : Nat) (v : Word) (c : Chip) : Chip :=
  let c := c.store a v
  if a = R.ADC_CTRL then (c.when (tb v 0) Chip.adcTrigger).when (tb v 1) Chip.adcCal else c

/-- A store lands in a register of the GPIO page. -/
def Chip.storeGpio (a : Nat) (v : Word) (c : Chip) : Chip :=
  let off := a % 0x1000
  let k : Fin 2 := ⟨off / 4 % 2, Nat.mod_lt _ (by decide)⟩
  if 0x008 ≤ off ∧ off < 0x010 then c.store a (v &&& gpioMask k)
  else if 0x010 ≤ off ∧ off < 0x018 then c.gpioSet k v
  else if 0x018 ≤ off ∧ off < 0x020 then c.gpioClr k v
  else if 0x020 ≤ off ∧ off < 0x028 then c.store a (v &&& ~~~(c.gpioLevels k).1)
  else c.store a v

/-- A read of the GPIO page. -/
def Chip.readGpio (a : Nat) (c : Chip) : Word :=
  let off := a % 0x1000
  if off < 0x008 then c.gpioIn (off / 4)
  else if 0x020 ≤ off ∧ off < 0x028 then c.gpioIstat (off / 4 % 2)
  else c.rd a

/-! ### Commands -/

/-- A write to UART_DATA (R599). -/
def execUartDataWrite (u : Fin 2) (v : Byte) (s : State) : Out := (s.chip.uartWrite u v).next s

/-- A read of UART_DATA (R603). -/
def execUartDataRead (u : Fin 2) (s : State) : Out := (s.chip.uartRead u).2.next s

/-- A character is sent (R599). -/
def execUartCharSent (u : Fin 2) (s : State) : Out := (s.chip.uartSent u).next s

/-- A character is received (R601). -/
def execUartCharReceived (u : Fin 2) (early : Bool) (samples : List (BitVec 3)) (s : State) : Out :=
  (s.chip.uartReceived u early samples).next s

/-- The receive timeout (R604). -/
def execUartRxTimeout (u : Fin 2) (s : State) : Out := (s.chip.uartTimeout u).next s

/-- QSPI_CMD written with GO (R606). -/
def execQspiGo (v : Word) (s : State) : Out := (s.chip.qspiGo v).next s

/-- A flash transaction ends (R606). -/
def execQspiDone (rx : List Byte) (s : State) : Out := (s.chip.qspiDone rx).next s

/-- I2C_XFERm written with GO (R611). -/
def execI2cGo (m : Fin 4) (v : Word) (s : State) : Out := (s.chip.i2cGo m v).next s

/-- An I2C transaction ends (R611, R612). -/
def execI2cDone (m : Fin 4) (e : I2cEnd) (s : State) : Out := (s.chip.i2cDone m e).next s

/-- SCL is held low for 25 ms (R612). -/
def execI2cSclTimeout (m : Fin 4) (s : State) : Out := (s.chip.i2cTimeout m).next s

/-- The ADC takes and acknowledges the oldest request held for it of timer event e (R41); it is a trigger while ADC_TRIG still
selects it (R614). -/
def execAdcTrigger (e : BitVec 6) (s : State) : Out :=
  let c := s.chip
  let r : EvReq := { dst := none, src := 1, sel := e.toNat }
  if c.reqs.contains r then ((c.ack r).when (c.adcTrigOf 1 e.toNat) Chip.adcTrigger).next s else c.next s

/-- ADC_CTRL.START written 1 (R614). -/
def execAdcStart (s : State) : Out := s.chip.adcTrigger.next s

/-- A sequence ends with the codes of its channels, rising (R614). -/
def execAdcSequenceEnd (codes : List (BitVec 12)) (s : State) : Out := (s.chip.adcEnd codes).next s

/-- ADC_CTRL.CAL written 1 (R616). -/
def execAdcCal (s : State) : Out := s.chip.adcCal.next s

/-- 96,000,000 ticks have passed: a calibration starts while CAL_AUTO is 1 (R616). -/
def execAdcCalAuto (s : State) : Out :=
  if s.chip.rb R.ADC_CTRL 2 then s.chip.adcCal.next s else s.chip.next s

/-- The 64th step of a calibration ends (R616); one that a sequence has paused does not end. -/
def execAdcCalEnd (s : State) : Out :=
  if s.chip.ser.adcSeq.isSome then s.chip.next s else (s.chip.wb R.ADC_STAT 2 false).next s

/-- GPIO_SETk written (R619). -/
def execGpioSet (k : Fin 2) (v : Word) (s : State) : Out := (s.chip.gpioSet k v).next s

/-- GPIO_CLRk written (R619). -/
def execGpioClr (k : Fin 2) (v : Word) (s : State) : Out := (s.chip.gpioClr k v).next s

/-- Ball n reads a new level (R618, R620). -/
def execGpioInputChange (n : Fin 48) (v : Bool) (samples : Nat) (s : State) : Out :=
  (s.chip.gpioInput n v samples).next s

end Sys2Proof.Machine
end

