-- ==== Sys2Proof/Machine/Sound.lean ====
section
/-! DEFINITION. Sound (17): voices, gains, buses, effects, audio ports, microphone routes and the capture ring. -/

namespace Sys2Proof.Machine

/-- The sound engine's state changed. -/
def Chip.onSnd (f : SndSt → SndSt) (c : Chip) : Chip := { c with snd := f c.snd }

/-- Logical voice v. -/
def Chip.voice (c : Chip) (v : Nat) : VoiceSt := Sparse.get {} c.snd.voices v

/-- Logical voice v set. -/
def Chip.setVoice (v : Nat) (x : VoiceSt) (c : Chip) : Chip := c.onSnd fun s => { s with voices := Sparse.set {} s.voices v x }

/-- Bus b changed. -/
def Chip.onBus (b : Bus) (f : BusSt → BusSt) (c : Chip) : Chip := c.onSnd fun s => { s with buses := upd s.buses b f }

/-- Audio port p changed. -/
def Chip.onAud (p : Fin 3) (f : AudPort → AudPort) (c : Chip) : Chip := c.onSnd fun s => { s with ports := upd s.ports p f }

/-- SND_V_STAT.STATE: 0 IDLE, 1 ARMED, 2 PLAYING, 3 RELEASING (R499). -/
def Chip.vState (c : Chip) (v : Nat) : Nat := c.rf (R.V_STAT v) 1 0

/-- STATE set. -/
def Chip.setVState (v st : Nat) (c : Chip) : Chip := c.wf (R.V_STAT v) 1 0 st

/-- Fs in Hz (R493). -/
def Chip.fs' (c : Chip) : Nat := match c.rf R.AUD_CLK 1 0 with | 0 => 44100 | 2 => 96000 | _ => 48000

/-- Frames of a time in ms: ceil(ms × Fs / 1000). -/
def Chip.frames (c : Chip) (ms : Nat) : Nat := ceilDiv (ms * c.fs') 1000

/-! ### Sample formats (R497) -/

/-- Bytes per sample of a format. -/
def fmtBytes (f : Nat) : Nat := match f with | 1 => 2 | 2 => 2 | 3 => 4 | _ => 1

/-- The format is stereo. -/
def fmtStereo (f : Nat) : Bool := f == 2 || f == 3

/-- ITU-T G.711 µ-law to its 16-bit linear form (assumption 21, PRESUMED). -/
def ulaw (b : Nat) : Int :=
  let u := 255 - b
  let t : Int := (((u % 16) * 8 + 0x84) * 2 ^ (u / 16 % 8) : Nat)
  if 128 ≤ u then 0x84 - t else t - 0x84

/-- ITU-T G.711 A-law to its 16-bit linear form (assumption 21, PRESUMED). -/
def alaw (b : Nat) : Int :=
  let a := (BitVec.ofNat 8 b ^^^ 0x55#8).toNat
  let seg := a / 16 % 8
  let t : Nat := a % 16 * 16
  let m : Nat := if seg = 0 then t + 8 else (t + 0x108) * 2 ^ (seg - 1)
  if 128 ≤ a then (m : Int) else -(m : Int)

/-- Stored bytes of one sample to x of its two channels (R497, R498). -/
def sampleOf (f : Nat) (bs : List Byte) : Int × Int :=
  let b (i : Nat) : Nat := (bs.getD i 0).toNat
  let s8 (i : Nat) : Int := signed 8 (b i) * 65536
  let s16 (i : Nat) : Int := signed 16 (b i + 256 * b (i + 1)) * 256
  match f with
  | 0 => (s8 0, s8 0)
  | 1 => (s16 0, s16 0)
  | 2 => (s8 0, s8 1)
  | 3 => (s16 0, s16 2)
  | 4 => (ulaw (b 0) * 256, ulaw (b 0) * 256)
  | _ => (alaw (b 0) * 256, alaw (b 0) * 256)

/-! ### Gains (R506 to R510) -/

/-- A quotient rounded half away from zero; the divisor is positive. -/
def roundAway (a : Int) (b : Nat) : Int :=
  if 0 ≤ a then (2 * a + b) / (2 * b) else -((-(2 * a) + b) / (2 * b))

/-- A change from g0 to g1 over n frames, at frame k (R509). -/
def rampAt (g0 g1 n k : Nat) : Nat := ((g0 : Int) + roundAway (((g1 : Int) - g0) * k) n).toNat

/-- The signal is 0, or differs in sign from its value before (R508). -/
def crosses (before now : Int) : Bool := now == 0 || decide (before < 0) != decide (now < 0)

/-- One frame of a gain with the signals of its two channels (R508, R509). -/
def GainSt.frame (g : GainSt) (sl sr : Int) : GainSt :=
  match g.change with
  | none => { g with sl, sr }
  | some ch =>
    let k := ch.k + 1
    let last := decide (ch.n ≤ k)
    if ch.ramp then
      { l := rampAt ch.fromL ch.target ch.n k, r := rampAt ch.fromR ch.target ch.n k
        change := if last then none else some { ch with k }, sl, sr }
    else
      let dl := ch.doneL || last || crosses g.sl sl
      let dr := ch.doneR || last || crosses g.sr sr
      { l := if dl then ch.target else g.l, r := if dr then ch.target else g.r
        change := if dl && dr then none else some { ch with k, doneL := dl, doneR := dr }, sl, sr }

/-- The change that a gain register's value asks for, from the gains reached (R508 to R510). -/
def Chip.gainChange (c : Chip) (w : Word) (g : GainSt) : GainSt :=
  let t := fld w 26 16
  let ramp := tb w 31
  let ms := if ramp then clampN 1 2000 t else clampN 1 64 t
  { g with change := some { ramp, fromL := g.l, fromR := g.r, target := fld w 15 0, n := c.frames ms } }

/-! ### Voice commands (R499 to R502, R505, R507) -/

/-- A voice becomes IDLE (R502). -/
def Chip.voiceIdle (v : Nat) (c : Chip) : Chip :=
  let c := (c.setVState v 0).sb (R.SND_END (v / 32)) (v % 32)
  let x := c.voice v
  (c.setVoice v { x with outL := 0, outR := 0, gain := { x.gain with change := none } }).wb (R.V_STAT v) 3 false

/-- Why an ARM is refused (R500); 0 when it is not. -/
def Chip.armCause (c : Chip) (v : Nat) : Nat :=
  let f := c.rf (R.V_CTRL v) 3 0
  let len := c.rf (R.V_LENGTH v) 24 0
  if 6 ≤ f then 1
  else if len = 0 ∨ len < c.rf (R.V_LOOP_START v) 24 0 + c.rf (R.V_LOOP_LEN v) 24 0 then 2
  else if vlmSize < (c.rd (R.V_BASE v)).toNat + len * fmtBytes f then 3
  else 0

/-- CMD ARM (R499, R500). -/
def Chip.voiceArm (v : Nat) (c : Chip) : Chip :=
  if c.vState v ≠ 0 then c.sb R.SND_STICKY 0
  else
    let k := c.armCause v
    if k ≠ 0 then (c.sb R.SND_STICKY 0).wf (R.V_STAT v) 9 8 k
    else
      let g := c.rd (R.V_GAIN v)
      let ramp := tb g 31
      let start := if ramp then 0 else fld g 15 0
      (c.setVoice v { c.voice v with
        base := (c.rd (R.V_BASE v)).toNat, length := c.rf (R.V_LENGTH v) 24 0
        loopStart := c.rf (R.V_LOOP_START v) 24 0, loopLen := c.rf (R.V_LOOP_LEN v) 24 0
        format := c.rf (R.V_CTRL v) 3 0, bus := c.rf (R.V_CTRL v) 6 4
        attackMs := c.rf (R.V_ENV v) 13 0, releaseMs := c.rf (R.V_ENV v) 29 16
        pos := 0, env := 0, na := 0, step := 0, outL := 0, outR := 0
        gain := { l := start, r := start }, startRamp := ramp }).setVState v 1

/-- CMD RELEASE (R499, R505). -/
def Chip.voiceRelease (v : Nat) (c : Chip) : Chip :=
  match c.vState v with
  | 1 => c.voiceIdle v
  | 2 =>
    let x := c.voice v
    let nr := c.frames x.releaseMs
    if nr = 0 then c.voiceIdle v
    else (c.setVoice v { x with na := 0, step := ceilDiv x.env nr }).setVState v 3
  | _ => c

/-- CMD STOP (R499). -/
def Chip.voiceStop (v : Nat) (c : Chip) : Chip := if c.vState v = 0 then c else c.voiceIdle v

/-- SND_V_GAIN written (R507). -/
def Chip.voiceGain (v : Nat) (w : Word) (c : Chip) : Chip :=
  let c := c.store (R.V_GAIN v) w
  if c.vState v = 0 then c
  else
    let x := c.voice v
    (c.setVoice v { x with startRamp := false, gain := c.gainChange (c.rd (R.V_GAIN v)) x.gain }).sb (R.V_STAT v) 3

/-- SND_V_CTRL written: its fields, then its command. -/
def Chip.voiceCtrl (v : Nat) (w : Word) (c : Chip) : Chip :=
  let c := c.store (R.V_CTRL v) w
  match fld w 17 16 with
  | 1 => c.voiceArm v
  | 2 => c.voiceRelease v
  | 3 => c.voiceStop v
  | _ => c

/-- SND_BUSb_GAIN written (R510): a disabled bus takes the gain at once. -/
def Chip.busGain (b : Bus) (w : Word) (c : Chip) : Chip :=
  let c := c.store (R.SND_BUS_GAIN b) w
  if c.rb (R.SND_BUS_CTRL b) 0 then
    (c.onBus b fun k => { k with gain := c.gainChange (c.rd (R.SND_BUS_GAIN b)) k.gain }).sb (R.SND_BUS_STAT b) 8
  else
    (c.onBus b fun k => { k with gain := { l := fld w 15 0, r := fld w 15 0 } }).wb (R.SND_BUS_STAT b) 8 false

/-- EFX_LOAD written 1 (R515): the read of the block begins. -/
def Chip.efxLoad (b : Bus) (c : Chip) : Chip :=
  let base := (c.rd (R.SND_BUS_EFX_BASE b)).toNat
  c.onBus b fun k => { k with loading := some base }

/-- A signed little-endian field of a list of bytes. -/
def leS (bs : List Byte) (i n : Nat) : Int := signed (8 * n) (leNat ((bs.drop i).take n))

/-- An unsigned little-endian field of a list of bytes. -/
def leU (bs : List Byte) (i n : Nat) : Nat := leNat ((bs.drop i).take n)

/-- The effect block that 128 bytes spell (R515). -/
def efxOf (bs : List Byte) : EfxBlock :=
  let b0 := leU bs 0 1
  { nbq := min 4 (b0 % 16), delayEn := b0 / 16 % 2 == 1
    stages := (List.range 4).map fun k =>
      { b0 := leS bs (8 + 20 * k) 4, b1 := leS bs (12 + 20 * k) 4, b2 := leS bs (16 + 20 * k) 4
        a1 := leS bs (20 + 20 * k) 4, a2 := leS bs (24 + 20 * k) 4 }
    delayBase := leU bs 88 4 / 64 * 64, delayLen := max 1 (leU bs 92 2)
    fb := leS bs 96 2, mix := leS bs 98 2
    limT := clampN 1 0x7FFFFF (leU bs 100 3), limRel := clampN 1 2000 (leU bs 104 2) }

/-- The read of an effect block completes (R515, R516): it is taken, or refused. -/
def Chip.efxDone (b : Bus) (c : Chip) : Chip :=
  match (c.snd.buses[b]).loading with
  | none => c
  | some off =>
    let c := c.onBus b fun k => { k with loading := none }
    if vlmSize < off + 128 then c.sb R.SND_STICKY 4
    else
      let (bs, bad, c) := c.vRead .sound 0 off 128
      if bad then c.sb R.SND_STICKY 4
      else
        let e := efxOf bs
        let past := e.delayEn && decide (vlmSize < e.delayBase + 8 * e.delayLen)
        let e := if past then { e with delayEn := false } else e
        let clear := leU bs 0 1 / 32 % 2 == 1
        (c.sbIf past R.SND_STICKY 4).onBus b fun k =>
          if clear then { k with efx := e, bqL := List.replicate 4 {}, bqR := List.replicate 4 {}, zeros := e.delayLen }
          else { k with efx := e }

/-! ### One voice in one frame (R501 to R506, R527 to R529) -/

/-- The spare that serves logical voice v, lowest first (R529). -/
def Chip.voiceSpare (c : Chip) (v : Nat) : Option Nat :=
  (List.range 8).find? fun k => c.rf (R.SND_SPARE_MAP k) 6 0 == v

/-- The physical voice that serves logical voice v. -/
def Chip.physVoice (c : Chip) (v : Nat) : Nat := match c.voiceSpare v with | some k => 96 + k | none => v

/-- Physical voice p is marked failed (R686, R687). -/
def Chip.voiceFailed (c : Chip) (p : Nat) : Bool := c.rb (R.DRN_VFAIL (p / 32)) (p % 32)

/-- Voice v is muted by shed step 3 (R528). -/
def Chip.voiceMuted (c : Chip) (v : Nat) : Bool :=
  c.shed 3 && decide (c.rf R.SND_SHED 3 0 < c.rf (R.V_CTRL v) 11 8)

/-- A looping position brought back into the loop (R504). -/
def loopPos (start len pos : Nat) : Nat :=
  let i := pos / 65536
  if len = 0 ∨ i < start + len then pos else (start + (i - start) % len) * 65536 + pos % 65536

/-- A sample of a voice through Vellum: 0 with a mark where its word is uncorrectable (R527). -/
def Chip.sampleAt (x : VoiceSt) (i : Nat) (c : Chip) : (Int × Int) × Bool × Chip :=
  let n := fmtBytes x.format
  let (bs, bad, c) := c.vRead .sound 0 (x.base + i * n) n
  (if bad then (0, 0) else sampleOf x.format bs, bad, c)

/-- Interpolation (R504). -/
def interp (s0 s1 : Int) (f : Nat) : Int := s0 + ((s1 - s0) * f + 32768) / 65536

/-- The gain product of R506. -/
def gainMul (e1 : Int) (g : Nat) : Int := (e1 * g + 16384) / 32768

/-- A value faded by m 64ths (R528); how a value between two integers rounds is a free choice (assumption 22). -/
def fadeBy (m : Nat) (v : Int) : Int :=
  if (v * m) % 64 = 0 then v * m / 64 else v * m / 64 + b2n (Config.fadeUp v m)

/-- R501: an ARMED voice starts in the frame whose computation starts now. -/
def Chip.voiceStart (v : Nat) (c : Chip) : Chip :=
  let due : Bool := !c.rb (R.V_CTRL v) 20 || decide (0 ≤ signed 32 (c.timeLo - c.rd (R.V_START v)).toNat)
  if c.vState v = 1 ∧ due then
    let x := c.voice v
    let na := c.frames x.attackMs
    let x := { x with pos := 0, na, env := if na = 0 then 2 ^ 24 else 0 }
    let x := if x.startRamp then { x with gain := c.gainChange (c.rd (R.V_GAIN v)) x.gain, startRamp := false } else x
    (c.setVoice v x).setVState v 2
  else c

/-- The mute factor of a frame (R528): it falls or rises by one 64th. -/
def Chip.voiceFade (v : Nat) (c : Chip) : Chip :=
  let x := c.voice v
  let m := c.voiceMuted v
  let fade := if m then x.fade - 1 else min 64 (x.fade + 1)
  (c.setVoice v { x with fade }).wb (R.V_STAT v) 2 (m || decide (fade < 64))

/-- One frame of a voice that is PLAYING or RELEASING: its outputs left and right (R503 to R506, R527 to R529). -/
def Chip.voiceRun (v : Nat) (under : Bool) (c : Chip) : (Int × Int) × Chip :=
  let x := c.voice v
  let pos := loopPos x.loopStart x.loopLen x.pos
  let i := pos / 65536
  if x.loopLen = 0 ∧ x.length ≤ i then ((0, 0), c.voiceIdle v)
  else
    let j := if x.loopLen ≠ 0 ∧ i + 1 = x.loopStart + x.loopLen then x.loopStart else i + 1
    let ((a0, a1), bad0, c) := c.sampleAt x i
    let ((b0, b1), bad1, c) := if j < x.length then c.sampleAt x j else ((0, 0), false, c)
    let c := if bad0 || bad1 then (c.sb (R.V_STAT v) 5).sb R.SND_STICKY 2 else c
    let f := pos % 65536
    let env := if c.vState v = 3 then x.env - x.step else if x.na = 0 then x.env else min (2 ^ 24) (x.env + ceilDiv (2 ^ 24) x.na)
    let e1 (y : Int) : Int := (y * env + 2 ^ 23) / 2 ^ 24
    let l := e1 (interp a0 b0 f)
    let r := e1 (interp a1 b1 f)
    let gain := x.gain.frame l r
    let dead := c.voiceFailed (c.physVoice v)
    let (ol, or) := if dead then (0, 0)
      else if under then (x.outL, x.outR)
      else (fadeBy x.fade (gainMul l gain.l), fadeBy x.fade (gainMul r gain.r))
    let c := if under then (c.sb (R.V_STAT v) 6).sb R.SND_STICKY 3 else c
    let pitch := (c.rd (R.V_PITCH v)).toNat
    let c := c.sbIf (decide (0x40000 < pitch)) R.SND_STICKY 1
    let x' := { x with
      pos := (pos + min 0x40000 pitch) % 2 ^ 41, env, na := if env = 2 ^ 24 then 0 else x.na
      gain, outL := ol, outR := or }
    let c := (c.setVoice v x').wb (R.V_STAT v) 3 gain.change.isSome
    ((ol, or), if c.vState v = 3 ∧ env = 0 then c.voiceIdle v else c)

/-- One frame of one voice: what it feeds to its bus, and whether it counts in n of R513. -/
def Chip.voiceFrame (under : List Voice) (v : Nat) (c : Chip) : Option (Nat × Int × Int × Bool) × Chip :=
  let c := (c.voiceStart v).voiceFade v
  if 2 ≤ c.vState v then
    let bus := (c.voice v).bus
    let counts := !c.voiceMuted v
    let ((l, r), c) := c.voiceRun v (under.any fun u => u.val == v)
    (some (bus, l, r, counts), c)
  else if c.vState v = 1 then
    let x := c.voice v
    let g := x.gain.frame 0 0
    (none, (c.setVoice v { x with gain := g }).wb (R.V_STAT v) 3 g.change.isSome)
  else (none, c)

/-- One frame of every voice, in order. -/
def Chip.voiceFrames (under : List Voice) : List Nat → Chip → List (Nat × Int × Int × Bool) × Chip
  | [], c => ([], c)
  | v :: t, c =>
    let (o, c) := c.voiceFrame under v
    let (os, c) := Chip.voiceFrames under t c
    ((match o with | some x => x :: os | none => os), c)

/-! ### One bus in one frame (R511 to R518) -/

/-- Saturation to n bits, and whether it acted. -/
def satF (n : Nat) (x : Int) : Int × Bool := (satS n x, satS n x != x)

/-- The accumulator of R511. -/
def accumulate (xs : List Int) : Int × Bool :=
  xs.foldl (fun a x => let (s, k) := satF 32 (a.1 + x); (s, a.2 || k)) (0, false)

/-- F of R513 in one frame, for n inputs. -/
def BusSt.scale (k : BusSt) (n : Nat) : BusSt :=
  let t := if n = 0 then 65536 else (2 * 65536 + n) / (2 * n)
  if k.fJump then { k with f := t, fFrom := t, fTarget := t, fK := 256, fJump := false }
  else
    let k := if t = k.fTarget then k else { k with fFrom := k.f, fTarget := t, fK := 0 }
    if k.fK < 256 then { k with fK := k.fK + 1, f := rampAt k.fFrom k.fTarget 256 (k.fK + 1) } else k

/-- One biquad stage (R516). -/
def biquad (q : Biquad) (s : BiquadSt) (x : Int) : Int × BiquadSt :=
  let y := satS 32 ((q.b0 * x + q.b1 * s.x1 + q.b2 * s.x2 - q.a1 * s.y1 - q.a2 * s.y2 + 2 ^ 27) / 2 ^ 28)
  (y, { x1 := x, x2 := s.x1, y1 := y, y2 := s.y1 })

/-- The stages in use, in order; the others keep their state. -/
def biquads : Nat → List Biquad → List BiquadSt → Int → Int × List BiquadSt
  | n + 1, q :: qs, s :: ss, x =>
    let (y, s') := biquad q s x
    let (z, ss') := biquads n qs ss y
    (z, s' :: ss')
  | _, _, ss, x => (x, ss)

/-- One frame of the delay of a bus (R516). -/
def Chip.busDelay (b : Bus) (xl xr : Int) (c : Chip) : (Int × Int) × Chip :=
  let k := c.snd.buses[b]
  let e := k.efx
  let w := k.w % e.delayLen
  let off := e.delayBase + 8 * w
  let (bs, bad, c) := c.vRead .sound 0 off 8
  let c := c.sbIf (bad && k.zeros == 0) R.SND_STICKY 2
  let d (i : Nat) : Int := if bad ∨ 0 < k.zeros then 0 else leS bs i 4
  let out (x d : Int) : Int := satS 32 (x + (e.mix * d + 16384) / 32768)
  let back (x d : Int) : Nat := toField 32 (satS 32 (x + (e.fb * d + 16384) / 32768))
  let c := c.vWrite off (leBytes 4 (back xl (d 0)) ++ leBytes 4 (back xr (d 4)))
  ((out xl (d 0), out xr (d 4)), c.onBus b fun k => { k with w := (w + 1) % e.delayLen, zeros := k.zeros - 1 })

/-- One frame of the limiter: the gain and the outputs (R517). -/
def limiter (e : EfxBlock) (nr g : Nat) (xl xr : Int) : Nat × Int × Int :=
  let p := max xl.natAbs xr.natAbs
  let g := min (2 ^ 24) (g + ceilDiv (2 ^ 24) nr)
  let g := if e.limT < p then min g (e.limT * 2 ^ 24 / p) else g
  (g, (xl * g + 2 ^ 23) / 2 ^ 24, (xr * g + 2 ^ 23) / 2 ^ 24)

/-- One frame of an enabled bus with its inputs (R514): the two channels it sends. -/
def Chip.busFrame (b : Bus) (ins : List (Int × Int × Bool)) (c : Chip) : (Int × Int) × Chip :=
  let ctrl := c.rd (R.SND_BUS_CTRL b)
  let (al, cl) := accumulate (ins.map (·.1))
  let (ar, cr) := accumulate (ins.map (·.2.1))
  let n := (ins.filter (·.2.2)).length
  let c := c.onBus b (BusSt.scale · n)
  let k := c.snd.buses[b]
  let scale (x : Int) : Int := satS 24 ((x * k.f + 32768) / 65536)
  let lim := tb ctrl 1
  let (xl, xr) := if lim then (al, ar) else (scale al, scale ar)
  let efx := tb ctrl 8
  let (yl, bl) := if efx then biquads k.efx.nbq k.efx.stages k.bqL xl else (xl, k.bqL)
  let (yr, br) := if efx then biquads k.efx.nbq k.efx.stages k.bqR xr else (xr, k.bqR)
  let c := c.onBus b fun k => { k with bqL := bl, bqR := br }
  let ((zl, zr), c) := if efx && k.efx.delayEn then c.busDelay b yl yr else ((yl, yr), c)
  let gain := k.gain.frame zl zr
  let c := (c.onBus b fun k => { k with gain }).wb (R.SND_BUS_STAT b) 8 gain.change.isSome
  let (vl, sl) := satF 32 (gainMul zl gain.l)
  let (vr, sr) := satF 32 (gainMul zr gain.r)
  let (g, ol, or, s5) :=
    if lim then
      let (g, l, r) := limiter k.efx (c.frames k.efx.limRel) (c.rf (R.SND_BUS_LIMG b) 24 0) vl vr
      (g, l, r, false)
    else (c.rf (R.SND_BUS_LIMG b) 24 0, satS 24 vl, satS 24 vr, satS 24 vl != vl || satS 24 vr != vr)
  let c := (c.wf (R.SND_BUS_LIMG b) 24 0 g).wf (R.SND_BUS_STAT b) 7 0 (min 255 n)
  let c := c.sbIf (cl || cr || sl || sr || s5) (R.SND_BUS_STAT b) 9
  let peak := max (c.rf (R.SND_BUS_PEAK b) 23 0) (min 0xFFFFFF (max ol.natAbs or.natAbs))
  ((ol, or), c.wf (R.SND_BUS_PEAK b) 23 0 peak)

/-- One frame of every bus, in order: the channels sent, by bus. -/
def Chip.busFrames (ins : List (Nat × Int × Int × Bool)) : List Bus → Chip → List (Bus × Int × Int) × Chip
  | [], c => ([], c)
  | b :: t, c =>
    if c.rb (R.SND_BUS_CTRL b) 0 then
      let ((l, r), c) := c.busFrame b ((ins.filter fun i => i.1 == b.val).map (·.2))
      let (os, c) := Chip.busFrames ins t c
      ((b, l, r) :: os, c)
    else Chip.busFrames ins t c

/-! ### Ports (R518 to R526) -/

/-- Slots of port p. -/
def Chip.slots (c : Chip) (p : Nat) : Nat := c.rf (R.AUD_PCTRL p) 5 3 + 1

/-- Width of port p in bits. -/
def Chip.slotWidth (c : Chip) (p : Nat) : Nat := match c.rf (R.AUD_PCTRL p) 7 6 with | 0 => 16 | 1 => 24 | _ => 32

/-- Port p runs. -/
def Chip.audRunning (c : Chip) (p : Nat) : Bool := c.rb (R.AUD_PSTAT p) 0

/-- Some port runs (R493). -/
def Chip.framesExist (c : Chip) : Bool := c.audRunning 0 || c.audRunning 1 || c.audRunning 2

/-- A bus's slot pair lies within the port it names, if it names one (R518). -/
def Chip.routed (c : Chip) (b : Bus) (p : Nat) : Bool :=
  c.rf (R.SND_BUS_CTRL b) 3 2 == p && decide (c.rf (R.SND_BUS_CTRL b) 6 4 + 1 < c.slots p)

/-- The slots of output port p (R518). -/
def Chip.mixSlots (c : Chip) (outs : List (Bus × Int × Int)) (p : Nat) : List Int :=
  (List.range (c.slots p)).map fun s =>
    let parts := outs.map fun o =>
      if c.routed o.1 p then
        let k := c.rf (R.SND_BUS_CTRL o.1) 6 4
        if s = k then o.2.1 else if s = k + 1 then o.2.2 else 0
      else 0
    satS 24 parts.sum

/-- ROUTE sets for an enabled bus whose slot pair passes its port's slots (R518). -/
def Chip.routeCheck (c : Chip) : Bool :=
  (List.finRange 8).any fun b =>
    let p := c.rf (R.SND_BUS_CTRL b) 3 2
    c.rb (R.SND_BUS_CTRL b) 0 && decide (p < 2) && !c.routed b p

/-- A 24-bit slot value as a W-bit word (R521). -/
def slotOut (w : Nat) (v : Int) : Nat :=
  if w = 16 then toField 16 (satS 16 ((v + 128) / 256)) else if w = 24 then toField 24 v else toField 32 (v * 256)

/-- A received W-bit word as a 24-bit value (R521). -/
def slotIn (w : Nat) (v : Word) : Int :=
  if w = 16 then signed 16 (fld v 15 0) * 256 else if w = 24 then signed 24 (fld v 23 0) else signed 32 v.toNat / 256

/-- Port p takes its frames from the engine's own edges: a master, or the reference slave (R522, R523). -/
def Chip.onEngineEdge (c : Chip) (p : Nat) : Bool :=
  !c.rb R.AUD_CLK 2 || min 2 (c.rf R.AUD_CLK 5 4) == p

/-- A slip of port p (R523). -/
def Chip.slip (p : Nat) (c : Chip) : Chip :=
  c.wf (R.AUD_PSTAT p) 31 16 (satInc 0xFFFF (c.rf (R.AUD_PSTAT p) 31 16))

/-- A frame goes into a port's FIFO; a full one drops its oldest frame. -/
def Chip.audPush (p : Fin 3) (fr : List Int) (c : Chip) : Chip :=
  let q := (c.snd.ports[p]).fifo
  if 4 ≤ q.length then (c.onAud p fun s => { s with fifo := q.tail ++ [fr] }).slip p
  else c.onAud p fun s => { s with fifo := q ++ [fr] }

/-- A frame leaves a port's FIFO; an empty one gives the last frame again. -/
def Chip.audPop (p : Fin 3) (c : Chip) : List Int × Chip :=
  match (c.snd.ports[p]).fifo with
  | f :: t => (f, c.onAud p fun s => { s with fifo := t, last := f })
  | [] => ((c.snd.ports[p]).last, c.slip p)

/-- A frame leaves port p at its pins. -/
def Chip.audSend (p : Fin 3) (fr : List Int) (c : Chip) : Chip :=
  c.emit (.audio p (c.rb (R.AUD_PCTRL p) 2) (c.slotWidth p) ((List.range (c.slots p)).map fun s => slotOut (c.slotWidth p) (fr.getD s 0)))

/-- The engine's frame reaches output port p. -/
def Chip.audOut (p : Fin 3) (fr : List Int) (c : Chip) : Chip :=
  if !c.audRunning p then c
  else if c.onEngineEdge p then c.audSend p fr
  else c.audPush p fr

/-- The microphone routes' inputs, with the bus of each (R525). -/
def Chip.micInputs (c : Chip) (rx : List Int) : List (Nat × Int × Int × Bool) :=
  (List.range 4).filterMap fun r =>
    let w := c.rd (R.AUD_MIC_ROUTE r)
    if tb w 0 then
      let s := fld w 4 2
      let g := fld w 31 16
      let l := rx.getD s 0
      let r := if tb w 1 then l else rx.getD (s + 1) 0
      some (fld w 10 8, gainMul l g, gainMul r g, true)
    else none

/-- A received frame writes a capture entry (R526) and raises its unit request (R586). -/
def Chip.capture (rx : List Int) (c : Chip) : Chip :=
  if !c.rb R.AUD_CAP_CTRL 0 then c
  else
    let wide := c.rb R.AUD_CAP_CTRL 1
    let slots := setBitsOf 8 (c.rf R.AUD_CAP_CTRL 15 8)
    let n := if wide then 4 else 2
    let size := n * slots.length
    let len := max 2 (c.rf R.AUD_CAP_LEN 15 0)
    let base := (c.rd R.AUD_CAP_BASE).toNat
    let w := c.rf R.AUD_CAP_WPTR 15 0 % len
    if vlmSize < base + len * size then c.sb R.AUD_STICKY 4
    else if (w + 1) % len = c.rf R.AUD_CAP_RPTR 15 0 then c.incSat R.AUD_CAP_DROP
    else
      let val (s : Nat) : Nat :=
        let v := rx.getD s 0
        if wide then toField 32 v else toField 16 (satS 16 ((v + 128) / 256))
      ((c.vWrite (base + w * size) (slots.flatMap fun s => leBytes n (val s))).wf R.AUD_CAP_WPTR 15 0 ((w + 1) % len)).unitReq 11

/-! ### The voice checker (R686) -/

/-- The highest-numbered spare voice that is free and not failed. -/
def Chip.checker (c : Chip) : Option Nat :=
  (List.range 8).reverse.find? fun k => c.rf (R.SND_SPARE_MAP k) 6 0 == 0x7F && !c.voiceFailed (96 + k)

/-- The checker's visit of a frame: `bad` is an observed mismatch (R686). -/
def Chip.voiceCheck (bad : Bool) (c : Chip) : Chip :=
  if !c.rb R.DRN_CTRL 2 || c.checker.isNone then c
  else
    match ((List.range 96).map fun i => (c.snd.chkNext + i) % 96).find? fun v => decide (2 ≤ c.vState v) with
    | none => c
    | some v =>
      let twice := bad && c.snd.chkBad.contains v
      let c := c.onSnd fun s => { s with
        chkNext := (v + 1) % 96
        chkBad := if bad && !twice then insertSorted v s.chkBad else s.chkBad.filter (· != v) }
      if twice then
        let p := c.physVoice v
        let c := (c.sb (R.DRN_VFAIL (p / 32)) (p % 32)).sb R.DRN_STICKY 4
        (c.journal 0x07 4 p (c.rd R.DRN_STICKY) 0 0).when (p == v) (Chip.wantDarn 3 v)
      else c

/-! ### The frame (R493 to R496) -/

/-- The voices advance and slots carry sound: the engine is on, and a slave engine is locked (R522). -/
def Chip.engineOn (c : Chip) : Bool := c.rb R.SND_CTRL 0 && (!c.rb R.AUD_CLK 2 || c.rb R.AUD_CLK 8)

/-- The next frame is computed (R494): voices, microphone routes, buses, slots. -/
def Chip.computeFrame (under : List Voice) (rx : List Int) (c : Chip) : Chip :=
  if c.engineOn then
    let (vs, c) := Chip.voiceFrames under (List.range 96) c
    let (outs, c) := Chip.busFrames (vs ++ c.micInputs rx) (List.finRange 8) c
    let c := c.sbIf c.routeCheck R.SND_STICKY 5
    let s0 := c.mixSlots outs 0
    let s1 := c.mixSlots outs 1
    c.onSnd fun s => { s with next0 := s0, next1 := s1 }
  else c.onSnd fun s => { s with next0 := [], next1 := [] }

/-- An FS edge of the engine (R494, R495, R525 to R527): the frame computed goes out, or the one before it again when it was
late; the received frame is captured and used; the next frame is computed. -/
def Chip.fsEdge (late : Bool) (under : List Voice) (rx : List Word) (bad : Bool) (c : Chip) : Chip :=
  if !c.framesExist then c
  else
    let c := (c.wr R.AUD_FS_TIME c.timeLo).incWrap R.AUD_FRAME
    let c := if late then (c.sb R.AUD_STICKY 0).incSat R.AUD_LATE_COUNT
      else c.onSnd fun s => { s with prev0 := s.next0, prev1 := s.next1 }
    let mute := c.rb R.AUD_CLK 2 && !c.rb R.AUD_CLK 8
    let c := c.audOut 0 (if mute then [] else c.snd.prev0)
    let c := c.audOut 1 (if mute then [] else c.snd.prev1)
    let (fr, c) := if !c.audRunning 2 then ([], c)
      else if c.onEngineEdge 2 then (rx.map (slotIn (c.slotWidth 2)) |>.take (c.slots 2), c)
      else c.audPop 2
    let c := if c.audRunning 2 then c.capture fr else c
    let c := c.computeFrame under fr
    if c.engineOn then c.voiceCheck bad else c

/-- A port's configuration lets it start (R523). -/
def Chip.audOk (c : Chip) (p : Nat) : Bool :=
  c.rb (R.AUD_PCTRL p) 1 != c.rb R.AUD_CLK 2 && (!c.rb (R.AUD_PCTRL p) 2 || c.slots p == 2)

/-- A port runs, and its outputs drive (R524). -/
def Chip.audGo (p : Fin 3) (c : Chip) : Chip := (c.sb (R.AUD_PSTAT p) 0).emit (.audioPins p 2)

/-- An enabled port starts, or sets CFG (R523); as a master it runs once the synthesizer does (R522). -/
def Chip.audStart (p : Fin 3) (c : Chip) : Chip :=
  if !c.audOk p then c.sb R.AUD_STICKY 2
  else if c.rb R.AUD_CLK 2 || c.rb R.AUD_CLK 8 then (c.onAud p fun _ => {}).audGo p
  else c

/-- AUD_PCTRLp.EN written (R522 to R524). With no port enabled the clock source stops and LOCKED clears. -/
def Chip.audEnable (p : Fin 3) (v : Bool) (c : Chip) : Chip :=
  if v = c.rb (R.AUD_PCTRL p) 0 then c
  else if v then (c.sb (R.AUD_PCTRL p) 0).audStart p
  else
    let c := ((c.wb (R.AUD_PCTRL p) 0 false).wb (R.AUD_PSTAT p) 0 false).emit (.audioPins p 0)
    if c.rb (R.AUD_PCTRL 0) 0 || c.rb (R.AUD_PCTRL 1) 0 || c.rb (R.AUD_PCTRL 2) 0 then c
    else (c.wb R.AUD_CLK 8 false).onSnd fun s => { s with lockIn := 0, lockOut := 0 }

/-- The audio synthesizer starts FS: LOCKED sets, and the enabled ports run (R522). -/
def Chip.audLock (c : Chip) : Chip :=
  if c.rb R.AUD_CLK 2 || !(c.rb (R.AUD_PCTRL 0) 0 || c.rb (R.AUD_PCTRL 1) 0 || c.rb (R.AUD_PCTRL 2) 0) then c
  else forEach (List.finRange 3) (fun p c => if c.rb (R.AUD_PCTRL p) 0 && c.audOk p then c.audGo p else c)
    (c.sb R.AUD_CLK 8)

/-- The lock of SRC 1 on a frame of the reference port of a length in ticks (R522). -/
def Chip.slaveLock (ticks : Nat) (c : Chip) : Chip :=
  let off := ((ticks * c.fs' : Nat) : Int) - 96000000
  let ok := decide (off.natAbs * 200 ≤ 96000000)
  let c := c.onSnd fun s => if ok then { s with lockIn := s.lockIn + 1, lockOut := 0 } else { s with lockIn := 0, lockOut := s.lockOut + 1 }
  if c.rb R.AUD_CLK 8 then
    if 2 ≤ c.snd.lockOut then (c.wb R.AUD_CLK 8 false).sb R.AUD_STICKY 1 else c
  else if 16 ≤ c.snd.lockIn then c.sb R.AUD_CLK 8 else c

/-- An FS edge on slave port p: the frame's length in ticks and in BCLK periods, and the slots received on port 2 (R522,
R523). -/
def Chip.slaveEdge (p : Fin 3) (ticks bclks : Nat) (rx : List Word) (c : Chip) : Chip :=
  if !c.rb R.AUD_CLK 2 || !c.audRunning p then c
  else
    let c := c.sbIf (bclks != c.slots p * c.slotWidth p) R.AUD_STICKY 3
    if c.onEngineEdge p then c.slaveLock ticks
    else if p.val = 2 then c.audPush 2 ((rx.map (slotIn (c.slotWidth 2))).take (c.slots 2))
    else
      let (fr, c) := c.audPop p
      c.audSend p fr

/-- Entry to DIM: the engine and the ports stop and keep their state (R531); the outputs of an enabled port drive low (R524). -/
def Chip.sndDim (c : Chip) : Chip :=
  forEach (List.finRange 3) (fun p c =>
    (c.wb (R.AUD_PSTAT p) 0 false).when (c.rb (R.AUD_PCTRL p) 0) (Chip.emit (.audioPins p 1))) (c.wb R.AUD_CLK 8 false)

/-- Return to RUN: the enabled ports start again (R531). -/
def Chip.sndResume (c : Chip) : Chip :=
  forEach (List.finRange 3) (fun p c => if c.rb (R.AUD_PCTRL p) 0 then c.audStart p else c) c

/-! ### The SND and AUD pages (R532, R533) -/

/-- Model key of the voice window register that a core reaches at an offset of the SND page; none where SND_VSEL names no
voice. -/
def Chip.voiceKey (c : Chip) (n : Core) (off : Nat) : Option Nat :=
  let v := (c.port n R.SND_VSEL).toNat % 128
  if v < 96 then some (0x50020000 + 0x40 * v + (off - 0x100)) else none

/-- SND_BUSb_CTRL written. -/
def Chip.busCtrl (b : Bus) (v : Word) (c : Chip) : Chip :=
  let a := R.SND_BUS_CTRL b
  let was := c.rd a
  let c := c.store a v
  let c := if tb v 0 && !tb was 0 then c.wr (R.SND_BUS_LIMG b) 0x1000000 else c
  let c := if tb v 1 != tb was 1 then c.onBus b fun k => { k with fJump := true } else c
  if tb v 9 then c.efxLoad b else c

/-- A store by core n lands in a register of the SND page. -/
def Chip.storeSnd (n : Core) (a : Nat) (v : Word) (c : Chip) : Chip :=
  let off := a % 0x1000
  if off = 0x010 then c.setPort n a (v &&& 0x7F)
  else if 0x100 ≤ off ∧ off < 0x130 then
    match c.voiceKey n off with
    | none => c
    | some k =>
      let vc := (k - 0x50020000) / 0x40
      if off = 0x100 then c.voiceCtrl vc v
      else if off = 0x118 then c.voiceGain vc v
      else c.store k v
  else if 0x200 ≤ off ∧ off < 0x300 then
    let b : Bus := ⟨(off - 0x200) / 0x20 % 8, Nat.mod_lt _ (by decide)⟩
    if off % 0x20 = 0 then c.busCtrl b v
    else if off % 0x20 = 4 then c.busGain b v
    else c.store a v
  else c.store a v

/-- What a register of the SND page reads for core n; a PEAK read clears it, and EFX_LOAD reads 1 until its read completes (R6). -/
def Chip.readSnd (n : Core) (a : Nat) (c : Chip) : Word × Chip :=
  let off := a % 0x1000
  if off = 0x00C then (setBit (c.rd a) 8 (c.shed 3), c)
  else if off = 0x010 then (c.port n a, c)
  else if 0x020 ≤ off ∧ off < 0x02C then
    let k := (off - 0x020) / 4
    (w32 (ofBits ((List.range 32).map fun i => c.vState (32 * k + i) != 0)), c)
  else if 0x100 ≤ off ∧ off < 0x130 then
    match c.voiceKey n off with
    | none => (0, c)
    | some k =>
      let vc := (k - 0x50020000) / 0x40
      let x := c.voice vc
      if off = 0x124 then (setBit (c.rd k) 4 (c.voiceFailed (c.physVoice vc)), c)
      else if off = 0x128 then (w32 (x.pos / 65536), c)
      else if off = 0x12C then (w32 (x.gain.l + min 0xFFFF (x.env / 512) * 65536), c)
      else (c.rd k, c)
  else if 0x200 ≤ off ∧ off < 0x300 ∧ off % 0x20 = 0x10 then (c.rd a, c.wr a 0)
  else if 0x200 ≤ off ∧ off < 0x300 ∧ off % 0x20 = 0 then
    (setBit (c.rd a) 9 (c.snd.buses.toList.getD ((off - 0x200) / 0x20) {}).loading.isSome, c)
  else (c.rd a, c)

/-- A store lands in a register of the AUD page. -/
def Chip.storeAud (a : Nat) (v : Word) (c : Chip) : Chip :=
  let off := a % 0x1000
  if off = 0x000 then
    if c.rb (R.AUD_PCTRL 0) 0 || c.rb (R.AUD_PCTRL 1) 0 || c.rb (R.AUD_PCTRL 2) 0 then c else c.store a v
  else if off = 0x040 ∨ off = 0x060 ∨ off = 0x080 then
    let p : Fin 3 := ⟨(off - 0x040) / 0x20 % 3, Nat.mod_lt _ (by decide)⟩
    let c := if c.rb a 0 then c else c.wr a (v &&& 0xFE)
    c.audEnable p (tb v 0)
  else if off = 0x100 then
    let c := if tb v 0 && !c.rb a 0 then c.wr R.AUD_CAP_WPTR 0 else c
    c.store a v
  else c.store a v

/-! ### Commands -/

/-- An FS edge of the engine: whether the computed frame was late, the voices whose sample has not arrived for the frame
computed now, the frame received on port 2, and what the voice checker found (R494, R495, R525, R527, R686). -/
def execFsEdge (late : Bool) (under : List Voice) (rx : List Word) (bad : Bool) (s : State) : Out :=
  (s.chip.fsEdge late under rx bad).next s

/-- SND_V_CTRL.CMD ARM (R499). -/
def execVoiceArm (v : Voice) (s : State) : Out := (s.chip.voiceArm v).next s

/-- SND_V_CTRL.CMD RELEASE (R499). -/
def execVoiceCmdRelease (v : Voice) (s : State) : Out := (s.chip.voiceRelease v).next s

/-- SND_V_CTRL.CMD STOP (R499). -/
def execVoiceCmdStop (v : Voice) (s : State) : Out := (s.chip.voiceStop v).next s

/-- SND_V_GAIN written (R507). -/
def execVoiceGainWrite (v : Voice) (w : Word) (s : State) : Out := (s.chip.voiceGain v w).next s

/-- SND_BUSb_GAIN written (R510). -/
def execBusGainWrite (b : Bus) (w : Word) (s : State) : Out := (s.chip.busGain b w).next s

/-- EFX_LOAD written 1 (R515). -/
def execEfxLoad (b : Bus) (s : State) : Out := (s.chip.efxLoad b).next s

/-- The read of an effect block completes (R515). -/
def execEfxLoadComplete (b : Bus) (s : State) : Out := (s.chip.efxDone b).next s

/-- AUD_PCTRLp.EN written (R524). -/
def execAudioPortEnable (p : Fin 3) (v : Bool) (s : State) : Out := (s.chip.audEnable p v).next s

/-- The audio synthesizer starts FS (R522). -/
def execAudioSynthLock (s : State) : Out := s.chip.audLock.next s

/-- An external FS edge on a slave port (R523). -/
def execSlaveFsEdge (p : Fin 3) (ticks bclks : Nat) (rx : List Word) (s : State) : Out :=
  (s.chip.slaveEdge p ticks bclks rx).next s

end Sys2Proof.Machine
end

