-- ==== Sys2Proof/Machine/Darning.lean ====
section
/-! DEFINITION. Darning beside the bank copier (24): slices, voices, pipelines, the fault journal, the darn record, and the
VLM page. -/

namespace Sys2Proof.Machine

/-- The motif engine's shared state changed. -/
def Chip.onMotifs (f : MotifSt → MotifSt) (c : Chip) : Chip := { c with motif := f c.motif }

/-! ### Slices (R684, R685) -/

/-- A slice is marked failed. -/
def Chip.sliceMark (k : Nat) (c : Chip) : Chip := c.onMotifs fun m => { m with failed := insertSorted k m.failed }

/-- The spare slice serves slice k, unless it serves one already (R685). -/
def Chip.sliceServe (k : Nat) (c : Chip) : Chip :=
  if c.motif.spareFor.isSome then c else c.onMotifs fun m => { m with spareFor := some k }

/-- DRN_SLICE.ASSIGN: Tirba darns the slice (R675, R685). -/
def Chip.sliceAssign (k : Nat) (c : Chip) : Chip :=
  if c.motif.spareFor.isSome then c
  else ((c.sliceServe k).journal 0x0A 0x05 k 0 0 0).darned 2 0 k

/-- The slice checker visits one evaluated line of the next slice (R684). -/
def Chip.sliceVisit (bad : Bool) (c : Chip) : Chip :=
  if !c.rb R.DRN_CTRL 1 || c.motif.spareFor.isSome then c
  else
    let k := c.rf R.DRN_SLICE_CHK 4 0
    let twice := bad && c.motif.suspects.contains k
    let c := c.wr R.DRN_SLICE_CHK (w32 ((k + 1) % 32))
    let c := c.onMotifs fun m => { m with
      suspects := if bad && !twice then insertSorted k m.suspects else m.suspects.filter (· != k) }
    if twice then
      let c := (c.sliceMark k).sb R.DRN_STICKY 3
      (c.journal 0x06 3 k (c.rd R.DRN_STICKY) 0 0).wantDarn 2 k
    else c

/-- DRN_SLICE written (R685). -/
def Chip.storeSlice (v : Word) (c : Chip) : Chip :=
  let k := fld v 4 0
  ((c.store R.DRN_SLICE v).when (tb v 8) (Chip.sliceMark k)).when (tb v 9) (Chip.sliceAssign k)

/-! ### Voices and pipelines (R683, R687) -/

/-- DRN_VFAILk written (R687): 104 physical voices. -/
def Chip.voiceMark (k : Fin 4) (v : Word) (c : Chip) : Chip :=
  c.store (R.DRN_VFAIL k) (if k.val = 3 then v &&& 0xFF else v)

/-- A spare voice has been mapped by a write to SND_SPARE_MAPk: Tirba's darn of a voice (R687). -/
def Chip.voiceDarned (k : Nat) (old : Nat) (c : Chip) : Chip :=
  let v := c.rf (R.SND_SPARE_MAP k) 6 0
  if v = old ∨ 96 ≤ v then c else (c.journal 0x0A 0x05 v 0 0 0).darned 3 k v

/-- EYE_PIPE_MAP has been written: each port newly on pipeline 8 is Tirba's darn of its pipeline (R683). -/
def Chip.pipesDarned (old : Word) (c : Chip) : Chip :=
  forEach (List.range 8) (fun n c =>
    if c.rf R.EYE_PIPE_MAP (4 * n + 3) (4 * n) = 8 ∧ fld old (4 * n + 3) (4 * n) ≠ 8 then
      (c.journal 0x0A 0x05 n 0 0 0).darned 1 0 n
    else c) c

/-! ### The fault journal (R696 to R698) -/

/-- The 32 bytes of a journal entry (R697). -/
def JrnEntry.bytes (e : JrnEntry) (seq : Word) : List Byte :=
  leBytes 4 seq.toNat ++ leBytes 8 e.time.toNat ++ leBytes 1 e.source ++ leBytes 1 e.event ++ leBytes 2 e.unit
    ++ leBytes 4 e.d0.toNat ++ leBytes 4 e.d1.toNat ++ leBytes 4 e.d2.toNat ++ leBytes 4 e.frameA.toNat

/-- Tirba mirrors an entry into its log (R696). -/
def Chip.mirror (e : List Byte) (c : Chip) : Chip := { c with drn := { c.drn with log := c.drn.log ++ [e] } }

/-- The journal writer writes the oldest entry that waits, its bytes 4 to 31 first, or counts it as dropped (R696, R698). A base from which the entry
lies past Vellum reaches no memory. -/
def Chip.jrnWrite (c : Chip) : Chip :=
  match c.jrnQ with
  | [] => c
  | e :: t =>
    let c := { c with jrnQ := t }
    if !c.rb R.DRN_JRN_BASE 0 then (c.incSat R.DRN_JRN_DROP).sb R.DRN_STICKY 5
    else
      let seq := c.rd R.DRN_JRN_SEQ
      let off := c.rf R.DRN_JRN_BASE 25 13 * 0x2000 + 32 * (seq.toNat % 256)
      let bs := e.bytes seq
      let c := if off + 32 ≤ vlmSize then (c.vWrite (off + 4) (bs.drop 4)).vWrite off (bs.take 4) else c
      (c.incWrap R.DRN_JRN_SEQ).mirror (e.bytes seq)

/-- Every entry that waits is written, before the device sleeps. -/
def Chip.jrnDrain (c : Chip) : Chip := forEach c.jrnQ (fun _ c => c.jrnWrite) c

/-- A store to DRN_JRN_POST (R698): a SOURCE below 0x10 acts as 0x10. -/
def Chip.jrnPost (v : Word) (c : Chip) : Chip :=
  c.journal (max 0x10 (fld v 7 0)) (fld v 15 8) (fld v 31 16) (c.rd (R.DRN_JRN_D 0)) (c.rd (R.DRN_JRN_D 1)) (c.rd (R.DRN_JRN_D 2))

/-! ### The VLM page (R130, R702) -/

/-- A store lands in a register of the VLM page. -/
def Chip.storeVlm (a : Nat) (v : Word) (c : Chip) : Chip :=
  if a = R.VLM_CTRL then
    let on := tb v 0 && !c.rb a 0
    let c := c.store a v
    ((c.when (tb v 2) Chip.cntClr).when (!tb v 0) Chip.scrubOff).when (on && c.scrubRef == 2) Chip.freeStart
  else if a = R.VLM_SCRUB_CTRL then (c.store a v).when (tb v 1) Chip.freeStart
  else if a = R.VLM_SCRUB_LATE 3 ∨ a = R.DRN_SUSPECT 3 then c.store a (v &&& 0x3F)
  else if a = R.DRN_COPY then c.storeDrnCopy v
  else if a = R.DRN_SLICE then c.storeSlice v
  else if 0x400140C0 ≤ a ∧ a < 0x400140D0 then c.voiceMark ⟨a / 4 % 4, Nat.mod_lt _ (by decide)⟩ v
  else if a = R.DRN_JRN_POST then c.jrnPost v
  else c.store a v

/-- What a register of the VLM page reads. -/
def Chip.readVlm (a : Nat) (c : Chip) : Word :=
  if a = R.VLM_STAT then c.vlmStat
  else if a = R.VLM_TOK0 then c.tok0
  else if a = R.VLM_TOK1 then c.tok1
  else if a = R.VLM_BANK_STAT then c.bankStat
  else c.rd a

/-! ### Commands -/

/-- DRN_COPY written with GO and without NOCOPY (R678). -/
def execDrnCopyGo (v : Word) (s : State) : Out := (s.chip.storeDrnCopy (setBit (setBit v 16 true) 17 false)).next s

/-- DRN_COPY written with GO and NOCOPY (R681). -/
def execDrnCopyNocopy (v : Word) (s : State) : Out := (s.chip.storeDrnCopy (setBit (setBit v 16 true) 17 true)).next s

/-- DRN_COPY.ABORT written 1 (R680). -/
def execDrnCopyAbort (s : State) : Out := s.chip.copyAbort.next s

/-- The slice checker visits a slice (R684). -/
def execSliceCheckVisit (bad : Bool) (s : State) : Out := (s.chip.sliceVisit bad).next s

/-- DRN_SLICE written with MARK (R685). -/
def execSliceMark (k : BitVec 5) (s : State) : Out :=
  (s.chip.storeSlice (setBit (w32 k.toNat) 8 true)).next s

/-- DRN_SLICE written with ASSIGN (R685). -/
def execSliceAssign (k : BitVec 5) (s : State) : Out :=
  (s.chip.storeSlice (setBit (w32 k.toNat) 9 true)).next s

/-- DRN_VFAILk written (R687). -/
def execVoiceFailMark (k : Fin 4) (v : Word) (s : State) : Out := (s.chip.voiceMark k v).next s

/-- The journal writer writes an entry (R698). -/
def execJournalEntryWrite (s : State) : Out := s.chip.jrnWrite.next s

/-- A store to DRN_JRN_POST (R698). -/
def execJrnPost (v : Word) (s : State) : Out := (s.chip.jrnPost v).next s

end Sys2Proof.Machine
end

