-- ==== Sys2Proof/Machine/Lantern.lean ====
section
/-! DEFINITION. Lantern (22): the target of VCORE, tracking, phases and their faults, capacity and shed. -/

namespace Sys2Proof.Machine

/-- Lantern changed. -/
def Chip.onLtn (f : LtnSt → LtnSt) (c : Chip) : Chip := { c with ltn := f c.ltn }

/-! ### The target (R624 to R626) -/

/-- The highest target allowed: VMAX, a code above 77 acting as 77 (R626). -/
def Chip.vMax (c : Chip) : Nat := min 77 (c.rf R.LTN_VLIM 14 8)

/-- The lowest target allowed; above VMAX it acts as VMAX (R626). -/
def Chip.vMin (c : Chip) : Nat := min c.vMax (c.rf R.LTN_VLIM 6 0)

/-- The target of VCORE, LTN_STAT.VCODE. -/
def Chip.vcode (c : Chip) : Nat := c.rf R.LTN_STAT 6 0

/-- The target set, held between VMIN and VMAX (R626). -/
def Chip.setVcode (v : Nat) (c : Chip) : Chip := c.wf R.LTN_STAT 6 0 (clampN c.vMin c.vMax v)

/-- One step of 2 µs in FIXED toward LTN_VSET.CODE (R625); in DIM the target is held (R644). -/
def Chip.vsetStep (c : Chip) : Chip :=
  if c.rb R.LTN_CTRL 0 ∨ c.power ≠ 0 then c
  else
    let goal := clampN c.vMin c.vMax (min 77 (c.rf R.LTN_VSET 6 0))
    if c.vcode < goal then c.setVcode (c.vcode + 1)
    else if goal < c.vcode then c.setVcode (c.vcode - 1)
    else c

/-! ### Phases (R631 to R639) -/

/-- State of phase p in LTN_PHASE_STAT: 0 FREE, 1 ACTIVE, 2 BLIND, 3 FAILED. -/
def Chip.phaseSt (c : Chip) (p : Nat) : Nat := c.rf R.LTN_PHASE_STAT (2 * p + 1) (2 * p)

/-- The state of phase p set. -/
def Chip.setPhase (p v : Nat) (c : Chip) : Chip := c.wf R.LTN_PHASE_STAT (2 * p + 1) (2 * p) v

/-- Phase p is active; a blind one is too. -/
def Chip.phaseOn (c : Chip) (p : Nat) : Bool := c.phaseSt p == 1 || c.phaseSt p == 2

/-- LTN_STAT.ACTIVE. -/
def Chip.phasesOn (c : Chip) : Nat := ((List.range 14).filter c.phaseOn).length

/-- The capacity C in units of 10 mA (R632). -/
def Chip.capacity (c : Chip) : Nat :=
  300 * ((List.range 14).filter fun p => c.phaseSt p == 1).length + 200 * ((List.range 14).filter fun p => c.phaseSt p == 2).length

/-- LTN_STAT.LIMIT: a phase carries more than 3.0 A (R631), or limits its current there. -/
def Chip.ltnLimit (c : Chip) : Bool :=
  (List.range 14).any fun p => c.phaseOn p && (decide (300 < (c.ltn.sense.toList.getD p (0, 0)).1) || c.ltn.limited.contains p)

/-- LIMIT may have changed: the 8 µs of R641 count from the moment at which it becomes 1. -/
def Chip.limitNote (c : Chip) : Chip :=
  let on := c.ltnLimit
  let t := c.time
  c.onLtn fun l => { l with limitAt := if on then some (l.limitAt.getD t) else none }

/-- A spare is engaged for phase p when SPARE_AUTO is 1 (R634): the lowest-numbered free one, or NO_SPARE, which Tirba posts
too (R675). -/
def Chip.engage (p : Nat) (c : Chip) : Chip :=
  if !c.rb R.LTN_CTRL 1 then c
  else match (List.range 14).find? fun q => c.phaseSt q == 0 with
    | some q => (c.setPhase q 1).onLtn fun l => { l with engaging := l.engaging ++ [(q, p)] }
    | none => (c.sb R.LTN_STICKY 4).journal 0x0A 0x06 p 0 0 0

/-- Phase p is isolated as FAILED, with its sticky bit and a journal entry (R633), and a spare follows (R634). -/
def Chip.phaseFail (p bit : Nat) (c : Chip) : Chip :=
  let c := (c.setPhase p 3).sb R.LTN_STICKY bit
  let c := (c.journal 0x08 bit p (c.rd R.LTN_STICKY) 0 0).onLtn fun l => { l with limited := l.limited.filter (· != p) }
  (c.engage p).limitNote

/-- An open or short fault is found on an active phase (R633). -/
def Chip.phaseFault (p bit : Nat) (c : Chip) : Chip := if c.phaseOn p then c.phaseFail p bit else c

/-- A spare carries its share (R634): the blind phase that it replaces is isolated (R636), and Tirba posts REMAP (R688). -/
def Chip.spareCarries (q : Nat) (c : Chip) : Chip :=
  match c.ltn.engaging.find? fun e => e.1 == q with
  | none => c
  | some (_, p) =>
    let c := (c.onLtn fun l => { l with engaging := l.engaging.filter fun e => e.1 != q }).sb R.LTN_STICKY 3
    let c := if c.phaseSt p = 2 then c.setPhase p 3 else c
    (c.journal 0x0A 0x05 p 0 0 0).darned 4 0 p

/-- The median of a list of ratios; of an even number of them, the mean of the middle two. -/
def medianQ (l : List Rat) : Rat :=
  let s := l.mergeSort (fun a b => decide (a ≤ b))
  let n := s.length
  if n % 2 = 1 then s.getD (n / 2) 0 else (s.getD (n / 2 - 1) 0 + s.getD (n / 2) 0) / 2

/-- The absolute value of a rational. -/
def absQ (x : Rat) : Rat := if x < 0 then -x else x

/-- Check 1 of R635 fails: iin in 10 mA, vin and vcore in mV. -/
def sumFails (iin vin vcore : Nat) (sense : List Nat) : Bool :=
  let est : Rat := (iin : Rat) / 100 * vin * (86 / 100) / vcore
  let tot : Rat := (sense.sum : Nat) / 100
  decide (est * (15 / 100) + 1 < absQ (tot - est))

/-- The active phases whose ratio of sense current to duty differs by more than 30 % from the median (R635, check 2). -/
def plausFails (ps : List (Nat × Nat × Nat)) : List Nat :=
  let m := medianQ ((ps.filter fun x => x.2.2 != 0).map fun x => (x.2.1 : Rat) / x.2.2)
  (ps.filter fun x => decide (m * x.2.2 * (30 / 100) < absQ ((x.2.1 : Rat) - m * x.2.2))).map (·.1)

/-- What has failed for 1 ms (R635): both checks mark phases BLIND (R636); one alone sets its sticky bit. -/
def Chip.blindDetect (iin vin vcore : Nat) (sense : List (Half × BitVec 10)) (c : Chip) : Chip :=
  let ps := ((List.range 14).filter c.phaseOn).map fun p =>
    (p, (sense.getD p (0, 0)).1.toNat, (sense.getD p (0, 0)).2.toNat)
  let one := sumFails iin vin vcore (ps.map fun x => x.2.1)
  let two := (plausFails ps).filter fun p => c.phaseSt p == 1
  if one && !two.isEmpty then
    forEach two (fun p c =>
      let c := (c.setPhase p 2).sb R.LTN_STICKY 2
      (c.journal 0x08 2 p (c.rd R.LTN_STICKY) 0 0).engage p) c
  else (c.sbIf one R.LTN_STICKY 8).sbIf (!two.isEmpty) R.LTN_STICKY 9

/-- The start test (R639): phases that fail it are FAILED, and the spares are assigned before release (R634, R637). -/
def Chip.phaseTest (fails : BitVec 14) (c : Chip) : Chip :=
  let c := forEach (List.range 14) (fun p c => c.setPhase p (if tb fails p then 3 else if p < 12 then 1 else 0)) c
  forEach ((List.range 12).filter fun p => tb fails p) (fun _ c =>
    match (List.range 14).find? fun q => c.phaseSt q == 0 with
    | some q => (c.setPhase q 1).sb R.LTN_STICKY 3
    | none => c.sb R.LTN_STICKY 4) c

/-! ### Shed (R640 to R642) -/

/-- LTN_SHED.LEVEL. -/
def Chip.shedLevel (c : Chip) : Nat := c.rf R.LTN_SHED 2 0

/-- Step s is allowed by LTN_SHED.EN. -/
def Chip.shedAllowed (c : Chip) (s : Nat) : Bool := c.rb R.LTN_SHED (8 + s - 1)

/-- An operation on LTN_SHED; when step 1 comes into force by it, the banks that have not completed the slot miss it (R123). -/
def Chip.shedChange (f : Chip → Chip) (c : Chip) : Chip :=
  let was := c.shed 1
  let c := f c
  (c.when (!was && c.shed 1) Chip.slotShed).when (was && !c.shed 1) Chip.copyRelease

/-- The level rises to the next higher step allowed (R641); the first advance from 0 is journaled (R642). -/
def Chip.shedAdvance (c : Chip) : Chip :=
  match (List.range 5).find? fun s => decide (c.shedLevel < s) && c.shedAllowed s with
  | none => c
  | some s =>
    let c0 := c.shedLevel = 0
    let c := c.shedChange (Chip.wf R.LTN_SHED 2 0 s)
    if c0 then
      let c := c.sb R.LTN_STICKY 5
      c.journal 0x08 5 s (c.rd R.LTN_STICKY) 0 0
    else c

/-- The level falls to the next lower step allowed, or to 0 (R641). -/
def Chip.shedRetreat (c : Chip) : Chip :=
  let s := ((List.range 5).reverse.find? fun s => decide (0 < s) && decide (s < c.shedLevel) && c.shedAllowed s).getD 0
  c.shedChange (Chip.wf R.LTN_SHED 2 0 s)

/-- LO % of C in force: at or above HI it acts as HI − 5 (R641). -/
def Chip.shedLo (c : Chip) : Nat :=
  let hi := c.rf R.LTN_SHED 23 16
  let lo := c.rf R.LTN_SHED 31 24
  if hi ≤ lo then hi - 5 else lo

/-- The shed at a decision (R641). -/
def Chip.shedDecide (c : Chip) : Chip :=
  let i := c.rf R.LTN_ICORE 15 0
  let cap := c.capacity
  let high := decide (c.rf R.LTN_SHED 23 16 * cap < 100 * i)
  let low := decide (100 * i < c.shedLo * cap)
  let c := c.onLtn fun l => { l with low := if low then min 64 (l.low + 1) else 0 }
  if high then
    if c.shedLevel = 4 then c.sb R.LTN_STICKY 6 else c.shedAdvance
  else if c.ltn.low = 64 ∧ 0 < c.shedLevel then (c.shedRetreat).onLtn fun l => { l with low := 0 }
  else c

/-! ### Decisions (R627 to R629) -/

/-- The pacing source is chosen anew at each start or stop of a Beam (R627). The ticks of a line are its pixel periods over
the pixel rate: HTOTAL × POST over the centre rate. -/
def Chip.paceChoose (c : Chip) : Chip :=
  let len (b : Beam) : Nat × Nat := ((c.beam b).htotal * (c.beam b).synPost, (c.beam b).centre)
  let p : Nat :=
    if c.running 0 && c.running 1 then
      (if (len 1).1 * (len 0).2 < (len 0).1 * (len 1).2 then 1 else 0)
    else if c.running 0 then 0 else if c.running 1 then 1 else 2
  let t := c.time
  (c.wf R.LTN_STAT 13 12 p).onLtn fun l =>
    if p = c.rf R.LTN_STAT 13 12 then l else { l with downs := 0, due := false, freeAt := t }

/-- Pixel 0 of a line of Beam b: a decision falls there when the Beam paces (R627). -/
def Chip.ltnPixel (b : Beam) (c : Chip) : Chip :=
  if c.rf R.LTN_STAT 13 12 = b.val then c.onLtn fun l => { l with due := true } else c

/-- Ticks of the free period on which Lantern paces with no Beam running (R627). -/
def pacePeriod : Nat := 1296

/-- A decision falls now (R627): at pixel 0 of a line of the pacing Beam, or at the end of a free period. None falls in DIM, HOLD or
STANDBY (R644). -/
def Chip.decisionDue (c : Chip) : Bool :=
  c.power == 0 && (if c.rf R.LTN_STAT 13 12 < 2 then c.ltn.due else decide (pacePeriod ≤ (c.time - c.ltn.freeAt).toNat))

/-- A line of Beam b has completed with this least report (R628). -/
def Chip.ltnLine (b : Beam) (r : Option Int) (c : Chip) : Chip :=
  c.onLtn fun l => { l with s := l.s.set b (minOpt l.s[b] r) }

/-- A frame of Beam b begins: the down steps of its frame count anew when it paces (R628). -/
def Chip.ltnFrame (b : Beam) (c : Chip) : Chip :=
  if c.rf R.LTN_STAT 13 12 = b.val then c.onLtn fun l => { l with downs := 0 } else c

/-- f of a Beam (R628): none where nothing has been reported. -/
def Chip.ltnF (c : Chip) (b : Beam) : Option Int :=
  let k := c.beam b
  let now := k.slack.foldl (fun m e => minOpt m (some e.2)) k.frameSlack
  if c.ltn.first[b] then minOpt now (some (signed 16 (c.rf (R.PRK_SLACK b) 31 16))) else now

/-- A step of the target up; at VMAX it holds, and VLIM sets (R629). -/
def Chip.stepUp (c : Chip) : Chip :=
  if c.vMax ≤ c.vcode then c.sb R.LTN_STICKY 7
  else (c.setVcode (c.vcode + 1)).wf R.LTN_STEPS 15 0 (satInc 0xFFFF (c.rf R.LTN_STEPS 15 0))

/-- A step of the target down; at VMIN it holds. -/
def Chip.stepDown (c : Chip) : Chip :=
  if c.vcode ≤ c.vMin then c
  else ((c.setVcode (c.vcode - 1)).wf R.LTN_STEPS 31 16 (satInc 0xFFFF (c.rf R.LTN_STEPS 31 16))).onLtn fun l =>
    { l with downs := l.downs + 1 }

/-- The tracking of R628. With no Beam running there is no frame, so every decision may step down. -/
def Chip.track (c : Chip) : Chip :=
  let run := ([0, 1] : List Beam).filter c.running
  let margin : Int := c.rf R.LTN_MARGIN 9 0
  let hyst : Int := c.rf R.LTN_MARGIN 25 16
  let dmax := max 1 (c.rf R.LTN_CTRL 11 8)
  let up := run.any fun b => match c.ltn.s[b] with
    | some x => decide (x < margin)
    | none => false
  let down := run.all fun b => match c.ltnF b with
    | some x => decide (margin + hyst ≤ x)
    | none => true
  if up then c.stepUp
  else if down && (run.isEmpty || decide (c.ltn.downs < dmax)) then c.stepDown
  else c

/-- What the phases sense is taken. A phase whose current has fallen below 3.0 A limits it no longer. -/
def Chip.takeSense (sense : List (Half × BitVec 10)) (c : Chip) : Chip :=
  c.onLtn fun l =>
    let v := Vector.ofFn fun p : Fin 14 => match sense[p.val]? with
      | some x => (x.1.toNat, x.2.toNat)
      | none => l.sense[p]
    { l with sense := v, limited := l.limited.filter fun p => decide (300 ≤ (v.toList.getD p (0, 0)).1) }

/-- A decision (R627, R628, R641). -/
def Chip.decision (icore : Half) (sense : List (Half × BitVec 10)) (c : Chip) : Chip :=
  let c := ((c.takeSense sense).limitNote).wf R.LTN_ICORE 15 0 icore.toNat
  let c := (c.when (c.rb R.LTN_CTRL 0) Chip.track).shedDecide
  c.onLtn fun l => { l with s := Vector.replicate 2 none, due := false, freeAt := l.freeAt + BitVec.ofNat 64 pacePeriod }

/-- 8 µs, 768 ticks, have passed with LIMIT at 1 (R641). -/
def Chip.limitDue (c : Chip) : Bool :=
  c.ltnLimit && c.power == 0 && (match c.ltn.limitAt with
    | some t => decide (768 ≤ (c.time - t).toNat)
    | none => false)

/-! ### The LTN page (R647) -/

/-- LTN_ISOLATE written (R638). -/
def Chip.ltnIsolate (v : Word) (c : Chip) : Chip :=
  let c := c.store R.LTN_ISOLATE v
  let p := fld v 3 0
  if tb v 31 && decide (p < 14) then c.phaseFault p 0 else c

/-- A store lands in a register of the LTN page. A write to VLIM holds the target between its limits at once (R626). -/
def Chip.storeLtn (a : Nat) (v : Word) (c : Chip) : Chip :=
  if a = R.LTN_VLIM then let c := c.store a v; c.setVcode c.vcode
  else if a = R.LTN_SHED then c.shedChange (Chip.store a v)
  else if a = R.LTN_ISOLATE then c.ltnIsolate v
  else c.store a v

/-- What a register of the LTN page reads; in DIM the target is VMIN (R644). -/
def Chip.readLtn (a : Nat) (c : Chip) : Word :=
  if a = R.LTN_STAT then
    let v := setBit (setFld (c.rd a) 11 8 c.phasesOn) 16 c.ltnLimit
    if c.power = 1 then setFld v 6 0 c.vMin else v
  else if a = R.LTN_ICORE then setFld (c.rd a) 31 16 c.capacity
  else if a = R.LTN_IPH then
    let x := c.ltn.sense.toList.getD (c.rf R.LTN_IPH_SEL 3 0) (0, 0)
    w32 (x.1 % 2 ^ 16 + x.2 % 2 ^ 10 * 2 ^ 16)
  else c.rd a

/-! ### Commands -/

/-- A decision, with ICORE and what each phase senses (R628, R632, R641). -/
def execLanternDecision (icore : Half) (sense : List (Half × BitVec 10)) (s : State) : Out :=
  if s.chip.decisionDue then (s.chip.decision icore sense).next s else s.chip.next s

/-- 8 µs with LIMIT at 1 have passed (R641). -/
def execShedLimitAdvance (s : State) : Out :=
  let c := s.chip
  if c.limitDue then (c.shedAdvance.onLtn fun l => { l with limitAt := some c.time }).next s else c.next s

/-- A step of the target in FIXED (R625). -/
def execVsetStep (s : State) : Out := s.chip.vsetStep.next s

/-- A phase past its ride-through limits its current at 3.0 A, or does so no longer (R631). -/
def execPhaseCurrentLimit (p : Phase) (on : Bool) (s : State) : Out :=
  let c := s.chip
  if on then
    (if c.phaseOn p then (c.onLtn fun l => { l with
      limited := insertSorted p l.limited, sense := l.sense.set p (min 300 l.sense[p].1, l.sense[p].2) }).limitNote else c).next s
  else ((c.onLtn fun l => { l with limited := l.limited.filter (· != p.val) }).limitNote).next s

/-- An open phase is found (R633). -/
def execPhaseOpen (p : Phase) (s : State) : Out := (s.chip.phaseFault p 0).next s

/-- A shorted phase is found (R633). -/
def execPhaseShort (p : Phase) (s : State) : Out := (s.chip.phaseFault p 1).next s

/-- Sense checks have failed for 1 ms: input current (10 mA), VIN and VCORE (mV), and the phases' sense (R635). -/
def execBlindDetect (iin vin vcore : Nat) (sense : List (Half × BitVec 10)) (s : State) : Out :=
  (s.chip.blindDetect iin vin vcore sense).next s

/-- A spare phase carries its share (R634). -/
def execSpareEngaged (p : Phase) (s : State) : Out := (s.chip.spareCarries p).next s

/-- LTN_ISOLATE written (R638). -/
def execLtnIsolate (v : Word) (s : State) : Out := (s.chip.ltnIsolate v).next s

/-- LTN_SHED written (R642). -/
def execShedEnWrite (v : Word) (s : State) : Out := (s.chip.storeLtn R.LTN_SHED v).next s

end Sys2Proof.Machine
end

