-- ==== Sys2Proof/Machine/BeamEvents.lean ====
section
/-! DEFINITION. What the counters' events do in every unit (03): starts and stops of a Beam, line starts, the frame's
advance, VB0, the commit point and PFS. -/

namespace Sys2Proof.Machine

/-- The counters stand at pixel 0 of a line. -/
def Chip.atLine (c : Chip) (b : Beam) (l : Nat) : Bool := c.running b && c.line b == l && c.pixel b == 0

/-- Tirba keeps the signatures of the frame just published, of the last 8 (R323). -/
def Chip.keepSigs (b : Beam) (c : Chip) : Chip :=
  let m := c.rd (R.APQ_SIG_MASK b)
  let f : SigFrame :=
    { frame := c.rd (R.APQ_SIG_FRAME b), enabled := m.setWidth 16, uncertain := (m >>> (16 : Nat)).setWidth 16
      raw := (List.range 16).map fun r => c.rd (R.APQ_SIG_RAW b r), folded := (List.range 16).map fun r => c.rd (R.APQ_SIG_FOLD b r) }
  { c with tirba := { c.tirba with sigs := upd c.tirba.sigs b fun l => (f :: l).take 8 } }

/-- The COMMIT event and the commit point (R74, R458). -/
def Chip.commitEv (b : Beam) (unacked : Bool) (c : Chip) : Chip := (c.raiseEv b 3 unacked).commitPoint b

/-- The counter start (R72, R763): the timing and the commit line are taken, the counters stand at line VB0, pixel 0, and the
events of that position are raised; no frame completes. DESIGN CHOICE (assumption 100): the counts of consecutive GENLOCK edges
(R84) restart at 0 here, and they are kept while GLK is 0. -/
def Chip.counterStart (b : Beam) (unackedVb0 unackedCommit : Bool) (c : Chip) : Chip :=
  let c := ((c.takeTiming b).takeCommitLine b).onBeam b fun k => { k with
    locking := false, relocking := false, stopArmed := false, frameBegun := false, slack := [], frameSlack := none
    glkIn := 0, glkOut := 0, glkLimit := 0 }
  let k := c.beam b
  let c := (((c.sb (R.PRK_STAT b) 0).sb (R.PRK_STAT b) 1).setPos b k.vactive 0).fsTakeAll b
  let c := (c.apqClear b).onApq b fun q => { q with frayLine := none }
  let c := (c.paceChoose.ltnPixel b).onLtn fun l => { l with first := l.first.set b false, s := l.s.set b none }
  let c := ((c.raiseEv b 2 unackedVb0).rateAtVb0 b).linkStart b
  if k.commitLine = k.vactive then c.commitEv b unackedCommit else c

/-- A start that has locked begins to count. -/
def Chip.startLocked (b : Beam) (uv uc : Bool) (c : Chip) : Chip :=
  if (c.beam b).locking ∧ ¬c.running b ∧ c.rb (R.PRK_CTRL b) 0 then c.counterStart b uv uc else c

/-- The counters stop (R65, R73): RUNNING clears, pulses end, a commit request still held is served, buffers empty, the pacing
source is chosen anew, and a scrubber that follows the Beam goes to the free period (R120). -/
def Chip.counterStop (b : Beam) (c : Chip) : Chip :=
  let c := (c.wb (R.PRK_STAT b) 0 false).onBeam b fun k => { k with stopArmed := false }
  (((c.fsStop b).commitAtStop b).paceChoose).when (c.rf R.VLM_SCRUB_CTRL 1 0 == b.val) Chip.freeStart

/-- The VB0 of a running Beam (R74): the event, the rate, FRAME_MIN, the signatures and the fray line, and the link. -/
def Chip.vb0 (b : Beam) (unacked : Bool) (c : Chip) : Chip :=
  let done := (c.beam b).frameBegun
  let c := ((c.raiseEv b 2 unacked).rateAtVb0 b).onLtn fun l => if done then { l with first := l.first.set b true } else l
  ((((c.frameMin b).publish b).keepSigs b).frayVb0 b).linkStart b

/-- Lines captured for the frame that does not follow are dropped; the line store stays for the packet still due. -/
def Chip.apqStopped (b : Beam) (c : Chip) : Chip :=
  let st := (c.apq[b]).store
  (c.apqClear b).onApq b fun q => { q with store := st }

/-- A stop of R73 takes effect at VB0: the events of the position, and then the counters stop. -/
def Chip.beamStop (b : Beam) (unackedVb0 unackedCommit : Bool) (c : Chip) : Chip :=
  let c := c.vb0 b unackedVb0
  let c := if (c.beam b).commitLine = (c.beam b).vactive then c.commitEv b unackedCommit else c
  (((c.linkBeamStop b).counterStop b).apqStopped b).synStop b

/-- The synthesizer loses lock while the Beam runs (R65): the counters stop at a pixel of the present line, which PRK_POS keeps. -/
def Chip.synUnlock (b : Beam) (pixel : Nat) (c : Chip) : Chip :=
  if !c.running b then c
  else
    let c := (((c.setPos b (c.line b) pixel).counterStop b).sb (R.PRK_STICKY b) 5).wb (R.PRK_STAT b) 1 false
    let c := (c.onBeam b fun k => { k with relocking := true }).linkUnlock b
    c.journal 0x03 5 b.val (c.rd (R.PRK_STAT b)) 0 0

/-- Lock returns after a loss (R65): the Beam restarts when RUN is still 1. -/
def Chip.lockReturn (b : Beam) (uv uc : Bool) (c : Chip) : Chip :=
  if !(c.beam b).relocking then c
  else if c.rb (R.PRK_CTRL b) 0 then c.counterStart b uv uc
  else (c.onBeam b fun k => { k with relocking := false }).sb (R.PRK_STAT b) 1

/-- Pixel 0 of the next line (R70, R77, R81): the line before is complete, and the live registers are captured for the line
that lies LEAD ahead, when it is an active one. -/
def Chip.lineStart (b : Beam) (c : Chip) : Chip :=
  if !c.running b then c
  else
    let k := c.beam b
    let m := c.line b
    let r := (k.slack.find? fun e => e.1 == m).map (·.2)
    let c := ((c.ltnLine b r).ltnPixel b).lineDone b m
    let l := if m + 1 < k.vtotal then m + 1 else 0
    let c := (c.setPos b l 0).onBeam b fun k => { k with serial := k.serial + 1 }
    let c := c.palPrune b
    let t := (l + k.lead) % k.vtotal
    if t < k.vactive then
      let c := c.apqCapture b t
      let c := forEach (List.finRange 8) (fun p c => c.planeCapture b t p) c
      forEach (List.finRange 8) (fun n c => c.winCapture b t n) c
    else c

/-- Line 0, pixel 0 (R70, R79, R90). -/
def Chip.frameAdvance (b : Beam) (c : Chip) : Chip :=
  if c.atLine b 0 then
    let c := ((c.incWrap (R.PRK_FRAME b)).takeCommitLine b).onBeam b fun k => { k with frameBegun := true }
    ((c.fsTakeAll b).apqFrame b).ltnFrame b
  else c

/-- PFS (R74): caches flush (R367), and the signature regions are captured (R462). -/
def Chip.pfs (b : Beam) (unacked : Bool) (c : Chip) : Chip :=
  if c.atLine b ((c.beam b).vtotal - (c.beam b).lead) then ((c.raiseEv b 4 unacked).cacheFlush b).regionCapture b else c

/-! ### Commands -/

/-- The counters start after lock (R72). -/
def execCounterStart (b : Beam) (unackedVb0 unackedCommit : Bool) (s : State) : Out :=
  (s.chip.startLocked b unackedVb0 unackedCommit).next s

/-- The VB0 at which a stop takes effect (R73). -/
def execBeamStop (b : Beam) (unackedVb0 unackedCommit : Bool) (s : State) : Out :=
  let c := s.chip
  if c.atLine b (c.beam b).vactive ∧ (c.beam b).stopArmed then (c.beamStop b unackedVb0 unackedCommit).next s else c.next s

/-- The synthesizer loses lock, and the counters stop at a pixel of the present line (R65). -/
def execSynUnlock (b : Beam) (s : State) (pixel : BitVec 14 := 0) : Out := (s.chip.synUnlock b pixel.toNat).next s

/-- Lock returns (R65). -/
def execLockReturn (b : Beam) (unackedVb0 unackedCommit : Bool) (s : State) : Out :=
  (s.chip.lockReturn b unackedVb0 unackedCommit).next s

/-- Pixel 0 of a line (R77). -/
def execLineStart (b : Beam) (s : State) : Out := (s.chip.lineStart b).next s

/-- Line 0, pixel 0 (R70). -/
def execFrameAdvance (b : Beam) (s : State) : Out := (s.chip.frameAdvance b).next s

/-- VB0 (R74); with a stop armed it is the stop of R73, a BEAM_STOP. -/
def execVb0 (b : Beam) (unacked : Bool) (s : State) : Out :=
  let c := s.chip
  if c.atLine b (c.beam b).vactive ∧ ¬(c.beam b).stopArmed then (c.vb0 b unacked).next s else c.next s

/-- The commit point (R458). -/
def execCommitPoint (b : Beam) (unacked : Bool) (s : State) : Out :=
  let c := s.chip
  if c.atLine b (c.beam b).commitLine then (c.commitEv b unacked).next s else c.next s

/-- PFS (R74). -/
def execPfs (b : Beam) (unacked : Bool) (s : State) : Out := (s.chip.pfs b unacked).next s

end Sys2Proof.Machine
end

