-- ==== Sys2Proof/Machine/Bobbins.lean ====
section
/-! DEFINITION. Bobbins (20): descriptors and their checks, triggers, start, stop and abort. The movement of data, which
reaches every register page, is in BobMove.lean. -/

namespace Sys2Proof.Machine

/-- Channel n changed. -/
def Chip.onBob (n : BobCh) (f : BobSt → BobSt) (c : Chip) : Chip := { c with bob := upd c.bob n f }

/-- The channel's phase set. -/
def Chip.bobPhase (n : BobCh) (p : BobPhase) (c : Chip) : Chip := c.onBob n fun s => { s with phase := p }

/-- BOB_STATn.RUNNING. -/
def Chip.bobRunning (c : Chip) (n : BobCh) : Bool := c.rb (R.BOB_STAT n) 0

/-! ### Targets (R574, R579) -/

/-- What a Bobbin address reaches. -/
inductive BobTarget where
  | vellum | local' (core : Nat) | regs | host | none'
deriving DecidableEq, Repr

/-- The target at a Yelex address. -/
def bobTarget (a : Nat) : BobTarget :=
  if vlmBase ≤ a ∧ a < vlmBase + vlmSize then .vellum
  else if 0x00200000 ≤ a ∧ a < 0x00280000 then .local' ((a - 0x00200000) / 0x10000)
  else if 0x40000000 ≤ a ∧ a < 0x40018000 ∧ a / 0x1000 ≠ 0x40001 ∧ a / 0x1000 ≠ 0x40017 then .regs
  else .none'

/-- n bytes from a lie in one target; in the register pages each word is a register (R759). -/
def bobRange (a n : Nat) : Bool :=
  n = 0 || (bobTarget a != .none' && bobTarget a == bobTarget (a + n - 1)
    && (bobTarget a != .regs || (List.range ((a + n - 1) / 4 + 1 - a / 4)).all fun i =>
      bobTarget (4 * (a / 4 + i)) == .regs && pageReg (4 * (a / 4 + i))))

/-- A signed stride times k added to an address, modulo 2^32. -/
def bobAddr (base stride k : Nat) : Nat := (base + k * stride) % 2 ^ 32

/-- Rows moved by a descriptor (R576). -/
def BobDesc.nRows (d : BobDesc) : Nat := if d.d2 then d.rows else 1

/-- Source address of row k. -/
def BobDesc.srcRow (d : BobDesc) (k : Nat) : Nat := if d.srcFix || !d.d2 then d.src else bobAddr d.src d.srcStride k

/-- Destination address of row k. -/
def BobDesc.dstRow (d : BobDesc) (k : Nat) : Nat := if d.dstFix || !d.d2 then d.dst else bobAddr d.dst d.dstStride k

/-- R577. -/
def BobDesc.null (d : BobDesc) : Bool := d.count == 0 || (d.d2 && d.rows == 0)

/-- Every row of a side lies in its target; a host side reaches host memory. -/
def sideOk (host fix : Bool) (row : Nat → Nat) (count rows : Nat) : Bool :=
  host || (List.range rows).all fun k => bobRange (row k) (if fix then 4 else count)

/-- A side is aligned as R579 asks. -/
def sideAligned (host fix : Bool) (row : Nat → Nat) (count rows : Nat) : Bool :=
  let regs := !host && (List.range rows).any fun k => bobTarget (row k) == .regs
  !(fix || regs) || (count % 4 == 0 && (List.range rows).all fun k => row k % 4 == 0)

/-- The error that a descriptor's checks find (R579): 3 RANGE, 4 ALIGN, 6 HOST, 0 none. -/
def BobDesc.check (d : BobDesc) (hostOff : Bool) : Nat :=
  let r := d.nRows
  if !(sideOk d.srcHost d.srcFix d.srcRow d.count r && sideOk d.dstHost d.dstFix d.dstRow d.count r) then 3
  else if !(sideAligned d.srcHost d.srcFix d.srcRow d.count r && sideAligned d.dstHost d.dstFix d.dstRow d.count r) then 4
  else if (d.srcHost || d.dstHost) && hostOff then 6
  else 0

/-- The descriptor that 32 bytes spell; none where a reserved bit is set (R575). -/
def bobDesc (bs : List Byte) : Option BobDesc :=
  let w (i : Nat) : Word := w32 (leNat ((bs.drop (4 * i)).take 4))
  if fld (w 0) 15 9 ≠ 0 ∨ fld (w 1) 31 24 ≠ 0 then none
  else some
    { srcHost := tb (w 0) 0, dstHost := tb (w 0) 1, srcFix := tb (w 0) 2, dstFix := tb (w 0) 3, d2 := tb (w 0) 4
      irq := tb (w 0) 5, trig := tb (w 0) 6, rowTrig := tb (w 0) 7, last := tb (w 0) 8, rows := fld (w 0) 31 16
      count := fld (w 1) 23 0, src := (w 2).toNat, dst := (w 3).toNat
      srcStride := (w 4).toNat, dstStride := (w 5).toNat, next := (w 6).toNat / 32 * 32 }

/-! ### The end of a descriptor and of a chain (R580, R585, R590, R592) -/

/-- The channel is stopped: EN, RUNNING, WAITING and STOPPING clear, and what its host reads bring is discarded. -/
def Chip.bobStopped (n : BobCh) (c : Chip) : Chip :=
  let c := { c with tirba := { c.tirba with bm := c.tirba.bm.filter fun b => b.owner != BmOwner.bobbin n } }
  (((((c.wb (R.BOB_CTRL n) 0 false).wb (R.BOB_CTRL n) 1 false).wb (R.BOB_STAT n) 0 false).wb (R.BOB_STAT n) 1 false).wb (R.BOB_STAT n) 2 false).onBob n
    fun _ => { phase := .idle, desc := none }

/-- A transfer error (R592); SRC_UE and HOST are journaled with the address concerned. -/
def Chip.bobErr (n : BobCh) (code : Nat) (addr : Nat) (c : Chip) : Chip :=
  let c := ((c.bobStopped n).sb (R.BOB_STAT n) 4).wf (R.BOB_STAT n) 11 8 code
  if code = 5 ∨ code = 6 then c.journal 0x09 4 n.val (c.rd (R.BOB_STAT n)) (w32 addr) 0 else c

/-- A descriptor ends: DONE by its IRQ bit, then the chain goes on or ends (R580, R585, R590). -/
def Chip.bobEnd (n : BobCh) (d : BobDesc) (c : Chip) : Chip :=
  let c := c.sbIf d.irq (R.BOB_STAT n) 3
  if d.last || c.rb (R.BOB_STAT n) 2 then (c.bobStopped n).sb (R.BOB_STAT n) 3
  else (c.wr (R.BOB_CUR n) (w32 d.next)).onBob n fun _ => { phase := .fetch, desc := none }

/-! ### Triggers (R586, R587) -/

/-- A trigger of channel n (R587). -/
def Chip.bobTrigger (n : BobCh) (c : Chip) : Chip :=
  if !c.rb (R.BOB_CTRL n) 0 then c
  else if (c.bob[n]).phase = .wait then (c.wb (R.BOB_STAT n) 1 false).bobPhase n .move
  else if c.rf (R.BOB_STAT n) 19 16 = 15 then c.sb (R.BOB_STAT n) 5
  else c.wf (R.BOB_STAT n) 19 16 (c.rf (R.BOB_STAT n) 19 16 + 1)

/-- The row in force begins: it consumes a trigger when it must, or waits for one (R587). -/
def Chip.bobRowStart (n : BobCh) (needs : Bool) (c : Chip) : Chip :=
  if !needs then c.bobPhase n .move
  else if c.rf (R.BOB_STAT n) 19 16 = 0 then (c.sb (R.BOB_STAT n) 1).bobPhase n .wait
  else (c.wf (R.BOB_STAT n) 19 16 (c.rf (R.BOB_STAT n) 19 16 - 1)).bobPhase n .move

/-! ### Start, stop, abort, fetch (R578, R589 to R591) -/

/-- EN written 1 (R589). -/
def Chip.bobStart (n : BobCh) (c : Chip) : Chip :=
  if c.bobRunning n then c
  else
    let c := (c.sb (R.BOB_CTRL n) 0).wr (R.BOB_STAT n) (w32 (c.rf (R.BOB_STAT n) 5 5 * 32 + 1))
    let c := (((c.wr (R.BOB_CUR n) (c.rd (R.BOB_DESC n))).wr (R.BOB_ROW n) 0).wr (R.BOB_OFF n) 0).wr (R.BOB_TOTAL n) 0
    c.onBob n fun _ => { phase := .fetch, desc := none }

/-- EN written 0 (R590): the channel ends after the descriptor in force, or at once when it has none. -/
def Chip.bobStop (n : BobCh) (c : Chip) : Chip :=
  if !c.bobRunning n then c.wb (R.BOB_CTRL n) 0 false
  else if (c.bob[n]).phase = .fetch then (c.bobStopped n).sb (R.BOB_STAT n) 3
  else c.sb (R.BOB_STAT n) 2

/-- ABORT written 1 (R591): no effect on a channel that is stopped. A host read in flight completes first, its data is discarded,
and ABORT reads 1 until then. -/
def Chip.bobAbort (n : BobCh) (c : Chip) : Chip :=
  if !c.bobRunning n then c
  else match (c.bob[n]).phase with
    | .host _ | .abort => (c.sb (R.BOB_CTRL n) 1).bobPhase n .abort
    | .idle | .fetch | .wait | .move => c.bobErr n 7 0

/-- The first word of n bytes of memory from address a that is marked uncorrectable: the offset of its first byte in the
range (0 where the word begins before it). -/
def Chip.firstBad (c : Chip) (a n : Nat) : Option Nat :=
  (c.ue.find? fun w => decide (w < a + n) && decide (a < w + (if vlmBase ≤ w then 8 else 4))).map fun w => w - a

/-- A Bobbin reads n bytes of memory: what an uncorrectable or correctable word does to the counts (R106, R107, R143). -/
def Chip.bobRead (n : BobCh) (a len : Nat) (c : Chip) : Chip :=
  if vlmBase ≤ a then (c.vRead .bobbin n (a - vlmBase) len).2.2
  else match c.firstBad a len with
    | some o => c.lmUe ((a - 0x00200000) / 0x10000) ((a + o) % 0x10000 / 4)
    | none => c

/-- The descriptor that BOB_CURn names is read and checked (R577 to R579). -/
def Chip.bobFetch (n : BobCh) (c : Chip) : Chip :=
  if (c.bob[n]).phase ≠ .fetch ∨ c.power ≠ 0 then c
  else
    let a := (c.rd (R.BOB_CUR n)).toNat
    let c := (c.wr (R.BOB_ROW n) 0).wr (R.BOB_OFF n) 0
    let inMem : Bool := bobTarget a == .vellum || (decide (0x00200000 ≤ a) && decide (a < 0x00280000))
    if !inMem then c.bobErr n 1 0
    else
      let c := c.bobRead n a 32
      if (c.firstBad a 32).isSome then c.bobErr n 2 0
      else match bobDesc (c.bytes a 32) with
        | none => c.bobErr n 1 0
        | some d =>
          if d.null then c.bobEnd n d
          else
            let e := d.check (c.rb R.SYS_STRAP 0)
            if e ≠ 0 then c.bobErr n e 0
            else (c.onBob n fun s => { s with desc := some d }).bobRowStart n (d.trig || d.rowTrig)

/-- BOB_ACTIVE. -/
def Chip.bobActive (c : Chip) : Word := w32 (ofBits ((List.finRange 16).map fun n => c.bobRunning n))

/-- A store lands in a register of the BOB page (R595). -/
def Chip.storeBob (a : Nat) (v : Word) (c : Chip) : Chip :=
  let off := a % 0x1000
  if 0x400 ≤ off then c
  else
    let n : BobCh := ⟨off / 0x40 % 16, Nat.mod_lt _ (by decide)⟩
    let o := off % 0x40
    if o = 0x00 then
      let en := c.rb a 0
      let aborting := c.rb a 1
      let c := (c.store a (setBit v 0 en)).wb a 1 aborting
      let c := if tb v 0 then c.bobStart n else c.bobStop n
      if tb v 1 then c.bobAbort n else c
    else if (o = 0x04 ∨ o = 0x08 ∨ o = 0x0C) ∧ c.bobRunning n then c
    else c.store a v

/-- What a register of the BOB page reads. -/
def Chip.readBob (a : Nat) (c : Chip) : Word := if a = R.BOB_ACTIVE then c.bobActive else c.rd a

/-! ### Commands -/

/-- BOB_CTRLn.EN written 1 (R589). -/
def execBobStart (n : BobCh) (s : State) : Out := (s.chip.bobStart n).next s

/-- BOB_CTRLn.EN written 0 (R590). -/
def execBobStop (n : BobCh) (s : State) : Out := (s.chip.bobStop n).next s

/-- BOB_CTRLn.ABORT written 1 (R591). -/
def execBobAbort (n : BobCh) (s : State) : Out := (s.chip.bobAbort n).next s

/-- The channel reads and checks a descriptor (R578). -/
def execBobDescriptorFetch (n : BobCh) (s : State) : Out := (s.chip.bobFetch n).next s

/-- Channel n takes and acknowledges the oldest request held for it of a timer event (src 1) or unit request (src 2) numbered
sel (R41); it is a trigger while BOB_TRIGn still selects it (R586, R587). -/
def execBobTrigger (n : BobCh) (src : BitVec 2) (sel : BitVec 6) (s : State) : Out :=
  let c := s.chip
  let r : EvReq := { dst := some n, src := src.toNat, sel := sel.toNat }
  if c.reqs.contains r then
    ((c.ack r).when (c.bobTrigOf n src.toNat sel.toNat) (Chip.bobTrigger n)).next s
  else c.next s

end Sys2Proof.Machine
end

