-- ==== Sys2Proof/Machine/Check.lean ====
section
/-! DEFINITION. Check units (19): the CRC model, feeding, the fold and the compare. -/

namespace Sys2Proof.Machine

/-- One shift of the CRC of R557. -/
def chkShift (k : ChkSt) (r : Nat) : Nat :=
  let s := r * 2 % 2 ^ k.w
  if r / 2 ^ (k.w - 1) % 2 = 1 then s ^^^ (k.poly % 2 ^ k.w) else s

/-- One byte into the CRC of R557. -/
def chkByte (k : ChkSt) (r : Nat) (b : Byte) : Nat :=
  let v := if k.refin then reflectN 8 b.toNat else b.toNat
  (List.range 8).foldl (fun r _ => chkShift k r) (r ^^^ (v * 2 ^ (k.w - 8) % 2 ^ k.w))

/-- The result of R557 from a state. -/
def chkResult (k : ChkSt) (r : Nat) : Nat := (if k.refout then reflectN k.w r else r) ^^^ (k.xorout % 2 ^ k.w)

/-- The result of channel n for the bytes so far (R563). -/
def Chip.chkRes (c : Chip) (n : ChkCh) : Nat := chkResult c.chk[n] (c.rd (R.CHK_STATE n)).toNat

/-- The fold of channel n (R564). -/
def Chip.chkFold (c : Chip) (n : ChkCh) : Nat :=
  let k := c.chk[n]
  chkResult k ((leBytes (k.w / 8) (c.chkRes n) ++ leBytes 4 (c.rd (R.CHK_FOLD n)).toNat).foldl (chkByte k) (k.init % 2 ^ k.w))

/-- The parameters in the registers of channel n (R558); channels 4 to 7 are fixed. -/
def Chip.chkParams (c : Chip) (n : ChkCh) : ChkSt :=
  if 4 ≤ n.val then {}
  else
    { w := match c.rf (R.CHK_CTRL n) 3 2 with | 0 => 8 | 1 => 16 | _ => 32
      poly := (c.rd (R.CHK_POLY n)).toNat, init := (c.rd (R.CHK_INIT n)).toNat, xorout := (c.rd (R.CHK_XOR n)).toNat
      refin := c.rb (R.CHK_CTRL n) 4, refout := c.rb (R.CHK_CTRL n) 5 }

/-- INIT (R559): the parameters are latched, the state is INIT, the count is 0. -/
def Chip.chkInit (n : ChkCh) (c : Chip) : Chip :=
  let k := c.chkParams n
  let c := { c with chk := upd c.chk n fun _ => k }
  (c.wr (R.CHK_STATE n) (w32 (k.init % 2 ^ k.w))).wr (R.CHK_COUNT n) 0

/-- CHECK (R565). -/
def Chip.chkCheck (n : ChkCh) (c : Chip) : Chip :=
  let v := if c.rb (R.CHK_CTRL n) 6 then c.chkFold n else c.chkRes n
  (c.sb (R.CHK_STAT n) 0).sbIf (v != (c.rd (R.CHK_EXPECT n)).toNat) (R.CHK_STAT n) 1

/-- Bytes fed to channel n (R560). -/
def Chip.chkFeed (n : ChkCh) (bs : List Byte) (c : Chip) : Chip :=
  let r := bs.foldl (chkByte c.chk[n]) (c.rd (R.CHK_STATE n)).toNat
  (c.wr (R.CHK_STATE n) (w32 r)).wr (R.CHK_COUNT n) (c.rd (R.CHK_COUNT n) + w32 bs.length)

/-- CHK_STATEn written (R562). -/
def Chip.chkState (n : ChkCh) (v : Word) (c : Chip) : Chip :=
  c.wr (R.CHK_STATE n) (w32 (v.toNat % 2 ^ (c.chk[n]).w))

/-- A store lands in a register of the CHK page (R573). -/
def Chip.storeChk (a : Nat) (v : Word) (c : Chip) : Chip :=
  let off := a % 0x1000
  let n : ChkCh := ⟨off / 0x40 % 8, Nat.mod_lt _ (by decide)⟩
  let o := off % 0x40
  if o = 0x00 then
    let c := c.store a (if 4 ≤ n.val then (v &&& ~~~(w32 0x3C)) ||| (c.rd a &&& w32 0x3C) else v)
    let c := if tb v 0 then c.chkInit n else c
    if tb v 1 then c.chkCheck n else c
  else if o = 0x04 ∨ o = 0x08 ∨ o = 0x0C then if 4 ≤ n.val then c else c.store a v
  else if o = 0x10 then c.chkFeed n (leBytes 4 v.toNat)
  else if o = 0x14 then c.chkFeed n (leBytes 2 v.toNat)
  else if o = 0x18 then c.chkFeed n (leBytes 1 v.toNat)
  else if o = 0x1C then c.chkState n v
  else c.store a v

/-- What a register of the CHK page reads. -/
def Chip.readChk (a : Nat) (c : Chip) : Word :=
  let off := a % 0x1000
  let n : ChkCh := ⟨off / 0x40 % 8, Nat.mod_lt _ (by decide)⟩
  if off % 0x40 = 0x20 then w32 (c.chkRes n)
  else if off % 0x40 = 0x28 then w32 (c.chkFold n)
  else c.rd a

/-! ### Commands -/

/-- CHK_CTRLn.INIT written 1 (R559). -/
def execChkInit (n : ChkCh) (s : State) : Out := (s.chip.chkInit n).next s

/-- CHK_CTRLn.CHECK written 1 (R565). -/
def execChkCheck (n : ChkCh) (s : State) : Out := (s.chip.chkCheck n).next s

/-- A store to CHK_DATA_Wn (R560). -/
def execChkDataW (n : ChkCh) (v : Word) (s : State) : Out := (s.chip.chkFeed n (leBytes 4 v.toNat)).next s

/-- A store to CHK_DATA_Hn (R560). -/
def execChkDataH (n : ChkCh) (v : Word) (s : State) : Out := (s.chip.chkFeed n (leBytes 2 v.toNat)).next s

/-- A store to CHK_DATA_Bn (R560). -/
def execChkDataB (n : ChkCh) (v : Word) (s : State) : Out := (s.chip.chkFeed n (leBytes 1 v.toNat)).next s

/-- CHK_STATEn written (R562). -/
def execChkStateWrite (n : ChkCh) (v : Word) (s : State) : Out := (s.chip.chkState n v).next s

end Sys2Proof.Machine
end

