-- ==== Sys2Proof/Machine/HostLink.lean ====
section
/-! DEFINITION. The host link (09): BAR0 and BAR2, the QSPI slave's frames, the MBX page with doorbells and ring bits, link
events, and host MSI (07). -/

namespace Sys2Proof.Machine

/-- The host link changed. -/
def Chip.onHost (f : HostSt → HostSt) (c : Chip) : Chip := { c with host := f c.host }

/-- Tirba changed. -/
def Chip.onTirba (f : TirbaSt → TirbaSt) (c : Chip) : Chip := { c with tirba := f c.tirba }

/-- Ring n as Tirba keeps it. -/
def Chip.ring (c : Chip) (n : Ring) : RingSt := c.tirba.rings[n]

/-- Ring n changed. -/
def Chip.onRing (n : Ring) (f : RingSt → RingSt) (c : Chip) : Chip := c.onTirba fun t => { t with rings := upd t.rings n f }

/-- A pulse source occurs: it becomes pending in each bank (R204, R206). -/
def Chip.pulse (s : Nat) (c : Chip) : Chip :=
  forEach (List.finRange 8) (fun n c => c.onCore n fun k => { k with pulse := insertSorted s k.pulse }) c

/-- HOSTSEL selects the QSPI slave (R29). -/
def Chip.hostQspi (c : Chip) : Bool := c.rb R.SYS_STRAP 0

/-! ### Rings (R254 to R269) -/

/-- Offset of ring n's table entry in Vellum (R254). -/
def Chip.ringEntry (c : Chip) (n : Ring) : Nat := c.rf R.MBX_RTAB 25 12 * 4096 + 64 * n.val

/-- The number of slots of ring n (R254): from its checked entry, or else from the table in Vellum, whose read reports an
uncorrectable word (R107). -/
def Chip.ringN (n : Ring) (c : Chip) : Nat × Chip :=
  if (c.ring n).checked then (2 ^ (c.ring n).log2, c)
  else
    let (bs, _, c) := c.vRead .core 0 (c.ringEntry n + 0x10) 4
    (2 ^ (leNat (bs.take 1) % 16), c)

/-- Bit n of a pair of ring bit registers. -/
def Chip.ringBit (c : Chip) (r : Nat → Nat) (n : Ring) : Bool := c.rb (r (n.val / 32)) (n.val % 32)

/-- Bit n of a pair of ring bit registers set to b. -/
def Chip.setRingBit (r : Nat → Nat) (n : Ring) (b : Bool) (c : Chip) : Chip := c.wb (r (n.val / 32)) (n.val % 32) b

/-- Ring n is enabled. -/
def Chip.ringOn (c : Chip) (n : Ring) : Bool := c.ringBit R.MBX_RING_EN n

/-- Submission tail and head of ring n. -/
def Chip.sqTail (c : Chip) (n : Ring) : Nat := c.rf (R.MBX_DB n) 11 0
/-- See sqTail. -/
def Chip.sqHead (c : Chip) (n : Ring) : Nat := c.rf (R.MBX_DB n) 27 16
/-- Completion head and tail of ring n. -/
def Chip.cqHead (c : Chip) (n : Ring) : Nat := c.rf (R.MBX_RST n) 11 0
/-- See cqHead. -/
def Chip.cqTail (c : Chip) (n : Ring) : Nat := c.rf (R.MBX_RST n) 27 16

/-- MBX_ERR records an error while it holds none (R278). -/
def Chip.mbxErr (code : Nat) (n : Ring) (c : Chip) : Chip :=
  if c.rb R.MBX_ERR 31 then c else c.wr R.MBX_ERR (w32 (n.val + code * 2 ^ 8 + 2 ^ 31))

/-- Ring n is frayed (R267). -/
def Chip.fray (n : Ring) (c : Chip) : Chip := c.setRingBit R.MBX_FRAYED n true

/-- The distance from a to b around a ring of N slots. -/
def ringDist (N a b : Nat) : Nat := (b + N - a % N) % N

/-- A completion is ready to be posted on ring n. -/
def Chip.reply (n : Ring) (r : Reply) (c : Chip) : Chip := c.onRing n fun s => { s with posts := s.posts ++ [r] }

/-- The 64 bytes of a table entry break R254 or R256. -/
def Chip.ringBad (c : Chip) (e : List Byte) : Bool :=
  let at' (i n : Nat) : Nat := leNat ((e.drop i).take n)
  let sq := at' 0 8
  let cq := at' 8 8
  let l := at' 0x10 4
  let fl := at' 0x18 4
  let bytes := 64 * 2 ^ l
  decide (sq % 64 ≠ 0) || decide (cq % 64 ≠ 0) || decide (l < 1) || decide (12 < l) || decide (4095 < at' 0x14 4)
    || decide (3 < fl) || decide (at' 0x1C 36 ≠ 0)
    || (fl % 2 == 0 && decide (vlmSize < sq + bytes)) || (fl / 2 == 0 && decide (vlmSize < cq + bytes))
    || (decide (fl ≠ 0) && c.hostQspi)

/-- Tirba checks the table entry of ring n, once after its enable (R256). An entry with an uncorrectable word is bad
(assumption 106). -/
def Chip.ringCheck (n : Ring) (c : Chip) : Chip :=
  if (c.ring n).checked then c
  else
    let (e, ue, c) := c.vRead .core 0 (c.ringEntry n) 64
    let at' (i n : Nat) : Nat := leNat ((e.drop i).take n)
    let bad := ue || c.ringBad e
    let c := c.onRing n fun s => { s with
      checked := true, sqBase := at' 0 8, cqBase := at' 8 8, log2 := at' 0x10 1 % 16
      maxExt := at' 0x14 2 % 4096, sqHost := at' 0x18 1 % 2 == 1, cqHost := at' 0x18 1 / 2 % 2 == 1 }
    if bad then (c.fray n).mbxErr 4 n else c

/-- Tirba serves rings (MBX_STAT.READY). -/
def Chip.tirbaReady (c : Chip) : Bool := c.rb R.MBX_STAT 0

/-- A doorbell takes effect (R258 to R261): each part is checked on its own, after the table entry at the first one since the
enable (R256). On ring 0, while RESULT is NO_IMAGE, it starts a recovery check (R234). -/
def Chip.bell (n : Ring) (v : Word) (c : Chip) : Chip :=
  let lock := c.romLocked
  let on := c.ringOn n
  let c := c.when (lock && on && c.tirbaReady) (Chip.ringCheck n)
  let c := if on || !lock then c.pulse (96 + n.val) else c
  let c := if n = 0 ∧ ¬lock ∧ c.rf R.SYS_BOOT_STAT 3 0 = 4 then c.wf R.SYS_BOOT_STAT 3 0 7 else c
  let t := fld v 11 0
  let h := fld v 27 16
  let c := if !tb v 15 then c
    else if !lock then c.wf (R.MBX_DB n) 11 0 t
    else if !on then c.mbxErr 3 n
    else
      let (N, c) := c.ringN n
      if N ≤ t ∨ ringDist N (c.sqHead n) t < ringDist N (c.sqHead n) (c.sqTail n) then
        (c.mbxErr 1 n).reply n { tag := 0xFFFFFFFF, status := 0x0A, detail := 0, sqHead := c.sqHead n, result := [], notify := true, cmd := false }
      else c.wf (R.MBX_DB n) 11 0 t
  if !tb v 31 then c
  else
    let (N, c) := c.ringN n
    if N ≤ h ∨ ringDist N (c.cqHead n) (c.cqTail n) < ringDist N (c.cqHead n) h then c.mbxErr 2 n
    else c.wf (R.MBX_RST n) 11 0 h

/-- The host's Vellum writes that have not landed, in the order issued. -/
def Chip.hostWrites (c : Chip) : List VReq := c.vlm.reqs.filter fun r => r.write && decide (r.cls = .host)

/-- A host write to MBX_DBn: it takes effect after every earlier host write to Vellum has landed (R16). -/
def Chip.doorbell (n : Ring) (v : Word) (c : Chip) : Chip :=
  let k := c.hostWrites.length
  if k = 0 then c.bell n v else c.onHost fun h => { h with bells := h.bells ++ [(n, v, k)] }

/-- How many elements two lists have in common at their beginning. -/
def commonLen (a b : List VReq) : Nat := ((a.zip b).takeWhile fun p => decide (p.1 = p.2)).length

/-- Waiting doorbells whose host writes have all landed take effect, in order. -/
def Chip.bellsDue (c : Chip) : Chip :=
  let due := c.host.bells.takeWhile fun b => b.2.2 == 0
  forEach due (fun b c => c.bell b.1 b.2.1) (c.onHost fun h => { h with bells := h.bells.drop due.length })

/-- The doorbells of c once d is reached: where a host write has landed on the way, those issued after it wait for one fewer,
and those that wait for none take effect (R16). -/
def Chip.bellsAfter (c d : Chip) : Chip :=
  let i := commonLen c.hostWrites d.hostWrites
  if d.hostWrites.length < c.hostWrites.length then
    (d.onHost fun h => { h with bells := h.bells.map fun b => if i < b.2.2 then (b.1, b.2.1, b.2.2 - 1) else b }).bellsDue
  else d

/-- A bank arbiter grants (R113); a host write that lands may be the last that a doorbell waits for (R16). -/
def Chip.bankGrant (n : Nat) (c : Chip) : Chip := c.bellsAfter (c.grant n)

/-- What Tirba was reading of a descriptor of ring n comes to nothing: its bus-master reads, and what they have brought. -/
def Chip.fetchStop (n : Ring) (c : Chip) : Chip :=
  let c := c.onTirba fun t => { t with bm := t.bm.filter fun b => b.owner != .header n && b.owner != .ext n }
  c.onRing n fun s => { s with header := none }

/-- MBX_RING_ENk written (R266): a ring newly enabled starts with its indices at 0 and PHASE at 1 (R264); on one that is disabled
the fetching stops. -/
def Chip.ringEnable (k : Fin 2) (v : Word) (c : Chip) : Chip :=
  let old := c.rd (R.MBX_RING_EN k)
  let c := c.wr (R.MBX_RING_EN k) v
  let c := forEach ((List.finRange 64).filter fun n => n.val / 32 == k.val && tb v (n.val % 32) != tb old (n.val % 32)) Chip.fetchStop c
  forEach ((List.finRange 64).filter fun n => n.val / 32 == k.val && tb v (n.val % 32) && !tb old (n.val % 32)) (fun n c =>
    ((c.wr (R.MBX_DB n) 0).wr (R.MBX_RST n) (bitW 31)).onRing n fun s => { s with checked := false, prevOk := none, fresh := true }) c

/-- A record of an ended command is kept (R300). -/
def RingSt.record (tag : Word) (status : Nat) (discarded : Bool) (s : RingSt) : RingSt :=
  { s with history := ({ tag, status, discarded } :: s.history).take 16 }

/-- The records of the completions that wait to be posted, which are the newest, changed. -/
def RingSt.markPosts (f : EndRecord → EndRecord) (s : RingSt) : List EndRecord :=
  let k := (s.posts.filter (·.cmd)).length
  (s.history.take k).map f ++ s.history.drop k

/-- The completions of ring n that were to be posted are discarded, and recorded so (R268, R251). -/
def RingSt.discard (s : RingSt) : RingSt :=
  { s with
    flight := s.flight.map fun (q : Cmd) => { q with discard := true }, posts := []
    history := s.markPosts fun r => { r with discarded := true } }

/-- Commands of ring n in flight: those not ended, and those whose completion has not been written (R263). -/
def Chip.ringFlight (c : Chip) (n : Ring) : Nat := (c.ring n).flight.length + ((c.ring n).posts.filter (·.cmd)).length

/-- All commands in flight. -/
def Chip.inFlight (c : Chip) : Nat := ((List.finRange 64).map c.ringFlight).sum

/-- Tirba writes MBX_INFLIGHT (R277). -/
def Chip.countFlight (c : Chip) : Chip := c.wf R.MBX_INFLIGHT 5 0 c.inFlight

/-- The reset bit of ring n clears when no command of it is in flight (R268), and RESET_ALL when every reset has ended (R6). -/
def Chip.resetDone (n : Ring) (c : Chip) : Chip :=
  if (c.ring n).flight.isEmpty then
    let c := c.setRingBit R.MBX_RESET n false
    c.when (c.rd (R.MBX_RESET 0) == 0 && c.rd (R.MBX_RESET 1) == 0) fun c => c.wb R.MBX_CTRL 0 false
  else c

/-- MBX_RESETk written: ring n is reset (R268). -/
def Chip.ringReset (n : Ring) (c : Chip) : Chip :=
  let c := (c.setRingBit R.MBX_RING_EN n false).setRingBit R.MBX_FRAYED n false
  let c := ((c.onRing n RingSt.discard).fetchStop n).countFlight
  (c.setRingBit R.MBX_RESET n true).resetDone n

/-- The rings of a register's bits are reset. -/
def Chip.ringResets (k : Fin 2) (v : Word) (c : Chip) : Chip :=
  forEach ((List.finRange 64).filter fun n => n.val / 32 == k.val && tb v (n.val % 32)) Chip.ringReset c

/-- MBX_CTRL.RESET_ALL (R277): it reads 1 while a ring's reset goes on. -/
def Chip.resetAll (c : Chip) : Chip :=
  let c := forEach (List.finRange 64) Chip.ringReset c
  c.wb R.MBX_CTRL 0 (c.rd (R.MBX_RESET 0) != 0 || c.rd (R.MBX_RESET 1) != 0)

/-! ### The MBX page (R277) -/

/-- The offset of a register on the MBX page that BAR0 shows (R252). -/
def mbxHostReg (off : Nat) : Bool :=
  off % 4 == 0 && (decide (off < 0x048) || (decide (0x080 ≤ off) && decide (off < 0x0C0)) || (decide (0x400 ≤ off) && decide (off < 0x500)))

/-- A write to the MBX page by the host or by a core (the Access and Meaning columns of R277). -/
def Chip.mbxWrite (host : Bool) (off : Nat) (v : Word) (c : Chip) : Chip :=
  let a := 0x40006000 + off
  let k : Fin 2 := ⟨off / 4 % 2, Nat.mod_lt _ (by decide)⟩
  let w1c (m : Word) : Chip := c.wr a (c.rd a &&& ~~~(v &&& m))
  let w1s (m : Word) : Chip := c.wr a (c.rd a ||| (v &&& m))
  if off = 0x000 then (c.wb a 8 (tb v 8)).when (tb v 0) Chip.resetAll
  else if off = 0x004 then
    let d := w1c 0xE
    if host then d else d.wb a 0 (tb v 0)
  else if off = 0x008 then
    if c.rd (R.MBX_RING_EN 0) ≠ 0 ∨ c.rd (R.MBX_RING_EN 1) ≠ 0 then c else c.store a v
  else if off = 0x010 ∨ off = 0x014 then c.ringEnable k v
  else if off = 0x018 ∨ off = 0x01C then if host then c else w1s 0xFFFFFFFF
  else if off = 0x020 ∨ off = 0x024 then c.ringResets k v
  else if off = 0x028 ∨ off = 0x02C then if host then w1c 0xFFFFFFFF else w1s 0xFFFFFFFF
  else if off = 0x038 then
    if host then w1c 0x80000000
    else w1s 0x80000000
  else if off = 0x00C ∨ off = 0x03C ∨ off = 0x040 then if host then c else c.store a v
  else if 0x400 ≤ off ∧ off < 0x500 then
    let n : Ring := ⟨(off - 0x400) / 4 % 64, Nat.mod_lt _ (by decide)⟩
    if host then c.doorbell n v else c.wf a 27 16 (fld v 27 16)
  else if 0x600 ≤ off ∧ off < 0x700 then
    if host then c else (c.wf a 27 16 (fld v 27 16)).wb a 31 (tb v 31)
  else c.store a v

/-! ### BAR0 and BAR2 (R96 to R98, R248, R249, R252) -/

/-- The register that a BAR0 offset mirrors outside the MBX window (R252). -/
def bar0Mirror (off : Nat) : Option Nat :=
  if off < 0x18 then some (0x40000000 + off)
  else if off < 0x28 then some (R.SYS_BOOT_STAT + (off - 0x18))
  else match off with
    | 0x40 => some (R.PRK_POS 0)
    | 0x44 => some (R.PRK_FRAME 0)
    | 0x48 => some (R.PRK_POS 1)
    | 0x4C => some (R.PRK_FRAME 1)
    | _ => none

/-- Does a register stand at a BAR0 offset (R252)? -/
def bar0Reg (off : Nat) : Bool :=
  off % 4 == 0 && ((bar0Mirror off).isSome || (decide (0x1000 ≤ off) && decide (off < 0x2000) && mbxHostReg (off - 0x1000)))

/-- The value at a BAR0 offset. -/
def Chip.bar0Read (off : Nat) (c : Chip) : Word :=
  match bar0Mirror off with
  | some a => c.rd a
  | none => if bar0Reg off then c.rd (0x40006000 + (off - 0x1000)) else 0

/-- A write at a BAR0 offset; mirrors ignore it. -/
def Chip.bar0Write (off : Nat) (v : Word) (c : Chip) : Chip :=
  if 0x1000 ≤ off ∧ bar0Reg off then c.mbxWrite true (off - 0x1000) v else c

/-- The PCI Express endpoint is selected and enabled (R245). -/
def Chip.pcieOn (c : Chip) : Bool := c.host.up && !c.hostQspi

/-- A request completes with Unsupported Request, which Advanced Error Reporting records (R246). -/
def Chip.unsupported (c : Chip) : Chip := (c.onHost fun h => { h with aer := setBit h.aer 20 true }).emit .unsupported

/-- A host memory request to BAR0 (R248, R250). -/
def Chip.bar0Request (write : Bool) (off : Nat) (be : BitVec 4) (dwords : Nat) (v : Word) (c : Chip) : Chip :=
  if !c.pcieOn then c
  else if c.host.d3 then (if write then c else c.unsupported)
  else if be ≠ 0xF ∨ dwords ≠ 1 ∨ off % 4 ≠ 0 then
    let c := c.sb R.MBX_STAT 2
    if write then c else c.unsupported
  else
    let c := c.sbIf (!bar0Reg off) R.MBX_STAT 3
    if write then c.bar0Write off v else c.emit (.hostRead (leBytes 4 (c.bar0Read off).toNat) false)

/-- Bytes of a host access that lie in Vellum: those at or above the hole are cut (R98). -/
def belowHole (off n : Nat) : Nat := min n (vlmSize - off)

/-- A host write to Vellum with byte enables (R101, R249). -/
def Chip.hostVWrite (off : Nat) (bytes : List (Option Byte)) (c : Chip) : Chip :=
  { storeEnabled (vlmBase + off) bytes c with ue := clearWritten (vlmBase + off) bytes c.ue }

/-- Bytes from an offset cut into the payloads of TLPs: at most 256 bytes, up to each multiple of 256 (R246, assumption 107). -/
def tlpCuts : Nat → Nat → Nat → List (Nat × Nat)
  | 0, _, _ => []
  | f + 1, off, n =>
    let k := min n (256 - off % 256)
    if n = 0 then [] else (off, k) :: tlpCuts f (off + k) (n - k)

/-- One completion TLP of a host read (R110): one that carries any byte of an uncorrectable word is poisoned and reads 0xFF. Bytes
at or above the hole read 0 (R98). -/
def Chip.readTlp (c : Chip) (t : Nat × Nat) : Output :=
  let n := belowHole t.1 t.2
  if c.vBad t.1 n then .hostRead (List.replicate t.2 0xFF#8) true
  else .hostRead (c.vbytes t.1 n ++ List.replicate (t.2 - n) 0#8) false

/-- A host access to BAR2 (R249, R98): a read asks for as many bytes as the list has. -/
def Chip.bar2Access (write : Bool) (off : Nat) (bytes : List (Option Byte)) (c : Chip) : Chip :=
  if !c.pcieOn then c
  else if c.host.d3 then (if write then c else c.unsupported)
  else
    let n := belowHole off bytes.length
    let c := c.sbIf (decide (n < bytes.length)) R.VLM_STICKY 3
    if write then c.hostVWrite off (bytes.take n)
    else
      let (_, _, c) := c.vRead .host 0 off n
      forEach (tlpCuts (bytes.length + 1) off bytes.length) (fun t c => c.emit (c.readTlp t)) c

/-! ### Link events (R250, R251) -/

/-- A hot reset, link-down event, or resetting return from D3hot (R251): the configuration space clears, rings are disabled and
their fetching stops (R266), completions and MSIs destined for host memory are discarded, sessions close (R295). A bus-master read
of a payload or of a Bobbin gets no completion any more and ends by its timeout (R246). The unselected link does nothing (R245). -/
def Chip.linkReset (c : Chip) : Chip :=
  if !c.pcieOn then c
  else
    let c := c.onHost fun h => { h with
      d3 := false, busMaster := false, msiEnable := false, msiGrant := 0, msiMask := 0, readSize := 2, msiAddr := 0, msiData := 0
      bar0 := 0, bar2 := 0, aer := 0, bells := [] }
    let c := (((c.wr (R.MBX_RING_EN 0) 0).wr (R.MBX_RING_EN 1) 0).wr R.IRQ_MSI_PEND 0).sb R.MBX_STAT 1
    let c := forEach (List.finRange 64) (fun n c => (c.fetchStop n).when (c.ring n).cqHost fun c => c.onRing n RingSt.discard) c
    c.countFlight.onTirba fun t => { t with sessions := Vector.replicate 8 none }

/-- The configuration space (R246, R247): the header's words stand at the offsets of the Base Specification, the capabilities at
offsets that the model picks (assumption 30). -/
def Chip.cfgRead (c : Chip) (off : Nat) : Word :=
  let h := c.host
  match off with
  | 0x00 => w32 0x09601C7A
  | 0x04 => w32 (0x00100000 + b2n h.busMaster * 4)
  | 0x08 => w32 (0x03800000 + c.rf R.SYS_ID 7 0)
  | 0x10 => h.bar0
  | 0x18 => w32 (h.bar2.toNat % 2 ^ 32 + 0xC)
  | 0x1C => w32 (h.bar2.toNat / 2 ^ 32)
  | 0x2C => w32 0x09601C7A
  | 0x34 => 0x40
  | 0x40 => w32 0x00025001
  | 0x44 => w32 (8 + b2n h.d3 * 3)
  | 0x50 => w32 (0x018A7005 + b2n h.msiEnable * 2 ^ 16 + h.msiGrant * 2 ^ 20)
  | 0x54 => w32 (h.msiAddr.toNat % 2 ^ 32)
  | 0x58 => w32 (h.msiAddr.toNat / 2 ^ 32)
  | 0x5C => w32 h.msiData.toNat
  | 0x60 => h.msiMask
  | 0x64 => c.rd R.IRQ_MSI_PEND
  | 0x70 => w32 0x00020010
  | 0x74 => 1
  | 0x78 => w32 (h.readSize * 2 ^ 12 + 0x20)
  | 0x100 => w32 0x14010001
  | 0x104 => h.aer
  | 0x140 => w32 0x00010003
  | 0x144 => w32 (Config.serial.toNat % 2 ^ 32)
  | 0x148 => w32 (Config.serial.toNat / 2 ^ 32)
  | _ => 0

/-- A write to the configuration space (R246, R247, R250): Command, the BARs, the power state, the MSI capability, Device Control,
and the error status, whose bits a 1 clears. -/
def Chip.cfgWrite (off : Nat) (v : Word) (c : Chip) : Chip :=
  c.onHost fun h => match off with
    | 0x04 => { h with busMaster := tb v 2 }
    | 0x10 => { h with bar0 := v &&& 0xFFFF0000 }
    | 0x18 => { h with bar2 := BitVec.ofNat 64 (h.bar2.toNat / 2 ^ 32 * 2 ^ 32 + v.toNat / 2 ^ 26 * 2 ^ 26) }
    | 0x1C => { h with bar2 := BitVec.ofNat 64 (v.toNat * 2 ^ 32 + h.bar2.toNat % 2 ^ 32) }
    | 0x44 => { h with d3 := if fld v 1 0 = 3 then true else if fld v 1 0 = 0 then false else h.d3 }
    | 0x50 => { h with msiEnable := tb v 16, msiGrant := min 5 (fld v 22 20) }
    | 0x54 => { h with msiAddr := BitVec.ofNat 64 (h.msiAddr.toNat / 2 ^ 32 * 2 ^ 32 + v.toNat / 4 * 4) }
    | 0x58 => { h with msiAddr := BitVec.ofNat 64 (v.toNat * 2 ^ 32 + h.msiAddr.toNat % 2 ^ 32) }
    | 0x5C => { h with msiData := BitVec.ofNat 16 v.toNat }
    | 0x60 => { h with msiMask := v }
    | 0x78 => { h with readSize := fld v 14 12 }
    | 0x104 => { h with aer := h.aer &&& ~~~v }
    | _ => h

/-- A configuration request of the host, while the PCI Express endpoint is selected and enabled (R245). Bytes that are not enabled
keep their value; a bit of the error status that is not enabled is not cleared. -/
def Chip.cfgRequest (write : Bool) (off : Nat) (be : BitVec 4) (v : Word) (c : Chip) : Chip :=
  if !c.pcieOn then c
  else if write then
    let mask := w32 (ofBits ((List.range 32).map fun i => be.getLsbD (i / 8)))
    c.cfgWrite off ((v &&& mask) ||| (if off = 0x104 then 0 else c.cfgRead off &&& ~~~mask))
  else c.emit (.hostRead (leBytes 4 (c.cfgRead off).toNat) false)

/-- A pending vector sends one MSI when the host has MSI enabled and the vector unmasked (R220); in D3hot it holds. The low bits of
its data, as many as the vectors granted need, carry the vector. -/
def Chip.msiSend (v : Nat) (c : Chip) : Chip :=
  let g := 2 ^ c.host.msiGrant
  if c.rb R.IRQ_MSI_PEND v ∧ c.pcieOn ∧ ¬c.host.d3 ∧ c.host.msiEnable ∧ ¬tb c.host.msiMask v then
    (c.wb R.IRQ_MSI_PEND v false).emit (.msi v c.host.msiAddr (c.host.msiData.toNat / g * g + v % g))
  else c

/-- The bus master may read and write (R250). -/
def Chip.bmOn (c : Chip) : Bool := c.pcieOn && !c.host.d3 && c.host.busMaster

/-- A tag is free for another bus-master read (R118, R246). -/
def Chip.bmRoom (c : Chip) : Bool := c.bmOn && decide (c.tirba.bm.length < 32)

/-- A bus-master read starts. -/
def Chip.bmStart (owner : BmOwner) (a len : Nat) (c : Chip) : Chip :=
  (c.onTirba fun t => { t with bm := t.bm ++ [{ owner, len, got := [] }] }).emit (.hostAsk a len)

/-- The bus master writes bytes to host memory (R257), in TLPs of at most 256 bytes (R246). -/
def Chip.bmWrite (a : Nat) (bs : List Byte) (c : Chip) : Chip :=
  forEach (tlpCuts (bs.length + 1) a bs.length) (fun t c => c.emit (.hostWrite t.1 (((bs.drop (t.1 - a)).take t.2).map some))) c

/-- HQ_INT_N is driven low, while the QSPI slave is selected (R245, R265). -/
def Chip.hqIntLow (c : Chip) : Bool :=
  c.hostQspi && c.rb R.MBX_CTRL 8 && ((c.rd (R.MBX_HINT_PEND 0) &&& c.rd (R.MBX_HINT_EN 0)) != 0 || (c.rd (R.MBX_HINT_PEND 1) &&& c.rd (R.MBX_HINT_EN 1)) != 0)

/-! ### The QSPI slave (R270 to R276) -/

/-- The QSPI slave is selected and enabled. -/
def Chip.qspiOn (c : Chip) : Bool := c.host.up && c.hostQspi

/-- The command and header bytes of a frame. -/
def frameHead (code : Byte) (addr : Word) (len : Half) : List Byte := code :: leBytes 4 addr.toNat ++ leBytes 2 len.toNat

/-- The status that a frame's checks give, in the order of R273's table; a frame that ended early is LENGTH. -/
def frameCheck (bar0 : Bool) (head : List Byte) (addr : Word) (len : Half) (data : List Byte) (crc : Half) (short : Bool) : Nat :=
  let a := addr.toNat
  let l := len.toNat
  if short then 2
  else if crc16 (head ++ data) ≠ crc then 1
  else if (if bar0 then l ≠ 4 else l < 4 ∨ 1024 < l ∨ l % 4 ≠ 0) then 2
  else if a % 4 ≠ 0 then 3
  else if (if bar0 then !bar0Reg a else decide (vlmSize < a + l)) then 4
  else 0

/-- A write frame ends with a status; OK ones are counted (R272). -/
def Chip.qspiEnd (st : Nat) (c : Chip) : Chip :=
  c.onHost fun h => { h with frameStatus := st, frameCount := if st = 0 then (h.frameCount + 1) % 256 else h.frameCount }

/-- Bytes as the four lines carry them: the high nibble first, bit 3 of a nibble on HQ_IO3 (R270). -/
def nibbles (bs : List Byte) : List (BitVec 4) := bs.flatMap fun b => [BitVec.ofNat 4 (b.toNat / 16), BitVec.ofNat 4 b.toNat]

/-- The device sends a read frame's answer: wait bytes, start, data, status, CRC (R270). How long the host waits is free (R274). -/
def Chip.frameReply (data : List Byte) (st : Nat) (c : Chip) : Chip :=
  let body := 0x5A#8 :: data ++ [BitVec.ofNat 8 st]
  let (k, c) := c.fresh
  c.emit (.qspiFrame (Config.qspiWait k) (nibbles (body ++ beBytes 2 (crc16 body).toNat)))

/-- A frame inside the gap after a write frame is ignored, and the frame status reads BUSY (R275). -/
def Chip.frame (gap : Bool) (f : Chip → Chip) (c : Chip) : Chip :=
  if !c.qspiOn then c else if gap then c.onHost fun h => { h with frameStatus := 7 } else f c

/-- A BAR0 offset without a register was reached (R248). -/
def Chip.bar0Hole (st : Nat) (c : Chip) : Chip := c.sbIf (st == 4) R.MBX_STAT 3

/-- The words of a Vellum read as the slave sends them: 0xFF for a word that is uncorrectable (R273). -/
def Chip.vellumWords (c : Chip) (off n : Nat) : List Byte :=
  (List.range (n / 4)).flatMap fun i =>
    if c.vBad (off + 4 * i) 4 then List.replicate 4 0xFF#8 else c.vbytes (off + 4 * i) 4

/-! ### Commands -/

/-- A host memory request to BAR0 (R248), or a request to the configuration space (R247). -/
def execHostBar0Request (write : Bool) (off : BitVec 16) (be : BitVec 4) (dwords : Nat) (v : Word) (s : State) (cfg : Bool := false) : Out :=
  if cfg then (s.chip.cfgRequest write off.toNat be v).next s
  else (s.chip.bar0Request write off.toNat be dwords v).next s

/-- A bank's arbiter grants (R113). -/
def execBankGrant (n : Bank) (s : State) : Out := (s.chip.bankGrant n.val).next s

/-- A host access to Vellum through BAR2 (R249). -/
def execBar2Access (write : Bool) (off : BitVec 26) (bytes : List (Option Byte)) (s : State) : Out :=
  (s.chip.bar2Access write off.toNat bytes).next s

/-- The function enters D3hot (R250). -/
def execD3hotEntry (s : State) : Out :=
  if s.chip.pcieOn then (s.chip.onHost fun h => { h with d3 := true }).next s else s.chip.next s

/-- The function returns to D0 without a reset (R250). -/
def execD0Return (s : State) : Out :=
  if s.chip.pcieOn then (s.chip.onHost fun h => { h with d3 := false }).next s else s.chip.next s

/-- A link reset (R251). -/
def execLinkReset (s : State) : Out := s.chip.linkReset.next s

/-- A host write to MBX_DBn with TAIL_WE (R258). -/
def execDoorbellTail (n : Ring) (t : BitVec 12) (s : State) : Out := (s.chip.doorbell n (w32 (t.toNat + 2 ^ 15))).next s

/-- A host write to MBX_DBn with CQH_WE (R261). -/
def execCqHeadUpdate (n : Ring) (h : BitVec 12) (s : State) : Out := (s.chip.doorbell n (w32 (h.toNat * 2 ^ 16 + 2 ^ 31))).next s

/-- A core write to MBX_DBn (R262). -/
def execSqHeadSet (n : Ring) (h : BitVec 12) (s : State) : Out :=
  (s.chip.mbxWrite false (0x400 + 4 * n.val) (w32 (h.toNat * 2 ^ 16))).next s

/-- MBX_RING_ENk written (R266). -/
def execRingEnable (k : Fin 2) (v : Word) (s : State) : Out := (s.chip.ringEnable k v).next s

/-- MBX_RESETk written (R268). -/
def execRingReset (k : Fin 2) (v : Word) (s : State) : Out := (s.chip.ringResets k v).next s

/-- MBX_CTRL.RESET_ALL written 1 (R277). -/
def execResetAll (s : State) : Out := s.chip.resetAll.next s

/-- A frame of command 0x61 (R272). -/
def execQspiBar0Read (addr : Word) (len : Half) (crc : Half) (gap short : Bool) (s : State) : Out :=
  (s.chip.frame gap fun c =>
    let st := frameCheck true (frameHead 0x61 addr len) addr len [] crc short
    let c := c.bar0Hole st
    if st = 0 then c.frameReply (leBytes 4 (c.bar0Read addr.toNat).toNat) 0
    else c.frameReply (List.replicate len.toNat 0#8) st).next s

/-- A frame of command 0x62 (R272). -/
def execQspiBar0Write (addr : Word) (len : Half) (data : List Byte) (crc : Half) (gap short : Bool) (s : State) : Out :=
  (s.chip.frame gap fun c =>
    let st := frameCheck true (frameHead 0x62 addr len) addr len data crc (short || data.length != len.toNat)
    let c := c.bar0Hole st
    (if st = 0 then c.bar0Write addr.toNat (w32 (leNat data)) else c).qspiEnd st).next s

/-- A frame of command 0x63 (R272). -/
def execQspiVellumRead (addr : Word) (len : Half) (crc : Half) (gap short : Bool) (s : State) : Out :=
  (s.chip.frame gap fun c =>
    let st := frameCheck false (frameHead 0x63 addr len) addr len [] crc short
    if st = 0 then
      let (_, bad, c) := c.vRead .host 0 addr.toNat len.toNat
      c.frameReply (c.vellumWords addr.toNat len.toNat) (if bad then 5 else 0)
    else c.frameReply (List.replicate len.toNat 0#8) st).next s

/-- A frame of command 0x64 (R272). -/
def execQspiVellumWrite (addr : Word) (len : Half) (data : List Byte) (crc : Half) (gap short : Bool) (s : State) : Out :=
  (s.chip.frame gap fun c =>
    let st := frameCheck false (frameHead 0x64 addr len) addr len data crc (short || data.length != len.toNat)
    (if st = 0 then c.hostVWrite addr.toNat (data.map some) else c).qspiEnd st).next s

/-- A frame of command 0x65, or of a code that R272 does not list (R273: BAD_CMD, nothing is driven). -/
def execQspiFrameStatus (code : Byte) (gap : Bool) (s : State) : Out :=
  (s.chip.frame gap fun c =>
    if code = 0x65 then
      let b := [BitVec.ofNat 8 c.host.frameStatus, BitVec.ofNat 8 c.host.frameCount]
      c.emit (.qspiFrame 0 (nibbles (b ++ beBytes 2 (crc16 b).toNat)))
    else if 0x61 ≤ code ∧ code ≤ 0x64 then c
    else c.onHost fun h => { h with frameStatus := 6 }).next s

/-- A pending vector sends its MSI (R220). -/
def execMsiSend (v : BitVec 5) (s : State) : Out := (s.chip.msiSend v.toNat).next s

/-- Tirba increments the heartbeat while READY is 1 (R299). -/
def execHeartbeat (s : State) : Out :=
  if s.chip.tirbaReady then (s.chip.incWrap R.MBX_HEARTBEAT).next s else s.chip.next s

end Sys2Proof.Machine
end

