-- ==== Sys2Proof/Machine/Irq.lean ====
section
/-! DEFINITION. The interrupt controller (07): the levels of its sources, selection, taking and ending an interrupt, and the
IRQ page. -/

namespace Sys2Proof.Machine

/-- Some bit of a status register and the same bit of its enable register are both 1, within [hi:lo]. -/
def Chip.both (c : Chip) (stat en hi lo : Nat) : Bool := fld (c.rd stat &&& c.rd en) hi lo != 0

/-- A field of a status register is not 0 while a bit enables it. -/
def Chip.fieldEn (c : Chip) (stat hi lo en bit : Nat) : Bool := c.rb en bit && c.rf stat hi lo != 0

/-- The level of sources 24 to 31: SYS crossing, Vellum, the Prickings, the Appliqués. -/
def Chip.levelA (c : Chip) (s : Nat) : Bool :=
  match s with
  | 24 => c.fieldEn R.SYS_XING 3 0 R.SYS_XING 4
  | 25 => (c.rb R.VLM_STICKY 0 && c.rb R.VLM_CTRL 8) || ((c.rb R.VLM_STICKY 1 || c.rb R.VLM_STICKY 4) && c.rb R.VLM_CTRL 9)
      || (c.rb R.VLM_STICKY 2 && c.rb R.VLM_CTRL 10) || (c.rb R.VLM_STICKY 3 && c.rb R.VLM_CTRL 11)
  | 26 => c.both (R.PRK_EV_STAT 0) (R.PRK_EV_EN 0) 4 0
  | 27 => c.fieldEn (R.PRK_STICKY 0) 7 0 (R.PRK_EV_EN 0) 8
  | 28 => c.both (R.PRK_EV_STAT 1) (R.PRK_EV_EN 1) 4 0
  | 29 => c.fieldEn (R.PRK_STICKY 1) 7 0 (R.PRK_EV_EN 1) 8
  | 30 => c.both (R.APQ_STICKY 0) (R.APQ_IRQ_EN 0) 5 0
  | 31 => c.both (R.APQ_STICKY 1) (R.APQ_IRQ_EN 1) 5 0
  | _ => false

/-- The level of sources 48 to 54: pipelines, planes, motifs, Beam outputs, sound, audio ports. -/
def Chip.levelB (c : Chip) (s : Nat) : Bool :=
  match s with
  | 48 => c.rf R.EYE_PIPE_STAT 8 0 != 0
  | 49 => (List.range 4).any (fun k => c.fieldEn R.GND_STICKY (8 * k + 7) (8 * k) R.GND_IRQ_EN k)
      || c.fieldEn R.GND_STICKY2 7 0 R.GND_IRQ_EN 4
  | 50 => c.both R.MTF_STICKY R.MTF_IRQ_EN 9 0
  | 51 => c.both (R.BMO_STICKY 0) (R.BMO_IRQ_EN 0) 6 0
  | 52 => c.both (R.BMO_STICKY 1) (R.BMO_IRQ_EN 1) 6 0
  | 53 => c.both R.SND_STICKY R.SND_IRQ_EN 5 0 || (c.rb R.SND_IRQ_EN 8 && (List.range 3).any fun k => c.rd (R.SND_END k) != 0)
  | 54 => c.both R.AUD_STICKY R.AUD_IRQ_EN 4 0
  | _ => false

/-- The level of sources 160 to 179. -/
def Chip.levelC (c : Chip) (s : Nat) : Bool :=
  match s with
  | 160 => c.rb R.MBX_ERR 31
  | 161 => c.rf R.MBX_STAT 3 1 != 0
  | 162 => (c.rd (R.UART_STAT 0)).toNat / 65536 &&& (c.rd (R.UART_IRQ_EN 0)).toNat % 64 != 0
  | 163 => (c.rd (R.UART_STAT 1)).toNat / 65536 &&& (c.rd (R.UART_IRQ_EN 1)).toNat % 64 != 0
  | 164 => c.both R.QSPI_STAT R.QSPI_IRQ_EN 1 1
  | 169 => c.both R.ADC_STAT R.ADC_IRQ_EN 1 0
  | 170 => fld (c.gpioIstat 0) 15 0 != 0
  | 171 => fld (c.gpioIstat 0) 31 16 != 0
  | 172 => fld (c.gpioIstat 1) 15 0 != 0
  | 173 => c.both R.LTN_STICKY R.LTN_IRQ_EN 9 0
  | 174 => c.both R.EMB_STICKY R.EMB_IRQ_EN 6 0
  | 175 => c.both R.AON_STICKY R.AON_IRQ_EN 4 0
  | 176 => c.both R.LCY_STICKY R.LCY_IRQ_EN 3 0 || (c.rb R.LCY_OP_STAT 8 && c.rb R.LCY_IRQ_EN 4)
  | 177 => c.both R.DBG_STICKY R.DBG_IRQ_EN 4 0
  | 178 => c.both R.DRN_STICKY R.DRN_IRQ_EN 5 0
  | 179 => c.rb R.SYS_ACCLOG 16 && c.rf R.SYS_ACCLOG 1 0 != 0
  | _ =>
    if 165 ≤ s ∧ s ≤ 168 then
      (c.rd (R.I2C_STAT (s - 165))).toNat / 2 % 64 &&& (c.rd (R.I2C_IRQ_EN (s - 165))).toNat % 64 != 0
    else false

/-- The level of a level source (R204); pulse and reserved sources read 0. -/
def Chip.level (c : Chip) (s : Nat) : Bool :=
  if s < 8 then false
  else if s < 16 then c.rb (R.YLX_STAT (s - 8)) 4
  else if s < 24 then c.rb (R.YLX_STAT (s - 16)) 3 || c.rf (R.YLX_RST_CAUSE (s - 16)) 3 2 != 0
  else if s < 32 then c.levelA s
  else if s < 40 then c.both (R.EYE_STICKY (s - 32)) (R.EYE_IRQ_EN (s - 32)) 12 0
  else if s < 48 then c.fieldEn (R.EYE_STICKY (s - 40)) 18 16 (R.EYE_IRQ_EN (s - 40)) 16
  else if s < 55 then c.levelB s
  else if s < 71 then
    let n := s - 55
    (c.rb (R.TMR_STAT n) 0 && c.rb (R.TMR_CTRL n) 4) || (c.rb (R.TMR_STAT n) 1 && c.rb (R.TMR_CTRL n) 5)
  else if s < 72 then c.rb R.TMR_TSTAT 0 && c.rb R.TMR_TCTRL 1
  else if s < 80 then
    let n := s - 72
    (c.rb (R.CHK_STAT n) 0 && c.rb (R.CHK_CTRL n) 8) || (c.rb (R.CHK_STAT n) 1 && c.rb (R.CHK_CTRL n) 9)
  else if s < 96 then
    let n := s - 80
    (c.rb (R.BOB_STAT n) 3 && c.rb (R.BOB_CTRL n) 4) || (c.rb (R.BOB_STAT n) 4 && c.rb (R.BOB_CTRL n) 5)
  else if s < 160 then false
  else c.levelC s

/-- A pulse source (R204): software and doorbells. -/
def pulseSource (s : Nat) : Bool := decide (s < 8) || (decide (96 ≤ s) && decide (s < 160))

/-- PEND of source s in the bank of core n (R206). -/
def Chip.pend (c : Chip) (n : Core) (s : Nat) : Bool := if pulseSource s then (c.core n).pulse.contains s else c.level s

/-- EN of source s in the bank of core n. -/
def Chip.irqEn (c : Chip) (n : Core) (s : Nat) : Bool := c.rb (R.IRQ_EN n (s / 32)) (s % 32)

/-- ACT of source s in the bank of core n. -/
def Chip.irqAct (c : Chip) (n : Core) (s : Nat) : Bool := c.rb (R.IRQ_ACT n (s / 32)) (s % 32)

/-- PRIO of source s in the bank of core n. -/
def Chip.irqPrio (c : Chip) (n : Core) (s : Nat) : Nat := c.rf (R.IRQ_PRIO n (s / 8)) (4 * (s % 8) + 3) (4 * (s % 8))

/-- Is source s eligible on core n (R207)? -/
def Chip.eligible (c : Chip) (n : Core) (s : Nat) : Bool :=
  c.irqEn n s && c.pend n s && !c.irqAct n s && decide (c.irqPrio n s < (c.core n).runPrio)
    && decide (c.irqPrio n s < min 16 (c.rf (R.IRQ_PMASK n) 4 0))

/-- The source that core n takes (R208): of the eligible ones the least PRIO, then the least number. -/
def Chip.selected (c : Chip) (n : Core) : Option Nat :=
  ((List.range 192).filter (c.eligible n)).foldl (fun m s => match m with
    | none => some s
    | some t => if c.irqPrio n s < c.irqPrio n t then some s else some t) none

/-- Core n takes its selected source (R210), and enters S mode at YLX_VBASE + 0x40 (R157). -/
def Chip.irqTake (n : Core) (c : Chip) : Chip :=
  match c.selected n with
  | none => c
  | some s =>
    let p := c.irqPrio n s
    let c := (c.wb (R.IRQ_ACT n (s / 32)) (s % 32) true).onCore n fun k => { k with
      stack := (s, k.runPrio) :: k.stack, runPrio := p, pulse := k.pulse.filter (· != s) }
    let c := (c.wr (R.YLX_EPC n) (c.core n).pc).enterS n false
    let v := c.rd (R.YLX_VBASE n) + 0x40
    c.onCore n fun k => { k with pc := v }

/-- A write to IRQ_EOI of the core's own bank (R212). -/
def Chip.irqEoi (n : Core) (v : Word) (c : Chip) : Chip :=
  match (c.core n).stack with
  | [] => c.sb (R.IRQ_STAT n) 1
  | (s, p) :: t =>
    let c := (c.wb (R.IRQ_ACT n (s / 32)) (s % 32) false).onCore n fun k => { k with stack := t, runPrio := p }
    c.sbIf (fld v 7 0 != s) (R.IRQ_STAT n) 0

/-- The bank of core n wakes it from WFE (R216): an eligible source, or with WAKEALL any enabled pending one. -/
def Chip.bankWakes (c : Chip) (n : Core) : Bool :=
  (List.range 192).any fun s => c.eligible n s || (c.rb (R.IRQ_SLEEP n) 0 && c.irqEn n s && c.pend n s)

/-! ### The IRQ page (R222) -/

/-- A store to a bank register at its offset; own tells the core's own bank from the peer view. -/
def Chip.storeBank (own : Bool) (n : Core) (off : Nat) (v : Word) (c : Chip) : Chip :=
  if off = 0x004 then if own then c.irqEoi n v else c
  else if 0x060 ≤ off ∧ off < 0x078 then
    let k := (off - 0x060) / 4
    c.onCore n fun s => { s with pulse := s.pulse.filter fun i => !(i / 32 == k && tb v (i % 32)) }
  else c.store (R.IRQ_CUR n + off) v

/-- What a bank register reads. -/
def Chip.readBank (n : Core) (off : Nat) (c : Chip) : Word :=
  let k := c.core n
  if off = 0x000 then
    match k.stack with
    | [] => w32 (2 ^ 15 + k.runPrio * 2 ^ 16)
    | (s, _) :: t => w32 (s + k.runPrio * 2 ^ 16 + (t.length + 1) * 2 ^ 24)
  else if 0x060 ≤ off ∧ off < 0x078 then w32 (ofBits ((List.range 32).map fun b => c.pend n (32 * ((off - 0x060) / 4) + b)))
  else if 0x100 ≤ off ∧ off < 0x140 then
    match k.stack.reverse[(off - 0x100) / 4]? with
    | some (s, p) => w32 (s + p * 2 ^ 8)
    | none => 0
  else c.rd (R.IRQ_CUR n + off)

/-- Software sources occur (R204). -/
def Chip.swSet (v : Word) (c : Chip) : Chip := forEach (setBitsOf 8 v.toNat) Chip.pulse c

/-- MSI vectors become pending (R219). -/
def Chip.msiSet (v : Word) (c : Chip) : Chip := c.wr R.IRQ_MSI_PEND (c.rd R.IRQ_MSI_PEND ||| v)

/-- A store to the IRQ page by core n (R202). -/
def Chip.storeIrq (n : Core) (a : Nat) (v : Word) (c : Chip) : Chip :=
  let off := a % 0x1000
  if off < 0x400 then c.storeBank true n off v
  else if off < 0x800 then c.storeBank false (c.core n).view (off - 0x400) v
  else if a = R.IRQ_VIEW then c.onCore n fun k => { k with view := ⟨fld v 2 0, Nat.mod_lt _ (by decide)⟩ }
  else if a = R.IRQ_SWSET then c.swSet v
  else if a = R.IRQ_MSI_SET then c.msiSet v
  else c

/-- What the IRQ page reads for core n. -/
def Chip.readIrq (n : Core) (a : Nat) (c : Chip) : Word :=
  let off := a % 0x1000
  if off < 0x400 then c.readBank n off
  else if off < 0x800 then c.readBank (c.core n).view (off - 0x400)
  else if a = R.IRQ_VIEW then w32 (c.core n).view.val
  else if R.IRQ_RAW 0 ≤ a ∧ a < R.IRQ_RAW 6 then
    w32 (ofBits ((List.range 32).map fun b => c.level (32 * ((a - R.IRQ_RAW 0) / 4) + b)))
  else c.rd a

/-! ### Commands -/

/-- Core n takes an interrupt at an instruction boundary, or within a WAITUNTIL, which it abandons with EPC at it (R176, R198,
R208, R210). -/
def execInterruptEntry (n : Core) (s : State) : Out :=
  let c := s.chip
  let c' := c.onCore n fun k => { k with wait := none }
  if c'.runs n ∧ c.rb (R.YLX_ESTAT n) 0 ∧ (c.selected n).isSome then (c'.irqTake n).next s else c.next s

/-- Core n writes IRQ_EOI (R212). -/
def execIrqEoi (n : Core) (v : Word) (s : State) : Out := (s.chip.irqEoi n v).next s

/-- IRQ_SWSET written (R204). -/
def execIrqSwset (v : Word) (s : State) : Out := (s.chip.swSet v).next s

/-- IRQ_MSI_SET written (R219). -/
def execIrqMsiSet (v : Word) (s : State) : Out := (s.chip.msiSet v).next s

end Sys2Proof.Machine
end

