-- ==== Sys2Proof/Machine/Crypto.lean ====
section
/-! DEFINITION. The verifier's arithmetic: SHA-256 (FIPS 180-4), HMAC, and ECDSA over P-256 (SEC 1), which R224, R708, R711
and R720 name. Byte strings are in the order that those standards define. -/

namespace Sys2Proof.Machine

/-! ### SHA-256 -/

/-- The round constants, in four parts. -/
def shaK0 : List Word := [0x428A2F98, 0x71374491, 0xB5C0FBCF, 0xE9B5DBA5, 0x3956C25B, 0x59F111F1, 0x923F82A4, 0xAB1C5ED5, 0xD807AA98, 0x12835B01, 0x243185BE, 0x550C7DC3, 0x72BE5D74, 0x80DEB1FE, 0x9BDC06A7, 0xC19BF174]
/-- See shaK0. -/
def shaK1 : List Word := [0xE49B69C1, 0xEFBE4786, 0x0FC19DC6, 0x240CA1CC, 0x2DE92C6F, 0x4A7484AA, 0x5CB0A9DC, 0x76F988DA, 0x983E5152, 0xA831C66D, 0xB00327C8, 0xBF597FC7, 0xC6E00BF3, 0xD5A79147, 0x06CA6351, 0x14292967]
/-- See shaK0. -/
def shaK2 : List Word := [0x27B70A85, 0x2E1B2138, 0x4D2C6DFC, 0x53380D13, 0x650A7354, 0x766A0ABB, 0x81C2C92E, 0x92722C85, 0xA2BFE8A1, 0xA81A664B, 0xC24B8B70, 0xC76C51A3, 0xD192E819, 0xD6990624, 0xF40E3585, 0x106AA070]
/-- See shaK0. -/
def shaK3 : List Word := [0x19A4C116, 0x1E376C08, 0x2748774C, 0x34B0BCB5, 0x391C0CB3, 0x4ED8AA4A, 0x5B9CCA4F, 0x682E6FF3, 0x748F82EE, 0x78A5636F, 0x84C87814, 0x8CC70208, 0x90BEFFFA, 0xA4506CEB, 0xBEF9A3F7, 0xC67178F2]

/-- The round constants. -/
def shaK : List Word := shaK0 ++ shaK1 ++ shaK2 ++ shaK3

/-- The eight working words. -/
structure Sha where
  a : Word
  b : Word
  c : Word
  d : Word
  e : Word
  f : Word
  g : Word
  h : Word

/-- The initial hash value. -/
def shaInit : Sha := ⟨0x6A09E667, 0xBB67AE85, 0x3C6EF372, 0xA54FF53A, 0x510E527F, 0x9B05688C, 0x1F83D9AB, 0x5BE0CD19⟩

/-- One round with constant k and message word w. -/
def Sha.round (s : Sha) (k w : Word) : Sha :=
  let s1 := s.e.rotateRight 6 ^^^ s.e.rotateRight 11 ^^^ s.e.rotateRight 25
  let ch := (s.e &&& s.f) ^^^ (~~~s.e &&& s.g)
  let t1 := s.h + s1 + ch + k + w
  let s0 := s.a.rotateRight 2 ^^^ s.a.rotateRight 13 ^^^ s.a.rotateRight 22
  let maj := (s.a &&& s.b) ^^^ (s.a &&& s.c) ^^^ (s.b &&& s.c)
  ⟨t1 + (s0 + maj), s.a, s.b, s.c, s.d + t1, s.e, s.f, s.g⟩

/-- The rounds of a block: the message words to come stand in a window of 16. -/
def Sha.rounds : List Word → List Word → Sha → Sha
  | [], _, s => s
  | k :: ks, w, s =>
    let x (i : Nat) : Word := w.getD i 0
    let s0 := (x 1).rotateRight 7 ^^^ (x 1).rotateRight 18 ^^^ (x 1 >>> 3)
    let s1 := (x 14).rotateRight 17 ^^^ (x 14).rotateRight 19 ^^^ (x 14 >>> 10)
    Sha.rounds ks (w.drop 1 ++ [x 0 + s0 + x 9 + s1]) (s.round k (x 0))

/-- The words of a list of bytes, big-endian. -/
def beWords (bs : List Byte) : Nat → List Word
  | 0 => []
  | n + 1 => w32 (beNat (bs.take 4)) :: beWords (bs.drop 4) n

/-- One block of 64 bytes. -/
def Sha.block (s : Sha) (bs : List Byte) : Sha :=
  let t := Sha.rounds shaK (beWords bs 16) s
  ⟨s.a + t.a, s.b + t.b, s.c + t.c, s.d + t.d, s.e + t.e, s.f + t.f, s.g + t.g, s.h + t.h⟩

/-- n blocks. -/
def Sha.blocks : Nat → List Byte → Sha → Sha
  | 0, _, s => s
  | n + 1, bs, s => Sha.blocks n (bs.drop 64) (s.block (bs.take 64))

/-- SHA-256 of a byte string. -/
def sha256 (m : List Byte) : List Byte :=
  let n := m.length
  let z := (119 - n % 64) % 64
  let p := m ++ [0x80#8] ++ List.replicate z 0#8 ++ beBytes 8 (8 * n)
  let s := Sha.blocks (p.length / 64) p shaInit
  [s.a, s.b, s.c, s.d, s.e, s.f, s.g, s.h].flatMap fun w => beBytes 4 w.toNat

/-- HMAC-SHA-256 with a key of at most 64 bytes. -/
def hmac256 (key m : List Byte) : List Byte :=
  let k := key ++ List.replicate (64 - key.length) 0#8
  sha256 (k.map (· ^^^ 0x5C#8) ++ sha256 (k.map (· ^^^ 0x36#8) ++ m))

/-! ### P-256 -/

/-- The field prime. -/
def p256P : Nat := 0xFFFFFFFF00000001000000000000000000000000FFFFFFFFFFFFFFFFFFFFFFFF
/-- The order of the base point. -/
def p256N : Nat := 0xFFFFFFFF00000000FFFFFFFFFFFFFFFFBCE6FAADA7179E84F3B9CAC2FC632551
/-- The curve's coefficient b. -/
def p256B : Nat := 0x5AC635D8AA3A93E7B3EBBD55769886BC651D06B0CC53B0F63BCE3C3E27D2604B
/-- The base point's x. -/
def p256Gx : Nat := 0x6B17D1F2E12C4247F8BCE6E563A440F277037D812DEB33A0F4A13945D898C296
/-- The base point's y. -/
def p256Gy : Nat := 0x4FE342E2FE1A7F9B8EE7EB4A7C0F9E162BCE33576B315ECECBB6406837BF51F5

/-- a to the power that bits spell, lowest first, modulo m. -/
def powBits (m : Nat) : List Bool → Nat → Nat → Nat
  | [], _, r => r
  | b :: t, a, r => powBits m t (a * a % m) (if b then r * a % m else r)

/-- The inverse modulo a prime m. -/
def invMod (m a : Nat) : Nat := powBits m (bitsOf 256 (m - 2)) (a % m) 1

/-- A point of the curve; none is the point at infinity. -/
abbrev EcPoint := Option (Nat × Nat)

/-- The sum of two points. -/
def ecAdd : EcPoint → EcPoint → EcPoint
  | none, q => q
  | p, none => p
  | some (x1, y1), some (x2, y2) =>
    if x1 = x2 ∧ (y1 + y2) % p256P = 0 then none
    else
      let l := if x1 = x2 then (3 * x1 * x1 + (p256P - 3)) * invMod p256P (2 * y1) % p256P
        else (y2 + p256P - y1) * invMod p256P (x2 + p256P - x1) % p256P
      let x3 := (l * l + 2 * p256P - x1 - x2) % p256P
      some (x3, (l * (x1 + p256P - x3) + p256P - y1) % p256P)

/-- A point times the number that bits spell, lowest first. -/
def ecMul : List Bool → EcPoint → EcPoint → EcPoint
  | [], _, r => r
  | b :: t, p, r => ecMul t (ecAdd p p) (if b then ecAdd r p else r)

/-- Coordinates that lie on the curve. -/
def onCurve (x y : Nat) : Bool :=
  decide (x < p256P) && decide (y < p256P) && y * y % p256P == (x * x * x + (p256P - 3) * x + p256B) % p256P

/-- Does a signature (r then s) of a message verify with a public key (X then Y)? Both are 64 bytes (R224, R225). -/
def ecdsaOk (pub sig m : List Byte) : Bool :=
  let x := beNat (pub.take 32)
  let y := beNat (pub.drop 32)
  let r := beNat (sig.take 32)
  let s := beNat (sig.drop 32)
  let e := beNat (sha256 m)
  onCurve x y && decide (1 ≤ r) && decide (r < p256N) && decide (1 ≤ s) && decide (s < p256N) &&
    let w := invMod p256N s
    match ecAdd (ecMul (bitsOf 256 (e * w % p256N)) (some (p256Gx, p256Gy)) none)
        (ecMul (bitsOf 256 (r * w % p256N)) (some (x, y)) none) with
    | some (px, _) => px % p256N == r
    | none => false

end Sys2Proof.Machine
end

