-- ==== Sys2Proof/Machine/Lifecycle.lean ====
section
/-! DEFINITION. Life cycle, fuses and keys, and the JTAG port with debug access beside the commands to a core (25). -/

namespace Sys2Proof.Machine

/-- The life-cycle unit changed. -/
def Chip.onLcy (f : LcySt → LcySt) (c : Chip) : Chip := { c with lcy := f c.lcy }

/-- The JTAG port changed. -/
def Chip.onDbg (f : DbgSt → DbgSt) (c : Chip) : Chip := { c with dbg := f c.dbg }

/-! ### Fuses and what they mean (R703 to R706) -/

/-- Group numbers in use (R703). -/
def groupUsed (g : Nat) : Bool := decide (g < 5) || (decide (8 ≤ g) && decide (g < 47))

/-- The fuses of a group that are blown. -/
def Chip.group (c : Chip) (g : Nat) : BitVec 5 :=
  if groupUsed g then c.lcy.groups.toList.getD g 0 else 0

/-- How many fuses of a group are blown. -/
def Chip.blown (c : Chip) (g : Nat) : Nat := (bitsOf 5 (c.group g).toNat).count true

/-- A group counts as set (R703). -/
def Chip.isSet (c : Chip) (g : Nat) : Bool := decide (3 ≤ c.blown g)

/-- The hash fuses of a key slot. -/
def Chip.slotHash (c : Chip) (k : Nat) : BitVec 256 := c.lcy.hash.toList.getD k 0

/-- The key hash of a slot as bytes, in hash order. -/
def Chip.slotHashBytes (c : Chip) (k : Nat) : List Byte := leBytes 32 (c.slotHash k).toNat

/-- A fuse is blown. -/
def Chip.blowFuse (f : Fuse) (c : Chip) : Chip :=
  if 100 ≤ f.1 then
    let k : Fin 4 := ⟨(f.1 - 100) % 4, Nat.mod_lt _ (by decide)⟩
    c.onLcy fun l => { l with hash := upd l.hash k (· ||| BitVec.ofNat 256 (2 ^ f.2)) }
  else if h : f.1 < 47 then c.onLcy fun l => { l with groups := upd l.groups ⟨f.1, h⟩ (· ||| BitVec.ofNat 5 (2 ^ f.2)) }
  else c

/-- The life-cycle state's code: 1 BLANK to 6 RETIRED (R704). -/
def Chip.lcyState (c : Chip) : Nat := 1 + ((List.range 5).filter c.isSet).length

/-- The anti-rollback count (R705). -/
def Chip.arbCount (c : Chip) : Nat := ((List.range 31).takeWhile fun u => c.isSet (16 + u)).length

/-- Key slot k is in force (R705). -/
def Chip.keyInForce (c : Chip) (k : Nat) : Bool := decide (k < 4) && c.isSet (8 + k) && !c.isSet (12 + k)

/-- A public key is the one of slot k, in force (R709, R720). -/
def Chip.keyOk (c : Chip) (k : Nat) (pub : List Byte) : Bool := c.keyInForce k && sha256 pub == c.slotHashBytes k

/-! ### Authorisation records (R707 to R710) -/

/-- An authorisation record's bytes [i, i + n). -/
def part (r : List Byte) (i n : Nat) : List Byte := (r.drop i).take n

/-- R707: OP and TARGET in a state. -/
def opAllowed (st op target : Nat) : Bool :=
  match op with
  | 0 => (st == 1 && target == 2) || (st == 2 && target == 3) || (st == 3 && (target == 4 || target == 5)) ||
      (st == 4 && target == 5) || (st == 5 && target == 6)
  | 1 => (st == 2 || st == 3) && target == st
  | _ => (st == 2 || st == 3 || st == 4) && target == st

/-- R709, check 6. -/
def Chip.argOk (c : Chip) (op arg signer : Nat) (newHash : BitVec 256) : Bool :=
  match op with
  | 0 => true
  | 1 => decide (arg < 4) && !c.isSet (8 + arg) && (c.slotHash arg &&& ~~~newHash) == 0
  | 2 => c.keyInForce arg && arg != signer && decide (1 < ((List.range 4).filter c.keyInForce).length)
  | _ => decide (c.arbCount < arg) && decide (arg ≤ c.arbCount + 3) && decide (arg ≤ 31)

/-- The checks of R709 on a record of 192 bytes: 0, or the RESULT of the first that fails. -/
def Chip.recordCheck (c : Chip) (r : List Byte) : Nat :=
  let op := leNat (part r 4 1)
  let target := leNat (part r 5 1)
  let arg := leNat (part r 6 1)
  let signer := leNat (part r 7 1)
  let pub := part r 64 64
  if leNat (part r 0 4) ≠ 0x4143594C ∨ 3 < op ∨ leNat (part r 48 16) ≠ 0 ∨ (op ≠ 1 ∧ leNat (part r 16 32) ≠ 0) then 1
  else if leNat (part r 8 8) ≠ Config.serial.toNat then 2
  else if !opAllowed c.lcyState op target then 3
  else if c.lcyState ≠ 1 ∧ !c.keyOk signer pub then 4
  else if !ecdsaOk pub (part r 128 64) (part r 0 128) then 5
  else if !c.argOk op arg signer (BitVec.ofNat 256 (leNat (part r 16 32))) then 6
  else 0

/-- What an operation blows (R710). -/
def Chip.opOf (c : Chip) (r : List Byte) : LcyOp :=
  let op := leNat (part r 4 1)
  let target := leNat (part r 5 1)
  let arg := leNat (part r 6 1)
  let h (bs : List Byte) : BitVec 256 := BitVec.ofNat 256 (leNat bs)
  match op with
  | 0 =>
    if c.lcyState = 1 then { hash := some (0, h (sha256 (part r 64 64))), groups := [8, 0] }
    else if c.lcyState = 3 ∧ target = 5 then { hash := none, groups := [2, 3] }
    else { hash := none, groups := [c.lcyState - 1] }
  | 1 => { hash := some (arg, h (part r 16 32)), groups := [8 + arg] }
  | 2 => { hash := none, groups := [12 + arg] }
  | _ => { hash := none, groups := (List.range (arg - c.arbCount)).map fun i => 16 + c.arbCount + i }

/-! ### The intent record (R711) -/

/-- The device journal key. -/
def journalKeyBytes : List Byte := (List.range 32).map Config.journalKey

/-- The intent record of an operation: 64 bytes. -/
def Chip.intent (c : Chip) (r : List Byte) (o : LcyOp) : List Byte :=
  let g (i : Nat) : Byte := match o.groups[i]? with
    | some x => BitVec.ofNat 8 x
    | none => 0xFF
  let m := leBytes 4 0x4E544E49 ++ part r 4 1 ++ [g 0, g 1, g 2] ++ leBytes 8 Config.serial.toNat ++ leBytes 8 c.time.toNat
    ++ (sha256 r).take 8
  m ++ hmac256 journalKeyBytes m

/-- The life-cycle journal as bytes. -/
def Chip.lcJournal (c : Chip) : List Byte := (List.range 16).flatMap fun k => leBytes 4 (c.rd (R.LCY_JRN k)).toNat

/-- The life-cycle journal written. -/
def Chip.setLcJournal (bs : List Byte) (c : Chip) : Chip :=
  forEach (List.range 16) (fun k c => c.wr (R.LCY_JRN k) (w32 (leNat (part bs (4 * k) 4)))) c

/-! ### The sequencer (R709 to R714) -/

/-- LCY_STATE.BUSY (R714). -/
def Chip.lcyBusy (c : Chip) : Bool := c.lcy.op.isSome

/-- LCY_OP written with GO: the sequencer starts on the record (R709), jrnBad being a read-back of the journal that differs (R711,
step 1), which leaves there what reads back. A GO while it runs is ignored (R714). -/
def Chip.lcyGo (v : Word) (jrnBad : Bool) (c : Chip) : Chip :=
  if c.lcyBusy then c
  else
    let c := c.store R.LCY_OP v
    let r := c.vbytes (c.rf R.LCY_OP 25 6 * 64) 192
    let e := c.recordCheck r
    if e ≠ 0 then c.wf R.LCY_OP_STAT 3 0 e
    else if jrnBad then
      let (k, c) := c.fresh
      (c.setLcJournal ((List.range 64).map (Config.badJournal k))).wf R.LCY_OP_STAT 3 0 7
    else
      let o := c.opOf r
      (c.setLcJournal (c.intent r o)).onLcy fun l => { l with op := some o }

/-- The hash fuses that an operation pulses, in order. -/
def Chip.hashFuses (c : Chip) (o : LcyOp) : List Fuse :=
  match o.hash with
  | none => []
  | some (k, h) => ((List.range 256).filter fun i => tb h i && !tb (c.slotHash k) i).map fun i => (100 + k, i)

/-- The fuses of a group that are not blown, in order. -/
def Chip.groupFuses (c : Chip) (g : Nat) : List Fuse := ((List.range 5).filter fun i => !tb (c.group g) i).map fun i => (g, i)

/-- The groups of an operation are blown, but for the fuses in bad, until one does not come out set (R711, R712). -/
def Chip.blowGroups (bad : List Fuse) : List Nat → Chip → Bool × Chip
  | [], c => (true, c)
  | g :: t, c =>
    let c := forEach ((c.groupFuses g).filter fun f => !bad.contains f) Chip.blowFuse c
    if !c.isSet g then (false, c)
    else Chip.blowGroups bad t (c.sbIf (decide (c.blown g < 5)) R.LCY_STICKY 2)

/-- DBG_STAT.ACCESS: 0 OPEN, 1 LOCKED, 2 GRANTED, 3 NEVER (R718). -/
def Chip.access (c : Chip) : Nat :=
  match c.lcyState with
  | 1 => 0
  | 4 => 3
  | 6 => 3
  | _ => if c.dbg.level.isSome then 2 else 1

/-- The level in force: 2 while OPEN (R718). -/
def Chip.dbgLevel (c : Chip) : Nat :=
  match c.access with
  | 0 => 2
  | 2 => c.dbg.level.getD 0
  | _ => 0

/-- A grant ends (R721): halted cores resume, and REVOKED sets. -/
def Chip.grantEnd (c : Chip) : Chip :=
  if c.dbg.level.isNone then c
  else
    let c := (c.onDbg fun d => { d with level := none }).sb R.DBG_STICKY 4
    forEach (List.finRange 8) (fun n c => c.onCore n fun k => { k with halted := false }) c

/-- The sequencer ends its operation, the fuses in bad not sensing blown after their pulses (R711, R712). -/
def Chip.lcyEnd (bad : List Fuse) (c : Chip) : Chip :=
  match c.lcy.op with
  | none => c
  | some o =>
    let hs := c.hashFuses o
    let c := forEach (hs.takeWhile fun f => !bad.contains f) Chip.blowFuse c
    let (ok, c) := if hs.any bad.contains then (false, c) else c.blowGroups bad o.groups
    let c := c.onLcy fun l => { l with op := none }
    let c := if ok then ((c.setLcJournal []).wf R.LCY_OP_STAT 3 0 0).sb R.LCY_OP_STAT 8
      else (c.wf R.LCY_OP_STAT 3 0 8).sb R.LCY_STICKY 3
    if c.access = 3 then c.grantEnd else c

/-- A cold reset, a brownout or a loss of VIN stops the sequencer between two pulses (R714): how many fuses it has blown by
then is a free value. -/
def Chip.lcyStop (c : Chip) : Chip :=
  match c.lcy.op with
  | none => c
  | some o =>
    let fs := c.hashFuses o ++ o.groups.flatMap c.groupFuses
    let (k, c) := c.fresh
    (forEach (fs.take (Config.tornFuses k)) Chip.blowFuse c).onLcy fun l => { l with op := none }

/-! ### The start after an interrupted operation (R706, R715) -/

/-- A group is completed, but for the fuses in bad; the answer is whether it reads as set. -/
def Chip.complete (bad : List Fuse) (g : Nat) (c : Chip) : Bool × Chip :=
  let fs := c.groupFuses g
  if fs.isEmpty then (true, c)
  else
    let c := (forEach (fs.filter fun f => !bad.contains f) Chip.blowFuse c).sb R.LCY_STICKY 0
    (c.isSet g, c)

/-- Groups completed in order; the answer is whether all read as set. -/
def Chip.completeAll (bad : List Fuse) : List Nat → Chip → Bool × Chip
  | [], c => (true, c)
  | g :: t, c =>
    let (ok, c) := c.complete bad g
    let (ok2, c) := Chip.completeAll bad t c
    (ok && ok2, c)

/-- The groups that R706 completes in a chain: every one below the highest set group, where one of them is not set. -/
def Chip.chainBelow (c : Chip) (chain : List Nat) : List Nat :=
  match chain.reverse.dropWhile fun g => !c.isSet g with
  | [] => []
  | _ :: lower => if lower.any fun g => !c.isSet g then lower.reverse else []

/-- Step 3 of the boot (R715); the answer is false where a completion fails (LCY_FAULT). -/
def Chip.lcyBoot (bad : List Fuse) (c : Chip) : Bool × Chip :=
  let j := c.lcJournal
  let valid : Bool := leNat (part j 0 4) == 0x4E544E49 && leNat (part j 8 8) == Config.serial.toNat
    && hmac256 journalKeyBytes (part j 0 32) == part j 32 32
  let gs := ((part j 5 3).map (·.toNat)).filter groupUsed
  let started := gs.any fun g => decide (0 < c.blown g)
  let (ok1, c) :=
    if valid && started then c.completeAll bad (gs.dropWhile fun g => decide (c.blown g = 5))
    else (true, c.sbIf valid R.LCY_STICKY 1)
  let (ok2, c) := c.completeAll bad ((List.range 47).filter fun g => decide (3 ≤ c.blown g) && decide (c.blown g < 5))
  let (ok3, c) := c.completeAll bad (c.chainBelow (List.range 5))
  let (ok4, c) := c.completeAll bad (c.chainBelow ((List.range 31).map (16 + ·)))
  (ok1 && ok2 && ok3 && ok4, c.setLcJournal [])

/-! ### Debug access (R718 to R721) -/

/-- Capture-DR of DBG_CHAL: a new challenge of 32 bytes (R719). -/
def Chip.newChallenge (c : Chip) : Chip :=
  let (k, c) := c.fresh
  let ch := (List.range 16).map (Config.nonce k) ++ leBytes 8 Config.serial.toNat ++ leBytes 8 c.lcyState
  (c.onDbg fun d => { d with ir := 0x10, challenge := some (ch, c.time) }).emit (.tdo 256 (leNat ch))

/-- 60 s in ticks: a response answers only a challenge captured at most so long before (R719). -/
def challengeTicks : Nat := 60 * 96000000

/-- Update-DR of DBG_RESP: the check starts, and the challenge is used up (R720). -/
def Chip.response (r : List Byte) (c : Chip) : Chip :=
  if c.dbg.checking.isSome then c
  else
    let t := c.time
    c.onDbg fun d => { d with
      ir := 0x11, challenge := none
      checking := some (r, (d.challenge.filter fun x => decide ((t - x.2).toNat ≤ challengeTicks)).map (·.1)) }

/-- Does a response pass (R719, R720)? -/
def Chip.responseOk (c : Chip) (r : List Byte) (ch : Option (List Byte)) : Bool :=
  match ch with
  | none => false
  | some chal =>
    let level := leNat (part r 0 1)
    !c.dbg.blocked && c.access == 1 && (level == 1 || level == 2)
      && leNat (part r 2 2) == 0 && c.keyOk (leNat (part r 1 1)) (part r 4 64)
      && ecdsaOk (part r 4 64) (part r 68 64) (chal ++ part r 0 68)

/-- The check of a response ends (R720). -/
def Chip.responseEnd (c : Chip) : Chip :=
  match c.dbg.checking with
  | none => c
  | some (r, ch) =>
    let ok := c.responseOk r ch
    let c := c.onDbg fun d => { d with checking := none }
    if ok then (c.onDbg fun d => { d with level := some (leNat (part r 0 1)) }).sb R.DBG_STICKY 0
    else
      let c := (c.onDbg fun d => { d with fails := satInc 3 d.fails }).sb R.DBG_STICKY 1
      if c.dbg.fails = 3 ∧ ¬c.dbg.blocked then (c.onDbg fun d => { d with blocked := true }).sb R.DBG_STICKY 2 else c

/-! ### The JTAG port (R716, R717) -/

/-- The JTAG port responds: not in lockout (R732), and only while its balls' bank, VIO_C, is good (R716, R729). -/
def Chip.jtagOn (c : Chip) : Bool := c.rst.phase != .lockout && c.rb R.SYS_VIO 2

/-- The TAP holds an instruction. -/
def Chip.setIr (i : BitVec 5) (c : Chip) : Chip := c.onDbg fun d => { d with ir := i }

/-- The boundary register captures the balls and takes what drives them; what it captured leaves at TDO (R716, R717). -/
def Chip.boundaryScan (cap load : BitVec 258) (c : Chip) : Chip :=
  (c.onDbg fun d => { d with captured := cap, drive := load }).emit (.tdo 258 cap.toNat)

/-- EXTEST is selected, with or without a scan (R717). -/
def Chip.extest (scan : Option (BitVec 258 × BitVec 258)) (c : Chip) : Chip :=
  match scan with
  | none => c.setIr 0x00
  | some x => (c.setIr 0x00).boundaryScan x.1 x.2

/-- DBG_IDCODE (R726). -/
def idcode : Nat := 0xB * 2 ^ 28 + 0x0960 * 2 ^ 12 + Config.mfr.toNat * 2 + 1

/-- What overrides the boundary balls (R717): nothing, the boundary register, or high impedance. -/
inductive BallMode where
  | normal
  | boundary (v : BitVec 258)
  | highZ
deriving DecidableEq, Repr

/-- See BallMode. -/
def Chip.ballMode (c : Chip) : BallMode :=
  if c.dbg.ir = 0x00 ∨ c.dbg.ir = 0x03 then .boundary c.dbg.drive
  else if c.dbg.ir = 0x04 then .highZ
  else .normal

/-! ### The LCY and DBG pages (R725, R726) -/

/-- A store lands in a register of the LCY page. -/
def Chip.storeLcy (a : Nat) (v : Word) (c : Chip) : Chip := if a = R.LCY_OP ∧ tb v 31 then c.lcyGo v false else c.store a v

/-- What a register of the LCY page reads; GO reads 1 while its operation runs (R6). -/
def Chip.readLcy (a : Nat) (c : Chip) : Word :=
  let bitsW (f : Nat → Bool) : Nat := ofBits ((List.range 4).map f)
  if a = R.LCY_STATE then w32 (c.lcyState + b2n c.lcyBusy * 2 ^ 8)
  else if a = R.LCY_OP then setBit (c.rd a) 31 c.lcyBusy
  else if a = R.LCY_ARB then w32 c.arbCount
  else if a = R.LCY_KEYS then
    w32 (bitsW (fun k => c.isSet (8 + k)) + bitsW (fun k => c.isSet (12 + k)) * 2 ^ 4 + bitsW c.keyInForce * 2 ^ 8)
  else if a = R.LCY_GRP then
    let g := c.rf R.LCY_GRP_SEL 5 0
    w32 (c.blown g + b2n (c.isSet g) * 8)
  else if a = R.LCY_SERIAL_LO then w32 Config.serial.toNat
  else if a = R.LCY_SERIAL_HI then w32 (Config.serial.toNat / 2 ^ 32)
  else if a = R.LCY_PROV0 then w32 0x09601C7A
  else if a = R.LCY_PROV1 then w32 0x09601C7A
  else if a = R.LCY_PROV2 then w32 Config.mfr.toNat
  else if 0x40001080 ≤ a ∧ a < 0x40001100 then
    let i := (a - 0x40001080) / 4
    w32 (leNat (part (c.slotHashBytes (i / 8)) (4 * (i % 8)) 4))
  else c.rd a

/-- A store lands in a register of the DBG page. -/
def Chip.storeDbg (a : Nat) (v : Word) (c : Chip) : Chip :=
  if a = R.DBG_CTRL then c.when (tb v 0) Chip.grantEnd else c.store a v

/-- What a register of the DBG page reads. -/
def Chip.readDbg (a : Nat) (c : Chip) : Word :=
  if a = R.DBG_STAT then
    w32 (c.access + c.dbgLevel * 4 + c.dbg.fails * 16 + b2n c.dbg.blocked * 64 + b2n c.dbg.checking.isSome * 128)
  else if a = R.DBG_HALTED then w32 (ofBits ((List.finRange 8).map fun n => (c.core n).halted))
  else if a = R.DBG_IDCODE then w32 idcode
  else c.rd a

/-! ### Commands -/

/-- LCY_OP written with GO (R709). -/
def execLcyOpGo (v : Word) (jrnBad : Bool) (s : State) : Out := (s.chip.lcyGo (setBit v 31 true) jrnBad).next s

/-- The sequencer ends (R711, R712). -/
def execLcyOperationEnd (bad : List (Nat × Nat)) (s : State) : Out := (s.chip.lcyEnd bad).next s

/-- Test-Logic-Reset (R716). -/
def execTapReset (s : State) : Out := (s.chip.when s.chip.jtagOn (Chip.setIr 0x02)).next s

/-- EXTEST is selected; a scan captures the balls and loads the register that drives them (R717). -/
def execJtagExtest (scan : Option (BitVec 258 × BitVec 258)) (s : State) : Out :=
  (s.chip.when s.chip.jtagOn (Chip.extest scan)).next s

/-- SAMPLE/PRELOAD captures and loads the boundary register (R716). -/
def execJtagSamplePreload (cap load : BitVec 258) (s : State) : Out :=
  (s.chip.when s.chip.jtagOn fun c => (c.setIr 0x01).boundaryScan cap load).next s

/-- IDCODE is selected and read (R716). -/
def execJtagIdcode (s : State) : Out := (s.chip.when s.chip.jtagOn fun c => (c.setIr 0x02).emit (.tdo 32 idcode)).next s

/-- CLAMP is selected (R717). -/
def execJtagClamp (s : State) : Out := (s.chip.when s.chip.jtagOn (Chip.setIr 0x03)).next s

/-- HIGHZ is selected (R717). -/
def execJtagHighz (s : State) : Out := (s.chip.when s.chip.jtagOn (Chip.setIr 0x04)).next s

/-- BYPASS is selected, by its code or by one that no instruction has (R716). -/
def execJtagBypass (code : BitVec 5) (s : State) : Out :=
  let used : Bool := [0x00#5, 0x01#5, 0x02#5, 0x03#5, 0x04#5, 0x10#5, 0x11#5, 0x12#5].contains code
  (s.chip.when s.chip.jtagOn (Chip.setIr (if used then 0x1F else code))).next s

/-- Capture-DR of DBG_CHAL (R719). -/
def execDbgChal (s : State) : Out := (s.chip.when s.chip.jtagOn Chip.newChallenge).next s

/-- Update-DR of DBG_RESP (R720). -/
def execDbgResp (resp : List Byte) (s : State) : Out := (s.chip.when s.chip.jtagOn (Chip.response resp)).next s

/-- The check of a response ends (R720). -/
def execDbgResponseCheckEnd (s : State) : Out := s.chip.responseEnd.next s

/-- DBG_CTRL.REVOKE written 1 (R721). -/
def execDbgRevoke (s : State) : Out := s.chip.grantEnd.next s

end Sys2Proof.Machine
end

