-- ==== Sys2Proof/Machine/Boot.lean ====
section
/-! DEFINITION. The boot ROM (08): header and slot checks, the sequence of R228, handover, ROM_LOCK and host recovery. -/

namespace Sys2Proof.Machine

/-- The reset controller and the ROM changed. -/
def Chip.onRst (f : RstSt → RstSt) (c : Chip) : Chip := { c with rst := f c.rst }

/-! ### Header and body checks (R224 to R227) -/

/-- A little-endian field of a header. -/
def hdrField (h : List Byte) (off n : Nat) : Nat := leNat (part h off n)

/-- SEQ of a header. -/
def hdrSeq (h : List Byte) : Nat := hdrField h 0x08 4
/-- LENGTH of a header. -/
def hdrLength (h : List Byte) : Nat := hdrField h 0x0C 4
/-- LOAD of a header. -/
def hdrLoad (h : List Byte) : Nat := hdrField h 0x10 4
/-- ENTRY of a header. -/
def hdrEntry (h : List Byte) : Nat := hdrField h 0x14 4

/-- R224 on LENGTH, LOAD and ENTRY. -/
def loadOk (h : List Byte) : Bool :=
  let len := hdrLength h
  let load := hdrLoad h
  let entry := hdrEntry h
  len % 4 == 0 && decide (4 ≤ len) && decide (len ≤ 57344) && load % 4 == 0 && decide (0x00100000 ≤ load)
    && decide (load + len ≤ 0x0010E000) && entry % 4 == 0 && decide (load ≤ entry) && decide (entry < load + len)

/-- The status of a header by R225 and R227, 1 (VALID) where it is header-valid (R242's codes). -/
def Chip.headerStatus (c : Chip) (h : List Byte) : Nat :=
  let blank : Bool := c.lcyState == 1
  let pub := part h 0x40 64
  if hdrField h 0 4 ≠ 0x54424948 then 2
  else if hdrField h 4 2 ≠ 1 ∨ hdrField h 6 2 ≠ 0x100 ∨ hdrField h 0x18 8 ≠ 0 then 3
  else if !loadOk h then 4
  else if !blank && !(List.range 4).any (fun k => c.keyOk k pub) then 5
  else if !ecdsaOk pub (part h 0x80 64) (part h 0 128) then 6
  else if !blank && decide (hdrSeq h / 2 ^ 24 < c.arbCount) then 7
  else 1

/-- The body of a header-valid slot passes its hash (R225). -/
def bodyOk (h body : List Byte) : Bool := sha256 (body.take (hdrLength h)) == part h 0x20 32

/-! ### The ROM's sequence (R228) -/

/-- The ROM's code on core n leaves the registers that the spec does not name at free values. -/
def Chip.romScratch (n : Core) (c : Chip) : Chip :=
  let (k, c) := c.fresh
  c.onCore n fun s => { s with
    g := s.g.mapFinIdx fun i v _ => if i < 4 then v else Config.romReg k i
    p1 := Config.romPred k 1, p2 := Config.romPred k 2, p3 := Config.romPred k 3 }

/-- The ROM work area holds nothing that the image can rely on (R232): its bytes are free. -/
def Chip.workArea (c : Chip) : Chip :=
  let (k, c) := c.fresh
  c.memWrite (lmBase 0 + 0xE000) ((List.range 0x2000).map fun i => Config.undefByte k (lmBase 0 + 0xE000 + i))

/-- Flash address of slot i: 0 A, 1 B (R223). -/
def slotAddr (i : Nat) : Nat := 0x10000 * i

/-- Where the ROM puts the header of slot i, 2 the host's, and its 4 KiB read buffer in the work area (assumption 108). -/
def workHeader (i : Nat) : Nat := lmBase 0 + 0xE000 + 0x100 * i
/-- See workHeader. -/
def workBuffer : Nat := lmBase 0 + 0xF000

/-- Bytes are copied into local memory, and what a check then sees is the copy (R226). -/
def Chip.copyIn (key : Nat) (bs : List Byte) (c : Chip) : List Byte × Chip :=
  let c := c.memWrite key bs
  (c.bytes key bs.length, c)

/-- A body is copied to its LOAD in core 0's local memory (R226, R228): the copy. -/
def Chip.loadBody (h body : List Byte) (c : Chip) : List Byte × Chip :=
  c.copyIn (lmBase 0 + (hdrLoad h - 0x00100000)) (body.take (hdrLength h))

/-- A body is read through the 4 KiB buffer of the work area (R228 step 8): what the copies held. -/
def Chip.bufferBody : Nat → List Byte → Chip → List Byte × Chip
  | 0, _, c => ([], c)
  | f + 1, bs, c =>
    if bs.isEmpty then ([], c)
    else
      let (d, c) := c.copyIn workBuffer (bs.take 4096)
      let (t, c) := Chip.bufferBody f (bs.drop 4096) c
      (d ++ t, c)

/-- A core's interrupt bank is in the state of R218: registers, stack, running priority and pulses. -/
def Chip.bankStart (n : Core) (c : Chip) : Chip :=
  (c.bankReset n).onCore n fun k => { k with stack := [], runPrio := 16, pulse := [] }

/-- The ROM hands over: ENTRY, g0 to g3 and the time are set, and core 0 branches to 0x0000_7FE0 (R232). -/
def Chip.handover (slot : Nat) (h : List Byte) (c : Chip) : Chip :=
  let c := c.wr (R.YLX_ENTRY 0) (w32 (hdrEntry h))
  let stat := c.rd R.SYS_BOOT_STAT
  let c := c.wr R.SYS_BOOT_TIME c.timeLo
  let c := (c.workArea.romScratch 0).bankStart 0
  let c := c.onCore 0 fun k => { k with
    g := ((((k.g.set 0 (w32 slot)).set 1 (w32 (hdrSeq h))).set 2 stat).set 3 0), pc := 0x00007FE0
    asleep := false, parked := false }
  (c.onRst fun r => { r with rom := 0 }).onTirba fun t => { t with
    runHeader := h
    bootSlot := slot, runSlot := slot, runSeq := w32 (hdrSeq h), runEntry := w32 (hdrEntry h), runLoad := hdrLoad h
    runLen := hdrLength h }

/-- A field of SYS_BOOT_STAT: the status of slot 0 A, 1 B, 2 host (R242). -/
def Chip.slotStatus (slot st : Nat) (c : Chip) : Chip := c.wf R.SYS_BOOT_STAT (7 + 4 * slot) (4 + 4 * slot) st

/-- The header of slot i is read from the flash into local memory and checked there (R225, R226): its status. -/
def Chip.flashHeader (i : Nat) (f : FlashSlot) (c : Chip) : Nat × Chip :=
  let (h, c) := (c.emit (.flashRead (slotAddr i) 0x100)).copyIn (workHeader i) f.header
  (if f.headerErr then 9 else c.headerStatus h, c)

/-- The status of a header-valid slot whose body stands in local memory (R225). -/
def bodyStatus (f : FlashSlot) (copy : List Byte) : Nat := if f.bodyErr then 9 else if bodyOk f.header copy then 1 else 8

/-- Step 8 of R228: a header-valid slot that was not loaded is read and hashed in the work area's buffer. -/
def Chip.hashSlot (i : Nat) (f : FlashSlot) (c : Chip) : Chip :=
  let c := c.emit (.flashRead (slotAddr i + 0x100) (hdrLength f.header))
  let (d, c) := c.bufferBody 16 (f.body.take (hdrLength f.header))
  c.slotStatus i (bodyStatus f d)

/-- Step 7 of R228: the ranked slots are loaded and hashed until one passes; step 8: the rest are hashed only. -/
def Chip.loadRanked : List (Nat × FlashSlot) → Chip → Option (Nat × FlashSlot) × Chip
  | [], c => (none, c)
  | (i, f) :: t, c =>
    let (d, c) := (c.emit (.flashRead (slotAddr i + 0x100) (hdrLength f.header))).loadBody f.header f.body
    let c := c.slotStatus i (bodyStatus f d)
    if bodyStatus f d = 1 then (some (i, f), forEach t (fun e c => c.hashSlot e.1 e.2) c)
    else Chip.loadRanked t c

/-- The boot ends without an image, with a RESULT; what the ROM has left in its work area is free (R232). -/
def Chip.noImage (result : Nat) (c : Chip) : Chip :=
  (c.wf R.SYS_BOOT_STAT 3 0 result).workArea.onRst fun r => { r with rom := 0 }

/-- Steps 5 to 9 of R228: the boot-flash balls are driven (R731), the flash reset, the headers, the bodies; in RETIRED no slot is read
(R227). -/
def Chip.romSlots (a b : FlashSlot) (c : Chip) : Chip :=
  let c := { c with ser := { c.ser with flashOn := true } }
  if c.lcyState = 6 then (c.wf R.SYS_BOOT_STAT 3 0 5).onRst fun r => { r with rom := 0 }
  else
    let c := (c.emit (.flashCode 0x66)).emit (.flashCode 0x99)
    let (sa, c) := c.flashHeader 0 a
    let (sb, c) := c.flashHeader 1 b
    let c := (c.slotStatus 0 sa).slotStatus 1 sb
    let c := (c.wr R.SYS_BOOT_SEQ_A (w32 (hdrSeq a.header))).wr R.SYS_BOOT_SEQ_B (w32 (hdrSeq b.header))
    let c := c.when (c.lcyState == 1) (Chip.sb R.SYS_BOOT_STAT 16)
    let va := if sa = 1 then [(0, a)] else []
    let vb := if sb = 1 then [(1, b)] else []
    let ranked := if hdrSeq a.header < hdrSeq b.header then vb ++ va else va ++ vb
    let (booted, c) := c.loadRanked ranked
    match booted with
    | some (i, f) => (c.wf R.SYS_BOOT_STAT 3 0 (1 + i)).handover i f.header
    | none => c.noImage 4

/-- Steps 2 to 5 of R228: cores 1 to 7 enter the park window; the life-cycle check; the host link; the flash reset. -/
def Chip.romStart (bad : List Fuse) (c : Chip) : Chip :=
  let c := forEach ((List.finRange 8).filter fun n => n ≠ 0) (fun n c =>
    (c.romScratch n).onCore n fun k => { k with pc := parkWindow, asleep := true, parked := true }) c
  let (ok, c) := c.lcyBoot bad
  if !ok then (c.wf R.SYS_BOOT_STAT 3 0 6).onRst fun r => { r with rom := 0 }
  else ((c.onHost fun h => { h with up := true }).wf R.SYS_BOOT_STAT 3 0 0).onRst fun r => { r with rom := 2 }

/-- VIO_C is good (R729). -/
def Chip.vioC (c : Chip) : Bool := c.rb R.SYS_VIO 2

/-- The boot ROM's sequence, as far as it goes: it waits at step 5 until VIO_C is good (R733). -/
def Chip.romBoot (bad : List Fuse) (a b : FlashSlot) (c : Chip) : Chip :=
  if !c.coresUp || c.romLocked then c
  else
    let c := if c.rst.rom = 1 then c.romStart bad else c
    if c.rst.rom = 2 ∧ c.vioC then c.romSlots a b else c

/-- VIO_C is not good 100 ms after T_R (R733): both slots stay NOT_CHECKED; RETIRED runs no image (R227). -/
def Chip.vioCTimeout (c : Chip) : Chip :=
  if c.rst.rom = 2 ∧ ¬c.vioC then
    (c.wf R.SYS_BOOT_STAT 3 0 (if c.lcyState = 6 then 5 else 4)).onRst fun r => { r with rom := 0 }
  else c

/-! ### Host recovery and ROM_LOCK (R233, R234) -/

/-- A recovery check (R234), with an uncorrectable error in its copy of the header or of the body. The header is copied to the work
area and checked there, the body to its LOAD (R226); RETIRED runs no image (R227). -/
def Chip.recover (headerErr bodyErr : Bool) (c : Chip) : Chip :=
  let res := c.rf R.SYS_BOOT_STAT 3 0
  if c.romLocked || !c.coresUp || !(res == 4 || res == 7) || c.lcyState == 6 then c
  else
    let (bs, ue, c) := c.vRead .core 0 0 256
    let (h, c) := c.copyIn (workHeader 2) bs
    let sh := if headerErr || ue then 9 else c.headerStatus h
    let c := c.when (c.lcyState == 1) (Chip.sb R.SYS_BOOT_STAT 16)
    if sh ≠ 1 then (c.slotStatus 2 sh).noImage 4
    else
      let (bs, ue, c) := c.vRead .core 0 0x100 (hdrLength h)
      let (body, c) := c.loadBody h bs
      let st := if bodyErr || ue then 9 else if bodyOk h body then 1 else 8
      let c := c.slotStatus 2 st
      if st = 1 then (c.wf R.SYS_BOOT_STAT 3 0 3).handover 2 h else c.noImage 4

/-- ROM_LOCK is written 1; a core in the handover code of the park window then branches to its YLX_ENTRY, core 0's bank in its reset
state (R232, R233). -/
def Chip.romLock (n : Core) (c : Chip) : Chip :=
  let c := c.sb R.SYS_BOOT_CTRL 0
  if c.runs n ∧ (c.core n).pc = 0x00007FE0 then
    let e := c.rd (R.YLX_ENTRY n)
    ((c.romScratch n).when (n == 0) (Chip.bankStart 0)).onCore n fun k => { k with pc := e }
  else c

/-! ### Commands -/

/-- The boot ROM runs (R228): bad are the fuses that do not come out set in a forward completion, a and b what the flash
holds. -/
def execRomBoot (bad : List (Nat × Nat)) (a b : FlashSlot) (s : State) : Out := (s.chip.romBoot bad a b).next s

/-- ROM_LOCK is written 1 by core n (R233). -/
def execRomLock (n : Core) (s : State) : Out := (s.chip.romLock n).next s

/-- A ring 0 doorbell while RESULT is NO_IMAGE, and the check that it starts (R234). -/
def execHostRecovery (headerErr bodyErr : Bool) (s : State) : Out := (s.chip.recover headerErr bodyErr).next s

/-- VIO_C is not good 100 ms after T_R (R733). -/
def execVioCTimeout (s : State) : Out := s.chip.vioCTimeout.next s

end Sys2Proof.Machine
end

