-- ==== Sys2Proof/Machine/Timers.lean ====
section
/-! DEFINITION. Timers and the time counter (18): channels, timer events, the time compare and the LP stepper. -/

namespace Sys2Proof.Machine

/-- The timer stages changed. -/
def Chip.onTmr (f : TmrSt → TmrSt) (c : Chip) : Chip := { c with tmr := f c.tmr }

/-- Channel n counts (TMR_STATn.RUNNING). -/
def Chip.chRun (c : Chip) (n : Nat) : Bool := c.rb (R.TMR_STAT n) 3

/-- The prescaler of channel n set. -/
def Chip.setPre (n : TmrCh) (v : Nat) (c : Chip) : Chip := c.onTmr fun t => { t with pre := upd t.pre n fun _ => v }

/-! ### Counting (R539 to R544) -/

/-- What one channel tick gives: the counter, whether it wraps, whether it matches (R540, R541). -/
def chCount (cnt top cmp : Word) : Word × Bool × Bool :=
  let v : Word := if cnt = top then 0 else cnt + 1
  (v, v == 0, v == cmp)

/-- A channel tick of channel n: the events it raises (R540 to R542, R545). -/
def Chip.chTick (n : TmrCh) (c : Chip) : List Nat × Chip :=
  let (v, wrap, mat) := chCount (c.rd (R.TMR_CNT n)) (c.rd (R.TMR_TOP n)) (c.rd (R.TMR_CMP n))
  let c := ((c.wr (R.TMR_CNT n) v).sbIf mat (R.TMR_STAT n) 0).sbIf wrap (R.TMR_STAT n) 1
  let c := if wrap && c.rf (R.TMR_CTRL n) 2 1 == 1 then (c.wb (R.TMR_CTRL n) 0 false).wb (R.TMR_STAT n) 3 false else c
  ((if mat then [2 * n.val] else []) ++ (if wrap then [2 * n.val + 1] else []), c)

/-- The channel starts (R543). -/
def Chip.chStart (n : TmrCh) (c : Chip) : Chip :=
  ((c.wb (R.TMR_STAT n) 4 false).sb (R.TMR_STAT n) 3).setPre n 0

/-- EN written 1 (R543): the channel starts, or is armed. -/
def Chip.chEnable (n : TmrCh) (c : Chip) : Chip :=
  let c := c.sb (R.TMR_CTRL n) 0
  if c.chRun n then c
  else if c.rb (R.TMR_CTRL n) 24 then c.sb (R.TMR_STAT n) 4
  else c.chStart n

/-- EN written 0 (R543). -/
def Chip.chDisable (n : TmrCh) (c : Chip) : Chip :=
  ((c.wb (R.TMR_CTRL n) 0 false).wb (R.TMR_STAT n) 3 false).wb (R.TMR_STAT n) 4 false

/-! ### Events (R545, R546) -/

/-- Channel n counts the event e. -/
def Chip.counts (c : Chip) (n e : Nat) : Bool :=
  c.chRun n && c.rb (R.TMR_CTRL n) 8 && c.rf (R.TMR_CTRL n) 21 16 == e

/-- Channel n waits to start on the event e. -/
def Chip.awaits (c : Chip) (n e : Nat) : Bool := c.rb (R.TMR_STAT n) 4 && c.rf (R.TMR_CTRL n) 30 25 == e

/-- The LP stepper is in use and the channel holds (R551). -/
def Chip.chHeld (c : Chip) (n : Nat) : Bool := c.tmr.lp && !c.rb (R.TMR_CTRL n) 3

/-- An event takes effect in channel n: the channel starts, or counts; the events that this raises. -/
def Chip.chEvent (n : TmrCh) (e : Nat) (c : Chip) : List Nat × Chip :=
  if c.awaits n e then ([], c.chStart n)
  else if c.counts n e && !c.chHeld n then c.chTick n
  else ([], c)

/-- Events from channel m on in the channels above it, in order, at one edge (R546): every event raised. -/
def Chip.cascade : List TmrCh → List Nat → Chip → List Nat × Chip
  | [], evs, c => (evs, c)
  | n :: t, evs, c =>
    match evs.find? fun e => c.awaits n e || c.counts n e with
    | some e =>
      let (more, c) := c.chEvent n e
      Chip.cascade t (evs ++ more) c
    | none => Chip.cascade t evs c

/-- The channel that raises an event; event 32 comes before every channel. -/
def eventCh (e : Nat) : Int := if e = 32 then -1 else (e / 2 : Nat)

/-- The consumers at or below the channel that raises an event see it at the next tick edge (R546). -/
def Chip.deferred (c : Chip) (evs : List Nat) : List (Nat × Nat) :=
  evs.flatMap fun e => ((List.range 16).filter fun (n : Nat) =>
    decide ((n : Int) ≤ eventCh e) && (c.counts n e || c.awaits n e)).map fun n => (n, e)

/-- The Bobbins and the ADC that select one of these events get its request (R547, R41); an event whose request is still held
merges, and TICK_OVR sets (R42). -/
def Chip.tmrRequests (evs : List Nat) (c : Chip) : Chip := forEach evs (fun e c => c.request 1 e false (some 2)) c

/-- Events raised at one edge by channel m reach the channels above it now and the others at the next edge (R546), and the
Bobbins and the ADC by request. -/
def Chip.raiseTmr (m : Int) (evs : List Nat) (c : Chip) : Chip :=
  let (all, c) := Chip.cascade ((List.finRange 16).filter fun n => decide (m < (n.val : Int))) evs c
  (c.onTmr fun t => { t with late := t.late ++ c.deferred all }).tmrRequests all

/-- Channel n takes an event that was raised at the edge before. -/
def Chip.lateEvent (n e : Nat) (c : Chip) : Chip :=
  let ch : TmrCh := ⟨n % 16, Nat.mod_lt _ (by decide)⟩
  let (evs, c) := c.chEvent ch e
  c.raiseTmr n evs

/-- The occurrences kept from the edge before take effect. -/
def Chip.lateEvents (c : Chip) : Chip :=
  let l := c.tmr.late
  forEach l (fun p c => c.lateEvent p.1 p.2) (c.onTmr fun t => { t with late := [] })

/-- A channel tick of channel n: of its prescaler, once PRES + 1 ticks have been counted, or of an event kept from the edge before
(R539). -/
def Chip.channelTick (n : TmrCh) (c : Chip) : Chip :=
  if c.rb (R.TMR_CTRL n) 8 then
    match c.tmr.late.find? fun p => p.1 == n.val with
    | some p => (c.onTmr fun t => { t with late := t.late.erase p }).lateEvent p.1 p.2
    | none => c
  else
    let d := c.rf (R.TMR_PRES n) 15 0 + 1
    if c.chRun n ∧ d ≤ c.tmr.pre[n] then
      let (evs, c) := (c.setPre n (c.tmr.pre[n] - d)).chTick n
      c.raiseTmr n.val evs
    else c

/-! ### The time compare (R538) -/

/-- The compare is raised when the counter is at or above it and has not been raised for this value. -/
def Chip.compareNow (c : Chip) : Chip :=
  if c.rb R.TMR_TCTRL 0 ∧ ¬c.tmr.passed ∧ c.tmr.tcmp ≤ c.time then
    ((c.sb R.TMR_TSTAT 0).onTmr fun t => { t with passed := true }).raiseTmr (-1) [32]
  else c

/-- TMR_TCMP_HI written: the 64-bit value is taken (R538). -/
def Chip.tcmpWrite (hi : Word) (c : Chip) : Chip :=
  (c.onTmr fun t => { t with tcmp := hi ++ t.tcmpLo, passed := false }).compareNow

/-! ### The LP stepper (R549 to R553) -/

/-- The tick is lost to the timer stages: HOLD, STANDBY, or a freeze (R549). -/
def Chip.tickLost (c : Chip) : Bool :=
  decide (2 ≤ c.power) || (List.finRange 8).any fun n => c.rb R.TMR_FREEZE n && (c.core n).halted

/-- The counting path of k channel ticks (R552): the counter, wraps, matches; a one-shot stops at its first wrap. -/
def chPath (top cmp : Word) (once : Bool) (k : Nat) (cnt : Word) : Word × Nat × Nat :=
  (List.range k).foldl (fun s _ =>
    if once && decide (0 < s.2.1) then s
    else
      let (v, w, m) := chCount s.1 top cmp
      (v, s.2.1 + b2n w, s.2.2 + b2n m)) (cnt, 0, 0)

/-- One LP step in channel n (R551, R552): the events it raises. -/
def Chip.chLpStep (n : TmrCh) (step : Nat) (c : Chip) : List Nat × Chip :=
  if c.chRun n && c.rb (R.TMR_CTRL n) 3 && !c.rb (R.TMR_CTRL n) 8 then
    let d := c.rf (R.TMR_PRES n) 15 0 + 1
    let p := c.tmr.pre[n] + step
    let once := c.rf (R.TMR_CTRL n) 2 1 == 1
    let (v, w, m) := chPath (c.rd (R.TMR_TOP n)) (c.rd (R.TMR_CMP n)) once (p / d) (c.rd (R.TMR_CNT n))
    let c := ((c.setPre n (p % d)).wr (R.TMR_CNT n) v).sbIf (decide (1 < w) || decide (1 < m)) (R.TMR_STAT n) 2
    let c := (c.sbIf (decide (0 < m)) (R.TMR_STAT n) 0).sbIf (decide (0 < w)) (R.TMR_STAT n) 1
    let c := if once && decide (0 < w) then (c.wb (R.TMR_CTRL n) 0 false).wb (R.TMR_STAT n) 3 false else c
    ((if 0 < m then [2 * n.val] else []) ++ (if 0 < w then [2 * n.val + 1] else []), c)
  else ([], c)

/-- The channels of one LP step, in order; each sees the events raised below it (R546, R551). -/
def Chip.lpChannels (step : Nat) : List TmrCh → List Nat → Chip → List Nat × Chip
  | [], evs, c => (evs, c)
  | n :: t, evs, c =>
    let (e1, c) := c.chLpStep n step
    let (e2, c) := match evs.find? fun e => c.awaits n e || c.counts n e with
      | some e => c.chEvent n e
      | none => ([], c)
    Chip.lpChannels step t (evs ++ e1 ++ e2) c

/-- An LP oscillator edge while the tick is lost (R550 to R553). -/
def Chip.lpStep (c : Chip) : Chip :=
  if !c.tickLost then c
  else
    let a := (if c.tmr.lp then c.tmr.acc else 0) + 11
    let step := if 16 ≤ a then 2930 else 2929
    let c := c.onTmr fun t => { t with lp := true, acc := a % 16 }
    let c := (c.sb R.TMR_TSTAT 1).lateEvents
    let c := { c with time := c.time + BitVec.ofNat 64 step }
    let c := if c.time.toNat < step then c.onTmr fun t => { t with passed := false } else c
    let hit : Bool := c.rb R.TMR_TCTRL 0 && !c.tmr.passed && decide (c.tmr.tcmp ≤ c.time)
    let c := if hit then (c.sb R.TMR_TSTAT 0).onTmr fun t => { t with passed := true } else c
    let (all, c) := Chip.lpChannels step (List.finRange 16) (if hit then [32] else []) c
    (c.onTmr fun t => { t with late := t.late ++ c.deferred all }).tmrRequests all

/-- A tick edge of the timer stages (R534, R553): tick mode is back, the counter advances, and the prescalers of the running
channels count. A channel tick that has fallen due is a command, and the ticks counted meanwhile stay in the prescaler. -/
def Chip.timerTick (c : Chip) : Chip :=
  if c.tickLost then c
  else
    let c := ((c.onTmr fun t => { t with lp := false, acc := 0 }).wb R.TMR_TSTAT 1 false).lateEvents
    let c := { c with time := c.time + 1 }
    let c := if c.time = 0 then c.onTmr fun t => { t with passed := false } else c
    forEach (List.finRange 16) (fun n c =>
      if c.chRun n && !c.rb (R.TMR_CTRL n) 8 then c.setPre n (c.tmr.pre[n] + 1) else c) c

/-! ### The TMR page (R556) -/

/-- TMR_CNTn written (R539, R544). -/
def Chip.cntWrite (n : TmrCh) (v : Word) (c : Chip) : Chip := (c.wr (R.TMR_CNT n) v).setPre n 0

/-- A store lands in a register of the TMR page. -/
def Chip.storeTmr (a : Nat) (v : Word) (c : Chip) : Chip :=
  let off := a % 0x1000
  if off = 0x008 then c.onTmr fun t => { t with tcmpLo := v }
  else if off = 0x00C then c.tcmpWrite v
  else if off = 0x010 then
    let rise := tb v 0 && !c.rb a 0
    let c := c.store a v
    if rise then (c.onTmr fun t => { t with passed := false }).compareNow else c
  else if 0x100 ≤ off ∧ off < 0x300 then
    let n : TmrCh := ⟨(off - 0x100) / 0x20 % 16, Nat.mod_lt _ (by decide)⟩
    if off % 0x20 = 0x00 then
      let en := c.rb a 0
      let c := c.store a (setBit v 0 en)
      if tb v 0 then c.chEnable n else c.chDisable n
    else if off % 0x20 = 0x10 then c.cntWrite n v
    else c.store a v
  else c.store a v

/-- What a register of the TMR page reads. -/
def Chip.readTmr (a : Nat) (c : Chip) : Word :=
  let off := a % 0x1000
  if off = 0x000 then c.timeLo
  else if off = 0x004 then (c.time >>> 32).setWidth 32
  else if off = 0x008 then c.tmr.tcmp.setWidth 32
  else if off = 0x00C then (c.tmr.tcmp >>> 32).setWidth 32
  else c.rd a

/-- On leaving HOLD or STANDBY the channels without STAYON take their reset values (R554). -/
def Chip.tmrWake (c : Chip) : Chip :=
  forEach (List.finRange 16) (fun n c =>
    if c.rb (R.TMR_CTRL n) 3 then c
    else (forEach [0x00, 0x04, 0x08, 0x0C, 0x10, 0x14] (fun o c => c.wr (R.TMR_CTRL n + o) (regReset (R.TMR_CTRL n + o))) c).setPre n 0) c

/-! ### Commands -/

/-- The time counter reaches the compare (R538). -/
def execTimeCompareMatch (s : State) : Out := s.chip.compareNow.next s

/-- TMR_TCMP_HI written (R538). -/
def execTcmpHiWrite (v : Word) (s : State) : Out := (s.chip.tcmpWrite v).next s

/-- A channel tick (R540). -/
def execChannelTick (n : TmrCh) (s : State) : Out :=
  if s.chip.tickLost then s.chip.next s else (s.chip.channelTick n).next s

/-- TMR_CTRLn.EN written 1 (R543). -/
def execChannelStart (n : TmrCh) (s : State) : Out := (s.chip.chEnable n).next s

/-- TMR_CTRLn.EN written 0 (R543). -/
def execChannelStop (n : TmrCh) (s : State) : Out := (s.chip.chDisable n).next s

/-- TMR_CNTn written (R544). -/
def execCntWrite (n : TmrCh) (v : Word) (s : State) : Out := (s.chip.cntWrite n v).next s

end Sys2Proof.Machine
end

