-- ==== Sys2Proof/Machine/Ember.lean ====
section
/-! DEFINITION. Ember (23): the charger, the always-on domain, the RTC, power requests and wake events. -/

namespace Sys2Proof.Machine

/-- Ember changed. -/
def Chip.onEmb (f : EmbSt → EmbSt) (c : Chip) : Chip := { c with emb := f c.emb }

/-! ### The charger (R651 to R656). Phases: 0 OFF, 1 PROBE, 2 PRE, 3 FAST, 4 CV, 5 DONE, 6 FAULT. -/

/-- EMB_STAT.PHASE. -/
def Chip.charge (c : Chip) : Nat := c.rf R.EMB_STAT 2 0

/-- The charger enters a phase; phases without a current set it to 0. -/
def Chip.setCharge (p : Nat) (c : Chip) : Chip :=
  let c := c.wf R.EMB_STAT 2 0 p
  c.onEmb fun e => { e with noCell := false, cur := if 2 ≤ p ∧ p ≤ 4 then e.cur else 0 }

/-- EMB_ICHG in force: 5 to 150 mA (R655). -/
def Chip.ichg (c : Chip) : Nat := clampN 5 150 (c.rf R.EMB_ICHG 7 0)

/-- EMB_VINREG in force: 3,000 to 3,300 mV (R655). -/
def Chip.vinreg (c : Chip) : Nat := clampN 3000 3300 (c.rf R.EMB_VINREG 11 0)

/-- The cell's voltages in mV (R651): V_CV, V_PRE, OVP. -/
def Chip.cellV (c : Chip) : Nat × Nat × Nat := if c.rb R.EMB_CTRL 1 then (3600, 2500, 3750) else (4200, 3000, 4350)

/-- The input factor k (R652). -/
def Chip.inputK (c : Chip) : Rat :=
  let vr := c.vinreg
  if vr = 3000 then (if 3000 < c.emb.vin then 1 else 0)
  else clampQ 0 1 (((c.emb.vin : Int) - 3000 : Int) / ((vr - 3000 : Nat) : Rat))

/-- The phase current in mA (R651). -/
def Chip.phaseCurrent (c : Chip) : Rat :=
  match c.charge with
  | 2 => max 5 ((c.ichg : Rat) / 10)
  | 3 => c.ichg
  | 4 => c.ichg
  | _ => 0

/-- The termination current in mA: ICHG × TERM (R653). -/
def Chip.termCurrent (c : Chip) : Rat :=
  (c.ichg : Rat) * (match c.rf R.EMB_CTRL 3 2 with
    | 1 => 1 / 5
    | 2 => 1 / 20
    | _ => 1 / 10)

/-- A charge may run: EN, in RUN or DIM (R651). -/
def Chip.chargeMay (c : Chip) : Bool := c.rb R.EMB_CTRL 0 && decide (c.power ≤ 1)

/-- The recomputation of every 10 µs (R652). -/
def Chip.chargerStep (vin : Nat) (c : Chip) : Chip :=
  let c := c.onEmb fun e => { e with vin }
  if 1 < c.power then c
  else
    let k := c.inputK
    let goal := c.phaseCurrent * k
    let cur := if c.rb R.EMB_STAT 5 then 0 else clampQ (c.emb.cur - 1) (c.emb.cur + 1) goal
    let c := c.wb R.EMB_STAT 4 (decide (k < 1))
    if c.chargeMay then c.onEmb fun e => { e with cur } else c

/-- The die sensors are read, in 0.1 °C (R654). -/
def Chip.tempSample (temps : List Int) (c : Chip) : Chip :=
  if temps.any fun t => decide (450 < t) || decide (t < 0) then
    ((c.sb R.EMB_STAT 5).sb R.EMB_STICKY 5).onEmb fun e => { e with cur := 0 }
  else if temps.all fun t => decide (20 ≤ t) && decide (t ≤ 430) then c.wb R.EMB_STAT 5 false
  else c

/-- The end of PROBE (R651), VBAT in mV. -/
def Chip.probeEnd (vbat : Nat) (c : Chip) : Chip :=
  let (_, pre, ovp) := c.cellV
  if vbat < 1000 then (c.sb R.EMB_STICKY 4).onEmb fun e => { e with noCell := true }
  else if ovp < vbat then (c.sb R.EMB_STICKY 3).setCharge 6
  else if vbat < pre then c.setCharge 2
  else c.setCharge 3

/-- EMB_CTRL written (R651, R655). -/
def Chip.embCtrl (v : Word) (c : Chip) : Chip :=
  let old := c.rd R.EMB_CTRL
  let c := c.store R.EMB_CTRL v
  let cell := tb v 1 != tb old 1
  let term := fld v 3 2 != fld old 3 2
  if !tb v 0 then c.setCharge 0
  else if !tb old 0 then (if c.power ≤ 1 then c.setCharge 1 else c)
  else if c.charge != 0 && (cell || (term && c.charge != 6)) then c.setCharge 1
  else c

/-- Entry to HOLD or STANDBY sets the phase to OFF (R656). -/
def Chip.embHold (c : Chip) : Chip := c.setCharge 0

/-- Return to RUN: a charge starts at PROBE when EN is 1 (R656). -/
def Chip.embWake (c : Chip) : Chip := if c.rb R.EMB_CTRL 0 then c.setCharge 1 else c

/-! ### The power states (R662 to R670) -/

/-- The device returns from DIM to RUN: every unit that DIM stopped goes on. -/
def Chip.dimLeave (c : Chip) : Chip :=
  (((c.wf R.AON_PWR 1 0 0).wf R.AON_PWR 5 4 0).wb R.AON_PWR 8 false).eyeResume.bmoResume.sndResume.serResume

/-- A power request is cancelled by a wake event (R665). -/
def Chip.pwrCancel (c : Chip) : Chip := ((c.wf R.AON_PWR 1 0 0).wb R.AON_PWR 8 false).sb R.AON_STICKY 3

/-- A wake event, counted while its bit in AON_WAKE_EN is 1 (R664 to R668): 0 and 1 WAKE0 and WAKE1, 2 ALARM, 3 TMR, 4 VIN. -/
def Chip.wakeEvent (e : Nat) (c : Chip) : Chip :=
  if !c.rb R.AON_WAKE_EN e then c
  else
    let c := c.sb R.AON_WAKE_CAUSE e
    let c := c.when (c.rb R.AON_PWR 8) Chip.pwrCancel
    if c.power = 1 then c.dimLeave.onCore 0 fun k => { k with latch := true }
    else if c.power = 0 then c
    else if c.emb.vin ≤ 3000 then c.sb R.AON_STAT 1
    else c.onEmb fun e => { e with waking := true }

/-- A level mode of an enabled wake input holds now (R670). -/
def Chip.wakeLevelHolds (c : Chip) (i : Fin 2) : Bool :=
  let m := c.rf R.AON_WAKE_CFG (2 * i.val + 1) (2 * i.val)
  c.rb R.AON_WAKE_EN i && ((m == 2 && c.emb.wakeLvl[i]) || (m == 3 && !c.emb.wakeLvl[i]))

/-- A write to AON_PWR.REQ (R662, R665, R670). -/
def Chip.pwrRequest (v : Word) (c : Chip) : Chip :=
  let r := fld v 1 0
  if r = 0 then
    if c.power = 1 then c.dimLeave else (c.wf R.AON_PWR 1 0 0).wb R.AON_PWR 8 false
  else if r = c.power then (c.wf R.AON_PWR 1 0 r).wb R.AON_PWR 8 false
  else
    let c := (c.wf R.AON_PWR 1 0 r).sb R.AON_PWR 8
    let c := c.when (c.wakeLevelHolds 0) (Chip.wakeEvent 0)
    c.when (c.wakeLevelHolds 1) (Chip.wakeEvent 1)

/-- A wake input's level, whether an edge led to it, and for how many LP ticks it has held (R670, R671). -/
def Chip.wakeInput (i : Fin 2) (level edge : Bool) (held : Nat) (c : Chip) : Chip :=
  let c := c.onEmb fun e => { e with wakeLvl := e.wakeLvl.set i level }
  let met : Bool := match c.rf R.AON_WAKE_CFG (2 * i.val + 1) (2 * i.val) with
    | 0 => edge && level
    | 1 => edge && !level
    | 2 => level
    | _ => !level
  if !met || decide (held < c.rf R.AON_WAKE_CFG 15 8) then c
  else
    let c := c.sbIf (decide (c.power = 0) || c.rb R.AON_WAKE_EN i) R.AON_STICKY (1 + i.val)
    c.wakeEvent i

/-- VIN has a new value, in mV (R648, R664, R666). -/
def Chip.vinChange (vin : Nat) (c : Chip) : Chip :=
  let c := c.onEmb fun e => { e with vin, fell := e.fell || (decide (c.power = 3) && decide (vin < 2700)) }
  let c := if !c.rb R.AON_STAT 0 && decide (vin ≤ 2700) then (c.sb R.AON_STAT 0).sb R.EMB_STICKY 6
    else if c.rb R.AON_STAT 0 && decide (2800 < vin) then c.wb R.AON_STAT 0 false
    else c
  if vin ≤ 3000 then c
  else
    let c := if c.power = 3 ∧ c.emb.fell then (c.onEmb fun e => { e with fell := false }).wakeEvent 4 else c
    if c.rb R.AON_STAT 1 then (c.wb R.AON_STAT 1 false).onEmb fun e => { e with waking := true } else c

/-! ### The RTC (R657 to R659) -/

/-- The alarm matches when the seconds take its value at an LP edge (R659). -/
def Chip.alarmCheck (c : Chip) : Chip :=
  if c.rd R.AON_RTC_SEC = c.rd R.AON_ALARM ∧ (c.rb R.AON_WAKE_EN 2 ∨ c.rb R.AON_IRQ_EN 0) then
    (c.sb R.AON_STICKY 0).wakeEvent 2
  else c

/-- An LP oscillator edge in the RTC (R657): the subseconds count, and their wrap is a command of its own; the edges of R658 count. -/
def Chip.rtcTick (c : Chip) : Chip :=
  (c.wr R.AON_RTC_SUB (w32 (satInc 32767 (c.rd R.AON_RTC_SUB).toNat))).onEmb fun e => { e with calTicks := e.calTicks + 1 }

/-- LP ticks between two calibrations of the RTC (R658). -/
def calPeriod : Nat := 2 ^ 20

/-- The subseconds wrap (R657). -/
def Chip.rtcSecond (c : Chip) : Chip := ((c.wr R.AON_RTC_SUB 0).incWrap R.AON_RTC_SEC).alarmCheck

/-- AON_RTC_CAL is added to the subseconds (R658). -/
def Chip.rtcCal (c : Chip) : Chip :=
  let x : Int := (c.rd R.AON_RTC_SUB).toNat + signed 8 (c.rf R.AON_RTC_CAL 7 0)
  let c := c.wr R.AON_RTC_SUB (w32 (toField 15 x))
  if x < 0 then (c.wr R.AON_RTC_SEC (c.rd R.AON_RTC_SEC - 1)).alarmCheck
  else if 32768 ≤ x then (c.incWrap R.AON_RTC_SEC).alarmCheck
  else c

/-- AON_RTC_SEC written (R657). -/
def Chip.rtcSet (v : Word) (c : Chip) : Chip := (c.wr R.AON_RTC_SEC v).wr R.AON_RTC_SUB 0

/-! ### The always-on power-on reset (R649) -/

/-- Registers at their reset values. -/
def Chip.resetRegs (l : List Nat) (c : Chip) : Chip := forEach l (fun a c => c.wr a (regReset a)) c

/-- The registers of the EMB block and of the always-on block (R673), the life-cycle journal's words among the latter. -/
def embRegs : List Nat := (List.range 6).map fun k => R.EMB_CTRL + 4 * k

/-- See embRegs. -/
def aonRegs : List Nat :=
  (List.range 13).map (fun k => R.AON_PWR + 4 * k) ++ (List.range 16).map R.AON_RJ ++ (List.range 16).map R.LCY_JRN

/-- The always-on power-on reset (R649, R650). The carried timer state is the time counter, the compare, and the STAYON
channels (R554). SYS_RST_CAUSE is held here too (R742). -/
def Chip.aonPor (c : Chip) : Chip :=
  let c := c.resetRegs (embRegs ++ aonRegs)
  let c := { c with time := 0, emb := { vin := c.emb.vin, wakeLvl := c.emb.wakeLvl } }
  let c := c.onTmr fun t => { t with tcmp := 0, tcmpLo := 0, passed := false, acc := 0, lp := false }
  let c := forEach (List.finRange 16) (fun n c => if c.rb (R.TMR_CTRL n) 3 then
    (forEach [0x00, 0x04, 0x08, 0x0C, 0x10, 0x14] (fun o c => c.wr (R.TMR_CTRL n + o) 0) c).setPre n 0 else c) c
  ((c.sb R.AON_STICKY 4).sb R.AON_WAKE_CAUSE 8).wr R.SYS_RST_CAUSE 0

/-! ### The EMB page (R673) -/

/-- A store lands in a register of the EMB page. -/
def Chip.storeEmb (a : Nat) (v : Word) (c : Chip) : Chip :=
  if a = R.EMB_CTRL then c.embCtrl v
  else if a = R.AON_PWR then c.pwrRequest v
  else if a = R.AON_RTC_SEC then c.rtcSet v
  else c.store a v

/-- What a register of the EMB page reads; a current that is no whole number of mA reads as a free value. -/
def Chip.readEmb (a : Nat) (c : Chip) : Word :=
  if a = R.EMB_STAT then
    setFld (c.rd a) 15 8 (if c.emb.cur.den = 1 then c.emb.cur.num.toNat else (Config.ilimField c.emb.cur).toNat)
  else c.rd a

/-! ### Commands -/

/-- VIN has a new value, in mV (R648). -/
def execSupplySwitch (vin : Nat) (s : State) : Out := (s.chip.vinChange vin).next s

/-- VIN and VBAT are both below 1.60 V (R649). -/
def execAonPor (s : State) : Out := s.chip.aonPor.next s

/-- Ember recomputes k and the current (R652). -/
def execChargerRecompute (vin : Nat) (s : State) : Out := (s.chip.chargerStep vin).next s

/-- Ember reads the die sensors (R654). -/
def execTempSample (temps : List Int) (s : State) : Out := (s.chip.tempSample temps).next s

/-- PROBE ends after 10 ms (R651). -/
def execChargeProbeEnd (vbat : Nat) (s : State) : Out :=
  let c := s.chip
  if c.charge = 1 ∧ ¬c.emb.noCell then (c.probeEnd vbat).next s else c.next s

/-- VBAT, in mV, has been at vbat or above for 1 s (R651). -/
def execPreToFast (s : State) (vbat : Nat := 0) : Out :=
  if s.chip.charge = 2 ∧ s.chip.cellV.2.1 ≤ vbat then (s.chip.setCharge 3).next s else s.chip.next s

/-- 30 min in PRE (R651); the timer pauses in a temperature hold (R654). -/
def execPreTimeout (s : State) : Out :=
  let c := s.chip
  if c.charge = 2 ∧ ¬c.rb R.EMB_STAT 5 then ((c.sb R.EMB_STICKY 1).setCharge 6).next s else c.next s

/-- 12 h in PRE and FAST (R651). -/
def execFastTimeout (s : State) : Out :=
  let c := s.chip
  if c.charge = 3 ∧ ¬c.rb R.EMB_STAT 5 then ((c.sb R.EMB_STICKY 2).setCharge 6).next s else c.next s

/-- VBAT reaches a value, in mV, in FAST (R651). -/
def execCvEntry (s : State) (vbat : Nat := 0) : Out :=
  if s.chip.charge = 3 ∧ s.chip.cellV.1 ≤ vbat then (s.chip.setCharge 4).next s else s.chip.next s

/-- The charge current, in µA, has stayed at ua or below for 64 ms without INREG or TEMP_HOLD (R653). -/
def execChargeTermination (s : State) (ua : Nat := 0) : Out :=
  let c := s.chip
  if c.charge = 4 ∧ ¬c.rb R.EMB_STAT 4 ∧ ¬c.rb R.EMB_STAT 5 ∧ (ua : Rat) < 1000 * c.termCurrent then
    ((c.sb R.EMB_STICKY 0).setCharge 5).next s
  else c.next s

/-- VBAT, in mV, has stayed at vbat or below for 1 s in DONE: the charge starts again below V_CV − 100 mV (R651). -/
def execRechargeStart (s : State) (vbat : Nat := 0) : Out :=
  if s.chip.charge = 5 ∧ vbat < s.chip.cellV.1 - 100 then (s.chip.setCharge 1).next s else s.chip.next s

/-- With no cell the charger probes again (R651). -/
def execNoCellReprobe (s : State) : Out :=
  if s.chip.charge = 1 ∧ s.chip.emb.noCell then (s.chip.setCharge 1).next s else s.chip.next s

/-- VBAT, in mV, above OVP in any phase of a charge (R651). -/
def execCellOvp (s : State) (vbat : Nat := 0) : Out :=
  let c := s.chip
  if c.charge = 0 ∨ vbat ≤ c.cellV.2.2 then c.next s else ((c.sb R.EMB_STICKY 3).setCharge 6).next s

/-- EMB_CTRL written (R655). -/
def execEmbCtrlWrite (v : Word) (s : State) : Out := (s.chip.embCtrl v).next s

/-- The RTC's seconds increment once the subseconds have counted to 32,767 (R657). -/
def execRtcSecond (s : State) : Out :=
  if (s.chip.rd R.AON_RTC_SUB).toNat = 32767 then s.chip.rtcSecond.next s else s.chip.next s

/-- The calibration of the RTC, once 2^20 LP ticks have passed (R658). -/
def execRtcCalibrate (s : State) : Out :=
  let c := s.chip
  if calPeriod ≤ c.emb.calTicks then (c.rtcCal.onEmb fun e => { e with calTicks := e.calTicks - calPeriod }).next s else c.next s

/-- An LP oscillator edge: the LP stepper (R550), and the RTC (R657). -/
def execLpStep (s : State) : Out := s.chip.lpStep.rtcTick.next s

/-- AON_RTC_SEC written (R657). -/
def execRtcSecWrite (v : Word) (s : State) : Out := (s.chip.rtcSet v).next s

/-- AON_PWR.REQ written (R662). -/
def execPowerRequest (v : Word) (s : State) : Out := (s.chip.pwrRequest v).next s

/-- A wake input (R670). -/
def execWakeInput (i : Fin 2) (level edge : Bool) (held : Nat) (s : State) : Out :=
  (s.chip.wakeInput i level edge held).next s

/-- A wake event (R664); a TMR event needs a match, wrap or compare whose IRQ bit is 1 (R554), and VIN a return in STANDBY. -/
def execWakeEvent (e : Fin 5) (s : State) : Out :=
  let c := s.chip
  let tmr : Bool := (c.rb R.TMR_TCTRL 1 && c.rb R.TMR_TSTAT 0) || (List.finRange 16).any fun n =>
    (c.rb (R.TMR_CTRL n) 4 && c.rb (R.TMR_STAT n) 0) || (c.rb (R.TMR_CTRL n) 5 && c.rb (R.TMR_STAT n) 1)
  let may : Bool := if e.val = 3 then tmr else if e.val = 4 then decide (c.power = 3) && c.emb.fell && decide (3000 < c.emb.vin) else true
  if may then (c.wakeEvent e).next s else c.next s

end Sys2Proof.Machine
end

