-- ==== Sys2Proof/Machine/Reset.lean ====
section
/-! DEFINITION. Resets, the start, lockout, VIO banks (26), and the power states' entries and wake starts (23). -/

namespace Sys2Proof.Machine

/-- SYS_RST_CAUSE bits (R742). -/
inductive RstCause where
  | vinPor | nreset | vinBor | coreBor | thermal | fatalPhase | fatalVlm | swCold | swWarm | wake
deriving DecidableEq, Repr

/-- The bit of a cause. -/
def RstCause.bit : RstCause → Nat
  | .vinPor => 0 | .nreset => 1 | .vinBor => 2 | .coreBor => 3 | .thermal => 4
  | .fatalPhase => 5 | .fatalVlm => 6 | .swCold => 7 | .swWarm => 8 | .wake => 9

/-- Registers that every reset keeps: the always-on domain (R649), SYS_RST_CAUSE (R742), and what the supplies and the strap
show. -/
def aonKeep (a : Nat) : Bool := aonRegs.contains a || a == R.SYS_RST_CAUSE || a == R.SYS_VIO || a == R.SYS_STRAP

/-- Every register but those kept takes its reset value, and every unit its reset state; the fuses, the balls' levels, the
TAP, and the model's own records stay. -/
def Chip.resetTo (keep : Nat → Bool) (c : Chip) : Chip :=
  let vio := c.rf R.SYS_VIO 6 0
  ({ regs := c.regs.filter fun e => keep e.1, out := c.out, freeCount := c.freeCount, lcy := c.lcy
     ser := { balls := c.ser.balls }, dbg := { ir := c.dbg.ir, captured := c.dbg.captured, drive := c.dbg.drive } } : Chip).wr
    R.SYS_VIO (w32 vio)

/-- AON_PWR reads RUN (R669). -/
def Chip.powerRun (c : Chip) : Chip := ((c.wf R.AON_PWR 1 0 0).wf R.AON_PWR 5 4 0).wb R.AON_PWR 8 false

/-- What the end of a darn copy by a reset posts (R680): COPY_ABORT, which waits for the journal. -/
def Chip.abortPost (c : Chip) : List JrnEntry := c.copyAbort.jrnQ.drop c.jrnQ.length

/-- A cold reset (R5, R734, R735): the block waits for its start point, the boot ROM's sequence to run from its beginning.
strap is HOSTSEL as sampled (R29); where the command that causes the reset carries no level, it is free (assumption 104). -/
def Chip.coldReset (cause : RstCause) (strap : Option Bool) (c : Chip) : Chip :=
  let c := c.lcyStop
  let jrnQ := c.abortPost
  let emb : EmbSt := { vin := c.emb.vin, wakeLvl := c.emb.wakeLvl, holdRec := c.emb.holdRec, calTicks := c.emb.calTicks }
  let fatal : Option Bool := match cause with
    | .fatalPhase => some false
    | .fatalVlm => some true
    | _ => none
  let c := c.resetTo aonKeep
  let c := match strap with
    | some b => c.wb R.SYS_STRAP 0 b
    | none =>
      let (k, c) := c.fresh
      c.wb R.SYS_STRAP 0 (Config.hostsel k)
  ({ c with emb, rst := { phase := .wait, rom := 1, fatal }, jrnQ }.powerRun.sb R.SYS_RST_CAUSE cause.bit).emit (.ballsFloat true)

/-- Registers that a warm reset keeps (R736); DRN_VFAIL by R687, and a locked watchdog's settings by R163. -/
def Chip.warmKeep (c : Chip) (a : Nat) : Bool :=
  aonKeep a || embRegs.contains a ||
  [R.SYS_BOOT_CTRL, R.SYS_BOOT_STAT, R.SYS_BOOT_SEQ_A, R.SYS_BOOT_SEQ_B, R.SYS_BOOT_TIME, R.MBX_SCRATCH, R.MBX_RTAB,
    R.PRK_FRAME 0, R.PRK_FRAME 1].contains a ||
  ((List.range 4).any fun k => a == R.DRN_VFAIL k) ||
  ((List.range 8).any fun n => a == R.YLX_ENTRY n ||
    (c.rb (R.YLX_WDG_CTRL n) 2 && (a == R.YLX_WDG_CTRL n || a == R.YLX_WDG_LOAD n || a == R.YLX_WDG_COUNT n)))

/-- A warm reset (R235, R736); while ROM_LOCK is 0 it acts as a cold reset. -/
def Chip.warmReset (strap : Option Bool) (c : Chip) : Chip :=
  if !c.romLocked then c.coldReset .swWarm strap
  else
    let d := c.resetTo c.warmKeep
    let d := { d with
      mem := c.mem, ue := c.ue, time := c.time, jrnQ := c.abortPost, emb := c.emb, host := c.host, pipeFailed := c.pipeFailed
      vlm := { map := c.vlm.map }
      drn := { darns := c.drn.darns, core0Restarted := c.drn.core0Restarted, log := c.drn.log }
      dbg := { d.dbg with blocked := c.dbg.blocked }
      tirba := { bootSlot := c.tirba.bootSlot, runSlot := c.tirba.runSlot, runSeq := c.tirba.runSeq, runEntry := c.tirba.runEntry
                 runLoad := c.tirba.runLoad, runLen := c.tirba.runLen, runHeader := c.tirba.runHeader }
      rst := { c.rst with rom := 0 } }
    let d := forEach (List.finRange 8) Chip.coreRelease d
    let d := d.onCore 0 fun k => { k with latch := true }
    (d.sb R.SYS_RST_CAUSE RstCause.swWarm.bit).emit (.ballsFloat false)

/-! ### Starts and lockout (R730 to R734) -/

/-- The start from T_R (R731, R732): the phases in fails do not pass Lantern's test. -/
def Chip.startSequence (fails : BitVec 14) (c : Chip) : Chip :=
  if c.rst.phase ≠ .wait then c
  else if ((List.range 14).filter fun p => !tb fails p).length < 6 then c.onRst fun r => { r with phase := .lockout }
  else (c.phaseTest fails).onRst fun r => { r with phase := .run }

/-- A cold reset by a cause that does not end lockout (R732). -/
def Chip.coldCause (cause : RstCause) (strap : Bool) (c : Chip) : Chip :=
  if c.rst.phase = .lockout then c else c.coldReset cause (some strap)

/-- A cold reset by a cause that ends lockout (R732). -/
def Chip.coldAnyway (cause : RstCause) (strap : Bool) (c : Chip) : Chip :=
  let was : Bool := c.rst.phase == .lockout
  (c.coldReset cause (some strap)).sbIf was R.SYS_RST_CAUSE 10

/-- A fatal fault (R734): one that recurs within 10 s of the start that it caused ends in lockout. -/
def Chip.fatalFault (vlm strap : Bool) (c : Chip) : Chip :=
  let again : Bool := c.rst.fatal == some vlm && decide (c.time.toNat < 960000000)
  let d := c.coldCause (if vlm then .fatalVlm else .fatalPhase) strap
  if again then d.onRst fun r => { r with phase := .lockout } else d

/-- A write to SYS_RESET by a requester (0 to 7 a core, 8 the debug port), from U mode or not (R735, R742). -/
def Chip.sysReset (who : Nat) (user : Bool) (v : Word) (strap : Option Bool) (c : Chip) : Chip :=
  if user || fld v 31 8 != 0x525354 then c.accLog 1 who (w32 R.SYS_RESET)
  else if c.rst.phase ≠ .run then c
  else if fld v 7 0 = 1 then c.warmReset strap
  else if fld v 7 0 = 2 then c.coldReset .swCold strap
  else c

/-- The reset that DEVICE_RESET has ordered falls due (R340). -/
def Chip.dueReset (c : Chip) : Chip :=
  match c.tirba.resetDue with
  | some (cold, t) => if t.toNat ≤ c.time.toNat then (if cold then c.coldReset .swCold none else c.warmReset none) else c
  | none => c

/-! ### VIO banks (R729) -/

/-- A supply in mV lies in one of the two ranges of a good bank. -/
def vioGood (mv : Nat) : Bool := (decide (1620 ≤ mv) && decide (mv ≤ 1980)) || (decide (2970 ≤ mv) && decide (mv ≤ 3630))

/-- Every GPIO ball reads 0 while VIO_B is not good: a change of level like any other (R620, R729). -/
def Chip.gpioDark (c : Chip) : Chip := forEach (List.finRange 48) (fun n c => c.gpioInput n false 3) c

/-- The supply of a VIO bank has a new value, in mV: the bank becomes good, and its level is selected, or it stops being good. -/
def Chip.vioChange (k : Fin 3) (mv : Nat) (c : Chip) : Chip :=
  if vioGood mv then (if c.rb R.SYS_VIO k then c else (c.sb R.SYS_VIO k).wb R.SYS_VIO (4 + k.val) (decide (2970 ≤ mv)))
  else
    let was := c.rb R.SYS_VIO k
    ((c.wb R.SYS_VIO k false).sbIf (was && decide (c.rst.phase = .run)) R.SYS_VIO (8 + k.val)).when (k == 1) Chip.gpioDark

/-! ### Power states (R662 to R667) -/

/-- The registers that the always-on domain carries for the timers (R554): the compare, and the channels with STAYON. -/
def Chip.timerKeep (c : Chip) (a : Nat) : Bool :=
  [R.TMR_TCMP_LO, R.TMR_TCMP_HI, R.TMR_TCTRL, R.TMR_TSTAT].contains a ||
  ((List.range 16).any fun n => c.rb (R.TMR_CTRL n) 3 && decide (R.TMR_CTRL n ≤ a) && decide (a < R.TMR_CTRL n + 0x20))

/-- A register of the LTN page. -/
def isLtn (a : Nat) : Bool := a / 0x1000 == 0x40011

/-- What HOLD (hold true) or STANDBY leaves: the always-on domain, the EMB block, the carried timers, and after HOLD Vellum
and Lantern (R644, R662, R667). A bank that a spare served reads as nothing known until it is mapped again. -/
def Chip.sleepReset (hold : Bool) (c : Chip) : Chip :=
  let c := if hold then forEach (c.vlm.map.map (·.1)) Chip.undefBank c else c
  let d := c.resetTo fun a => aonKeep a || embRegs.contains a || c.timerKeep a || (hold && isLtn a)
  { d with
    mem := if hold then c.mem.filter fun e => decide (vlmBase ≤ e.1) else []
    ue := if hold then c.ue.filter fun w => decide (vlmBase ≤ w) else []
    time := c.time, emb := c.emb, rst := c.rst
    ltn := if hold then c.ltn else {}
    tmr := { c.tmr with
      pre := c.tmr.pre.mapFinIdx fun n v _ => if c.rb (R.TMR_CTRL n) 3 then v else 0
      late := [] } }

/-- Every core that is not held is in WFE (R662). -/
def Chip.coresAsleep (c : Chip) : Bool := (List.finRange 8).all fun n => c.heldCore n || (c.core n).asleep

/-- The requested power state is entered once its conditions hold (R662, R714). -/
def Chip.powerEntry (c : Chip) : Chip :=
  if !c.rb R.AON_PWR 8 then c
  else
    let r := c.rf R.AON_PWR 1 0
    if r = 1 then ((c.wb R.AON_PWR 8 false).wf R.AON_PWR 5 4 1).eyeDim.bmoDim.sndDim
    else if r = 0 ∨ ¬c.coresAsleep ∨ c.lcyBusy then c
    else
      let c := c.copyAbort.jrnDrain.embHold
      let d := c.sleepReset (r == 2)
      let d := ((d.wb R.AON_PWR 8 false).wf R.AON_PWR 5 4 r).onEmb fun e => { e with fell := false, waking := false }
      (d.onTmr fun t => if t.lp then t else { t with lp := true, acc := 0 }).emit (.ballsFloat true)

/-- A wake start (R667): from HOLD the cores fetch at once; from STANDBY the start sequence follows. -/
def Chip.wakeStart (c : Chip) : Chip :=
  let p := c.power
  if !c.emb.waking || decide (p < 2) then c
  else
    let d := (c.sleepReset (p == 2)).powerRun
    let d := d.onEmb fun e => { e with waking := false, fell := false }
    let d := d.onRst fun r => { r with phase := if p = 2 then .run else .wait, rom := 1 }
    (d.sb R.SYS_RST_CAUSE RstCause.wake.bit).embWake

/-! ### Commands -/

/-- VIN rises above V_POR (R734); the TAP enters Test-Logic-Reset at power-up (R716). -/
def execVinPowerOn (strap : Bool) (s : State) : Out :=
  ((s.chip.coldCause .vinPor strap).onDbg fun _ => {}).next s

/-- nRESET falls and stays low for 1 µs (R669, R732, R734). -/
def execNresetFall (strap : Bool) (s : State) : Out := (s.chip.coldAnyway .nreset strap).next s

/-- The start from T_R (R731). -/
def execStartSequence (fails : BitVec 14) (s : State) : Out := (s.chip.startSequence fails).next s

/-- VIN below V_BOR for 1 µs (R737). -/
def execVinBrownout (strap : Bool) (s : State) : Out := (s.chip.coldAnyway .vinBor strap).next s

/-- VCORE, in mV, has stayed below its threshold for 1 µs: 0.53 V in RUN and DIM, 0.40 V in HOLD; the detector is off in
STANDBY (R734). -/
def execCoreBrownout (mv : Nat) (strap : Bool) (s : State) : Out :=
  let c := s.chip
  let p := c.power
  if mv < (if p < 2 then 530 else if p = 2 then 400 else 0) then (c.coldCause .coreBor strap).next s else c.next s

/-- A die sensor above 125 °C for 1 ms (R734). -/
def execThermalTrip (strap : Bool) (s : State) : Out := (s.chip.coldCause .thermal strap).next s

/-- LTN_STAT.ACTIVE below 6, or a failed self-check of the Vellum controller (R734). -/
def execFatalFault (vlm strap : Bool) (s : State) : Out := (s.chip.fatalFault vlm strap).next s

/-- SYS_RESET written with KIND WARM, by a requester, from U mode or not, with a key (R736, R742). -/
def execSysResetWarm (who : BitVec 4) (user : Bool) (key : BitVec 24) (s : State) (strap : Bool := false) : Out :=
  (s.chip.sysReset who.toNat user (w32 (key.toNat * 256 + 1)) (some strap)).next s

/-- SYS_RESET written with KIND COLD (R734, R742). -/
def execSysResetCold (who : BitVec 4) (user : Bool) (key : BitVec 24) (strap : Bool) (s : State) : Out :=
  (s.chip.sysReset who.toNat user (w32 (key.toNat * 256 + 2)) (some strap)).next s

/-- A VIO bank's supply changes to volts V and mv mV (R729). -/
def execVioBankChange (k : Fin 3) (volts : Nat) (mv : Fin 1000) (s : State) : Out := (s.chip.vioChange k (1000 * volts + mv.val)).next s

/-- The requested power state is entered (R662). -/
def execPowerStateEntry (s : State) : Out := s.chip.powerEntry.next s

/-- A wake start (R667). -/
def execWakeStart (s : State) : Out := s.chip.wakeStart.next s

end Sys2Proof.Machine
end

