-- ==== Sys2Proof/Machine/Landing.lean ====
section
/-! DEFINITION. Where a store lands and what a register read returns (R146, R147, R758): one dispatch over the register
pages, and the write commands without a row of their own. -/

namespace Sys2Proof.Machine

/-- A store lands in a register of the SYS page (R242, R742). -/
def Chip.storeSys (n : Core) (user : Bool) (a : Nat) (v : Word) (c : Chip) : Chip :=
  if a = R.SYS_BOOT_STAT ∨ a = R.SYS_BOOT_SEQ_A ∨ a = R.SYS_BOOT_SEQ_B ∨ a = R.SYS_BOOT_TIME then
    if c.romLocked then c else c.store a v
  else if a = R.SYS_RESET then c.sysReset n user v none
  else c.store a v

/-- A store lands in the EMB page: a power request counts from S mode only (R662). -/
def Chip.storeEmbFrom (user : Bool) (a : Nat) (v : Word) (c : Chip) : Chip :=
  if user && a == R.AON_PWR then c else c.storeEmb a v

/-- A store lands in the EYE page; a map write is Tirba's darn of the ports it moves to pipeline 8 (R683). -/
def Chip.storeEyePage (a : Nat) (v : Word) (c : Chip) : Chip :=
  if a = R.EYE_PIPE_MAP then (c.storeEye a v).pipesDarned (c.rd a) else c.storeEye a v

/-- A store lands in the SND page; a spare map write is Tirba's darn of that voice (R687). -/
def Chip.storeSndPage (n : Core) (a : Nat) (v : Word) (c : Chip) : Chip :=
  if R.SND_SPARE_MAP 0 ≤ a ∧ a < R.SND_SPARE_MAP 8 then
    (c.storeSnd n a v).voiceDarned ((a - R.SND_SPARE_MAP 0) / 4) (c.rf a 6 0)
  else c.storeSnd n a v

/-- A store lands in a register page (R758); an address that holds no register takes nothing. -/
def Chip.storeReg (n : Core) (user : Bool) (a : Nat) (v : Word) (c : Chip) : Chip :=
  match a / 0x1000 with
  | 0x40000 => c.storeSys n user a v
  | 0x40001 => c.storeLcy a v
  | 0x40002 => c.storeIrq n a v
  | 0x40003 => c.storeTmr a v
  | 0x40004 => c.storeChk a v
  | 0x40005 => c.storeBob a v
  | 0x40006 => c.mbxWrite false (a % 0x1000) v
  | 0x40007 => c.storePrk 0 a v
  | 0x40008 => c.storePrk 1 a v
  | 0x40009 => c.storeGnd n a v
  | 0x4000A => c.storeMtf n a v
  | 0x4000B => c.storeEyePage a v
  | 0x4000C => c.storeApq 0 a v
  | 0x4000D => c.storeApq 1 a v
  | 0x4000E => c.storeBmo a v
  | 0x4000F => c.storeSndPage n a v
  | 0x40010 => c.storeAud a v
  | 0x40011 => c.storeLtn a v
  | 0x40012 => c.storeEmbFrom user a v
  | 0x40013 => c.storeAdc a v
  | 0x40014 => c.storeVlm a v
  | 0x40015 => c.storeSer a v
  | 0x40016 => c.storeGpio a v
  | 0x40017 => c.storeDbg a v
  | _ => c

/-- What a register of a register page reads, before its RC fields clear. -/
def Chip.readPage (n : Core) (a : Nat) (c : Chip) : Word × Chip :=
  match a / 0x1000 with
  | 0x40001 => (c.readLcy a, c)
  | 0x40002 => (c.readIrq n a, c)
  | 0x40003 => (c.readTmr a, c)
  | 0x40004 => (c.readChk a, c)
  | 0x40005 => (c.readBob a, c)
  | 0x40009 => c.readGnd n a
  | 0x4000A => c.readMtf n a
  | 0x4000B => c.readEye a
  | 0x4000E => (c.readBmo a, c)
  | 0x4000F => c.readSnd n a
  | 0x40011 => (c.readLtn a, c)
  | 0x40012 => (c.readEmb a, c)
  | 0x40013 => (c.readAdc a, c)
  | 0x40014 => (c.readVlm a, c)
  | 0x40015 => c.readSer a
  | 0x40016 => (c.readGpio a, c)
  | 0x40017 => (c.readDbg a, c)
  | _ => (c.rd a, c)

/-- The RC fields of a register clear (R6). -/
def Chip.readClear (a : Nat) (c : Chip) : Chip :=
  match regSpec a with
  | some r => if r.rc = 0 then c else c.wr a (c.rd a &&& ~~~(w32 r.rc))
  | none => c

/-- A read of a register page: the value, and the RC fields cleared (R6). The token peak starts again at the tokens held (R130). -/
def Chip.readReg (n : Core) (a : Nat) (c : Chip) : Word × Chip :=
  let (v, c) := c.readPage n a
  (v, (c.readClear a).when (a == R.VLM_TOK_PEAK) Chip.tokPeak)

/-- The oldest store of core n that has not landed lands (R146). -/
def Chip.land (n : Core) (c : Chip) : Chip :=
  match (c.core n).stores with
  | [] => c
  | (a, v, u) :: t => (c.onCore n fun k => { k with stores := t }).storeReg n u a v

/-- Every store of core n to a register page lands, in order (R147). -/
def Chip.landAll (n : Core) (c : Chip) : Chip := forEach (c.core n).stores (fun _ c => c.land n) c

/-! ### Commands -/

/-- A store lands in a register (R146), or the host writes its configuration space (assumption 30). A Bobbin uses core 0's
copies of the index ports and core 0's interrupt bank (assumption 14). -/
def execRegisterWrite (who : Who) (user : Bool) (a : BitVec 32) (v : Word) (s : State) : Out :=
  match who with
  | .host => (s.chip.cfgRequest true a.toNat 0xF v).next s
  | .core n => (match ylxAt n a.toNat with
    | some (m, off) => s.chip.when (!user && isReg (0x00120000 + 0x1000 * m.val + off)) (Chip.storeYlx m off v)
    | none => s.chip.storeReg n user a.toNat v).next s
  | .bobbin _ => (s.chip.storeReg 0 false a.toNat v).next s

/-- The oldest posted store of core n lands (R146). -/
def execStoreLand (n : Core) (s : State) : Out := (s.chip.land n).next s

end Sys2Proof.Machine
end

