-- ==== Sys2Proof/Machine/BobMove.lean ====
section
/-! DEFINITION. The movement of Bobbin data (R581 to R585, R592) and the completion of Vellum reads. -/

namespace Sys2Proof.Machine

/-- The point reached in the row moves on by k bytes (R595). -/
def Chip.bobAdvance (n : BobCh) (k : Nat) (c : Chip) : Chip :=
  (c.wr (R.BOB_OFF n) (w32 ((c.rd (R.BOB_OFF n)).toNat + k))).wr (R.BOB_TOTAL n) (w32 ((c.rd (R.BOB_TOTAL n)).toNat + k))

/-- A host bus address of the channel (R574). -/
def Chip.hostAddr (c : Chip) (n : BobCh) (a : Nat) : Nat := (c.rd (R.BOB_HOSTHI n)).toNat * 2 ^ 32 + a % 2 ^ 32

/-- Words stored one after another in a register, or in the registers from an address on. -/
def Chip.bobRegs (fix : Bool) : Nat → List Byte → Chip → Chip
  | a, b0 :: b1 :: b2 :: b3 :: t, c => Chip.bobRegs fix (if fix then a else a + 4) t (c.storeReg 0 false a (w32 (leNat [b0, b1, b2, b3])))
  | _, _, c => c

/-- What the words of a fixed destination in memory leave there: each overwrites the one before, and a last part of a word, which an
error cut off, its first bytes. -/
def lastWord (bs : List Byte) : List Byte :=
  let whole := bs.length / 4 * 4
  let part := bs.drop whole
  part ++ ((bs.take whole).drop (whole - 4)).drop part.length

/-- The channel writes bytes to its destination, from the point reached in row k on (R581). -/
def Chip.bobPut (n : BobCh) (d : BobDesc) (k : Nat) (bs : List Byte) (c : Chip) : Chip :=
  let off := (c.rd (R.BOB_OFF n)).toNat
  let a := if d.dstFix then d.dst else d.dstRow k + off
  let c :=
    if bs = [] then c
    else if d.dstHost then c.bmWrite (c.hostAddr n a) (if d.dstFix then lastWord bs else bs)
    else if bobTarget a = .regs then c.bobRegs d.dstFix a bs
    else c.memWrite a (if d.dstFix then lastWord bs else bs)
  c.bobAdvance n bs.length

/-- Words read one after another from a register, or from the registers from an address on. -/
def Chip.bobRegRead (fix : Bool) : Nat → Nat → Chip → List Byte × Chip
  | 0, _, c => ([], c)
  | k + 1, a, c =>
    let (v, c) := c.readReg 0 a
    let (bs, c) := Chip.bobRegRead fix k (if fix then a else a + 4) c
    (leBytes 4 v.toNat ++ bs, c)

/-- The bytes that a copy with DST above SRC in an overlap delivers (R583): byte i as it was, or as an ascending copy by d
bytes gives it, which one is free. -/
def overlapBytes (k d : Nat) (bs : List Byte) : List Byte :=
  (List.range bs.length).map fun i => bs.getD (if d ≤ i && Config.overlapPick k i then i % d else i) 0

/-- A row whose source is not the host: from the point reached to its end, or to the first uncorrectable word; the answer is
the address of that word. -/
def Chip.bobRow (n : BobCh) (d : BobDesc) (k : Nat) (c : Chip) : Option Nat × Chip :=
  let off := (c.rd (R.BOB_OFF n)).toNat
  let len := d.count - off
  let a := if d.srcFix then d.src else d.srcRow k + off
  if bobTarget a = .regs then
    let (bs, c) := c.bobRegRead d.srcFix (len / 4) a
    (none, c.bobPut n d k bs)
  else
    let span := if d.srcFix then 4 else len
    let bad := c.firstBad a span
    let good := match bad with
      | some o => if d.srcFix then 0 else o
      | none => len
    let bs := if d.srcFix then (List.range good).map fun i => c.byte (a + i % 4) else c.bytes a good
    let c := c.bobRead n a (match bad with
      | some o => o + 4
      | none => span)
    let dst := d.dstRow k + off
    let (bs, c) :=
      if !d.srcFix && !d.dstFix && !d.dstHost && decide (a < dst) && decide (dst < a + len) then
        let (j, c) := c.fresh
        (overlapBytes j (dst - a) bs, c)
      else (bs, c)
    (bad.map fun o => a + o, c.bobPut n d k bs)

/-- The length of the next host read of a row: at most 512 bytes and Max_Read_Request_Size; a word where the source is fixed. -/
def Chip.askLen (c : Chip) (d : BobDesc) (off : Nat) : Nat :=
  if d.srcFix then 4 else min (d.count - off) (min 512 (128 * 2 ^ c.host.readSize))

/-- The channel asks the host for the next bytes of row k (R582). -/
def Chip.bobAsk (n : BobCh) (d : BobDesc) (k : Nat) (c : Chip) : Chip :=
  let off := (c.rd (R.BOB_OFF n)).toNat
  let len := c.askLen d off
  let a := if d.srcFix then d.src else d.srcRow k + off
  (c.bobPhase n (.host len)).bmStart (.bobbin n) (c.hostAddr n a) len

/-- The host side of the descriptor's next move is not to be had: in D3hot or with bus mastering off (R250), or while no tag is free
for a read (R118). The channel waits. -/
def Chip.bobHostWaits (c : Chip) (d : BobDesc) (off : Nat) : Bool :=
  (d.dstHost && !c.bmOn) || (d.srcHost && decide (off < d.count) && !c.bmRoom)

/-- Rows of the descriptor in force move until it ends, a row waits for a trigger or for the host, or an error stops the
channel. -/
def Chip.bobRows (n : BobCh) (d : BobDesc) : Nat → Chip → Chip
  | 0, c => c
  | f + 1, c =>
    let k := c.rf (R.BOB_ROW n) 15 0
    let off := (c.rd (R.BOB_OFF n)).toNat
    if (c.bob[n]).phase ≠ .move ∨ c.bobHostWaits d off then c
    else if d.srcHost ∧ off < d.count then c.bobAsk n d k
    else
      let (bad, c) := if d.srcHost then (none, c) else c.bobRow n d k
      match bad with
      | some w => c.bobErr n 5 w
      | none =>
        let c := (c.wr (R.BOB_ROW n) (w32 (k + 1))).wr (R.BOB_OFF n) 0
        if k + 1 = d.nRows then c.bobEnd n d
        else Chip.bobRows n d f (if d.rowTrig then c.bobRowStart n true else c)

/-- The channel moves what it can (none in DIM, R594). -/
def Chip.bobMove (n : BobCh) (c : Chip) : Chip :=
  match (c.bob[n]).desc with
  | some d => if c.power = 0 then c.bobRows n d (d.nRows + 1) else c
  | none => c

/-- A host read of the channel ends: with its bytes, or failed (R592); one that an abort waits for ends the channel (R591). -/
def Chip.bobHostDone (n : BobCh) (data : Option (List Byte)) (c : Chip) : Chip :=
  if (c.bob[n]).phase = .abort then c.bobErr n 7 0
  else match (c.bob[n]).desc, data with
    | some d, some bs =>
      let k := c.rf (R.BOB_ROW n) 15 0
      ((c.bobPut n d k bs).bobPhase n .move).bobMove n
    | some d, none => c.bobErr n 6 (d.srcRow (c.rf (R.BOB_ROW n) 15 0) + (c.rd (R.BOB_OFF n)).toNat)
    | none, _ => c

/-! ### Commands -/

/-- The channel's rows move, to the end of the descriptor where nothing holds them up (R585). -/
def execBobDescriptorEnd (n : BobCh) (s : State) : Out := (s.chip.bobMove n).next s

/-- A requester's read delivers its last word; the findings of the ECC check stand by word (R105). -/
def execVlmReadComplete (cls : VClass) (idx : BitVec 7) (find : List (Option Ecc)) (s : State) : Out :=
  (s.chip.readDone cls idx.toNat find).next s

end Sys2Proof.Machine
end

