-- ==== Sys2Proof/Machine/Yelex.lean ====
section
/-! DEFINITION. The Yelex instruction set (06): what an instruction reads and writes, the accesses a core makes, the words of
R170 decoded, and one command per instruction. -/

namespace Sys2Proof.Machine

/-! ### The programmer's state (R165 to R169) -/

/-- What core state k reads for register i: g13 is the copy of the mode, g15 the address of the instruction plus 4. -/
def CoreSt.gr (k : CoreSt) (i : GReg) : Word :=
  if i = 15 then k.pc + 4
  else if i = 13 ∧ k.mode = .U then k.usp
  else k.g[i]

/-- Register i of core state k written; g15 is no destination (R167). -/
def CoreSt.setG (i : GReg) (v : Word) (k : CoreSt) : CoreSt :=
  if i = 15 then k
  else if i = 13 ∧ k.mode = .U then { k with usp := v }
  else { k with g := k.g.set i.val v i.isLt }

/-- The core goes on at the next instruction. -/
def CoreSt.adv (k : CoreSt) : CoreSt := { k with pc := k.pc + 4 }

/-- Predicate register i, 1 to 3. -/
def CoreSt.pr (k : CoreSt) (i : Nat) : Bool :=
  match i with
  | 1 => k.p1
  | 2 => k.p2
  | 3 => k.p3
  | _ => false

/-- Predicate register i written. -/
def CoreSt.setP (i : Nat) (v : Bool) (k : CoreSt) : CoreSt :=
  match i with
  | 1 => { k with p1 := v }
  | 2 => { k with p2 := v }
  | 3 => { k with p3 := v }
  | _ => k

/-- The condition of a predicate field (R171): 111 is the blanking of the assigned Beam (R139, R173). -/
def Chip.predTrue (c : Chip) (n : Core) (p : BitVec 3) : Bool :=
  let k := c.core n
  match p.toNat with
  | 0 => true
  | 1 => k.p1
  | 2 => !k.p1
  | 3 => k.p2
  | 4 => !k.p2
  | 5 => k.p3
  | 6 => !k.p3
  | _ => c.blanking (if c.rb (R.YLX_CTRL n) 0 then 1 else 0)

/-! ### Arithmetic (R179 to R183) -/

/-- The operations of opcode 0x01 (R179), which the immediate forms share (R181). -/
inductive Alu where
  | add | sub | and | or | xor | shl | shr | sar | mul | mulhs | mulhu | divs | divu | rems | remu | min | max | minu | maxu
deriving DecidableEq, Repr

/-- ga op gb (R179), the divisions with the results of R180. -/
def Alu.eval (f : Alu) (a b : Word) : Word :=
  match f with
  | .add => a + b
  | .sub => a - b
  | .and => a &&& b
  | .or => a ||| b
  | .xor => a ^^^ b
  | .shl => a <<< (b.toNat % 32)
  | .shr => a >>> (b.toNat % 32)
  | .sar => a.sshiftRight (b.toNat % 32)
  | .mul => a * b
  | .mulhs => BitVec.ofInt 32 (a.toInt * b.toInt / 2 ^ 32)
  | .mulhu => w32 (a.toNat * b.toNat / 2 ^ 32)
  | .divs => if b = 0 then 0xFFFFFFFF else BitVec.ofInt 32 (a.toInt.tdiv b.toInt)
  | .divu => if b = 0 then 0xFFFFFFFF else w32 (a.toNat / b.toNat)
  | .rems => if b = 0 then a else BitVec.ofInt 32 (a.toInt.tmod b.toInt)
  | .remu => if b = 0 then a else w32 (a.toNat % b.toNat)
  | .min => if a.toInt ≤ b.toInt then a else b
  | .max => if a.toInt ≤ b.toInt then b else a
  | .minu => if a.toNat ≤ b.toNat then a else b
  | .maxu => if a.toNat ≤ b.toNat then b else a

/-- A comparison cc (R183); code 111 is undefined and never gets here. -/
def ccTrue (cc : BitVec 3) (a b : Word) : Bool :=
  match cc.toNat with
  | 0 => decide (a = b)
  | 1 => decide (a ≠ b)
  | 2 => decide (a.toInt < b.toInt)
  | 3 => decide (b.toInt ≤ a.toInt)
  | 4 => decide (a.toNat < b.toNat)
  | 5 => decide (b.toNat ≤ a.toNat)
  | _ => decide (a &&& b ≠ 0)

/-- A logic function fn of two predicates (R183); code 111 is undefined and never gets here. -/
def fnTrue (fn : BitVec 3) (a b : Bool) : Bool :=
  match fn.toNat with
  | 0 => a && b
  | 1 => a || b
  | 2 => a != b
  | 3 => a && !b
  | 4 => true
  | 5 => false
  | _ => !a

/-! ### Accesses (R132, R133, R177, R185 to R188) -/

/-- What an address of the core address map reaches: the ROM, local memory by its key in the model's memory, a core's YLX
page, a register page, or Vellum. -/
inductive Tgt where
  | rom
  | lm (m : Nat) (key : Nat)
  | ylx (m : Core) (off : Nat)
  | reg
  | vlm (off : Nat)
deriving DecidableEq, Repr

/-- What core n reaches at an address (R96, R132, R133, R758, R759). -/
def target (n : Core) (a : Nat) : Option Tgt :=
  if a < 0x00008000 then some .rom
  else if 0x00100000 ≤ a ∧ a < 0x00110000 then some (.lm n.val (lmBase n + (a - 0x00100000)))
  else if let some (m, off) := ylxAt n a then some (.ylx m off)
  else if 0x00200000 ≤ a ∧ a < 0x00280000 then some (.lm ((a - 0x00200000) / 0x10000) a)
  else if vlmBase ≤ a ∧ a < vlmBase + vlmSize then some (.vlm (a - vlmBase))
  else if pageReg (a / 4 * 4) then some .reg
  else none

/-- A target takes an access of this kind and size: registers take words only (R177), the ROM takes no store (assumption 31,
DEDUCED), and a YLX page has registers at its listed offsets only. -/
def Tgt.takes (t : Tgt) (acc : Acc) (size : Nat) : Bool :=
  match t with
  | .rom => decide (acc ≠ .w)
  | .lm _ _ => true
  | .ylx m off => decide (size = 4) && isReg (0x00120000 + 0x1000 * m.val + off)
  | .reg => decide (size = 4)
  | .vlm _ => true

/-- Alignment and target of an access (R177). -/
def accTarget (n : Core) (acc : Acc) (size : Nat) (a : Word) : Except Cause Tgt :=
  if a.toNat % size ≠ 0 then .error .misalign
  else match target n a.toNat with
    | none => .error .noTarget
    | some t => if t.takes acc size then .ok t else .error .noTarget

/-- The checks of an access in the order protection, alignment, target (R188; the order is assumption 31, DEDUCED). -/
def Chip.accCheck (c : Chip) (n : Core) (acc : Acc) (size : Nat) (a : Word) : Except Cause Tgt :=
  if !c.mpuOk n acc a then .error acc.mpuCause else accTarget n acc size a

/-- Data received from a checked target (R185): the ROM as R137 says, with the requester that the access log names (R244), local
memory (R143), Vellum (R110), or a register once the core's earlier stores have landed (R147). An uncorrectable word gives the
cause of its trap. -/
def Chip.loadTgt (n : Core) (who size : Nat) (a : Word) (t : Tgt) (c : Chip) : Except Cause Nat × Chip :=
  match t with
  | .rom =>
    if c.romLocked then (.ok 0, c.accLog 0 who a)
    else (.ok (leNat ((List.range size).map fun i => Config.romByte (a.toNat + i))), c)
  | .lm m key => if c.lmBad key then (.error .localUe, c.lmUe m (key % 0x10000 / 4)) else (.ok (c.memLE key size), c)
  | .ylx m off => (.ok (c.readYlx m off).toNat, c)
  | .reg =>
    let (v, c) := (c.landAll n).readReg n a.toNat
    (.ok v.toNat, c)
  | .vlm off =>
    let (bs, bad, c) := c.vRead .core n.val off size
    if bad then (.error .vlmUe, c) else (.ok (leNat bs), c)

/-- A store to a checked target (R175, R186, R203): memory and YLX pages take it at once (assumption 32), the core's own
interrupt bank after the core's earlier stores (R147), a register page when the store lands. -/
def Chip.storeTgt (n : Core) (user : Bool) (size : Nat) (a v : Word) (t : Tgt) (c : Chip) : Chip :=
  match t with
  | .rom => c
  | .lm _ key => c.memWrite key (leBytes size v.toNat)
  | .ylx m off => c.storeYlx m off v
  | .reg =>
    if 0x40002000 ≤ a.toNat ∧ a.toNat < 0x40002400 then
      let c := c.landAll n
      c.when (c.goesOn n) (Chip.storeReg n user a.toNat v)
    else c.onCore n fun k => { k with stores := k.stores ++ [(a.toNat, v, user)] }
  | .vlm off => c.vWrite off (leBytes size v.toNat)

/-- A checked load. -/
def Chip.yLoad (n : Core) (size : Nat) (a : Word) (c : Chip) : Except Cause Nat × Chip :=
  match c.accCheck n .r size a with
  | .error e => (.error e, c)
  | .ok t => c.loadTgt n n.val size a t

/-- The core is in U mode. -/
def Chip.inU (c : Chip) (n : Core) : Bool := decide ((c.core n).mode = .U)

/-- The fetch of the instruction at the pc (R137, R151, R178): protection, the ROM's lock, the target and its word. -/
def Chip.fetch (n : Core) (c : Chip) : Except Cause Word × Chip :=
  let pc := (c.core n).pc
  if pc.toNat % 4 ≠ 0 then (.error .misalign, c)
  else if !c.mpuOk n .x pc then (.error .mpuFetch, c)
  else match target n pc.toNat with
    | some .rom =>
      if c.romLocked && decide (pc.toNat < parkWindow.toNat) then (.error .fetchLocked, c)
      else (.ok (w32 (leNat ((List.range 4).map fun i => Config.romByte (pc.toNat + i)))), c)
    | some (.lm m key) =>
      match c.loadTgt n n.val 4 pc (.lm m key) with
      | (.error e, c) => (.error e, c)
      | (.ok v, c) => (.ok (w32 v), c)
    | some (.vlm off) =>
      match c.loadTgt n n.val 4 pc (.vlm off) with
      | (.error e, c) => (.error e, c)
      | (.ok v, c) => (.ok (w32 v), c)
    | _ => (.error .noTarget, c)

/-! ### Instructions -/

/-- How a load takes its data (R185). -/
inductive LoadKind where
  | w | h | hu | b | bu
deriving DecidableEq, Repr

/-- Bytes of a load. -/
def LoadKind.size : LoadKind → Nat
  | .w => 4 | .h => 2 | .hu => 2 | .b => 1 | .bu => 1

/-- The data as gd takes it. -/
def LoadKind.extend (k : LoadKind) (v : Nat) : Word :=
  match k with
  | .h => (BitVec.ofNat 16 v).signExtend 32
  | .b => (BitVec.ofNat 8 v).signExtend 32
  | _ => w32 v

/-- An instruction's operation, its fields by name (R179 to R199). -/
inductive YOp where
  | alu (f : Alu) (gd ga gb : GReg)
  | alui (f : Alu) (gd ga : GReg) (imm : Word)
  | movi (gd : GReg) (imm : BitVec 16)
  | movhi (gd : GReg) (imm : BitVec 16)
  | cmp (cc : BitVec 3) (pd : BitVec 2) (ga gb : GReg)
  | cmpi (cc : BitVec 3) (pd : BitVec 2) (ga : GReg) (imm : BitVec 12)
  | plog (fn : BitVec 3) (pd pa pb : BitVec 2)
  | getPred (gd : GReg)
  | setPred (ga : GReg)
  | getUsp (gd : GReg)
  | setUsp (ga : GReg)
  | load (k : LoadKind) (gd ga : GReg) (imm : BitVec 15)
  | store (size : Nat) (gs ga : GReg) (imm : BitVec 15)
  | xchg (gd ga : GReg)
  | br (off : BitVec 23)
  | bl (off : BitVec 23)
  | jr (ga : GReg)
  | jlr (gd ga : GReg)
  | callm (ga : GReg) (mask : BitVec 13)
  | retm (mask : BitVec 13)
  | sev (mask : BitVec 8)
  | wfe
  | waituntil (src : BitVec 2) (after : Bool) (gn : GReg)
  | trap (imm : BitVec 16)
  | eret
  | brk (imm : BitVec 16)
  | nop
deriving DecidableEq, Repr

/-- An operation that traps with UNDEF whatever the predicate (R167, R172, R182, R183, R195): a destination of g15, an
undefined code, or an S-only instruction in U mode. -/
def YOp.undef (user : Bool) : YOp → Bool
  | .alu _ gd _ _ => decide (gd = 15)
  | .alui _ gd _ _ => decide (gd = 15)
  | .movi gd _ => decide (gd = 15)
  | .movhi gd _ => decide (gd = 15)
  | .cmp cc pd _ _ => decide (cc = 7) || decide (pd = 0)
  | .cmpi cc pd _ _ => decide (cc = 7) || decide (pd = 0)
  | .plog fn pd _ _ => decide (fn = 7) || decide (pd = 0)
  | .getPred gd => decide (gd = 15)
  | .setPred _ => false
  | .getUsp gd => user || decide (gd = 15)
  | .setUsp _ => user
  | .load _ gd _ _ => decide (gd = 15)
  | .store _ _ _ _ => false
  | .xchg gd _ => decide (gd = 15)
  | .jlr gd _ => decide (gd = 15)
  | .waituntil src _ _ => decide (src = 3)
  | .eret => user
  | _ => false

/-- A core's registers changed and the core gone on. -/
def Chip.done (n : Core) (f : CoreSt → CoreSt) (c : Chip) : Chip := c.onCore n fun k => (f k).adv

/-- A branch to a target whose low bits are clear, else the trap of R178. -/
def Chip.branch (n : Core) (target : Word) (f : CoreSt → CoreSt) (c : Chip) : Chip :=
  if target.toNat % 4 ≠ 0 then c.trap n .misalign (some target)
  else c.onCore n fun k => { f k with pc := target }

/-- Target of a format B branch (R189). -/
def brTarget (pc : Word) (off : BitVec 23) : Word := pc + 4 + (off.signExtend 32 <<< (2 : Nat))

/-- A load (R185, R188). A store of the core that lands meanwhile may reset the core (R742): the load is then lost (R168). -/
def Chip.doLoad (n : Core) (k : LoadKind) (gd : GReg) (a : Word) (c : Chip) : Chip :=
  match c.yLoad n k.size a with
  | (.error e, c) => c.trap n e (some a)
  | (.ok v, c) => if c.goesOn n then c.done n (CoreSt.setG gd (k.extend v)) else c

/-- A store (R185, R188). It takes effect before the next instruction issues (R186): one to the core's own YLX_PCTRL holds or
restarts the core that has gone on (R138). -/
def Chip.doStore (n : Core) (size : Nat) (v a : Word) (c : Chip) : Chip :=
  match c.accCheck n .w size a with
  | .error e => c.trap n e (some a)
  | .ok t => (c.done n id).storeTgt n (c.inU n) size a v t

/-- A target on which xchg works: local memory or Vellum (R187). -/
def Tgt.isMemory : Tgt → Bool
  | .lm _ _ => true
  | .vlm _ => true
  | _ => false

/-- The checks of an exchange (R187, R188): protection of its load and of its store, alignment, and a word of memory. -/
def Chip.xchgCheck (c : Chip) (n : Core) (a : Word) : Except Cause Tgt :=
  if !c.mpuOk n .r a then .error .mpuLoad
  else if !c.mpuOk n .w a then .error .mpuStore
  else match accTarget n .r 4 a with
    | .error e => .error e
    | .ok t => if t.isMemory then .ok t else .error .noTarget

/-- The exchange of a word with gd (R187). -/
def Chip.doXchg (n : Core) (gd ga : GReg) (c : Chip) : Chip :=
  let a := (c.core n).gr ga
  let old := (c.core n).gr gd
  match c.xchgCheck n a with
  | .error e => c.trap n e (some a)
  | .ok t =>
    match c.loadTgt n n.val 4 a t with
    | (.error e, c) => c.trap n e (some a)
    | (.ok v, c) => (c.storeTgt n (c.inU n) 4 a old t).done n (CoreSt.setG gd (w32 v))

/-- The registers that a mask names, in ascending order (R190). -/
def maskRegs (mask : BitVec 13) : List GReg := (List.finRange 16).filter fun i => decide (i.val < 13) && tb mask i.val

/-- The addresses of w words from a base on. -/
def wordAddrs (base : Word) (w : Nat) : List Word := (List.range w).map fun i => base + w32 (4 * i)

/-- The first access that fails its check, with its cause (R153). -/
def Chip.firstDenied (c : Chip) (n : Core) (acc : Acc) : List Word → Option (Cause × Word)
  | [] => none
  | a :: t =>
    match c.accCheck n acc 4 a with
    | .error e => some (e, a)
    | .ok _ => Chip.firstDenied c n acc t

/-- One word of stores that have all been checked (R190). -/
def Chip.putWord (n : Core) (user : Bool) (a v : Word) (c : Chip) : Chip :=
  match accTarget n .w 4 a with
  | .error _ => c
  | .ok t => c.storeTgt n user 4 a v t

/-- Words whose loads have all been checked (R191), in order, or the trap of the first that is uncorrectable; a reset of the core
by a store that lands ends them. -/
def Chip.getWords (n : Core) : List Word → Chip → Except (Cause × Word) (List Word) × Chip
  | [], c => (.ok [], c)
  | a :: t, c =>
    match accTarget n .r 4 a with
    | .error e => (.error (e, a), c)
    | .ok tgt =>
    match c.loadTgt n n.val 4 a tgt with
    | (.error e, c) => (.error (e, a), c)
    | (.ok v, c) =>
      if !c.goesOn n then (.ok [], c) else
      match Chip.getWords n t c with
      | (.error e, c) => (.error e, c)
      | (.ok vs, c) => (.ok (w32 v :: vs), c)

/-- callm (R190): every store is checked before the first is made; the core has gone on when they take effect (R186). -/
def Chip.callm (n : Core) (ga : GReg) (mask : BitVec 13) (c : Chip) : Chip :=
  let k := c.core n
  let rs := maskRegs mask
  let w := rs.length + 1
  let target := k.gr ga
  let base := k.gr 13 - w32 (4 * w)
  if target.toNat % 4 ≠ 0 then c.trap n .misalign (some target)
  else if base.toNat % 4 ≠ 0 then c.trap n .misalign (some base)
  else match c.firstDenied n .w (wordAddrs base w) with
    | some (e, a) => c.trap n e (some a)
    | none =>
      let ret := k.pc + 4
      let user := c.inU n
      let c := c.onCore n fun k => { (k.setG 13 base).setG 14 ret with pc := target }
      forEach ((wordAddrs base w).zip (rs.map k.gr ++ [k.gr 14])) (fun e c => c.putWord n user e.1 e.2) c

/-- retm (R191): no register changes unless every word is received (R156). -/
def Chip.retm (n : Core) (mask : BitVec 13) (c : Chip) : Chip :=
  let k := c.core n
  let rs := maskRegs mask
  let w := rs.length + 1
  let target := k.gr 14
  let base := k.gr 13
  if target.toNat % 4 ≠ 0 then c.trap n .misalign (some target)
  else match c.firstDenied n .r (wordAddrs base w) with
    | some (e, a) => c.trap n e (some a)
    | none =>
      match Chip.getWords n (wordAddrs base w) c with
      | (.error (e, a), c) => c.trap n e (some a)
      | (.ok vs, c) =>
        if !c.goesOn n then c
        else c.onCore n fun k =>
          { forEach ((rs ++ [14]).zip vs) (fun e k => k.setG e.1 e.2) (k.setG 13 (base + w32 (4 * w))) with pc := target }

/-- sev (R193): after the core's stores have landed, the latches set; a store that resets the core ends it (R168). -/
def Chip.sev (n : Core) (mask : BitVec 8) (c : Chip) : Chip :=
  let c := c.landAll n
  if !c.goesOn n then c
  else (forEach ((List.finRange 8).filter fun m => decide (m.val < c.rf R.SYS_PARAM0 27 24) && tb mask m.val)
    (fun m c => c.onCore m fun k => { k with latch := true }) c).done n id

/-- The instruction after the park window's WFE (R136). -/
def parkRest : Word := 0x00007FC4

/-- The rest of the park window's code (R136): the core loads its YLX_ENTRY; 0 makes it execute the WFE again, which finds a latch
that has set meanwhile (R194); else it branches there in S mode. The registers that the code uses are free. -/
def Chip.unpark (n : Core) (c : Chip) : Chip :=
  let e := c.rd (R.YLX_ENTRY n)
  if e = 0 then c.onCore n fun k => { k with asleep := true, parked := true, pc := parkWindow, latch := false }
  else
    let c := c.romScratch n
    if e.toNat % 4 ≠ 0 then
      let (k, c) := c.fresh
      (c.onCore n fun s => { s with pc := Config.romReg k 15 }).trap n .misalign (some e)
    else c.onCore n fun k => { k with pc := e }

/-- The core stands after the park window's WFE: it goes on unless it takes an interrupt at that boundary (R217). -/
def Chip.parkOn (n : Core) (c : Chip) : Chip :=
  let k := c.core n
  if k.pc = parkRest ∧ k.mode = .S ∧ ¬(c.rb (R.YLX_ESTAT n) 0 = true ∧ (c.selected n).isSome) then c.unpark n else c

/-- wfe (R194): a set latch is cleared; else the core sleeps, in the park window until it has an entry (R136). -/
def Chip.wfe (n : Core) (c : Chip) : Chip :=
  let k := c.core n
  if k.latch then (c.done n fun k => { k with latch := false }).parkOn n
  else if k.pc = parkWindow ∧ k.mode = .S then c.onCore n fun k => { k with asleep := true, parked := true }
  else c.done n fun k => { k with asleep := true }

/-- The value of a wait has been reached at issue (R197). -/
def Chip.reached (c : Chip) (src : BitVec 2) (v : Word) : Bool :=
  if src = 2 then decide (0 ≤ (c.timeLo - v).toInt)
  else
    let b : Beam := if src = 0 then 0 else 1
    decide (v.toNat % 2 ^ 27 ≤ c.rf (R.PRK_POS b) 26 0)

/-- waituntil (R195 to R197). -/
def Chip.waituntil (n : Core) (src : BitVec 2) (after : Bool) (gn : GReg) (c : Chip) : Chip :=
  let v := (c.core n).gr gn
  if after && c.reached src v then c.done n id
  else c.onCore n fun k => { k with wait := some { src := src.toNat, value := v } }

/-- Core debug is enabled (R199, R723). -/
def Chip.debugOpen (c : Chip) : Bool := c.access == 0 || c.access == 2

/-- A sleeping core's WFE ends with its latch clear (R194); the park window's WFE is then complete too (R136). -/
def CoreSt.wakeUp (k : CoreSt) : CoreSt :=
  if k.asleep then { k with asleep := false, parked := false, latch := false, pc := if k.parked then parkRest else k.pc } else k

/-- A debug halt ends a WFE (R194) and abandons a WAITUNTIL, with EPC at it (R198). -/
def Chip.waitEnd (n : Core) (c : Chip) : Chip :=
  let c := c.when (c.core n).wait.isSome fun c => c.wr (R.YLX_EPC n) (c.core n).pc
  c.onCore n fun k => { k.wakeUp with wait := none }

/-- A core enters debug halt (R723). -/
def Chip.debugHalt (n : Core) (c : Chip) : Chip :=
  ((c.sb R.DBG_STICKY 3).waitEnd n).onCore n fun k => { k with halted := true }

/-- An operation's effect (R179 to R199). -/
def Chip.effect (n : Core) (op : YOp) (c : Chip) : Chip :=
  let k := c.core n
  match op with
  | .alu f gd ga gb => c.done n (CoreSt.setG gd (f.eval (k.gr ga) (k.gr gb)))
  | .alui f gd ga imm => c.done n (CoreSt.setG gd (f.eval (k.gr ga) imm))
  | .movi gd imm => c.done n (CoreSt.setG gd (imm.signExtend 32))
  | .movhi gd imm => c.done n (CoreSt.setG gd (setFld (k.gr gd) 31 16 imm.toNat))
  | .cmp cc pd ga gb => c.done n (CoreSt.setP pd.toNat (ccTrue cc (k.gr ga) (k.gr gb)))
  | .cmpi cc pd ga imm => c.done n (CoreSt.setP pd.toNat (ccTrue cc (k.gr ga) (imm.signExtend 32)))
  | .plog fn pd pa pb =>
    let src (p : BitVec 2) : Bool := if p = 0 then true else k.pr p.toNat
    c.done n (CoreSt.setP pd.toNat (fnTrue fn (src pa) (src pb)))
  | .getPred gd => c.done n (CoreSt.setG gd (w32 (b2n k.p3 * 8 + b2n k.p2 * 4 + b2n k.p1 * 2)))
  | .setPred ga =>
    let v := k.gr ga
    c.done n fun k => { k with p1 := tb v 1, p2 := tb v 2, p3 := tb v 3 }
  | .getUsp gd => c.done n (CoreSt.setG gd k.usp)
  | .setUsp ga =>
    let v := k.gr ga
    c.done n fun k => { k with usp := v }
  | .load l gd ga imm => c.doLoad n l gd (k.gr ga + imm.signExtend 32)
  | .store size gs ga imm => c.doStore n size (k.gr gs) (k.gr ga + imm.signExtend 32)
  | .xchg gd ga => c.doXchg n gd ga
  | .br off => c.branch n (brTarget k.pc off) id
  | .bl off => c.branch n (brTarget k.pc off) (CoreSt.setG 14 (k.pc + 4))
  | .jr ga => c.branch n (k.gr ga) id
  | .jlr gd ga => c.branch n (k.gr ga) (CoreSt.setG gd (k.pc + 4))
  | .callm ga mask => c.callm n ga mask
  | .retm mask => c.retm n mask
  | .sev mask => c.sev n mask
  | .wfe => c.wfe n
  | .waituntil src after gn => c.waituntil n src after gn
  | .trap imm => c.trap n .soft (some (imm.setWidth 32))
  | .eret => c.eret n
  | .brk _ => if c.debugOpen then (c.done n id).debugHalt n else c.trap n .undef none
  | .nop => c.done n id

/-- A fetched instruction runs (R171, R172): none is an undefined encoding. -/
def Chip.execOp (n : Core) (p : BitVec 3) (op : Option YOp) (c : Chip) : Chip :=
  match op with
  | none => c.trap n .undef none
  | some op =>
    if op.undef (c.inU n) then c.trap n .undef none
    else if c.predTrue n p then c.effect n op
    else c.done n id

/-- A core in the ROM's own code (R136): cores 1 to 7 run it from its start to the park window's WFE, and any core goes on after
that WFE by the park window's code; what they run there is the ROM's, whatever instruction the command names. -/
def Chip.romCode (n : Core) (c : Chip) : Option Chip :=
  let k := c.core n
  if k.mode ≠ .S then none
  else if k.pc = parkRest then some (c.unpark n)
  else if n ≠ 0 ∧ k.pc.toNat < parkWindow.toNat then
    some (((c.romScratch n).onCore n fun k => { k with pc := parkWindow }).wfe n)
  else none

/-- Core n issues an instruction: u says that its word is an undefined encoding (R172). The word stands for the one at the
core's pc, whose fetch is checked (assumption 33). A core that does not run issues nothing. -/
def Chip.issue (n : Core) (p : BitVec 3) (u : Bool) (op : YOp) (c : Chip) : Chip :=
  if !c.runs n then c
  else
    let pc := (c.core n).pc
    match c.fetch n with
    | (.error e, c) => c.trap n e (some pc)
    | (.ok _, c) =>
      match c.romCode n with
      | some d => d
      | none => c.execOp n p (if u then none else some op)

/-! ### The words of R170 -/

/-- A register field. -/
def gField (w : Word) (lo : Nat) : GReg := ⟨fld w (lo + 3) lo % 16, Nat.mod_lt _ (by decide)⟩

/-- The opcode's operation of R179 by its func. -/
def aluOf : Nat → Option Alu
  | 0 => some .add | 1 => some .sub | 2 => some .and | 3 => some .or | 4 => some .xor | 5 => some .shl | 6 => some .shr
  | 7 => some .sar | 8 => some .mul | 9 => some .mulhs | 10 => some .mulhu | 11 => some .divs | 12 => some .divu
  | 13 => some .rems | 14 => some .remu | 15 => some .min | 16 => some .max | 17 => some .minu | 18 => some .maxu
  | _ => none

/-- The kind of a load by its opcode. -/
def loadOf : Nat → LoadKind
  | 0x10 => .w | 0x11 => .h | 0x12 => .hu | 0x13 => .b | _ => .bu

/-- Opcode 0x06: the shifts by an immediate (R181). -/
def decodeShift (w : Word) : Option YOp :=
  if fld w 15 13 ≠ 0 ∨ fld w 7 3 ≠ 0 then none
  else match fld w 17 16 with
    | 0 => some (.alui .shl (gField w 22) (gField w 18) (w32 (fld w 12 8)))
    | 1 => some (.alui .shr (gField w 22) (gField w 18) (w32 (fld w 12 8)))
    | 2 => some (.alui .sar (gField w 22) (gField w 18) (w32 (fld w 12 8)))
    | _ => none

/-- Opcode 0x0F: movs by its selector (R184). -/
def decodeMovs (w : Word) : Option YOp :=
  if fld w 15 3 ≠ 0 then none
  else match fld w 17 16 with
    | 0 => if fld w 21 18 = 0 then some (.getPred (gField w 22)) else none
    | 1 => if fld w 25 22 = 0 then some (.setPred (gField w 18)) else none
    | 2 => if fld w 21 18 = 0 then some (.getUsp (gField w 22)) else none
    | _ => if fld w 25 22 = 0 then some (.setUsp (gField w 18)) else none

/-- Bits [17:3], a format I immediate. -/
def imm15 (w : Word) : BitVec 15 := BitVec.ofNat 15 (fld w 17 3)

/-- Bits [18:3], a 16-bit immediate. -/
def imm16 (w : Word) : BitVec 16 := BitVec.ofNat 16 (fld w 18 3)

/-- An operation if the bits that must be 0 are 0. -/
def reserved0 (v : Nat) (op : YOp) : Option YOp := if v = 0 then some op else none

/-- The operation that a word encodes (R170 to R199); none is an undefined encoding. -/
def decodeYelex (w : Word) : Option YOp :=
  let d := gField w 22
  let a := gField w 18
  let b := gField w 14
  match fld w 31 26 with
  | 0x01 => (aluOf (fld w 13 3)).map fun f => .alu f d a b
  | 0x02 => some (.alui .add d a ((imm15 w).signExtend 32))
  | 0x03 => some (.alui .and d a ((imm15 w).setWidth 32))
  | 0x04 => some (.alui .or d a ((imm15 w).setWidth 32))
  | 0x05 => some (.alui .xor d a ((imm15 w).setWidth 32))
  | 0x06 => decodeShift w
  | 0x08 => reserved0 (fld w 21 19) (.movi d (imm16 w))
  | 0x09 => reserved0 (fld w 21 19) (.movhi d (imm16 w))
  | 0x0C => reserved0 (fld w 25 24 + fld w 13 6) (.cmp (BitVec.ofNat 3 (fld w 5 3)) (BitVec.ofNat 2 (fld w 23 22)) a b)
  | 0x0D => reserved0 (fld w 25 24)
      (.cmpi (BitVec.ofNat 3 (fld w 5 3)) (BitVec.ofNat 2 (fld w 23 22)) a (BitVec.ofNat 12 (fld w 17 6)))
  | 0x0E => reserved0 (fld w 25 24 + fld w 17 6) (.plog (BitVec.ofNat 3 (fld w 5 3)) (BitVec.ofNat 2 (fld w 23 22))
      (BitVec.ofNat 2 (fld w 21 20)) (BitVec.ofNat 2 (fld w 19 18)))
  | 0x0F => decodeMovs w
  | 0x10 => some (.load (loadOf 0x10) d a (imm15 w))
  | 0x11 => some (.load (loadOf 0x11) d a (imm15 w))
  | 0x12 => some (.load (loadOf 0x12) d a (imm15 w))
  | 0x13 => some (.load (loadOf 0x13) d a (imm15 w))
  | 0x14 => some (.load (loadOf 0x14) d a (imm15 w))
  | 0x18 => some (.store 4 d a (imm15 w))
  | 0x19 => some (.store 2 d a (imm15 w))
  | 0x1A => some (.store 1 d a (imm15 w))
  | 0x1B => reserved0 (fld w 17 3) (.xchg d a)
  | 0x20 => some (.br (BitVec.ofNat 23 (fld w 25 3)))
  | 0x21 => some (.bl (BitVec.ofNat 23 (fld w 25 3)))
  | 0x22 => reserved0 (fld w 25 22 + fld w 17 3) (.jr a)
  | 0x23 => reserved0 (fld w 17 3) (.jlr d a)
  | 0x24 => reserved0 (fld w 21 19 + fld w 18 16) (.callm d (BitVec.ofNat 13 (fld w 15 3)))
  | 0x25 => reserved0 (fld w 25 16) (.retm (BitVec.ofNat 13 (fld w 15 3)))
  | 0x28 => reserved0 (fld w 25 3) .wfe
  | 0x29 => reserved0 (fld w 25 11) (.sev (BitVec.ofNat 8 (fld w 10 3)))
  | 0x2A => reserved0 (fld w 22 22 + fld w 17 3) (.waituntil (BitVec.ofNat 2 (fld w 25 24)) (tb w 23) a)
  | 0x2C => reserved0 (fld w 25 19) (.trap (imm16 w))
  | 0x2D => reserved0 (fld w 25 3) .eret
  | 0x2E => reserved0 (fld w 25 19) (.brk (imm16 w))
  | 0x2F => reserved0 (fld w 25 3) .nop
  | _ => none

/-- The predicate field of a word (R170). -/
def predOf (w : Word) : BitVec 3 := BitVec.ofNat 3 (fld w 2 0)

/-! ### Waking and matching -/

/-- What wakes a sleeping core (R194, R216): its latch, or source s of its bank that becomes pending. -/
def Chip.wakes (c : Chip) (n : Core) (src : Option (BitVec 8)) : Bool :=
  match src with
  | none => (c.core n).latch
  | some s => c.eligible n s.toNat || (c.rb (R.IRQ_SLEEP n) 0 && c.irqEn n s.toNat && c.pend n s.toNat)

/-- A sleeping core wakes (R194, R217): the WFE is complete and the latch clear; in the park window its code goes on (R136). -/
def Chip.wake (n : Core) (src : Option (BitVec 8)) (c : Chip) : Chip :=
  if !c.coresUp || c.heldCore n || !(c.core n).asleep || !c.wakes n src then c
  else
    let was := (c.core n).parked
    (c.onCore n CoreSt.wakeUp).when was (Chip.parkOn n)

/-- A position that the running counters of a Beam can take on the line they are on (R196). -/
def Chip.canTake (c : Chip) (b : Beam) (v : Nat) : Bool :=
  c.running b && decide (v / 2 ^ 14 = c.line b) && decide (v % 2 ^ 14 < (c.beam b).htotal) && decide (c.pixel b ≤ v % 2 ^ 14)

/-- The awaited value is reached (R196, R197). -/
def Chip.waitMatch (n : Core) (c : Chip) : Chip :=
  match (c.core n).wait with
  | none => c
  | some w =>
    let go (c : Chip) : Chip := c.done n fun k => { k with wait := none }
    if w.src = 2 then if 0 ≤ (c.timeLo - w.value).toInt then go c else c
    else
      let b : Beam := if w.src = 0 then 0 else 1
      let v := w.value.toNat % 2 ^ 27
      if c.canTake b v then go (c.setPos b (v / 2 ^ 14) (v % 2 ^ 14)) else c

/-! ### Commands: register arithmetic (R179, R180) -/

/-- add gd, ga, gb (R179). -/
def execAdd (n : Core) (p : BitVec 3) (u : Bool) (gd : GReg) (ga : GReg) (gb : GReg) (s : State) : Out :=
  (s.chip.issue n p u (.alu .add gd ga gb)).next s

/-- sub gd, ga, gb (R179). -/
def execSub (n : Core) (p : BitVec 3) (u : Bool) (gd : GReg) (ga : GReg) (gb : GReg) (s : State) : Out :=
  (s.chip.issue n p u (.alu .sub gd ga gb)).next s

/-- and gd, ga, gb (R179). -/
def execAnd (n : Core) (p : BitVec 3) (u : Bool) (gd : GReg) (ga : GReg) (gb : GReg) (s : State) : Out :=
  (s.chip.issue n p u (.alu .and gd ga gb)).next s

/-- or gd, ga, gb (R179). -/
def execOr (n : Core) (p : BitVec 3) (u : Bool) (gd : GReg) (ga : GReg) (gb : GReg) (s : State) : Out :=
  (s.chip.issue n p u (.alu .or gd ga gb)).next s

/-- xor gd, ga, gb (R179). -/
def execXor (n : Core) (p : BitVec 3) (u : Bool) (gd : GReg) (ga : GReg) (gb : GReg) (s : State) : Out :=
  (s.chip.issue n p u (.alu .xor gd ga gb)).next s

/-- shl gd, ga, gb (R179). -/
def execShl (n : Core) (p : BitVec 3) (u : Bool) (gd : GReg) (ga : GReg) (gb : GReg) (s : State) : Out :=
  (s.chip.issue n p u (.alu .shl gd ga gb)).next s

/-- shr gd, ga, gb (R179). -/
def execShr (n : Core) (p : BitVec 3) (u : Bool) (gd : GReg) (ga : GReg) (gb : GReg) (s : State) : Out :=
  (s.chip.issue n p u (.alu .shr gd ga gb)).next s

/-- sar gd, ga, gb (R179). -/
def execSar (n : Core) (p : BitVec 3) (u : Bool) (gd : GReg) (ga : GReg) (gb : GReg) (s : State) : Out :=
  (s.chip.issue n p u (.alu .sar gd ga gb)).next s

/-- mul gd, ga, gb (R179). -/
def execMul (n : Core) (p : BitVec 3) (u : Bool) (gd : GReg) (ga : GReg) (gb : GReg) (s : State) : Out :=
  (s.chip.issue n p u (.alu .mul gd ga gb)).next s

/-- mulhs gd, ga, gb (R179). -/
def execMulhs (n : Core) (p : BitVec 3) (u : Bool) (gd : GReg) (ga : GReg) (gb : GReg) (s : State) : Out :=
  (s.chip.issue n p u (.alu .mulhs gd ga gb)).next s

/-- mulhu gd, ga, gb (R179). -/
def execMulhu (n : Core) (p : BitVec 3) (u : Bool) (gd : GReg) (ga : GReg) (gb : GReg) (s : State) : Out :=
  (s.chip.issue n p u (.alu .mulhu gd ga gb)).next s

/-- divs gd, ga, gb (R179, R180). -/
def execDivs (n : Core) (p : BitVec 3) (u : Bool) (gd : GReg) (ga : GReg) (gb : GReg) (s : State) : Out :=
  (s.chip.issue n p u (.alu .divs gd ga gb)).next s

/-- divu gd, ga, gb (R179, R180). -/
def execDivu (n : Core) (p : BitVec 3) (u : Bool) (gd : GReg) (ga : GReg) (gb : GReg) (s : State) : Out :=
  (s.chip.issue n p u (.alu .divu gd ga gb)).next s

/-- rems gd, ga, gb (R179, R180). -/
def execRems (n : Core) (p : BitVec 3) (u : Bool) (gd : GReg) (ga : GReg) (gb : GReg) (s : State) : Out :=
  (s.chip.issue n p u (.alu .rems gd ga gb)).next s

/-- remu gd, ga, gb (R179, R180). -/
def execRemu (n : Core) (p : BitVec 3) (u : Bool) (gd : GReg) (ga : GReg) (gb : GReg) (s : State) : Out :=
  (s.chip.issue n p u (.alu .remu gd ga gb)).next s

/-- min gd, ga, gb (R179). -/
def execMin (n : Core) (p : BitVec 3) (u : Bool) (gd : GReg) (ga : GReg) (gb : GReg) (s : State) : Out :=
  (s.chip.issue n p u (.alu .min gd ga gb)).next s

/-- max gd, ga, gb (R179). -/
def execMax (n : Core) (p : BitVec 3) (u : Bool) (gd : GReg) (ga : GReg) (gb : GReg) (s : State) : Out :=
  (s.chip.issue n p u (.alu .max gd ga gb)).next s

/-- minu gd, ga, gb (R179). -/
def execMinu (n : Core) (p : BitVec 3) (u : Bool) (gd : GReg) (ga : GReg) (gb : GReg) (s : State) : Out :=
  (s.chip.issue n p u (.alu .minu gd ga gb)).next s

/-- maxu gd, ga, gb (R179). -/
def execMaxu (n : Core) (p : BitVec 3) (u : Bool) (gd : GReg) (ga : GReg) (gb : GReg) (s : State) : Out :=
  (s.chip.issue n p u (.alu .maxu gd ga gb)).next s

/-! ### Commands: immediates and moves (R181) -/

/-- addi gd, ga, imm15 (R181). -/
def execAddi (n : Core) (p : BitVec 3) (u : Bool) (gd : GReg) (ga : GReg) (imm : BitVec 15) (s : State) : Out :=
  (s.chip.issue n p u (.alui .add gd ga (imm.signExtend 32))).next s

/-- andi gd, ga, imm15 (R181). -/
def execAndi (n : Core) (p : BitVec 3) (u : Bool) (gd : GReg) (ga : GReg) (imm : BitVec 15) (s : State) : Out :=
  (s.chip.issue n p u (.alui .and gd ga (imm.setWidth 32))).next s

/-- ori gd, ga, imm15 (R181). -/
def execOri (n : Core) (p : BitVec 3) (u : Bool) (gd : GReg) (ga : GReg) (imm : BitVec 15) (s : State) : Out :=
  (s.chip.issue n p u (.alui .or gd ga (imm.setWidth 32))).next s

/-- xori gd, ga, imm15 (R181). -/
def execXori (n : Core) (p : BitVec 3) (u : Bool) (gd : GReg) (ga : GReg) (imm : BitVec 15) (s : State) : Out :=
  (s.chip.issue n p u (.alui .xor gd ga (imm.setWidth 32))).next s

/-- shli gd, ga, n (R181). -/
def execShli (n : Core) (p : BitVec 3) (u : Bool) (gd : GReg) (ga : GReg) (cnt : BitVec 5) (s : State) : Out :=
  (s.chip.issue n p u (.alui .shl gd ga (cnt.setWidth 32))).next s

/-- shri gd, ga, n (R181). -/
def execShri (n : Core) (p : BitVec 3) (u : Bool) (gd : GReg) (ga : GReg) (cnt : BitVec 5) (s : State) : Out :=
  (s.chip.issue n p u (.alui .shr gd ga (cnt.setWidth 32))).next s

/-- sari gd, ga, n (R181). -/
def execSari (n : Core) (p : BitVec 3) (u : Bool) (gd : GReg) (ga : GReg) (cnt : BitVec 5) (s : State) : Out :=
  (s.chip.issue n p u (.alui .sar gd ga (cnt.setWidth 32))).next s

/-- movi gd, imm16 (R181). -/
def execMovi (n : Core) (p : BitVec 3) (u : Bool) (gd : GReg) (imm : BitVec 16) (s : State) : Out :=
  (s.chip.issue n p u (.movi gd imm)).next s

/-- movhi gd, imm16 (R181). -/
def execMovhi (n : Core) (p : BitVec 3) (u : Bool) (gd : GReg) (imm : BitVec 16) (s : State) : Out :=
  (s.chip.issue n p u (.movhi gd imm)).next s

/-! ### Commands: comparisons and predicates (R182 to R184) -/

/-- cmp.cc pd, ga, gb (R182, R183). -/
def execCmp (n : Core) (p : BitVec 3) (u : Bool) (cc : BitVec 3) (pd : BitVec 2) (ga : GReg) (gb : GReg) (s : State) : Out :=
  (s.chip.issue n p u (.cmp cc pd ga gb)).next s

/-- cmpi.cc pd, ga, imm12 (R182, R183). -/
def execCmpi (n : Core) (p : BitVec 3) (u : Bool) (cc : BitVec 3) (pd : BitVec 2) (ga : GReg) (imm : BitVec 12) (s : State) : Out :=
  (s.chip.issue n p u (.cmpi cc pd ga imm)).next s

/-- plog.fn pd, pa, pb (R182, R183). -/
def execPlog (n : Core) (p : BitVec 3) (u : Bool) (fn : BitVec 3) (pd : BitVec 2) (pa : BitVec 2) (pb : BitVec 2) (s : State) : Out :=
  (s.chip.issue n p u (.plog fn pd pa pb)).next s

/-- movs gd, pred (R184). -/
def execMovsGetPred (n : Core) (p : BitVec 3) (u : Bool) (gd : GReg) (s : State) : Out :=
  (s.chip.issue n p u (.getPred gd)).next s

/-- movs pred, ga (R184). -/
def execMovsSetPred (n : Core) (p : BitVec 3) (u : Bool) (ga : GReg) (s : State) : Out :=
  (s.chip.issue n p u (.setPred ga)).next s

/-- movs gd, usp, S only (R184). -/
def execMovsGetUsp (n : Core) (p : BitVec 3) (u : Bool) (gd : GReg) (s : State) : Out :=
  (s.chip.issue n p u (.getUsp gd)).next s

/-- movs usp, ga, S only (R184). -/
def execMovsSetUsp (n : Core) (p : BitVec 3) (u : Bool) (ga : GReg) (s : State) : Out :=
  (s.chip.issue n p u (.setUsp ga)).next s

/-! ### Commands: loads, stores and exchange (R185 to R188) -/

/-- ldw gd, [ga + imm15] (R185). -/
def execLdw (n : Core) (p : BitVec 3) (u : Bool) (gd : GReg) (ga : GReg) (imm : BitVec 15) (s : State) : Out :=
  (s.chip.issue n p u (.load .w gd ga imm)).next s

/-- ldh gd, [ga + imm15] (R185). -/
def execLdh (n : Core) (p : BitVec 3) (u : Bool) (gd : GReg) (ga : GReg) (imm : BitVec 15) (s : State) : Out :=
  (s.chip.issue n p u (.load .h gd ga imm)).next s

/-- ldhu gd, [ga + imm15] (R185). -/
def execLdhu (n : Core) (p : BitVec 3) (u : Bool) (gd : GReg) (ga : GReg) (imm : BitVec 15) (s : State) : Out :=
  (s.chip.issue n p u (.load .hu gd ga imm)).next s

/-- ldb gd, [ga + imm15] (R185). -/
def execLdb (n : Core) (p : BitVec 3) (u : Bool) (gd : GReg) (ga : GReg) (imm : BitVec 15) (s : State) : Out :=
  (s.chip.issue n p u (.load .b gd ga imm)).next s

/-- ldbu gd, [ga + imm15] (R185). -/
def execLdbu (n : Core) (p : BitVec 3) (u : Bool) (gd : GReg) (ga : GReg) (imm : BitVec 15) (s : State) : Out :=
  (s.chip.issue n p u (.load .bu gd ga imm)).next s

/-- stw gs, [ga + imm15] (R185). -/
def execStw (n : Core) (p : BitVec 3) (u : Bool) (gs : GReg) (ga : GReg) (imm : BitVec 15) (s : State) : Out :=
  (s.chip.issue n p u (.store 4 gs ga imm)).next s

/-- sth gs, [ga + imm15] (R185). -/
def execSth (n : Core) (p : BitVec 3) (u : Bool) (gs : GReg) (ga : GReg) (imm : BitVec 15) (s : State) : Out :=
  (s.chip.issue n p u (.store 2 gs ga imm)).next s

/-- stb gs, [ga + imm15] (R185). -/
def execStb (n : Core) (p : BitVec 3) (u : Bool) (gs : GReg) (ga : GReg) (imm : BitVec 15) (s : State) : Out :=
  (s.chip.issue n p u (.store 1 gs ga imm)).next s

/-- xchg gd, [ga] (R187). -/
def execXchg (n : Core) (p : BitVec 3) (u : Bool) (gd : GReg) (ga : GReg) (s : State) : Out :=
  (s.chip.issue n p u (.xchg gd ga)).next s

/-! ### Commands: branches (R189 to R191) -/

/-- br (R189). -/
def execBr (n : Core) (p : BitVec 3) (u : Bool) (off : BitVec 23) (s : State) : Out :=
  (s.chip.issue n p u (.br off)).next s

/-- bl (R189). -/
def execBl (n : Core) (p : BitVec 3) (u : Bool) (off : BitVec 23) (s : State) : Out :=
  (s.chip.issue n p u (.bl off)).next s

/-- jr ga (R189, R178). -/
def execJr (n : Core) (p : BitVec 3) (u : Bool) (ga : GReg) (s : State) : Out :=
  (s.chip.issue n p u (.jr ga)).next s

/-- jlr gd, ga (R189, R178). -/
def execJlr (n : Core) (p : BitVec 3) (u : Bool) (gd : GReg) (ga : GReg) (s : State) : Out :=
  (s.chip.issue n p u (.jlr gd ga)).next s

/-- callm ga, mask16; bits [15:13] of the mask are 0 (R190). -/
def execCallm (n : Core) (p : BitVec 3) (u : Bool) (ga : GReg) (mask : BitVec 13) (s : State) : Out :=
  (s.chip.issue n p u (.callm ga mask)).next s

/-- retm mask16 (R191). -/
def execRetm (n : Core) (p : BitVec 3) (u : Bool) (mask : BitVec 13) (s : State) : Out :=
  (s.chip.issue n p u (.retm mask)).next s

/-! ### Commands: events, waiting and system instructions (R193 to R199) -/

/-- sev mask8 (R193). -/
def execSev (n : Core) (p : BitVec 3) (u : Bool) (mask : BitVec 8) (s : State) : Out :=
  (s.chip.issue n p u (.sev mask)).next s

/-- wfe (R194). -/
def execWfe (n : Core) (p : BitVec 3) (u : Bool) (s : State) : Out :=
  (s.chip.issue n p u (.wfe)).next s

/-- A sleeping core wakes on its latch (none) or on a source of its bank (R194, R216). -/
def execWfeWake (n : Core) (src : Option (BitVec 8)) (s : State) : Out := (s.chip.wake n src).next s

/-- waituntil src, gN (R195 to R197). -/
def execWaituntil (n : Core) (p : BitVec 3) (u : Bool) (src : BitVec 2) (after : Bool) (gn : GReg) (s : State) : Out :=
  (s.chip.issue n p u (.waituntil src after gn)).next s

/-- The awaited position or time is reached (R196, R197). -/
def execWaituntilMatch (n : Core) (s : State) : Out :=
  if s.chip.coresUp ∧ ¬s.chip.heldCore n then (s.chip.waitMatch n).next s else s.chip.next s

/-- trap imm16 (R199). -/
def execTrap (n : Core) (p : BitVec 3) (u : Bool) (imm : BitVec 16) (s : State) : Out :=
  (s.chip.issue n p u (.trap imm)).next s

/-- eret, S only (R158, R199). -/
def execEret (n : Core) (p : BitVec 3) (u : Bool) (s : State) : Out :=
  (s.chip.issue n p u (.eret)).next s

/-- brk imm16 (R199, R723). -/
def execBrk (n : Core) (p : BitVec 3) (u : Bool) (imm : BitVec 16) (s : State) : Out :=
  (s.chip.issue n p u (.brk imm)).next s

/-- nop (R199). -/
def execNop (n : Core) (p : BitVec 3) (u : Bool) (s : State) : Out :=
  (s.chip.issue n p u (.nop)).next s

end Sys2Proof.Machine
end

