-- ==== Sys2Proof/Machine/Tirba.lean ====
section
/-! DEFINITION. Tirba's protocol (10): descriptors, sessions, the order of commands, their checks, and completions. -/

namespace Sys2Proof.Machine

/-! ### Descriptors and references (R279 to R281) -/

/-- n bytes at offset i of a descriptor, little-endian (R302). -/
def Cmd.le (q : Cmd) (i n : Nat) : Nat := leNat ((q.desc.drop i).take n)

/-- OPCODE. -/
def Cmd.opcode (q : Cmd) : Nat := q.le 0 2 % 4096

/-- EXT_LEN of a header slot. -/
def extLen (h : List Byte) : Nat := leNat (h.take 4) / 2 ^ 12 % 2 ^ 12

/-- EXT_LEN. -/
def Cmd.ext (q : Cmd) : Nat := extLen q.desc

/-- A bit of word 0: FLAGS are bits 24 to 31 (R280). -/
def Cmd.flag (q : Cmd) (i : Nat) : Bool := q.le 0 4 / 2 ^ i % 2 == 1

/-- TAG. -/
def Cmd.tag (q : Cmd) : Word := w32 (q.le 4 4)

/-- FLAGS.REF. -/
def Cmd.ref (q : Cmd) : Bool := q.flag 24

/-- ADDR of the reference. -/
def Cmd.addr (q : Cmd) : Nat := q.le 8 8

/-- LEN of the reference; 0 of a command without one. -/
def Cmd.len (q : Cmd) : Nat := if q.ref then q.le 16 3 else 0

/-- The reference names host memory. -/
def Cmd.host (q : Cmd) : Bool := q.ref && q.le 19 1 % 2 == 1

/-- The opcodes of R309 with their reference use (0 None, 1 Required, 2 Optional) and the EXT_LEN values allowed. -/
def opInfo (op : Nat) : Option (Nat × List Nat) :=
  match op with
  | 0x020 => some (1, [0])
  | 0x040 => some (0, List.range 8)
  | 0x048 => some (1, [0])
  | 0x091 => some (2, [0, 2])
  | 0x0C2 => some (2, [0])
  | 0x100 => some (1, [0])
  | 0x111 => some (1, [0])
  | 0x120 => some (1, [0])
  | 0x130 => some (1, [0])
  | _ =>
    if [0x000, 0x001, 0x002, 0x003, 0x010, 0x021, 0x041, 0x042, 0x043, 0x080, 0x090, 0x0A0, 0x0A1, 0x0A2, 0x0A3, 0x0A8, 0x0C0,
        0x0C1, 0x0C3, 0x0E0, 0x0E1, 0x0E2, 0x0F0, 0x0F1, 0x0F8, 0x0F9, 0x101, 0x102, 0x110, 0x131, 0x132].contains op
    then some (0, [0]) else none

/-- Length of the Tirba region in units of 64 KiB: at least one, and less than all of Vellum (assumption 98). -/
def tirbaUnits : Nat := 1 + Config.tirbaRegion.2.toNat % 767

/-- Length of the Tirba region. -/
def tirbaLen : Nat := 0x10000 * tirbaUnits

/-- Offset of the Tirba region (R313): wherever it fits in Vellum. -/
def tirbaBase : Nat := 0x10000 * (Config.tirbaRegion.1.toNat % (769 - tirbaUnits))

/-- A Vellum range overlaps the Tirba region (R307). -/
def inTirba (off len : Nat) : Bool := decide (off < tirbaBase + tirbaLen) && decide (tirbaBase < off + len)

/-! ### Sessions (R292 to R295) -/

/-- The session that owns ring n. -/
def Chip.sessionOf (c : Chip) (n : Nat) : Option (Fin 8) :=
  (List.finRange 8).find? fun i => match c.tirba.sessions[i] with
    | some s => s.rings.contains n
    | none => false

/-- A session changed. -/
def Chip.onSession (i : Fin 8) (f : Session → Session) (c : Chip) : Chip :=
  c.onTirba fun t => { t with sessions := upd t.sessions i fun s => s.map f }

/-- Lowest command set version supported (R762). -/
def cmdsetMin : Nat := 0x0100

/-- Highest version supported: MBX_VERSION.CMDSET (R293). -/
def Chip.cmdset (c : Chip) : Nat := c.rf R.MBX_VERSION 15 0

/-! ### The checks of R287, steps 1 to 5 -/

/-- Steps 1 and 2 (R280, R282). -/
def Cmd.badOpcode (q : Cmd) : Option (Nat × Nat) :=
  if q.le 3 1 / 16 ≠ 0 then some (2, 1)
  else if (opInfo q.opcode).isNone then some (2, 0)
  else none

/-- The reference use and EXT_LEN that the entry allows (R303), beside step 5 (assumption 35). -/
def Cmd.badForm (q : Cmd) : Option (Nat × Nat) :=
  match opInfo q.opcode with
  | none => none
  | some (ref, exts) =>
    if (ref = 1 ∧ ¬q.ref) ∨ (ref = 0 ∧ q.ref) then some (4, 0x14)
    else if exts.contains q.ext then none
    else some (4, 0x16)

/-- Step 5: the reference (R281, R307). -/
def Chip.badRef (c : Chip) (q : Cmd) : Option (Nat × Nat) :=
  if !q.ref then none
  else if q.le 19 1 / 2 ≠ 0 then some (4, 0x14)
  else if q.host then if c.hostQspi then some (4, 0x14) else none
  else if vlmSize < q.addr + q.len then some (4, 0x14)
  else if inTirba q.addr q.len then some (4, 0x15)
  else none

/-- Step 3: the ring belongs to an open session when the descriptor is fetched, but for the opcodes 0x000 to 0x01F. -/
def Chip.badSession (c : Chip) (n : Ring) (q : Cmd) : Option (Nat × Nat) :=
  if 0x01F < q.opcode ∧ (c.sessionOf n).isNone then some (5, 1) else none

/-- The first of the checks of a fetched descriptor that fails, with its status and DETAIL (R287, steps 1 to 5); step 4 never does
(R762). Steps 6 and 7 are the entries' own, made when the command's turn on its ring comes (assumption 35). -/
def Chip.descCheck (c : Chip) (n : Ring) (q : Cmd) : Option (Nat × Nat) :=
  q.badOpcode.orElse fun _ => (c.badSession n q).orElse fun _ => q.badForm.orElse fun _ => c.badRef q

/-! ### The commands in flight (R283, R296, R297) -/

/-- Every command of the session fetched before this one has ended (R280), but for a live activation, which itself waits for every other
command (R238, assumption 110). -/
def Chip.fenceOk (c : Chip) (q : Cmd) : Bool :=
  q.session.isNone || (List.finRange 64).all fun m => (c.ring m).flight.all fun o =>
    decide (o.session ≠ q.session) || decide (q.serial ≤ o.serial) || decide (o.opcode = 0x101 ∧ 2 ≤ o.stage)

/-- The command may start: FENCE holds, and SESSION_CLOSE waits as with FENCE (R280, R294). -/
def Chip.mayStart (c : Chip) (q : Cmd) : Bool := !(q.flag 25 || decide (q.opcode = 2)) || c.fenceOk q

/-- The front command of ring n changed. -/
def Chip.onFront (n : Ring) (f : Cmd → Cmd) (c : Chip) : Chip :=
  c.onRing n fun s => { s with flight := match s.flight with
    | [] => []
    | q :: t => f q :: t }

/-- A SESSION_CLOSE that ends without effect lets its session's later commands run (R290). -/
def Chip.closeFailed (q : Cmd) (c : Chip) : Chip :=
  match q.session with
  | none => c
  | some i =>
    let c := c.onTirba fun t => { t with
      sessions := t.sessions.mapFinIdx fun j s _ =>
        if j = i then s.map (fun s => { s with closing := false, aborted := 0 }) else s }
    let freed (o : Cmd) : Cmd := if o.session = some i ∧ o.failed = some (9, 2) then { o with failed := none } else o
    forEach (List.finRange 64) (fun m c => c.onRing m fun s => { s with flight := s.flight.map freed }) c

/-- Tirba writes a fault journal entry for a FAULT (R290): what it posts is free (R697 gives its software no codes). -/
def Chip.faultEntry (c : Chip) : Chip :=
  let (k, c) := c.fresh
  let v (i : Nat) : Nat := (Config.faultEntry k i).toNat
  c.journal (max 0x10 (v 0 % 256)) (v 1 % 256) (v 2 % 65536) (Config.faultEntry k 3) (Config.faultEntry k 4) (Config.faultEntry k 5)

/-- The front command of ring n ends (R288, R300): its record is kept and its completion waits to be posted, unless it is
discarded (R268). -/
def Chip.endFront (n : Ring) (status detail : Nat) (result : List Byte) (reset : Option Bool) (c : Chip) : Chip :=
  match (c.ring n).flight with
  | [] => c
  | q :: t =>
    let c := c.onRing n fun s => { (s.record q.tag status q.discard) with flight := t, prevOk := some (status == 0) }
    let c := if q.opcode = 2 ∧ status ≠ 0 ∧ q.failed.isNone then c.closeFailed q else c
    let c := if status = 8 then c.faultEntry else c
    if q.discard then
      let c := if c.ringBit R.MBX_RESET n then c.resetDone n else c
      c.countFlight
    else
      c.reply n { tag := q.tag, status, detail, sqHead := q.sqHead, result, notify := reset.isSome || !q.flag 27, cmd := true, reset }

/-- The front command of ring n that ends without running: a check fails, or CHAIN follows a command that was not OK. -/
def Chip.turnedAway (c : Chip) (n : Ring) : Option (Nat × Nat) :=
  match (c.ring n).flight with
  | [] => none
  | q :: _ =>
    if q.stage ≠ 0 then none
    else match q.failed with
      | some e => some e
      | none => if q.flag 26 && !q.first && decide ((c.ring n).prevOk = some false) && c.mayStart q then some (9, 1) else none

/-- Commands whose turn has come and that do not run end; at most k of them. -/
def Chip.settle : Nat → Chip → Chip
  | 0, c => c
  | k + 1, c =>
    match (List.finRange 64).find? fun n => (c.turnedAway n).isSome with
    | none => c
    | some n =>
      match c.turnedAway n with
      | none => c
      | some (s, d) => Chip.settle k (c.endFront n s d [] none)

/-- Commands in flight are at most 32 (R283). -/
def Chip.settleAll (c : Chip) : Chip := c.settle 33

/-- The front command of ring n ends with a status, and others may follow. -/
def Chip.endCmd (n : Ring) (status detail : Nat) (result : List Byte) (c : Chip) : Chip :=
  (c.endFront n status detail result none).settleAll

/-! ### Fetching (R283 to R287) -/

/-- A bus-master read waits for a ring's slots. -/
def Chip.ringReads (c : Chip) (n : Ring) : Bool := c.tirba.bm.any fun b => b.owner == .header n || b.owner == .ext n

/-- Slots of a ring: N. -/
def RingSt.size (s : RingSt) : Nat := 2 ^ s.log2

/-- Address of submission slot i. -/
def RingSt.sqSlot (s : RingSt) (i : Nat) : Nat := s.sqBase + 64 * (i % s.size)

/-- Slots offered and not consumed. -/
def Chip.offered (c : Chip) (n : Ring) : Nat := ringDist (c.ring n).size (c.sqHead n) (c.sqTail n)

/-- A header whose EXT_LEN is out of range (R284). -/
def RingSt.extBad (s : RingSt) (h : List Byte) : Bool := decide (s.maxExt < extLen h) || decide (s.size < extLen h + 2)

/-- Tirba runs on core 0. -/
def Chip.tirbaUp (c : Chip) : Bool := c.coresUp && !c.heldCore 0 && !(c.core 0).halted && !c.tirba.frozen

/-- A live activation has stopped the fetch loop (R238). -/
def Chip.activating (c : Chip) : Bool :=
  (List.finRange 64).any fun n => (c.ring n).flight.any fun q => decide (q.opcode = 0x101) && decide (2 ≤ q.stage)

/-- Tirba fetches from ring n now: it serves, and R283's conditions hold. -/
def Chip.fetches (c : Chip) (n : Ring) : Bool :=
  c.tirbaUp && c.tirbaReady && !c.activating && c.ringOn n && !c.ringBit R.MBX_FRAYED n && (c.ring n).checked
    && decide (c.ringFlight n < 8) && decide (c.inFlight < 32) && decide (c.sqHead n ≠ c.sqTail n)

/-- A descriptor's slots have all been read, or its header says that only it will be (R284). -/
def RingSt.whole (s : RingSt) (h : List Byte) : Bool := s.extBad h || decide (64 * (1 + extLen h) ≤ h.length)

/-- Tirba can take slots of ring n: R283's conditions, by R285 enough slots for a header that is known, and a tag where it must
read host memory (R257). -/
def Chip.eligibleRing (c : Chip) (n : Ring) : Bool :=
  let s := c.ring n
  let enough (h : List Byte) : Bool := s.extBad h || decide (1 + extLen h ≤ c.offered n)
  c.fetches n && !c.ringReads n
    && (if s.sqHost then (match s.header with
          | some h => enough h && (s.whole h || c.bmRoom)
          | none => c.bmRoom)
        else enough (c.vbytes (s.sqSlot (c.sqHead n)) 64))

/-- The ring visited next: ascending, from the one after the ring last fetched from (R283). -/
def Chip.nextRing (c : Chip) : Option Ring :=
  (List.range 64).findSome? fun d =>
    let n : Ring := ⟨(c.tirba.last + 1 + d) % 64, Nat.mod_lt _ (by decide)⟩
    if c.eligibleRing n then some n else none

/-- A descriptor of k slots is checked, consumed and queued (R286, R287); one that a check, R284 or R294 turns away carries its
status. -/
def Chip.consume (n : Ring) (desc : List Byte) (k : Nat) (failed : Option (Nat × Nat)) (c : Chip) : Chip :=
  let head := (c.sqHead n + k) % (c.ring n).size
  let sess := c.sessionOf n
  let q : Cmd := { desc, sqHead := head, session := sess.map (·.val), serial := c.tirba.serial, discard := false, failed, stage := 0
                   keep := [], payload := [], readFailed := false, first := (c.ring n).fresh }
  let closing : Bool := match sess with
    | some i => (c.tirba.sessions[i]).any (·.closing)
    | none => false
  let q := if failed.isSome then q else if closing then { q with failed := some (9, 2) } else { q with failed := c.descCheck n q }
  let c := match sess with
    | some i =>
      if failed.isSome then c
      else if closing then c.onSession i fun s => { s with aborted := s.aborted + 1 }
      else if q.opcode = 2 ∧ q.failed.isNone then c.onSession i fun s => { s with closing := true }
      else c
    | none => c
  let c := (c.wf (R.MBX_DB n) 27 16 head).onTirba fun t => { t with serial := t.serial + 1, last := n.val }
  ((c.onRing n fun s => { s with flight := s.flight ++ [q], header := none, fresh := false }).countFlight).settleAll

/-- EXT_LEN out of range: the header alone is consumed and the ring frays (R284). -/
def Chip.lengthRange (n : Ring) (h : List Byte) (c : Chip) : Chip :=
  ((c.fray n).mbxErr 6 n).consume n h 1 (some (3, 0))

/-- Bytes of the next bus-master read: within 512, the host's limit, and the end of the ring (R246, R255). -/
def Chip.bmChunk (c : Chip) (want : Nat) : Nat := min want (min 512 (128 * 2 ^ c.host.readSize))

/-- Tirba goes on with a descriptor in a host ring: its header, then its extension slots, then the whole of it. -/
def Chip.hostFetch (n : Ring) (c : Chip) : Chip :=
  let s := c.ring n
  let head := c.sqHead n
  match s.header with
  | none => if c.bmRoom then (c.bmStart (.header n) (s.sqSlot head) 64).onTirba fun t => { t with last := n.val } else c
  | some h =>
    if s.extBad h then c.lengthRange n (h.take 64)
    else if c.offered n < 1 + extLen h then c
    else if 64 * (1 + extLen h) ≤ h.length then c.consume n h (1 + extLen h) none
    else if !c.bmRoom then c
    else
      let i := (head + h.length / 64) % s.size
      let len := c.bmChunk (min (64 * (1 + extLen h) - h.length) (64 * (s.size - i)))
      c.bmStart (.ext n) (s.sqSlot i) len

/-- A read of a host ring has failed (R257). -/
def Chip.ringReadFail (n : Ring) (c : Chip) : Chip := ((c.onRing n fun s => { s with header := none }).fray n).mbxErr 5 n

/-- Slots read from a ring in Vellum; an uncorrectable word counts as a failed read (assumption 36). -/
def Chip.readSlots (n : Ring) : List Nat → Chip → Option (List Byte) × Chip
  | [], c => (some [], c)
  | i :: t, c =>
    let (bs, bad, c) := c.vRead .core 0 ((c.ring n).sqSlot i) 64
    match Chip.readSlots n t c with
    | (some rest, c) => (if bad then none else some (bs ++ rest), c)
    | (none, c) => (none, c)

/-- Tirba takes a descriptor from a Vellum ring. -/
def Chip.vellumFetch (n : Ring) (c : Chip) : Chip :=
  let head := c.sqHead n
  match c.readSlots n [head] with
  | (none, c) => c.ringReadFail n
  | (some h, c) =>
    if (c.ring n).extBad h then c.lengthRange n h
    else match c.readSlots n ((List.range (extLen h)).map fun i => head + 1 + i) with
      | (none, c) => c.ringReadFail n
      | (some e, c) => c.consume n (h ++ e) (1 + extLen h) none

/-- Rings whose doorbell came before Tirba served are checked now (R256). -/
def Chip.checkRings (c : Chip) : Chip :=
  forEach ((List.finRange 64).filter fun n => c.ringOn n && !(c.ring n).checked && decide (c.sqHead n ≠ c.sqTail n)) Chip.ringCheck c

/-- MBX_VERSION as Tirba sets it: the build's, whose CMDSET is at least 0x0100 (R762). -/
def tirbaVersion : Word := setFld Config.version 15 0 (max 0x0100 (fld Config.version 15 0))

/-- Tirba begins to serve: MBX_VERSION, MBX_STAT.READY, and the sound engine enabled (assumption 40). -/
def Chip.serve (c : Chip) : Chip :=
  if c.tirbaReady || !c.tirba.applied then c else ((c.wr R.MBX_VERSION tirbaVersion).sb R.MBX_STAT 0).storeSnd 0 R.SND_CTRL 1

/-- The spare voices that are free and have not failed. -/
def Chip.spareVoices (c : Chip) : List Nat :=
  (List.range 8).filter fun k => c.rf (R.SND_SPARE_MAP k) 6 0 == 0x7F && !c.voiceFailed (96 + k)

/-- Tirba has done with a unit that it had to darn. -/
def Chip.wantDone (e : Nat × Nat) (c : Chip) : Chip := { c with drn := { c.drn with want := c.drn.want.erase e } }

/-- Tirba darns a unit whose detection has concluded that it failed (R675): a bank (kind 0) by a copy, begun again after an abort
(R678, R680), a pipeline, a slice or a voice by its map (R683, R685, R687). Where no spare is left it posts NO_SPARE. -/
def Chip.darnFailed (e : Nat × Nat) (c : Chip) : Chip :=
  let u := e.2
  let none' (c : Chip) : Chip := (c.journal 0x0A 0x06 u 0 0 0).wantDone e
  match e.1 with
  | 0 =>
    if c.physBank u ≠ u then c.wantDone e
    else if c.copyActive then c
    else match c.freeSpares with
      | [] => none' c
      | k :: _ => c.storeDrnCopy (w32 (u + k * 2 ^ 8 + 2 ^ 16))
  | 1 =>
    if c.rf R.EYE_PIPE_MAP (4 * u + 3) (4 * u) = 8 then c.wantDone e
    else if !c.pipeSpare then none' c
    else (c.storeEyePage R.EYE_PIPE_MAP (setFld (c.rd R.EYE_PIPE_MAP) (4 * u + 3) (4 * u) 8)).wantDone e
  | 2 =>
    match c.motif.spareFor with
    | some k => if k = u then c.wantDone e else none' c
    | none => (c.storeVlm R.DRN_SLICE (w32 (u + 2 ^ 9))).wantDone e
  | _ =>
    if (c.voiceSpare u).isSome then c.wantDone e
    else match c.spareVoices with
      | [] => none' c
      | k :: _ => (c.storeSndPage 0 (R.SND_SPARE_MAP k) (w32 u)).wantDone e

/-- Tirba's interrupts of failed units, taken at its next visit of the loop once the darn record has been applied (R675). -/
def Chip.darnService (c : Chip) : Chip := if c.tirba.applied then forEach c.drn.want Chip.darnFailed c else c

/-- One visit of the fetch loop (R283). -/
def Chip.fetchDescriptor (c : Chip) : Chip :=
  if !c.tirbaUp then c else
  let c := c.serve.darnService
  if !c.tirbaReady || c.activating then c
  else
    let c := c.checkRings
    match c.nextRing with
    | none => c
    | some n => if (c.ring n).sqHost then c.hostFetch n else c.vellumFetch n

/-! ### Completions (R263 to R265, R288, R289) -/

/-- Bytes 4 to 7 of a completion. -/
def Reply.word (r : Reply) (phase : Bool) : Nat := r.status + r.detail * 2 ^ 8 + r.sqHead % 4096 * 2 ^ 16 + b2n phase * 2 ^ 31

/-- Bytes 8 to 63 of a completion. -/
def Reply.body (r : Reply) : List Byte := (r.result ++ List.replicate 56 0#8).take 56

/-- One write to a completion slot, in Vellum or in host memory, none for a byte that it leaves. -/
def Chip.putSlot (host : Bool) (a : Nat) (bs : List (Option Byte)) (c : Chip) : Chip :=
  if host then c.emit (.hostWrite a bs) else c.hostVWrite a bs

/-- The two writes of a completion, in order (R289): bytes 0 to 3 and 8 to 63, then bytes 4 to 7 with the phase. -/
def Chip.putCompletion (host : Bool) (a : Nat) (r : Reply) (phase : Bool) (c : Chip) : Chip :=
  (c.putSlot host a ((leBytes 4 r.tag.toNat).map some ++ List.replicate 4 none ++ r.body.map some)).putSlot host (a + 4)
    ((leBytes 4 (r.word phase)).map some)

/-- The host is told of a completion (R265). -/
def Chip.notify (n : Ring) (c : Chip) : Chip :=
  if c.hostQspi then c.setRingBit R.MBX_HINT_PEND n true
  else c.msiSet (bitW (c.rf (R.MBX_VEC (n.val / 4)) (8 * (n.val % 4) + 4) (8 * (n.val % 4))))

/-- The completions that DEVICE_RESET leaves unposted (R340): all but the one written. -/
def Chip.freeze (cold : Bool) (c : Chip) : Chip :=
  c.onTirba fun t => { t with
    frozen := true, resetDue := some (cold, c.time + 96000#64), rings := t.rings.map fun s => { s with posts := [] } }

/-- The oldest completion of ring n is written, if the completion ring has room and is to be written to (R263, R289). -/
def Chip.post (n : Ring) (c : Chip) : Chip :=
  let s := c.ring n
  match s.posts with
  | [] => c
  | r :: t =>
    let tail := c.cqTail n
    let next := (tail + 1) % s.size
    if !c.tirbaUp || !s.checked || next = c.cqHead n || (s.cqHost && !c.bmOn) then c
    else
      let a := s.cqBase + 64 * tail
      let phase := c.rb (R.MBX_RST n) 31
      let c := c.putCompletion s.cqHost a r phase
      let c := (c.wf (R.MBX_RST n) 27 16 next).wb (R.MBX_RST n) 31 (if next = 0 then !phase else phase)
      let c := ((c.onRing n fun s => { s with posts := t }).countFlight).when r.notify (Chip.notify n)
      match r.reset with
      | some cold => c.freeze cold
      | none => c

/-! ### Running commands -/

/-- The front command of ring n, when it is of this opcode and variant and may start or go on. One with a payload in host memory
waits while the bus master is off (R250). -/
def Chip.front (c : Chip) (n : Ring) (op : Nat) (sel : Cmd → Bool) : Option Cmd :=
  if !c.tirbaUp then none
  else match (c.ring n).flight with
    | [] => none
    | q :: _ =>
      if q.opcode = op ∧ sel q ∧ ¬(q.host = true ∧ c.bmOn = false) ∧ (q.stage ≠ 0 ∨ (c.mayStart q ∧ (c.turnedAway n).isNone)) then some q else none

/-- The front command goes to a stage, and keeps values. -/
def Chip.toStage (n : Ring) (k : Nat) (keep : List Nat) (c : Chip) : Chip :=
  c.onFront n fun q => { q with stage := k, keep }

/-- What a command's work comes to: a status with DETAIL, the result from byte 8 on, and the device after it. -/
abbrev Ans := (Nat × Nat × List Byte) × Chip

/-- The command completes with OK. -/
def Chip.ok (r : List Byte) (c : Chip) : Ans := ((0, 0, r), c)

/-- The command completes with a status and DETAIL, and no result. -/
def Chip.no (status detail : Nat) (c : Chip) : Ans := ((status, detail, []), c)

/-- The front command ends as its work came out. -/
def Chip.finish (n : Ring) (a : Ans) : Chip := a.2.endCmd n a.1.1 a.1.2.1 a.1.2.2

/-- A command that does its work at once. -/
def Chip.once (n : Ring) (op : Nat) (sel : Cmd → Bool) (f : Cmd → Chip → Ans) (c : Chip) : Chip :=
  match c.front n op sel with
  | none => c
  | some q => Chip.finish n (f q c)

/-- The next read of a payload in host memory. -/
def Chip.askPayload (n : Ring) (q : Cmd) (got : Nat) (c : Chip) : Chip :=
  if c.bmRoom then c.bmStart (.payload n) (q.addr + got) (c.bmChunk (q.len - got)) else c

/-- A command with a payload: check says, when it starts, whether it may run; f goes on with the payload. A payload with
an uncorrectable word ends it with FAULT 0x12 and a failed read with FAULT (R281, R306). -/
def Chip.payloadThen (n : Ring) (op : Nat) (check : Cmd → Chip → Option (Nat × Nat)) (f : Cmd → List Byte → Chip → Chip)
    (c : Chip) : Chip :=
  match c.front n op fun _ => true with
  | none => c
  | some q =>
    if q.stage = 0 then
      match check q c with
      | some (s, d) => c.endCmd n s d []
      | none =>
        if q.host && decide (q.len ≠ 0) then (c.askPayload n q 0).onFront n fun q => { q with stage := 1 }
        else
          let (bs, bad, c) := if q.len = 0 then ([], false, c) else c.vRead .core 0 q.addr q.len
          if bad then c.endCmd n 8 0x12 [] else f q bs c
    else if q.readFailed then c.endCmd n 8 Config.hostReadDetail.toNat []
    else if q.len ≤ q.payload.length then f q (q.payload.take q.len) c
    else if c.tirba.bm.any fun b => b.owner == .payload n then c
    else c.askPayload n q q.payload.length

/-- A command that does its work at once on its payload. -/
def Chip.withPayload (n : Ring) (op : Nat) (check : Cmd → Chip → Option (Nat × Nat)) (f : Cmd → List Byte → Chip → Ans)
    (c : Chip) : Chip :=
  c.payloadThen n op check fun q bs c => Chip.finish n (f q bs c)

/-- Bytes written to a command's reference (R323, R346). -/
def Chip.writeRef (q : Cmd) (bs : List Byte) (c : Chip) : Chip :=
  if q.host then c.bmWrite q.addr bs else c.vWrite q.addr bs

/-- A result: fields (byte offset from 8 on, size, value), every other byte 0 (R302). -/
def res (fs : List (Nat × Nat × Nat)) : List Byte :=
  fs.foldl (fun l e => l.take (e.1 - 8) ++ leBytes e.2.1 e.2.2 ++ l.drop (e.1 - 8 + e.2.1)) (List.replicate 56 0#8)

/-- Every front command of its opcode, whatever its variant. -/
def anyOf : Cmd → Bool := fun _ => true

/-- A variant by the byte that names its action: the first variant takes bytes that name none, too. -/
def actionIs (byte act last : Nat) (first : Bool) : Cmd → Bool :=
  fun q => decide (q.le byte 1 = act) || (first && decide (last < q.le byte 1))

/-! ### Protocol commands (R282, R310 to R313) -/

/-- Commands fetched on the claimed rings before the session opened join it (R280, R294): a SESSION_CLOSE among them closes it to those
fetched after. The front command of ring n is the SESSION_OPEN itself. -/
def Chip.sessionJoin (n : Ring) (i : Fin 8) (rings : List Nat) (c : Chip) : Chip :=
  let ms := (List.finRange 64).filter fun m => rings.contains m.val
  let queued (m : Ring) : List Cmd := if m = n then (c.ring m).flight.drop 1 else (c.ring m).flight
  let closes := (ms.flatMap queued).filter fun q => decide (q.opcode = 2) && q.failed.isNone
  let close : Option Nat := (closes.map Cmd.serial).min?
  let late (q : Cmd) : Bool := close.any (· < q.serial)
  let join (q : Cmd) : Cmd :=
    { q with session := some i.val, failed := if late q && q.failed.isNone then some (9, 2) else q.failed }
  let aborted := ((ms.flatMap queued).filter fun q => late q && q.failed.isNone).length
  let c := c.onSession i fun s => { s with closing := close.isSome, aborted }
  forEach ms (fun m c => c.onRing m fun s => { s with flight := s.flight.map join }) c

/-- SESSION_OPEN (R292, R293, R310). -/
def Chip.sessionOpen (n : Ring) (q : Cmd) (c : Chip) : Ans :=
  let rings := (List.range 64).filter fun m => m == n.val || q.le 16 8 / 2 ^ m % 2 == 1
  let top := c.cmdset
  let v := min (q.le 10 2) top
  let range := [(12, 2, cmdsetMin), (14, 2, top)]
  if rings.any fun m => (c.sessionOf m).isSome then c.no 5 2
  else if v < max (q.le 8 2) cmdsetMin then ((5, 3, res range), c)
  else match (List.finRange 8).find? fun i => (c.tirba.sessions[i]).isNone with
    | none => c.no 5 4
    | some i =>
      let c := (c.onTirba fun t => { t with
        sessions := t.sessions.set i.val (some { version := v, rings, closing := false, aborted := 0 }) i.isLt }).sessionJoin n i rings
      c.ok (res ([(8, 1, i.val), (10, 2, v)] ++ range))

/-- SESSION_CLOSE (R294, R311); on a ring in no session it completes with STATE 0x01 (assumption 35). -/
def Chip.sessionClose (n : Ring) (c : Chip) : Ans :=
  match c.sessionOf n with
  | none => c.no 5 1
  | some i =>
    match c.tirba.sessions[i] with
    | none => c.no 5 1
    | some s =>
      (c.onTirba fun t => { t with sessions := t.sessions.set i.val none i.isLt }).ok
        (res [(8, 1, s.rings.length), (12, 4, s.aborted)])

/-- RING_STATUS (R300, R312). -/
def Chip.ringStatus (n : Ring) (q : Cmd) (c : Chip) : Ans :=
  let r := q.le 8 1
  let first := q.le 9 1
  if h : r < 64 then
    let m : Ring := ⟨r, h⟩
    if first ≠ 0 ∧ first ≠ 8 then c.no 4 0x11
    else if m ≠ n ∧ (c.sessionOf n = none ∨ c.sessionOf m ≠ c.sessionOf n) then c.no 5 2
    else
      let hist := (c.ring m).history
      let l : List EndRecord := (hist.drop first).take 8
      let st := b2n (c.ringOn m) + b2n (c.ringBit R.MBX_FRAYED m) * 2 + b2n (c.ringBit R.MBX_RESET m) * 4
      let tags := (List.range l.length).map fun i => (16 + 4 * i, 4, ((l.map EndRecord.tag).getD i 0).toNat)
      let stats := (List.range l.length).map fun i => (48 + i, 1, (l.map EndRecord.status).getD i 0)
      c.ok (res ([(8, 1, r), (9, 1, hist.length), (10, 1, st), (12, 2, c.sqHead m), (14, 2, c.sqTail m),
        (56, 1, ofBits (l.map EndRecord.discarded))] ++ tags ++ stats))
  else c.no 5 2

/-- Open sessions as a bit mask. -/
def Chip.openSessions (c : Chip) : Nat := ofBits ((List.finRange 8).map fun i => (c.tirba.sessions[i]).isSome)

/-- PARAM_QUERY (R313). -/
def Chip.paramQuery (q : Cmd) (c : Chip) : Ans :=
  match q.le 8 1 with
  | 0 => c.ok (res ([(8, 4, (c.rd R.SYS_ID).toNat), (12, 4, (c.rd R.SYS_PARAM0).toNat), (16, 4, (c.rd R.SYS_PARAM1).toNat),
      (20, 4, (c.rd R.SYS_PARAM2).toNat), (24, 4, (c.rd R.SYS_PARAM3).toNat), (28, 4, (c.rd R.SYS_STRAP).toNat),
      (32, 2, c.cmdset), (34, 2, cmdsetMin), (36, 2, c.rf R.MBX_VERSION 31 16), (38, 1, c.openSessions)]))
  | 1 => c.ok (res [(8, 4, tirbaBase), (12, 4, tirbaLen), (16, 4, c.rf R.DRN_JRN_BASE 25 13 * 0x2000), (20, 4, 0x2000)])
  | _ => c.no 4 0x11

/-- A command passes its deadline (R298). A bank copy that DARN_REQUEST waits for goes on (R338). -/
def Chip.deadline (n : Ring) (c : Chip) : Chip :=
  match (c.ring n).flight with
  | [] => c
  | q :: _ =>
    if c.tirbaUp ∧ (q.stage ≠ 0 ∨ (q.opcode = 2 ∧ (c.turnedAway n).isNone)) then
      (c.onTirba fun t => { t with bm := t.bm.filter fun b => b.owner != .payload n }).endCmd n 7 0 []
    else c

/-! ### Commands -/

/-- One visit of Tirba's fetch loop (R283 to R287). -/
def execDescriptorFetch (s : State) : Out := s.chip.fetchDescriptor.next s

/-- The oldest completion of ring n is posted (R263, R289). -/
def execCompletionPost (n : Ring) (s : State) : Out := (s.chip.post n).next s

/-- The front command of ring n passes its deadline (R298). -/
def execCommandTimeout (n : Ring) (s : State) : Out := (s.chip.deadline n).next s

/-- NOP (R282). -/
def execNopCommand (n : Ring) (s : State) : Out := (s.chip.once n 0x000 anyOf fun _ c => c.ok []).next s

/-- SESSION_OPEN (R310). -/
def execSessionOpen (n : Ring) (s : State) : Out := (s.chip.once n 0x001 anyOf (Chip.sessionOpen n)).next s

/-- SESSION_CLOSE (R311). -/
def execSessionClose (n : Ring) (s : State) : Out := (s.chip.once n 0x002 anyOf fun _ => Chip.sessionClose n).next s

/-- RING_STATUS (R312). -/
def execRingStatus (n : Ring) (s : State) : Out := (s.chip.once n 0x003 anyOf (Chip.ringStatus n)).next s

/-- PARAM_QUERY (R313). -/
def execParamQuery (n : Ring) (s : State) : Out := (s.chip.once n 0x010 anyOf Chip.paramQuery).next s

end Sys2Proof.Machine
end

