-- ==== Sys2Proof/Machine/BusMaster.lean ====
section
/-! DEFINITION. The bus master's reads of host memory (09): their completions, errors and timeouts. -/

namespace Sys2Proof.Machine

/-- A read for ring n's descriptors has its bytes, or has failed (R257). -/
def Chip.ringGot (n : Ring) (data : Option (List Byte)) (c : Chip) : Chip :=
  match data with
  | none => c.ringReadFail n
  | some bs =>
    let c := c.onRing n fun s => { s with header := some ((s.header.getD []) ++ bs) }
    c.when (c.fetches n) (Chip.hostFetch n)

/-- A read of the payload of ring n's front command has its bytes, or has failed: the bytes that came are kept. -/
def Chip.payloadGot (n : Ring) (bs : List Byte) (failed : Bool) (c : Chip) : Chip :=
  c.onFront n fun q => { q with payload := q.payload ++ bs, readFailed := q.readFailed || failed }

/-- A read ends: with its bytes, or failed after those that came. -/
def Chip.bmEnd (r : BmRead) (failed : Bool) (c : Chip) : Chip :=
  let data := if failed then none else some (r.got.take r.len)
  match r.owner with
  | .header n => c.ringGot n data
  | .ext n => c.ringGot n data
  | .payload n => c.payloadGot n (r.got.take r.len) failed
  | .bobbin n => c.bobHostDone n data

/-- Element i of a list removed. -/
def dropAt {α : Type} (l : List α) (i : Nat) : List α := l.take i ++ l.drop (i + 1)

/-- A completion for the read at place i among those in flight: data, or an end in Unsupported Request, Completer Abort or
poisoning (R257). The read ends with its last byte. -/
def Chip.bmData (i : Nat) (data : Option (List Byte)) (c : Chip) : Chip :=
  match c.tirba.bm[i]? with
  | none => c
  | some r =>
    let gone := c.onTirba fun t => { t with bm := dropAt t.bm i }
    match data with
    | none => gone.bmEnd r true
    | some bs =>
      let r := { r with got := r.got ++ bs }
      if r.len ≤ r.got.length then gone.bmEnd r false
      else c.onTirba fun t => { t with bm := t.bm.set i r }

/-! ### Commands -/

/-- A completion TLP arrives (R257). -/
def execBusMasterCompletion (i : Nat) (data : Option (List Byte)) (s : State) : Out := (s.chip.bmData i data).next s

/-- A read has had no completion for 10 ms (R246, R257); Advanced Error Reporting records it. -/
def execCompletionTimeout (i : Nat) (s : State) : Out :=
  let c := s.chip
  ((c.when (decide (i < c.tirba.bm.length)) fun c => c.onHost fun h => { h with aer := setBit h.aer 14 true }).bmData i none).next s

end Sys2Proof.Machine
end

