-- ==== Sys2Proof/Machine/Debug.lean ====
section
/-! DEFINITION. The debug commands of DBG_CMD (R722, R723). -/

namespace Sys2Proof.Machine

/-- A core lies inside the level in force: core 0 needs level 2 (R722). -/
def Chip.inLevel (c : Chip) (n : Core) : Bool := decide (1 ≤ c.dbgLevel) && (decide (n ≠ 0) || decide (c.dbgLevel = 2))

/-- A command may run: access is OPEN or GRANTED, the core in the level and, where the command needs it, halted (R722). -/
def Chip.dbgMay (c : Chip) (n : Core) (needHalt : Bool) : Bool :=
  c.debugOpen && c.inLevel n && (!needHalt || (c.core n).halted)

/-- The Capture-DR of a scan of DBG_CMD: the last command's DONE, ERROR and read data leave (R722). -/
def Chip.dbgCapture (c : Chip) : Chip :=
  (c.setIr 0x12).emit (.tdo 72 (b2n c.dbg.cmdDone + b2n c.dbg.cmdError * 2 + c.dbg.cmdData.toNat * 2 ^ 40))

/-- A command ends without read data (assumption 34): what the data field then holds is free. -/
def Chip.dbgEnd (err : Bool) (c : Chip) : Chip :=
  let (k, c) := c.fresh
  c.onDbg fun d => { d with cmdDone := true, cmdError := err, cmdData := Config.dbgData k }

/-- A command ends with read data. -/
def Chip.dbgData (v : Word) (c : Chip) : Chip := c.onDbg fun d => { d with cmdDone := true, cmdError := false, cmdData := v }

/-- The Update-DR of a command: f where it may run, else ERROR and no effect (R722); nothing where the port does not respond. -/
def Chip.dbgCmd (n : Core) (needHalt : Bool) (f : Chip → Chip) (c : Chip) : Chip :=
  if !c.jtagOn then c
  else
    let c := c.dbgCapture
    if c.dbgMay n needHalt then f c else c.dbgEnd true

/-- HALT (R723): the core stops at its next instruction boundary; a held core has none. -/
def Chip.dbgHaltCore (n : Core) (c : Chip) : Chip :=
  (if c.coresUp && !c.heldCore n && !(c.core n).halted then c.debugHalt n else c).dbgEnd false

/-- RESUME (R722); a core halted after the park window's WFE goes on as a waking core does (R136). -/
def Chip.dbgResumeCore (n : Core) (c : Chip) : Chip :=
  let was := (c.core n).halted
  ((c.onCore n fun k => { k with halted := false }).when was (Chip.parkOn n)).dbgEnd false

/-- STEP (R723): the word at the pc is fetched, decoded and run; a WFE that would sleep ends and a WAITUNTIL that would wait
is abandoned, since the halt stays in force (assumption 34). -/
def Chip.dbgStepCore (n : Core) (c : Chip) : Chip :=
  let pc := (c.core n).pc
  let c := match c.fetch n with
    | (.error e, c) => c.trap n e (some pc)
    | (.ok w, c) =>
      match c.romCode n with
      | some d => d
      | none => c.execOp n (predOf w) (decodeYelex w)
  (c.when (c.core n).halted (Chip.waitEnd n)).dbgEnd false

/-- READ_G: a general register as the mode in force names it; a number above 15 names none (assumption 34). -/
def Chip.dbgReadG (n : Core) (a : Word) (c : Chip) : Chip :=
  if h : a.toNat < 16 then c.dbgData ((c.core n).gr ⟨a.toNat, h⟩) else c.dbgEnd true

/-- WRITE_G. -/
def Chip.dbgWriteG (n : Core) (a v : Word) (c : Chip) : Chip :=
  if h : a.toNat < 16 then (c.onCore n (CoreSt.setG ⟨a.toNat, h⟩ v)).dbgEnd false else c.dbgEnd true

/-- LOAD: a word load in S mode with the MPU disabled; one that would trap sets ERROR (R723). -/
def Chip.dbgLoadWord (n : Core) (a : Word) (c : Chip) : Chip :=
  match accTarget n .r 4 a with
  | .error _ => c.dbgEnd true
  | .ok t =>
    match c.loadTgt n 8 4 a t with
    | (.error _, c) => c.dbgEnd true
    | (.ok v, c) => c.dbgData (w32 v)

/-- STORE: a word store in S mode with the MPU disabled; one that would trap sets ERROR (R723). -/
def Chip.dbgStoreWord (n : Core) (a v : Word) (c : Chip) : Chip :=
  match accTarget n .w 4 a with
  | .error _ => c.dbgEnd true
  | .ok t => (c.storeTgt n false 4 a v t).dbgEnd false

/-! ### Commands -/

/-- DBG_CMD NOP (R722). -/
def execDbgNop (n : Core) (s : State) : Out := (s.chip.dbgCmd n false (Chip.dbgEnd false)).next s

/-- DBG_CMD HALT (R723). -/
def execDbgHalt (n : Core) (s : State) : Out := (s.chip.dbgCmd n false (Chip.dbgHaltCore n)).next s

/-- DBG_CMD RESUME (R722). -/
def execDbgResume (n : Core) (s : State) : Out := (s.chip.dbgCmd n false (Chip.dbgResumeCore n)).next s

/-- DBG_CMD STEP (R723). -/
def execDbgStep (n : Core) (s : State) : Out := (s.chip.dbgCmd n true (Chip.dbgStepCore n)).next s

/-- DBG_CMD READ_G (R722). -/
def execDbgReadG (n : Core) (a : Word) (s : State) : Out := (s.chip.dbgCmd n true (Chip.dbgReadG n a)).next s

/-- DBG_CMD WRITE_G (R722). -/
def execDbgWriteG (n : Core) (a v : Word) (s : State) : Out := (s.chip.dbgCmd n true (Chip.dbgWriteG n a v)).next s

/-- DBG_CMD LOAD (R723). -/
def execDbgLoad (n : Core) (a : Word) (s : State) : Out := (s.chip.dbgCmd n true (Chip.dbgLoadWord n a)).next s

/-- DBG_CMD STORE (R723). -/
def execDbgStore (n : Core) (a v : Word) (s : State) : Out := (s.chip.dbgCmd n true (Chip.dbgStoreWord n a v)).next s

end Sys2Proof.Machine
end

