-- ==== Sys2Proof/Machine/TirbaVideo.lean ====
section
/-! DEFINITION. Tirba's commands for blocks, layers, palettes, commits and signatures (11: R314 to R324). -/

namespace Sys2Proof.Machine

/-- The status and DETAIL of the first check that fails. -/
def firstOf (l : List (Bool × Nat × Nat)) : Option (Nat × Nat) := (l.find? (·.1)).map (·.2)

/-- A command's work after its checks. -/
def Chip.checked (l : List (Bool × Nat × Nat)) (c : Chip) (f : Chip → Ans) : Ans :=
  match firstOf l with
  | some (s, d) => c.no s d
  | none => f c

/-- A Beam by its number. -/
def beamNo (n : Nat) : Beam := if n = 0 then 0 else 1

/-- The Beams that a mask names (R308). -/
def beamsOf (m : Nat) : List Beam := (List.finRange 2).filter fun b => m / 2 ^ b.val % 2 == 1

/-- The checks of a BEAM_MASK (R306, R308): a bit past the member's Beams names a unit that it does not have. -/
def maskChecks (m : Nat) : List (Bool × Nat × Nat) := [(decide (3 < m), 4, 0x10), (m == 0, 4, 0x11)]

/-- The checks of a Vellum base that a register field [25:6] holds (R306, R307; assumption 37). -/
def baseChecks (a len : Nat) : List (Bool × Nat × Nat) :=
  [(decide (0x4000000 ≤ a), 4, 0x11), (a % 64 != 0, 4, 0x12), (inTirba a len, 4, 0x15)]

/-- The checks of a Vellum range that a command names (R307). -/
def rangeChecks (a len : Nat) : List (Bool × Nat × Nat) := [(decide (vlmSize < a + len), 4, 0x11), (inTirba a len, 4, 0x15)]

/-- Bit i of a byte of a descriptor, as a number. -/
def Cmd.bit (q : Cmd) (i b : Nat) : Nat := q.le i 1 / 2 ^ b % 2

/-! ### Block writes -/

/-- Offset named by BLOCK_COPY. -/
def Cmd.dst (q : Cmd) : Nat := q.le 20 4

/-- BLOCK_COPY within Vellum (R314, R583, R592): the bytes before the first uncorrectable word are copied. -/
def Chip.copyVellum (q : Cmd) (c : Chip) : Ans :=
  let ch := Config.tirbaBob.toNat
  let bad := c.firstBad (vlmBase + q.addr) q.len
  let k := bad.getD q.len
  let (bs, _, c) := c.vRead .bobbin ch q.addr (if bad.isSome then k + 1 else k)
  let bs := bs.take k
  let (bs, c) :=
    if q.addr < q.dst ∧ q.dst < q.addr + q.len then
      let (f, c) := c.fresh
      (overlapBytes f (q.dst - q.addr) bs, c)
    else (bs, c)
  let c := c.vWrite q.dst bs
  if bad.isSome then c.no 8 0x12 else c.ok []

/-- BLOCK_COPY on ring n: from host memory in as many reads as it takes. -/
def Chip.blockCopy (n : Ring) (c : Chip) : Chip :=
  match c.front n 0x020 anyOf with
  | none => c
  | some q =>
    if q.stage = 0 then
      if q.len = 0 then c.endCmd n 0 0 []
      else match firstOf (rangeChecks q.dst q.len) with
        | some (s, d) => c.endCmd n s d []
        | none =>
          if q.host then (c.askPayload n q 0).onFront n fun q => { q with stage := 1 }
          else Chip.finish n (c.copyVellum q)
    else if q.readFailed then (c.vWrite q.dst q.payload).endCmd n 8 Config.hostReadDetail.toNat []
    else if q.len ≤ q.payload.length then (c.vWrite q.dst (q.payload.take q.len)).endCmd n 0 0 []
    else if c.tirba.bm.any fun b => b.owner == .payload n then c
    else c.askPayload n q q.payload.length

/-- BLOCK_FILL (R315). -/
def Chip.blockFill (q : Cmd) (c : Chip) : Ans :=
  let dst := q.le 8 4
  let len := q.le 12 4
  Chip.checked ((dst % 4 != 0 || len % 4 != 0, 4, 0x12) :: if len = 0 then [] else rangeChecks dst len) c fun c =>
    (c.vWrite dst ((List.replicate (len / 4) (leBytes 4 (q.le 16 4))).flatten)).ok []

/-! ### Layers and palettes -/

/-- A plane record at offset o of the descriptor (R316). -/
structure PlaneRec where
  plane : Nat
  beam : Nat
  flags : Nat
  format : Nat
  map : Nat
  size : Nat
  tile : Nat
  scroll : Nat
  affine : Nat
  winPos : Nat
  winSize : Nat
deriving DecidableEq, Repr

/-- The plane record at offset o. -/
def Cmd.planeRec (q : Cmd) (o : Nat) : PlaneRec :=
  { plane := q.le o 1, beam := q.le (o + 1) 1, flags := q.le (o + 2) 1, format := q.le (o + 3) 1, map := q.le (o + 4) 4
    size := q.le (o + 8) 4, tile := q.le (o + 12) 4, scroll := q.le (o + 16) 4, affine := q.le (o + 20) 4
    winPos := q.le (o + 24) 4, winSize := q.le (o + 28) 4 }

/-- A flag of a plane record, as a number. -/
def PlaneRec.flag (r : PlaneRec) (i : Nat) : Nat := r.flags / 2 ^ i % 2

/-- The plane records of PLANE_SET: the first in the body, one further in each extension slot. -/
def Cmd.planeRecs (q : Cmd) : List PlaneRec := q.planeRec 16 :: (List.range q.ext).map fun i => q.planeRec (64 * (i + 1))

/-- A record names a plane that is enabled in the shadows of the other Beam. -/
def Chip.planeElsewhere (c : Chip) (r : PlaneRec) : Bool :=
  let v := c.rd (R.GND_SH_CTRL r.plane)
  tb v 0 && decide (b2n (tb v 1) ≠ r.beam)

/-- The checks of PLANE_SET (R316): AFFINE_BASE only where it is used (assumption 37). -/
def Chip.planeChecks (c : Chip) (q : Cmd) : List (Bool × Nat × Nat) :=
  let rs := q.planeRecs
  let bases (r : PlaneRec) : List (Bool × Nat × Nat) :=
    (decide (4 < r.format) || (r.flag 2 == 1 && decide (r.plane < 6)), 4, 0x11) :: baseChecks r.map 1 ++ baseChecks r.tile 1 ++
      (if r.flag 2 = 1 then baseChecks r.affine 1 else [])
  [(rs.any fun r => decide (7 < r.plane) || decide (1 < r.beam), 4, 0x10), (decide (q.le 8 1 ≠ 1 + q.ext), 4, 0x16)] ++
    (rs.map bases).flatten ++ [(rs.any c.planeElsewhere, 5, 0x10)]

/-- A plane record written into the shadow block of its plane. -/
def Chip.putPlane (r : PlaneRec) (c : Chip) : Chip :=
  let p := r.plane
  let ctrl := r.flag 0 + r.beam * 2 + r.flag 1 * 4 + r.flag 2 * 8 + r.flag 3 * 16 + r.format * 256
  forEach [(R.GND_SH_CTRL p, ctrl), (R.GND_SH_MAP_BASE p, r.map), (R.GND_SH_MAP_SIZE p, r.size), (R.GND_SH_TILE_BASE p, r.tile),
      (R.GND_SH_SCROLL p, r.scroll), (R.GND_SH_WIN_POS p, r.winPos), (R.GND_SH_WIN_SIZE p, r.winSize), (R.GND_SH_AFF_BASE p, r.affine)]
    (fun e c => c.storeGnd 0 e.1 (w32 e.2)) c

/-- PLANE_SET (R316). -/
def Chip.planeSet (q : Cmd) (c : Chip) : Ans :=
  Chip.checked (c.planeChecks q) c fun c => (forEach q.planeRecs Chip.putPlane c).ok []

/-- MOTIF_CONFIG (R317). -/
def Chip.motifConfig (q : Cmd) (c : Chip) : Ans :=
  let base := q.le 12 4
  let v (b : Nat) : Word := w32 (base + q.bit 9 b * 2 + q.bit 8 b)
  Chip.checked (baseChecks base 0x8000) c fun c => ((c.storeMtf 0 R.MTF_SH_CFGA (v 0)).storeMtf 0 R.MTF_SH_CFGB (v 1)).ok []

/-- WINDOW_SET (R318). -/
def Chip.windowSet (q : Cmd) (c : Chip) : Ans :=
  let w := q.le 8 1
  let b := q.le 9 1
  let sh := c.rd (R.EYE_WIN_SH_CTRL w)
  let en := q.bit 10 0
  Chip.checked [(decide (7 < w) || decide (1 < b), 4, 0x10), (tb sh 0 && decide (b2n (tb sh 1) ≠ b), 5, 0x10),
      (en == 1 && !c.tirba.ports.contains w, 5, 0x11)] c fun c =>
    ((c.storeEyePage (R.EYE_WIN_SH_CTRL w) (w32 (en + b * 2 + q.bit 10 1 * 4 + q.le 11 1 * 256))).storeEyePage
      (R.EYE_WIN_SH_POS w) (w32 (q.le 12 4))).ok []

/-- The identifiers of ORDER, up to its first 0xFF (R319). -/
def Cmd.orderIds (q : Cmd) : List Nat := ((List.range 17).map fun i => q.le (12 + i) 1).takeWhile (· != 0xFF)

/-- A layer identifier (R319). -/
def layerId (i : Nat) : Bool := decide (i ≤ 8) || (decide (0x10 ≤ i) && decide (i ≤ 0x17))

/-- LAYER_ORDER (R319). -/
def Chip.layerOrder (q : Cmd) (c : Chip) : Ans :=
  let b := beamNo (q.le 8 1)
  let mode := q.le 9 1
  let dither := q.le 10 1
  let ids := q.orderIds
  Chip.checked [(decide (1 < q.le 8 1), 4, 0x10), (decide (1 < mode) || decide (1 < dither), 4, 0x11),
      (mode == 1 && (!ids.all layerId || ids.eraseDups.length != ids.length), 4, 0x11)] c fun c =>
    let c := (c.storeApq b (R.APQ_SH_MODE b) (w32 (mode + dither * 2))).storeApq b (R.APQ_SH_BACKDROP b) (w32 (q.le 32 3))
    let id (i : Nat) : Nat := if i < 17 then q.le (12 + i) 1 else 0xFF
    (forEach (List.range 5) (fun k c => c.storeApq b (R.APQ_SH_ORDER b k)
      (w32 (id (4 * k) + id (4 * k + 1) * 2 ^ 8 + id (4 * k + 2) * 2 ^ 16 + id (4 * k + 3) * 2 ^ 24))) c).ok []

/-- The checks of PALETTE_LOAD (R320): a payload longer than its destination belongs to step 5 of R287 (R281). -/
def paletteChecks (q : Cmd) : List (Bool × Nat × Nat) :=
  [(decide (256 < q.le 22 2 + q.len / 4), 4, 0x13), (decide (1 < q.le 20 1), 4, 0x10),
    (decide (15 < q.le 21 1) || decide (255 < q.le 22 2), 4, 0x11), (q.len % 4 != 0, 4, 0x12)]

/-- An entry of a shadow palette written, or held by a transfer of its Beam (R459). -/
def Chip.spalPut (b : Beam) (e : Nat) (v : Word) (c : Chip) : Chip :=
  if c.inTransfer b then c.hold b (.spal (palKey b e) v) else c.spalWrite b e v

/-- PALETTE_LOAD's work (R320). -/
def Chip.paletteLoad (q : Cmd) (bs : List Byte) (c : Chip) : Ans :=
  let b := beamNo (q.le 20 1)
  let first := q.le 21 1 * 256 + q.le 22 2
  (forEach (List.range (q.len / 4)) (fun i c => c.spalPut b (first + i) (w32 (leNat ((bs.drop (4 * i)).take 4)))) c).ok []

/-! ### Commit -/

/-- Tirba starts Beam b at the first COMMIT that names it (R699): its link's EN and its RUN are set (assumption 38). -/
def Chip.beamFirst (b : Beam) (c : Chip) : Chip :=
  if c.tirba.started[b] then c
  else
    let c := c.onTirba fun t => { t with started := t.started.set b.val true b.isLt }
    let c := c.storeBmo (R.BMO_CTRL b) (setBit (c.rd (R.BMO_CTRL b)) 0 true)
    c.storePrk b (R.PRK_CTRL b) (setBit (c.rd (R.PRK_CTRL b)) 0 true)

/-- Transfers of Beam b ended since the last reset. -/
def Chip.transfers (c : Chip) (b : Beam) : Nat := (c.apq[b]).ends.length

/-- The request of a COMMIT for Beam b: the transfer that serves it, counted from the last reset, and whether it waits for the
commit point of the following frame (R321). -/
def Chip.commitAsk (b : Beam) (c : Chip) : (Nat × Nat) × Chip :=
  let busy := c.inTransfer b
  let c := c.commitReq b
  let late := c.running b && (busy || c.rf (R.APQ_COMMIT b) 5 4 == 3)
  ((c.transfers b + (if busy then 2 else 1), b2n late), c)

/-- COMMIT (R321): it requests the transfer of each Beam, and completes when they have ended. -/
def Chip.commitCmd (n : Ring) (c : Chip) : Chip :=
  match c.front n 0x080 anyOf with
  | none => c
  | some q =>
    let m := q.le 8 1
    if q.stage = 0 then
      match firstOf (maskChecks m) with
      | some (s, d) => c.endCmd n s d []
      | none =>
        let ask (b : Beam) (c : Chip) : (Nat × Nat) × Chip := if m / 2 ^ b.val % 2 = 1 then c.commitAsk b else ((0, 0), c)
        let (a, c) := ask 0 c
        let (b, c) := ask 1 c
        c.toStage n 2 [a.1, b.1, a.2 + b.2 * 2]
    else
      let due (b : Beam) : Nat := q.keep.getD b.val 0
      if (beamsOf m).all fun b => decide (due b ≤ c.transfers b) then
        let frame (b : Beam) : Nat := if m / 2 ^ b.val % 2 = 1 then ((c.apq[b]).ends.getD (due b - 1) 0).toNat else 0
        let r := res [(8, 4, frame 0), (12, 4, frame 1), (16, 1, q.keep.getD 2 0)]
        (forEach (beamsOf m) Chip.beamFirst c).endCmd n 0 0 r
      else c

/-! ### Signatures -/

/-- A 16-bit value in a field of 13 bits: a larger one takes its largest, which the hardware then clamps (assumption 37). -/
def sat13 (v : Nat) : Nat := min v 0x1FFF

/-- SIG_REGION_SET (R322). -/
def Chip.sigRegionSet (q : Cmd) (c : Chip) : Ans :=
  let b := beamNo (q.le 8 1)
  let r := q.le 9 1
  Chip.checked [(decide (1 < q.le 8 1), 4, 0x10), (decide (15 < r), 4, 0x11)] c fun c =>
    ((c.storeApq b (R.APQ_SIG_SH_POS b r) (w32 (sat13 (q.le 12 2) + sat13 (q.le 14 2) * 2 ^ 16))).storeApq b (R.APQ_SIG_SH_SIZE b r)
      (w32 (sat13 (q.le 16 2) + sat13 (q.le 18 2) * 2 ^ 16 + q.bit 10 0 * 2 ^ 31))).ok []

/-- The MISMATCH mask of a frame against the golden table in the extension slots (R324). -/
def SigFrame.mismatch (f : SigFrame) (q : Cmd) : Nat :=
  if q.ext = 2 then
    ofBits ((List.range 16).map fun r =>
      f.enabled.getLsbD r && q.le (68 + 8 * r) 4 % 2 == 1 && w32 (q.le (64 + 8 * r) 4) != f.raw.getD r 0)
  else 0

/-- The full record of a frame: 144 bytes (R323). -/
def SigFrame.record (f : SigFrame) (mm : Nat) : List Byte :=
  leBytes 4 f.frame.toNat ++ leBytes 2 f.enabled.toNat ++ leBytes 2 f.uncertain.toNat ++ leBytes 2 mm ++ List.replicate 6 0#8 ++
    ((List.range 16).map fun r => leBytes 4 (f.raw.getD r 0).toNat ++ leBytes 4 (f.folded.getD r 0).toNat).flatten

/-- What SIG_READ finds (R323): it waits, or the frame is not kept, or its signatures. -/
inductive SigFound where
  | wait
  | gone
  | frame (f : SigFrame)
deriving DecidableEq, Repr

/-- The signatures of a frame, compared modulo 2^32 (R70). A frame that the Beam never published is not kept (assumption 39). -/
def Chip.sigFind (c : Chip) (b : Beam) (want : Word) : SigFound :=
  let l := c.tirba.sigs[b]
  match l with
  | [] => .wait
  | last :: _ =>
    let f := if want = 0xFFFFFFFF then last.frame else want
    let d := (last.frame - f).toNat
    if 0x80000000 ≤ d then .wait
    else if 7 < d then .gone
    else match l.find? fun s => s.frame == f with
      | some s => .frame s
      | none => .gone

/-- SIG_READ on ring n (R323, R324): a later frame is waited for. -/
def Chip.sigRead (n : Ring) (c : Chip) : Chip :=
  match c.front n 0x091 anyOf with
  | none => c
  | some q =>
    let b := beamNo (q.le 20 1)
    let r := q.le 21 1
    match firstOf [(decide (1 < q.le 20 1), 4, 0x10), (!q.ref && decide (15 < r), 4, 0x11), (q.ref && decide (q.len < 144), 4, 0x13)] with
    | some (s, d) => c.endCmd n s d []
    | none =>
      match c.sigFind b (w32 (q.le 24 4)) with
      | .wait => c.toStage n 2 []
      | .gone => c.endCmd n 4 0x11 []
      | .frame f =>
        let mm := f.mismatch q
        let head := [(8, 4, f.frame.toNat), (12, 2, f.enabled.toNat), (14, 2, f.uncertain.toNat), (16, 2, mm)]
        if q.ref then (c.writeRef q (f.record mm)).endCmd n 0 0 (res head)
        else c.endCmd n 0 0 (res (head ++ [(20, 4, (f.raw.getD r 0).toNat), (24, 4, (f.folded.getD r 0).toNat)]))

/-! ### Commands -/

/-- BLOCK_COPY (R314). -/
def execBlockCopy (n : Ring) (s : State) : Out := (s.chip.blockCopy n).next s

/-- BLOCK_FILL (R315). -/
def execBlockFill (n : Ring) (s : State) : Out := (s.chip.once n 0x021 anyOf Chip.blockFill).next s

/-- PLANE_SET (R316). -/
def execPlaneSet (n : Ring) (s : State) : Out := (s.chip.once n 0x040 anyOf Chip.planeSet).next s

/-- MOTIF_CONFIG (R317). -/
def execMotifConfig (n : Ring) (s : State) : Out := (s.chip.once n 0x041 anyOf Chip.motifConfig).next s

/-- WINDOW_SET (R318). -/
def execWindowSet (n : Ring) (s : State) : Out := (s.chip.once n 0x042 anyOf Chip.windowSet).next s

/-- LAYER_ORDER (R319). -/
def execLayerOrder (n : Ring) (s : State) : Out := (s.chip.once n 0x043 anyOf Chip.layerOrder).next s

/-- PALETTE_LOAD (R320). -/
def execPaletteLoad (n : Ring) (s : State) : Out :=
  (s.chip.withPayload n 0x048 (fun q _ => firstOf (paletteChecks q)) Chip.paletteLoad).next s

/-- COMMIT (R321). -/
def execCommit (n : Ring) (s : State) : Out := (s.chip.commitCmd n).next s

/-- SIG_REGION_SET (R322). -/
def execSigRegionSet (n : Ring) (s : State) : Out := (s.chip.once n 0x090 anyOf Chip.sigRegionSet).next s

/-- SIG_READ (R323). -/
def execSigRead (n : Ring) (s : State) : Out := (s.chip.sigRead n).next s

end Sys2Proof.Machine
end

