-- ==== Sys2Proof/Machine/TirbaPorts.lean ====
section
/-! DEFINITION. Tirba's commands for Eyelet ports, I2C, voices, buses and audio ports (11: R325 to R333). -/

namespace Sys2Proof.Machine

/-! ### Scaler coefficients (R416) -/

/-- π to 39 places: nearer than any rounding of R416 can tell. -/
def piQ : Rat := 3141592653589793238462643383279502884197 / 1000000000000000000000000000000000000000

/-- n further terms of the series of the sine, from the term of number k. -/
def sinTerms (x2 : Rat) : Nat → Nat → Rat → Rat
  | 0, _, _ => 0
  | n + 1, k, t => t + sinTerms x2 n (k + 1) (-(t * x2) / (((2 * k + 2) * (2 * k + 3) : Nat) : Rat))

/-- sin(πt). -/
def sinPi (t : Rat) : Rat :=
  let m := (t + 1 / 2).floor
  let x := piQ * (t - m)
  let s := sinTerms (x * x) 20 0 x
  if m % 2 = 0 then s else -s

/-- sinc(t) of R416. -/
def sinc (t : Rat) : Rat := if t = 0 then 1 else sinPi t / (piQ * t)

/-- A rational rounded to the nearest integer, half away from zero. -/
def roundOff (q : Rat) : Int := if 0 ≤ q then (q + 1 / 2).floor else -(-q + 1 / 2).floor

/-- The index of the entry of largest magnitude, the lowest on a tie. -/
def largestAt (l : List Int) : Nat :=
  (List.range l.length).foldl (fun b i => if (l.getD b 0).natAbs < (l.getD i 0).natAbs then i else b) 0

/-- The eight taps of phase p at the ratio r (R416). -/
def coefPhase (r : Rat) (p : Nat) : List Int :=
  let w := (List.range 8).map fun (k : Nat) =>
    let x : Rat := (k : Rat) - 3 - (p : Rat) / 32
    sinc (x / r) * sinc (x / 4)
  let sum := w.foldl (· + ·) 0
  let c := w.map fun v => roundOff (256 * v / sum)
  let top := largestAt c
  c.mapIdx fun k v => if k = top then v + (256 - c.foldl (· + ·) 0) else v

/-- A table of port n and a direction loaded (R416). -/
def Chip.loadCoefs (n : Port) (dir : Nat) (crop out : Nat) (c : Chip) : Chip :=
  let r : Rat := ((max 1 crop : Nat) : Rat) / ((max 1 out : Nat) : Rat)
  forEach (List.range 32) (fun p c =>
    let t := coefPhase r p
    forEach (List.range 8) (fun k (c : Chip) =>
      let key := 512 * n.val + 256 * dir + 8 * p + k
      { c with eyeCoef := Sparse.set (coefReset key) c.eyeCoef key (BitVec.ofInt 10 (t.getD k 0)) }) c) c

/-! ### Eyelet control -/

/-- Bits per pixel of a CSI-2 data type; none of another type (R325). -/
def dtBits (dt : Nat) : Option Nat :=
  match dt with
  | 0x1E => some 16
  | 0x22 => some 16
  | 0x24 => some 24
  | 0x2A => some 8
  | 0x2B => some 10
  | 0x2C => some 12
  | _ => none

/-- A port by its number. -/
def portNo (n : Nat) : Port := ⟨n % 8, Nat.mod_lt _ (by decide)⟩

/-- The checks of PORT_CONFIG (R325), but for those of the buffers. -/
def portFieldChecks (q : Cmd) : List (Bool × Nat × Nat) :=
  let lanes := q.le 9 1
  let dt := q.le 13 1
  let mode := q.le 14 1
  let ring := q.le 15 1
  let stride := q.le 20 2
  let px := if q.le 23 1 = 0 then 2 else 4
  let rate := q.le 36 2
  [(decide (7 < q.le 8 1), 4, 0x10),
    (decide (lanes < 1) || decide (4 < lanes) || decide (3 < q.le 12 1) || (dtBits dt).isNone || decide (2 < mode)
      || decide (1 < q.le 23 1) || decide (rate < 80) || decide (2500 < rate), 4, 0x11),
    (mode == 2 && (decide (ring < 16) || decide (128 < ring)), 4, 0x11),
    (q.le 16 4 % 64 != 0 || stride % 64 != 0, 4, 0x12),
    (decide (stride < q.le 32 2 * px) || decide (q.le 28 2 < q.le 32 2) || decide (q.le 30 2 < q.le 34 2), 4, 0x11),
    (decide (600 * (dtBits dt).getD 1 < lanes * rate), 4, 0x11)]

/-- Bytes that the buffers of a PORT_CONFIG take (R325). -/
def portBytes (q : Cmd) : Nat :=
  match q.le 14 1 with
  | 2 => q.le 15 1 * q.le 20 2
  | 1 => 3 * (q.le 20 2 * q.le 34 2)
  | _ => 2 * (q.le 20 2 * q.le 34 2)

/-- Two 16-bit fields of a body as the 13-bit fields of a register. -/
def Cmd.pair13 (q : Cmd) (i : Nat) : Word := w32 (sat13 (q.le i 2) + sat13 (q.le (i + 2) 2) * 2 ^ 16)

/-- The port does not stand still: it runs, or is to run. -/
def Chip.eyeBusy (c : Chip) (n : Port) : Bool := c.eyeRunning n || c.rb (R.EYE_CTRL n) 0

/-- PORT_CONFIG (R325, R416). -/
def Chip.portConfig (q : Cmd) (c : Chip) : Ans :=
  let n := portNo (q.le 8 1)
  Chip.checked (portFieldChecks q ++ rangeChecks (q.le 16 4) (portBytes q) ++ [(c.eyeBusy n, 5, 0x11)]) c fun c =>
    let ctrl := q.le 14 1 * 2 + q.le 23 1 * 8 + q.bit 22 0 * 16 + q.le 9 1 * 32 + q.le 12 1 * 256 + q.le 13 1 * 2 ^ 16 + q.le 15 1 * 2 ^ 24
    let lane := q.le 10 1 + q.le 11 1 % 32 * 2 ^ 8 + q.le 36 2 * 2 ^ 16
    let c := forEach [(R.EYE_CTRL n, w32 ctrl), (R.EYE_LANE n, w32 lane), (R.EYE_BUF n, w32 (q.le 16 4)),
      (R.EYE_STRIDE n, w32 (q.le 20 2)), (R.EYE_CROP_POS n, q.pair13 24), (R.EYE_CROP_SIZE n, q.pair13 28),
      (R.EYE_OUT_SIZE n, q.pair13 32)] (fun e c => c.storeEyePage e.1 e.2) c
    let c := (c.loadCoefs n 0 (sat13 (q.le 28 2)) (sat13 (q.le 32 2))).loadCoefs n 1 (sat13 (q.le 30 2)) (sat13 (q.le 34 2))
    let c := (c.storePrk 0 (R.PRK_FS_POS n) (w32 (q.le 40 4))).storePrk 0 (R.PRK_FS_CTRL n) (w32 (q.le 44 4))
    (c.onTirba fun t => { t with ports := if t.ports.contains n.val then t.ports else t.ports ++ [n.val] }).ok []

/-- The input rate of a port as configured, in Mpixel/s (R325); 0 of a type that no PORT_CONFIG sets. -/
def Chip.portRate (c : Chip) (n : Port) : Rat :=
  match dtBits (c.rf (R.EYE_CTRL n) 21 16) with
  | none => 0
  | some b => ((clampN 1 4 (c.rf (R.EYE_CTRL n) 7 5) * c.rf (R.EYE_LANE n) 27 16 : Nat) : Rat) / (b : Rat)

/-- PORT_CONTROL with action 1, or with none of its actions (R326). -/
def Chip.portStart (q : Cmd) (c : Chip) : Ans :=
  let n := portNo (q.le 8 1)
  let others := ((List.finRange 8).filter fun m => m ≠ n ∧ c.eyeBusy m).map c.portRate
  match firstOf [(decide (7 < q.le 8 1), 4, 0x10), (decide (1 < q.le 9 1), 4, 0x11), (!c.tirba.ports.contains n.val, 5, 0x11)] with
  | some (s, d) => c.no s d
  | none =>
    if c.rb (R.EYE_CTRL n) 0 then c.ok []
    else if 2400 < others.foldl (· + ·) (c.portRate n) then c.no 4 0x11
    else (c.storeEyePage (R.EYE_CTRL n) (setBit (c.rd (R.EYE_CTRL n)) 0 true)).ok []

/-- PORT_CONTROL with action 0 on ring n (R326): at the end of the frame in progress, or 100 ms after its start; the port then stops
as by ABORT (assumption 109). -/
def Chip.portStop (n : Ring) (c : Chip) : Chip :=
  match c.front n 0x0A1 (fun q => q.le 9 1 == 0) with
  | none => c
  | some q =>
    let p := portNo (q.le 8 1)
    if q.stage = 0 then
      if 7 < q.le 8 1 then c.endCmd n 4 0x10 []
      else if !c.eyeRunning p then c.endCmd n 0 0 []
      else
        let c := c.storeEyePage (R.EYE_CTRL p) (setBit (c.rd (R.EYE_CTRL p)) 0 false)
        if c.eyeRunning p then c.toStage n 2 [c.time.toNat] else c.endCmd n 0 0 []
    else if !c.eyeRunning p then c.endCmd n 0 0 []
    else if q.keep.getD 0 0 + 9600000 ≤ c.time.toNat then (c.eyeAbort p).endCmd n 0 0 []
    else c

/-- PORT_POLICY (R327): on a running port the values wait for its next frame start (assumption 41). -/
def Chip.portPolicy (q : Cmd) (c : Chip) : Ans :=
  let n := portNo (q.le 8 1)
  let act (i : Nat) : Nat := q.le (12 + i) 1
  let fb := q.le 15 1
  let other := c.rb (R.GND_SH_CTRL (fb % 8)) 1 != c.rb (R.EYE_WIN_SH_CTRL n) 1
  Chip.checked [(decide (7 < q.le 8 1) || decide (7 < fb), 4, 0x10),
      (q.le 9 1 == 1 || decide (1000 < q.le 10 2) || decide (2 < act 0) || decide (2 < act 1) || decide (2 < act 2), 4, 0x11),
      ((act 0 == 2 || act 1 == 2 || act 2 == 2) && other, 5, 0x10)] c fun c =>
    let p := w32 (q.le 9 1 + act 0 * 2 ^ 8 + act 1 * 2 ^ 10 + act 2 * 2 ^ 12 + fb * 2 ^ 16)
    let c := c.onEye n fun k => { k with policy := some (p, w32 (q.le 10 2)) }
    (if c.eyeRunning n then c else c.policyTake n).ok []

/-- PORT_STATUS (R328). -/
def Chip.portStatus (q : Cmd) (c : Chip) : Ans :=
  let n := portNo (q.le 8 1)
  if 7 < q.le 8 1 then c.no 4 0x10
  else
    let v (a : Nat) : Nat := (c.rd a).toNat
    c.ok (res [(8, 1, (c.readEye (R.EYE_STAT n)).1.toNat % 16), (12, 4, v (R.EYE_FRAMES n)), (16, 2, v (R.EYE_FNUM n)),
      (20, 4, v (R.PRK_FS_CAP n)), (24, 4, v (R.EYE_PKTERR n)), (28, 4, v (R.EYE_EVCNT n))])

/-! ### I2C -/

/-- A master by its number. -/
def i2cNo (n : Nat) : Fin 4 := ⟨n % 4, Nat.mod_lt _ (by decide)⟩

/-- I2C_TRANSFER on ring n (R329): the transaction starts, and the command ends with it. A lost arbitration or a stuck bus is
a hardware error, and a master that another user keeps busy an operation in progress (assumption 42). -/
def Chip.i2cTransfer (n : Ring) (c : Chip) : Chip :=
  match c.front n 0x0A8 anyOf with
  | none => c
  | some q =>
    let m := i2cNo (q.le 8 1)
    let wlen := q.le 11 1
    let rlen := q.le 12 1
    let stat := R.I2C_STAT m
    if q.stage = 0 then
      match firstOf [(decide (3 < q.le 8 1) || decide (127 < q.le 9 1) || decide (2 < q.le 10 1) || decide (32 < wlen) || decide (32 < rlen),
          4, 0x11), (c.rb stat 0, 5, 0x12)] with
      | some (s, d) => c.endCmd n s d []
      | none =>
        let c := (c.storeSer (R.I2C_CTRL m) (w32 (1 + q.le 10 1 * 2))).storeSer stat 0x7E
        let c := forEach (List.range ((wlen + 3) / 4)) (fun k c => c.storeSer (R.I2C_WBUF m k) (w32 (q.le (16 + 4 * k) 4))) c
        (c.storeSer (R.I2C_XFER m) (w32 (q.le 9 1 + wlen * 2 ^ 8 + rlen * 2 ^ 16 + 2 ^ 31))).toStage n 2 []
    else if c.rb stat 0 then c
    else if c.rb stat 2 then c.endCmd n 5 0x17 (res [(8, 1, c.rf stat 13 8)])
    else if c.rb stat 1 then
      let bs := ((List.range 8).flatMap fun k => leBytes 4 (c.rd (R.I2C_RBUF m k)).toNat).take rlen
      c.endCmd n 0 0 (res [(16, rlen, leNat bs)])
    else if c.rb stat 3 then c.endCmd n 7 0 []
    else if c.rb stat 4 || c.rb stat 5 then c.endCmd n 8 0x10 []
    else c

/-! ### Voices and buses -/

/-- A gain's mode or time is out of range (R330). -/
def badGain (mode time : Nat) : Bool :=
  decide (1 < mode) || decide (time < 1) || decide ((if mode = 0 then 64 else 2000) < time)

/-- The value of a gain register. -/
def gainWord (gain mode time : Nat) : Word := w32 (gain + time * 2 ^ 16 + mode * 2 ^ 31)

/-- VOICE_PLAY (R330): a voice that the engine could not arm is out of range (assumption 43). -/
def Chip.voicePlay (q : Cmd) (c : Chip) : Ans :=
  let v := q.le 8 1
  let base := q.le 12 4
  let len := q.le 16 4
  let bytes := len * fmtBytes (q.le 10 1)
  Chip.checked [(decide (95 < v), 4, 0x10),
      (decide (7 < q.le 9 1) || decide (5 < q.le 10 1) || decide (15 < q.le 11 1) || badGain (q.le 34 1) (q.le 36 2)
        || decide (10000 < q.le 44 2) || decide (10000 < q.le 46 2), 4, 0x11),
      (base % 8 != 0, 4, 0x12), (len == 0 || decide (2 ^ 25 ≤ len) || decide (vlmSize < base + bytes) || decide (len < q.le 20 4 + q.le 24 4), 4, 0x11),
      (inTirba base bytes, 4, 0x15), (c.vState v != 0, 5, 0x12)] c fun c =>
    let start := q.le 40 4
    let c := forEach [(R.V_BASE v, base), (R.V_LENGTH v, len), (R.V_LOOP_START v, q.le 20 4), (R.V_LOOP_LEN v, q.le 24 4),
      (R.V_PITCH v, q.le 28 4), (R.V_ENV v, q.le 44 2 + q.le 46 2 * 2 ^ 16), (R.V_START v, start)] (fun e c => c.store e.1 (w32 e.2)) c
    let c := c.voiceGain v (gainWord (q.le 32 2) (q.le 34 1) (q.le 36 2))
    (c.voiceCtrl v (w32 (q.le 10 1 + q.le 9 1 * 2 ^ 4 + q.le 11 1 * 2 ^ 8 + 2 ^ 16 + (if start = 0 then 0 else 2 ^ 20)))).ok []

/-- A command for a voice by VOICE_CONTROL, in the states that its action needs (R331). -/
def Chip.voiceAct (q : Cmd) (needs bad : Bool) (f : Nat → Chip → Chip) (c : Chip) : Ans :=
  let v := q.le 8 1
  Chip.checked [(decide (95 < v), 4, 0x10), (decide (3 < q.le 9 1) || bad, 4, 0x11), (needs && c.vState v == 0, 5, 0x11)] c fun c =>
    (f v c).ok []

/-- A bus by its number. -/
def busNo (n : Nat) : Bus := ⟨n % 8, Nat.mod_lt _ (by decide)⟩

/-- The place of the effect block of a bus (R515): the spec leaves it open. -/
def efxBase (b : Bus) : Nat := 64 * ((Config.efxPlace b.val).toNat % (vlmSize / 64 - 2))

/-- The checks of BUS_CONFIG (R332). -/
def Chip.busChecks (c : Chip) (q : Cmd) : List (Bool × Nat × Nat) :=
  let port := q.le 28 1
  let slot := q.le 29 1
  [(q.ref && decide (512 < q.len), 4, 0x13),
    (decide (7 < q.le 20 1) || decide (1 < q.le 21 1) || badGain (q.le 24 1) (q.le 26 2) || (decide (1 < port) && port != 0xFF)
      || decide (6 < slot), 4, 0x11),
    (decide (port ≤ 1) && decide (c.slots port < slot + 2), 4, 0x11)]

/-- BUS_CONFIG's work (R332, R515): the gain first, then the bus enabled (assumption 44). -/
def Chip.busConfig (q : Cmd) (bs : List Byte) (c : Chip) : Ans :=
  let b := busNo (q.le 20 1)
  let ctrl := R.SND_BUS_CTRL b
  let port := if q.le 28 1 = 0xFF then 3 else q.le 28 1
  let c := c.storeSnd 0 (R.SND_BUS_GAIN b) (gainWord (q.le 22 2) (q.le 24 1) (q.le 26 2))
  let v := 1 + q.le 21 1 * 2 + port * 4 + q.le 29 1 * 16
  if q.ref then
    let c := (c.vWrite (efxBase b) ((bs ++ List.replicate 128 0#8).take 128)).storeSnd 0 (R.SND_BUS_EFX_BASE b) (w32 (efxBase b))
    (c.storeSnd 0 ctrl (w32 (v + 0x300))).ok []
  else (c.storeSnd 0 ctrl (w32 (v + b2n (c.rb ctrl 8) * 0x100))).ok []

/-- The fields of AUD_PCTRLp above EN that AUDIO_PORT gives (R333). -/
def audFields (q : Cmd) : Nat :=
  let width := match q.le 11 1 with | 16 => 0 | 24 => 1 | _ => 2
  q.bit 13 0 * 2 + q.bit 13 1 * 4 + (q.le 10 1 - 1) * 8 + width * 64

/-- AUDIO_PORT (R333): the clock follows the port's role (assumption 45). -/
def Chip.audioPort (q : Cmd) (c : Chip) : Ans :=
  let p := q.le 8 1
  let a := R.AUD_PCTRL p
  let slots := q.le 10 1
  let rate := q.le 12 1
  let on := c.rb a 0
  let same := decide ((c.rd a).toNat / 2 = audFields q / 2) && c.rf R.AUD_CLK 1 0 == rate
  Chip.checked [(decide (2 < p) || decide (1 < q.le 9 1) || decide (slots < 1) || decide (8 < slots) || !([16, 24, 32].contains (q.le 11 1))
      || decide (2 < rate) || (q.bit 13 1 == 1 && slots != 2), 4, 0x11), (on && !same, 5, 0x11)] c fun c =>
    let master := q.bit 13 0
    let c := if on then c else c.storeAud R.AUD_CLK (w32 (rate + (1 - master) * 4 + (if master = 1 then 0 else p * 16)))
    (c.storeAud a (w32 (audFields q + q.le 9 1))).ok []

/-! ### Commands -/

/-- PORT_CONFIG (R325). -/
def execPortConfig (n : Ring) (s : State) : Out := (s.chip.once n 0x0A0 anyOf Chip.portConfig).next s

/-- PORT_CONTROL, start (R326). -/
def execPortStart (n : Ring) (s : State) : Out := (s.chip.once n 0x0A1 (fun q => q.le 9 1 != 0) Chip.portStart).next s

/-- PORT_CONTROL, stop (R326). -/
def execPortStop (n : Ring) (s : State) : Out := (s.chip.portStop n).next s

/-- PORT_POLICY (R327). -/
def execPortPolicy (n : Ring) (s : State) : Out := (s.chip.once n 0x0A2 anyOf Chip.portPolicy).next s

/-- PORT_STATUS (R328). -/
def execPortStatus (n : Ring) (s : State) : Out := (s.chip.once n 0x0A3 anyOf Chip.portStatus).next s

/-- I2C_TRANSFER (R329). -/
def execI2cTransfer (n : Ring) (s : State) : Out := (s.chip.i2cTransfer n).next s

/-- VOICE_PLAY (R330). -/
def execVoicePlay (n : Ring) (s : State) : Out := (s.chip.once n 0x0C0 anyOf Chip.voicePlay).next s

/-- VOICE_CONTROL, stop, and the actions that it does not have (R331). -/
def execVoiceControlStop (n : Ring) (s : State) : Out :=
  (s.chip.once n 0x0C1 (actionIs 9 0 3 true) fun q => Chip.voiceAct q false false fun v => Chip.voiceStop v).next s

/-- VOICE_CONTROL, release (R331). -/
def execVoiceControlRelease (n : Ring) (s : State) : Out :=
  (s.chip.once n 0x0C1 (actionIs 9 1 3 false) fun q => Chip.voiceAct q false false fun v => Chip.voiceRelease v).next s

/-- VOICE_CONTROL, gain (R331). -/
def execVoiceControlGain (n : Ring) (s : State) : Out :=
  (s.chip.once n 0x0C1 (actionIs 9 2 3 false) fun q => Chip.voiceAct q true (badGain (q.le 14 1) (q.le 16 2)) fun v =>
    Chip.voiceGain v (gainWord (q.le 12 2) (q.le 14 1) (q.le 16 2))).next s

/-- VOICE_CONTROL, pitch (R331). -/
def execVoiceControlPitch (n : Ring) (s : State) : Out :=
  (s.chip.once n 0x0C1 (actionIs 9 3 3 false) fun q => Chip.voiceAct q true false fun v =>
    Chip.store (R.V_PITCH v) (w32 (q.le 20 4))).next s

/-- BUS_CONFIG (R332). -/
def execBusConfig (n : Ring) (s : State) : Out :=
  (s.chip.withPayload n 0x0C2 (fun q c => firstOf (c.busChecks q)) Chip.busConfig).next s

/-- AUDIO_PORT (R333). -/
def execAudioPort (n : Ring) (s : State) : Out := (s.chip.once n 0x0C3 anyOf Chip.audioPort).next s

end Sys2Proof.Machine
end

