-- ==== Sys2Proof/Machine/TirbaDarn.lean ====
section
/-! DEFINITION. Tirba's raster programs (11: R347 to R350), the repair of cores (24: R689 to R693), and the darn record applied at
a start (R694). -/

namespace Sys2Proof.Machine

/-! ### Placement (R348, R690) -/

/-- Where a raster program stands in a core's local memory: the bases of code and data, and their sizes as powers of two. -/
structure Placing where
  code : Nat
  data : Nat
  codeLog : Nat
  dataLog : Nat
deriving DecidableEq, Repr

/-- The exponent of the least power of two, at least 64, that is not below v (v up to 65,535). -/
def pow2Up (v : Nat) : Nat := (((List.range 10).map (· + 6)).find? fun k => decide (v ≤ 2 ^ k)).getD 16

/-- The placement rule from a base on; none where the data passes 0x0011_0000. -/
def placing (base codeLen dataSize : Nat) : Option Placing :=
  let codeLog := pow2Up codeLen
  let dataLog := pow2Up dataSize
  let code := ceilDiv base (2 ^ codeLog) * 2 ^ codeLog
  let data := ceilDiv (code + 2 ^ codeLog) (2 ^ dataLog) * 2 ^ dataLog
  if 0x00110000 < data + 2 ^ dataLog then none else some { code, data, codeLog, dataLog }

/-- The base of the placement rule on a core: core 7 holds an adopted program higher (R690). -/
def placeBase (run : Core) : Nat := if run = 7 then 0x00108000 else 0x00104000

/-- The Beam of a beam core: cores 1 to 3 work on Beam A, 4 to 6 on Beam B (05). -/
def beamOf (r : Core) : Beam := if r.val ≤ 3 then 0 else 1

/-- The raster program of a beam core. -/
def Chip.raster (c : Chip) (r : Core) : RasterSt := c.tirba.rasters[r]

/-- The core that runs the program of a beam core: 7 while it has adopted it, none once the core has failed (R690, R691). -/
def Chip.runCore (c : Chip) (r : Core) : Option Core :=
  if (c.tirba.adopt).any fun a => a.core == r then some 7
  else if c.drn.coreFailed.contains r.val then none
  else some r

/-- The address, in the whole map, of an address in the core's own local memory. -/
def lmAddr (run : Core) (a : Nat) : Nat := lmBase run.val + (a - 0x00100000)

/-- Code and data are placed; the data beyond DATA_LEN is 0 (R348). -/
def Chip.putProgram (p : RasterSt) (run : Core) (c : Chip) : Chip :=
  let size := 2 ^ p.pd2
  (c.memWrite (lmAddr run p.codeBase) p.code).memWrite (lmAddr run p.dataBase) (p.data ++ List.replicate (size - p.data.length) 0#8)

/-- The SIZE of the least MPU region that holds the bytes from lo to below hi (R149). -/
def coverLog (lo hi : Nat) : Nat := ((List.range 33).find? fun k => decide (6 ≤ k) && lo / 2 ^ k == (hi - 1) / 2 ^ k).getD 32

/-- The least MPU region that covers some register ranges of one size; none where there are none. -/
def coverRegion (len : Nat) (bases : List Nat) : Option (Nat × Nat) :=
  match bases with
  | [] => none
  | b :: t =>
    let lo := t.foldl min b
    let k := coverLog lo (t.foldl max b + len)
    some (lo / 2 ^ k * 2 ^ k, k)

/-- What MPU regions 4 to 6 cover for a Beam: the live blocks of the planes, the live motif attributes, and the live windows of
the units whose live BEAM names it (R155, R348). How the ranges are spread over the regions is assumption 105. -/
def Chip.unitCover (c : Chip) (b : Beam) : List (Option (Nat × Nat)) :=
  let mine (r : Nat → Nat) : List Nat := ((List.range 8).filter fun n => c.rb (r n) 1 == decide (b = 1)).map r
  [coverRegion 0x20 (mine R.GND_CTRL), coverRegion 8 [0x4000A040 + 0x40 * b.val], coverRegion 8 (mine R.EYE_WIN_CTRL)]

/-- The MPU regions of a program (R155), its Beam, and the MPU on; regions 4 to 6 as they stood at the load. -/
def Chip.putRegions (r run : Core) (c : Chip) : Chip :=
  let p := c.raster r
  let b := beamOf r
  let region (i base attr : Nat) (c : Chip) : Chip := (c.storeYlx run (0x100 + 8 * i) (w32 base)).storeYlx run (0x104 + 8 * i) (w32 attr)
  let c := c.storeYlx run 0x140 0
  let c := (region 0 p.codeBase (0x0B + p.pc2 * 256) c) |> region 1 p.dataBase (0x07 + p.pd2 * 256)
    |> region 2 (0x40007000 + 0x1000 * b.val) 0x0C07 |> region 3 (0x4000C000 + 0x1000 * b.val) 0x0C07
  let c := forEach [4, 5, 6] (fun i c =>
    match p.cover.getD (i - 4) none with
    | some (base, size) => region i base (0x07 + size * 256) c
    | none => region i 0 0 c) c
  let c := (region 7 0x00100000 0x0E01 c).wb (R.YLX_CTRL run) 0 (b == 1)
  c.storeYlx run 0x140 1

/-- The program starts at its entry in U mode with its parameters, g13 above its data (R155, R347, R348), on a core that Tirba
releases if it is held; its watchdog is loaded and enabled, with stage 2 and NOTIFY 0. -/
def Chip.startProgram (r run : Core) (g : List Word) (c : Chip) : Chip :=
  let c := if c.heldCore run then c.coreRelease run else c
  let c := c.putRegions r run
  let (k, c) := c.fresh
  let p := c.raster r
  let ctrl := setBit (setBit (setFld (c.rd (R.YLX_WDG_CTRL run)) 6 4 0) 0 true) 3 true
  let c := ((c.storeYlx run 0x044 p.wdg).storeYlx run 0x040 ctrl).wdgKick run 0xC1A5
  let c := (c.wr (R.YLX_ESTAT run) 7).wr (R.YLX_VBASE run) (Config.stubReg k 16 &&& 0xFFFFFF80)
  let c := c.onCore run fun s =>
    let t := s.start (w32 (p.codeBase + p.entry)) false
    { t with
      g := Vector.ofFn fun i : Fin 16 => if i.val < 4 then g.getD i.val 0 else Config.stubReg k i.val
      usp := w32 (p.dataBase + 2 ^ p.pd2), mode := .U, pulse := s.pulse, latch := s.latch, stage1 := false
      p1 := Config.stubPred k 1, p2 := Config.stubPred k 2, p3 := Config.stubPred k 3 }
  c.onRaster r fun p => { p with state := 2 }

/-! ### RASTER_LOAD (R347, R348) -/

/-- A core by its number. -/
def coreNo (n : Nat) : Core := ⟨n % 8, Nat.mod_lt _ (by decide)⟩

/-- The checks that name a beam core (R306, R347). -/
def coreChecks (n : Nat) : List (Bool × Nat × Nat) := [(decide (7 < n), 4, 0x10), (n == 0 || n == 7, 4, 0x11)]

/-- The checks of RASTER_LOAD. -/
def Chip.loadChecks (c : Chip) (q : Cmd) : List (Bool × Nat × Nat) :=
  let r := coreNo (q.le 20 1)
  let codeLen := q.le 24 2
  let dataLen := q.le 26 2
  let size := q.le 28 2
  let entry := q.le 30 2
  coreChecks (q.le 20 1) ++
    [(q.len != codeLen + dataLen, 4, 0x11), (codeLen % 4 != 0 || entry % 4 != 0, 4, 0x12),
      (decide (codeLen ≤ entry) || decide (size < dataLen), 4, 0x11), ((placing 0x00104000 codeLen size).isNone, 4, 0x13),
      ((c.tirba.adopt).any fun a => a.core == r, 5, 0x14), ((c.raster r).state == 2, 5, 0x12), ((c.runCore r).isNone, 5, 0x16)]

/-- One frame plus one line of a Beam in ticks, rounded up: with the settings in force while it runs, and those in its registers
while it stands. -/
def Chip.frameLineTicks (c : Chip) (b : Beam) : Word :=
  let k := c.beam b
  let t := (c.timingRegs b).clamp
  let x := clampN synMin synMax (c.synRegs b)
  let v := if c.running b then (k.vtotal, k.htotal, k.synPost, k.centre)
    else (t.vtotal, t.htotal, clampPost x (c.rf (R.PRK_SYN_INT b) 14 8), x)
  w32 (ceilDiv ((v.1 + 1) * v.2.1 * v.2.2.1 * synUnit) v.2.2.2)

/-- RASTER_LOAD's work. -/
def Chip.rasterLoad (q : Cmd) (bs : List Byte) (c : Chip) : Ans :=
  let r := coreNo (q.le 20 1)
  let codeLen := q.le 24 2
  let size := q.le 28 2
  Chip.checked (c.loadChecks q) c fun c =>
    match placing 0x00104000 codeLen size with
    | none => c.no 4 0x13
    | some pl =>
      let w := w32 (q.le 48 4)
      let g := (List.range 4).map fun i => w32 (q.le (32 + 4 * i) 4)
      let p : RasterSt :=
        { c.raster r with
          state := 1, traps := 0, codeBase := pl.code, dataBase := pl.data, pc2 := pl.codeLog, pd2 := pl.dataLog, entry := q.le 30 2
          code := bs.take codeLen, data := bs.drop codeLen, dataSize := size, params := g
          cover := c.unitCover (beamOf r)
          wdg := if w = 0 then c.frameLineTicks (beamOf r) else w }
      let c := ((c.onRaster r fun _ => p).putProgram p r).putRegions r r
      let c := c.when (q.bit 21 0 == 1) (Chip.startProgram r r g)
      c.ok (res [(8, 4, pl.code), (12, 4, pl.data), (16, 1, pl.codeLog), (17, 1, pl.dataLog)])

/-! ### RASTER_CONTROL and RASTER_STATUS (R349, R350) -/

/-- An adoption ends (R691). -/
def Chip.adoptEnd (c : Chip) : Chip :=
  match c.tirba.adopt with
  | none => c
  | some a => (c.onTirba fun t => { t with adopt := none }).journal 0x0A 0x08 a.core.val 0 0 0

/-- Tirba holds a core and restarts it into its stub, without the watchdog that only a program needs. -/
def Chip.toStub (n : Core) (c : Chip) : Chip :=
  ((c.coreRestart n).onCore n fun k => { k with latch := true }).storeYlx n 0x040 (setBit (c.rd (R.YLX_WDG_CTRL n)) 0 false)

/-- A program that has run is stopped (R349): its core restarts into its stub, it counts as loaded, and an adoption of it ends. -/
def Chip.stopProgram (r : Core) (c : Chip) : Chip :=
  if 2 ≤ (c.raster r).state then
    let c := match c.runCore r with
      | some run => c.toStub run
      | none => c
    let c := c.onRaster r fun p => { p with state := 1 }
    c.when ((c.tirba.adopt).any fun a => a.core == r) Chip.adoptEnd
  else c

/-- RASTER_CONTROL with action 0, or with none of its actions (R349). -/
def Chip.rasterStop (q : Cmd) (c : Chip) : Ans :=
  Chip.checked (coreChecks (q.le 8 1) ++ [(decide (1 < q.le 9 1), 4, 0x11)]) c fun c => (c.stopProgram (coreNo (q.le 8 1))).ok []

/-- RASTER_CONTROL with action 1 (R349): the program memory is kept. -/
def Chip.rasterStart (q : Cmd) (c : Chip) : Ans :=
  let r := coreNo (q.le 8 1)
  let st := (c.raster r).state
  Chip.checked (coreChecks (q.le 8 1) ++ [(st == 0, 5, 0x11), (st == 2, 5, 0x12), ((c.runCore r).isNone, 5, 0x16)]) c fun c =>
    match c.runCore r with
    | none => c.no 5 0x16
    | some run =>
      let c := c.startProgram r run ((List.range 4).map fun i => w32 (q.le (12 + 4 * i) 4))
      (c.onTirba fun t => { t with adopt := t.adopt.map fun a => if a.core = r then { a with started := true } else a }).ok []

/-- RASTER_STATUS (R350). -/
def Chip.rasterStatus (q : Cmd) (c : Chip) : Ans :=
  let r := coreNo (q.le 8 1)
  let p := c.raster r
  let run := if c.runCore r = some 7 then 7 else r.val
  Chip.checked (coreChecks (q.le 8 1)) c fun c =>
    c.ok (res [(8, 1, p.state), (9, 1, p.cause), (10, 1, run), (12, 4, p.epc.toNat), (16, 4, p.faddr.toNat), (20, 4, p.traps)])

/-! ### Faults of beam cores and adoption (R689 to R691) -/

/-- Darning's own state changed. -/
def Chip.onDrn (f : DrnSt → DrnSt) (c : Chip) : Chip := { c with drn := f c.drn }

/-- A core fault stands: WDG or DOUBLE in its YLX_RST_CAUSE, or YLX_STAT.DOUBLE (R164). -/
def Chip.coreFault (c : Chip) (n : Core) : Bool :=
  c.rb (R.YLX_RST_CAUSE n) 2 || c.rb (R.YLX_RST_CAUSE n) 3 || c.rb (R.YLX_STAT n) 3

/-- The bits of a core fault are cleared, as the handler on the NOTIFY core must (R164). -/
def Chip.clearFault (n : Core) (c : Chip) : Chip :=
  ((c.wb (R.YLX_RST_CAUSE n) 2 false).wb (R.YLX_RST_CAUSE n) 3 false).wb (R.YLX_STAT n) 3 false

/-- A beam core that has not failed. -/
def Chip.beamCore (c : Chip) (n : Core) : Bool := decide (1 ≤ n.val) && decide (n.val ≤ 6) && !c.drn.coreFailed.contains n.val

/-- The core self-test ends (R689). -/
def Chip.selfTest (n : Core) (pass : Bool) (c : Chip) : Chip :=
  if !c.tirbaUp || !c.beamCore n || !c.heldCore n || !c.coreFault n then c
  else
    let c := c.clearFault n
    if pass then c.toStub n else c.onDrn fun d => { d with selfFail := insertSorted n.val d.selfFail }

/-- Steps 1 to 3 of R690 for core n; the fault fell at a time. Without a place on core 7 there is no adoption: Tirba posts NO_SPARE,
and the program stays held (R691). -/
def Chip.adoptCore (n : Core) (since : BitVec 64) (c : Chip) : Chip :=
  let p := c.raster n
  let fail (c : Chip) : Chip :=
    (c.coreHold n).onDrn fun d => { d with coreFailed := insertSorted n.val d.coreFailed, selfFail := d.selfFail.filter (· != n.val) }
  let fits := p.state == 0 || (placing (placeBase 7) p.code.length p.dataSize).isSome
  if c.tirba.core7Lost || (c.tirba.adopt).isSome || !fits then (fail c).journal 0x0A 0x06 n.val 0 0 0
  else
    let c := fail (c.journal 0x0A 0x07 n.val 0 0 0)
    let taken (starts : Bool) (c : Chip) : Chip :=
      (c.onTirba fun t => { t with adopt := some { core := n, beam := beamOf n, since, starts, started := false } }).darned 5 0 n.val
    if p.state = 0 then taken false c
    else match placing (placeBase 7) p.code.length p.dataSize with
      | none => c
      | some pl =>
        let q : RasterSt := { p with state := 1, codeBase := pl.code, dataBase := pl.data, pc2 := pl.codeLog, pd2 := pl.dataLog }
        let c := ((c.onRaster n fun _ => q).putProgram q 7).putRegions n 7
        taken (p.state = 2 ∨ p.state = 4 ∨ p.state = 5) c

/-- A trap with LOCAL_UE in the stub of a beam core (R689). -/
def Chip.stubUe (c : Chip) (n : Core) : Bool :=
  c.rf (R.YLX_CAUSE n) 4 0 == 8 && c.rb (R.YLX_ESTAT n) 3 && decide (0x00100000 ≤ (c.rd (R.YLX_EPC n)).toNat)
    && decide ((c.rd (R.YLX_EPC n)).toNat < 0x00104000)

/-- Core 7 takes over the program of a core that has failed its self-test or trapped with LOCAL_UE in its stub (R689). -/
def Chip.adoption (n : Core) (c : Chip) : Chip :=
  if c.tirbaUp && c.beamCore n && (c.drn.selfFail.contains n.val || c.stubUe n) then c.adoptCore n (c.raster n).faultAt else c

/-- Step 4 of R690: at a VB0 of the program's Beam at least 1 ms after the fault. -/
def Chip.adoptStart (c : Chip) : Chip :=
  match c.tirba.adopt with
  | none => c
  | some a =>
    if a.starts ∧ ¬a.started ∧ ¬c.heldCore 7 ∧ a.since.toNat + 96000 ≤ c.time.toNat ∧ c.atLine a.beam (c.beam a.beam).vactive then
      let c := c.onTirba fun t => { t with adopt := some { a with started := true } }
      c.startProgram a.core 7 (c.raster a.core).params
    else c

/-! ### Core 7 and core 0 (R692, R693) -/

/-- Core 7 has faulted: Tirba holds it, and an adoption ends. -/
def Chip.core7Fault (c : Chip) : Chip :=
  if c.tirbaUp && c.coreFault 7 then
    (((c.coreHold 7).clearFault 7).onTirba fun t => { t with core7Lost := true }).adoptEnd
  else c

/-- A ring whose commands in flight are lost: they are recorded with FAULT, and nothing of them is posted (R693). -/
def RingSt.lost (s : RingSt) : RingSt :=
  let s := { s with posts := [], history := s.markPosts fun r => { r with status := 8, discarded := true }, header := none }
  { s.flight.foldl (fun (s : RingSt) (q : Cmd) => s.record q.tag 8 true) s with flight := [] }

/-- Core 7 restarts core 0, once (R693): every ring is treated as reset, the sessions are kept, and READY is dropped until Tirba
serves again. -/
def Chip.core0Restart (c : Chip) : Chip :=
  if !c.coreFault 0 || c.drn.core0Restarted || c.tirba.core7Lost || c.heldCore 7 then c
  else
    let c := ((c.wr (R.YLX_ENTRY 0) c.tirba.runEntry).coreRestart 0).clearFault 0
    let c := (c.onCore 0 fun k => { k with latch := true }).wb R.MBX_STAT 0 false
    let c := ((c.wr (R.MBX_RING_EN 0) 0).wr (R.MBX_RING_EN 1) 0).wr (R.MBX_FRAYED 0) 0
    let c := ((c.wr (R.MBX_FRAYED 1) 0).wr (R.MBX_RESET 0) 0).wr (R.MBX_RESET 1) 0
    let own (b : BmRead) : Bool := match b.owner with
      | .bobbin _ => true
      | _ => false
    let c := c.onTirba fun t => { t with
      rings := t.rings.map RingSt.lost, bm := t.bm.filter own
      sessions := t.sessions.map fun s => s.map fun s => { s with closing := false, aborted := 0 } }
    (c.countFlight.onDrn fun d => { d with core0Restarted := true }).journal 0x0A 0x09 0 0 0 0

/-! ### The darn record (R694, R696, R489) -/

/-- One entry of the darn record is applied. -/
def Chip.applyEntry (e : Nat) (c : Chip) : Chip :=
  let spare := e / 256 % 8
  let unit := e % 128
  match e / 2 ^ 13 with
  | 4 => if unit < 96 then c.copyNoCopy unit (min 5 spare) else c
  | 5 => c.wf R.EYE_PIPE_MAP (4 * (unit % 8) + 3) (4 * (unit % 8)) 8
  | 6 => (c.sliceMark (unit % 32)).sliceServe (unit % 32)
  | 7 => if unit < 96 then (c.sb (R.DRN_VFAIL (unit / 32)) (unit % 32)).wf (R.SND_SPARE_MAP spare) 6 0 unit else c
  | _ => c

/-- The place of the fault journal in the Tirba region (R696), in units of 8 KiB. -/
def journalUnit : Nat := tirbaBase / 0x2000 + Config.journalPlace.toNat % max 1 (tirbaLen / 0x2000)

/-- Tirba's start: it places the journal, applies the darn record, and holds the Beams with a hold record at their start. -/
def Chip.tirbaStart (c : Chip) : Chip :=
  if !c.tirbaUp || !c.romLocked || c.tirba.applied then c
  else
    let c := c.storeVlm R.DRN_JRN_BASE (w32 (1 + journalUnit * 0x2000))
    let c := forEach (List.range 8) (fun i c => c.applyEntry (c.recEntry i)) c
    let c := forEach (List.finRange 2) (fun b c => c.when c.emb.holdRec[b] (Chip.storeBmo (R.BMO_HOLD b) (bitW 2))) c
    c.onTirba fun t => { t with applied := true }

/-! ### Commands -/

/-- RASTER_LOAD (R347). -/
def execRasterLoad (n : Ring) (s : State) : Out :=
  (s.chip.withPayload n 0x130 (fun q c => firstOf (c.loadChecks q)) Chip.rasterLoad).next s

/-- RASTER_CONTROL, stop (R349). -/
def execRasterStop (n : Ring) (s : State) : Out := (s.chip.once n 0x131 (fun q => q.le 9 1 != 1) Chip.rasterStop).next s

/-- RASTER_CONTROL, start (R349). -/
def execRasterStart (n : Ring) (s : State) : Out := (s.chip.once n 0x131 (fun q => q.le 9 1 == 1) Chip.rasterStart).next s

/-- RASTER_STATUS (R350). -/
def execRasterStatus (n : Ring) (s : State) : Out := (s.chip.once n 0x132 anyOf Chip.rasterStatus).next s

/-- The self-test of a faulted beam core ends (R689). -/
def execCoreSelfTest (n : Core) (pass : Bool) (s : State) : Out := (s.chip.selfTest n pass).next s

/-- Core 7 adopts the program of core n (R690). -/
def execAdoption (n : Core) (s : State) : Out := (s.chip.adoption n).next s

/-- Core 7 starts the adopted program (R690). -/
def execAdoptedProgramStart (s : State) : Out := s.chip.adoptStart.next s

/-- A fault of core 7 (R692). -/
def execCore7Fault (s : State) : Out := s.chip.core7Fault.next s

/-- Core 7 restarts core 0 (R693). -/
def execCore0Restart (s : State) : Out := s.chip.core0Restart.next s

/-- Tirba applies the darn record at its start (R694). -/
def execDarnRecordApply (s : State) : Out := s.chip.tirbaStart.next s

end Sys2Proof.Machine
end

