-- ==== Sys2Proof/Machine/TirbaDevice.lean ====
section
/-! DEFINITION. Tirba's commands for the device (11: R334 to R346): telemetry, supply, charger, darning, the glass hold, resets,
firmware, the life cycle and the logs. -/

namespace Sys2Proof.Machine

/-! ### Telemetry and supply (R334 to R336) -/

/-- What TELEMETRY_READ measures: temperatures, supplies and the cell's charge current. -/
structure Telemetry where
  tmax : Half
  tmin : Half
  vcore : Half
  vin : Half
  vbat : Half
  ichg : Half
deriving DecidableEq, Repr

/-- TELEMETRY_READ (R334). -/
def Chip.telemetry (t : Telemetry) (c : Chip) : Ans :=
  c.ok (res [(8, 2, t.tmax.toNat), (10, 2, t.tmin.toNat), (12, 2, t.vcore.toNat), (14, 2, t.vin.toNat), (16, 2, t.vbat.toNat),
    (18, 2, t.ichg.toNat), (20, 2, c.rf R.LTN_ICORE 15 0), (22, 1, c.phasesOn), (23, 1, c.shedLevel),
    (24, 2, c.rf (R.PRK_SLACK 0) 31 16), (26, 2, c.rf (R.PRK_SLACK 1) 31 16), (28, 2, c.rf R.SYS_SPEED 15 0)])

/-- SUPPLY_CONFIG (R335). -/
def Chip.supplyConfig (q : Cmd) (c : Chip) : Ans :=
  Chip.checked [(decide (1023 < q.le 8 2) || decide (15 < q.le 10 1) || decide (15 < q.le 11 1), 4, 0x11)] c fun c =>
    let c := c.storeLtn R.LTN_MARGIN (setFld (c.rd R.LTN_MARGIN) 9 0 (q.le 8 2))
    let c := c.storeLtn R.LTN_SHED (setFld (c.rd R.LTN_SHED) 11 8 (q.le 10 1))
    (c.storeSndPage 0 R.SND_SHED (w32 (q.le 11 1))).ok []

/-- CHARGER_CONFIG (R336): the limits first, then EMB_CTRL. -/
def Chip.chargerConfig (q : Cmd) (c : Chip) : Ans :=
  let ichg := q.le 10 2
  let vin := q.le 12 2
  Chip.checked [(decide (1 < q.le 8 1) || decide (1 < q.le 9 1) || decide (ichg < 5) || decide (150 < ichg) || decide (vin < 3000)
      || decide (3300 < vin) || decide (2 < q.le 14 1), 4, 0x11), (c.lcyState == 6, 5, 0x13)] c fun c =>
    let c := (c.storeEmb R.EMB_ICHG (w32 ichg)).storeEmb R.EMB_VINREG (w32 vin)
    (c.storeEmb R.EMB_CTRL (w32 (q.le 8 1 + q.le 9 1 * 2 + q.le 14 1 * 4))).ok []

/-! ### Darning (R337, R338) -/

/-- The Lantern phases that are free. -/
def Chip.sparePhases (c : Chip) : List Nat := (List.range 14).filter fun p => c.phaseSt p == 0

/-- DARN_STATUS (R337). -/
def Chip.darnStatus (c : Chip) : Ans :=
  let adopted := match c.tirba.adopt with
    | some a => a.core.val
    | none => 0xFF
  let bank := if c.copyActive then c.rf R.DRN_COPY 6 0 else 0xFF
  c.ok (res [(8, 1, c.freeSpares.length), (9, 1, b2n c.pipeSpare), (10, 1, c.spareVoices.length),
    (11, 1, b2n c.motif.spareFor.isNone), (12, 1, c.sparePhases.length), (13, 1, adopted), (14, 1, bank),
    (16, 2, c.rf R.DRN_COPY_STAT 15 0), (20, 4, c.drn.darns)])

/-- No spare of a kind is free: Tirba posts NO_SPARE, and the command ends (R338, R675). -/
def Chip.noSpare (n : Ring) (unit : Nat) (c : Chip) : Chip := (c.journal 0x0A 0x06 unit 0 0 0).endCmd n 5 0x16 []

/-- A copy of a bank is begun onto the lowest free spare. -/
def Chip.darnBank (n : Ring) (u : Nat) (c : Chip) : Chip :=
  match c.freeSpares with
  | [] => c.noSpare n u
  | k :: _ => (c.storeDrnCopy (w32 (u + k * 2 ^ 8 + 2 ^ 16))).toStage n 2 []

/-- The units of each kind (R338, R694). -/
def darnUnits (kind : Nat) : Nat := if kind = 1 then 8 else if kind = 2 then 32 else if kind = 4 then 14 else 96

/-- DARN_REQUEST starts. -/
def Chip.darnBegin (n : Ring) (kind u : Nat) (c : Chip) : Chip :=
  match kind with
  | 0 =>
    if c.physBank u ≠ u then c.endCmd n 5 0x12 []
    else if c.copyActive then c.endCmd n 1 0x11 []
    else c.darnBank n u
  | 1 =>
    let p := portNo u
    if c.pipeOf p = 8 then c.endCmd n 5 0x12 []
    else if !c.pipeSpare then c.noSpare n u
    else
      let c := c.storeEyePage R.EYE_PIPE_MAP (setFld (c.rd R.EYE_PIPE_MAP) (4 * u + 3) (4 * u) 8)
      if c.eyeRunning p then c.toStage n 2 [(c.eye[p]).serial] else c.endCmd n 0 0 []
  | 2 =>
    match c.motif.spareFor with
    | some k => if k = u then c.endCmd n 5 0x12 [] else c.noSpare n u
    | none => (c.storeVlm R.DRN_SLICE (w32 (u + 2 ^ 9))).endCmd n 0 0 []
  | 3 =>
    if (c.voiceSpare u).isSome then c.endCmd n 5 0x12 []
    else match c.spareVoices with
      | [] => c.noSpare n u
      | k :: _ => (c.storeSndPage 0 (R.SND_SPARE_MAP k) (w32 u)).endCmd n 0 0 []
  | 4 =>
    if !c.phaseOn u then c.endCmd n 5 0x12 []
    else if c.sparePhases.isEmpty || !c.rb R.LTN_CTRL 1 then c.noSpare n u
    else (c.ltnIsolate (w32 (u + 2 ^ 31))).toStage n 2 []
  | _ =>
    let r := coreNo u
    let p := c.raster r
    if c.tirba.core7Lost then c.endCmd n 5 0x16 []
    else if (c.tirba.adopt).any fun a => a.core == r then c.endCmd n 5 0x12 []
    else if c.tirba.adopt.isSome then c.endCmd n 5 0x14 []
    else if p.state ≠ 0 ∧ (placing (placeBase 7) p.code.length p.dataSize).isNone then c.noSpare n u
    else (c.adoptCore r c.time).toStage n 2 []

/-- DARN_REQUEST waits until the spare serves the unit; a copy that was aborted is begun again (R680). -/
def Chip.darnWait (n : Ring) (kind u : Nat) (q : Cmd) (c : Chip) : Chip :=
  match kind with
  | 0 => if c.physBank u ≠ u then c.endCmd n 0 0 [] else if c.copyActive then c else c.darnBank n u
  | 1 => if !c.eyeRunning (portNo u) || decide ((c.eye[portNo u]).serial ≠ q.keep.getD 0 0) then c.endCmd n 0 0 [] else c
  | 4 => if c.ltn.engaging.any fun e => e.2 == u then c else c.endCmd n 0 0 []
  | _ =>
    match c.tirba.adopt with
    | some a => if a.started ∨ ¬a.starts then c.endCmd n 0 0 [] else c
    | none => c.endCmd n 5 0x16 []

/-- DARN_REQUEST on ring n (R338). -/
def Chip.darnRequest (n : Ring) (c : Chip) : Chip :=
  match c.front n 0x0F1 anyOf with
  | none => c
  | some q =>
    let kind := q.le 8 1
    let u := q.le 10 2
    if q.stage = 0 then
      match firstOf [(decide (5 < kind), 4, 0x11), (kind == 5 && (decide (u < 1) || decide (6 < u)), 4, 0x11),
          (decide (kind < 5) && decide (darnUnits kind ≤ u), 4, 0x10)] with
      | some (s, d) => c.endCmd n s d []
      | none => c.darnBegin n kind u
    else c.darnWait n kind u q

/-! ### The glass hold (R339, R489, R699) -/

/-- Tirba writes the hold record of a Beam, or clears it: what the retained words 0 to 3 then hold is free. -/
def Chip.holdMark (b : Beam) (on : Bool) (c : Chip) : Chip :=
  let (k, c) := (c.onEmb fun e => { e with holdRec := e.holdRec.set b.val on b.isLt }).fresh
  forEach (List.range 4) (fun i c => c.wr (R.AON_RJ i) (Config.holdWord k i)) c

/-- A panel is not set up for a hold: its link does not run, or no list switches it to command mode. -/
def Chip.holdUnset (c : Chip) (b : Beam) : Bool :=
  c.holdSt b == 0 && (c.link b != 2 || (c.bmoMode b != 2 && c.rf (R.BMO_ENTER_LEN b) 8 0 == 0))

/-- The checks of GLASS_HOLD's fields. -/
def holdFields (q : Cmd) : List (Bool × Nat × Nat) := maskChecks (q.le 8 1) ++ [(decide (2 < q.le 9 1), 4, 0x11)]

/-- GLASS_HOLD with action 0 on ring n, or with none of its actions (R339). An entry that ends without a hold is a hardware
error (R486). -/
def Chip.glassEnter (n : Ring) (c : Chip) : Chip :=
  match c.front n 0x0F8 (actionIs 9 0 2 true) with
  | none => c
  | some q =>
    let bs := beamsOf (q.le 8 1)
    if q.stage = 0 then
      match firstOf (holdFields q ++ [(bs.any fun b => !c.running b || c.holdUnset b, 5, 0x11), (bs.any fun b => c.holdSt b != 0, 5, 0x12)]) with
      | some (s, d) => c.endCmd n s d []
      | none => (forEach bs Chip.holdEnter c).toStage n 2 []
    else if bs.any fun b => c.holdSt b == 0 then c.endCmd n 8 0x10 []
    else if bs.all fun b => c.holdSt b == 2 then
      let f (b : Beam) : Nat := if bs.contains b then (c.rd (R.BMO_HOLD_FRAME b)).toNat else 0
      (forEach bs (fun b c => c.holdMark b true) c).endCmd n 0 0 (res [(8, 4, f 0), (12, 4, f 1)])
    else c

/-- GLASS_HOLD with action 1 on ring n (R339). A release that ends without video is a hardware error (R490). -/
def Chip.glassRelease (n : Ring) (c : Chip) : Chip :=
  match c.front n 0x0F8 (actionIs 9 1 2 false) with
  | none => c
  | some q =>
    let bs := beamsOf (q.le 8 1)
    if q.stage = 0 then
      match firstOf (holdFields q ++ [(bs.any fun b => !c.running b, 5, 0x11), (bs.any fun b => c.holdSt b != 2, 5, 0x12)]) with
      | some (s, d) => c.endCmd n s d []
      | none => (forEach bs (fun b c => (c.holdRelease b).holdMark b false) c).toStage n 2 []
    else if bs.all fun b => c.holdSt b == 0 then (if bs.all fun b => c.link b == 2 then c.endCmd n 0 0 [] else c.endCmd n 8 0x10 [])
    else c

/-- GLASS_HOLD with action 2 (R699). -/
def Chip.glassAdopt (q : Cmd) (c : Chip) : Ans :=
  let bs := beamsOf (q.le 8 1)
  Chip.checked (holdFields q ++ [(bs.any fun b => c.tirba.started[b] || c.running b, 5, 0x11)]) c fun c =>
    (forEach bs (fun b c => (c.wb (R.BMO_HOLD b) 2 true).holdMark b true) c).ok []

/-! ### Resets and firmware (R340 to R343) -/

/-- A command of an opcode runs: it has started and has not ended. -/
def Chip.runsNow (c : Chip) (op : Nat) : Bool :=
  (List.finRange 64).any fun m => (c.ring m).flight.any fun q => decide (q.opcode = op) && decide (q.stage ≠ 0)

/-- DEVICE_RESET on ring n (R340). -/
def Chip.deviceReset (n : Ring) (sel : Cmd → Bool) (c : Chip) : Chip :=
  match c.front n 0x0F9 sel with
  | none => c
  | some q =>
    match firstOf [(decide (1 < q.le 8 1) || q.le 12 4 != 0x52535444, 4, 0x11), (c.runsNow 0x100 || c.runsNow 0x101, 5, 0x12)] with
    | some (s, d) => c.endCmd n s d []
    | none => (c.endFront n 0 0 [] (some (q.le 8 1 == 1))).settleAll

/-- The status and DETAIL of a failed check of an image (R236, R341); a slot that cannot be read is a hardware error. -/
def imageStatus (st : Nat) : Nat × Nat := if st ≤ 4 then (4, st) else if st = 9 then (8, 0x10) else (6, st)

/-- FW_STAGE's checks of its payload; then the slot is erased (R237). -/
def Chip.fwImage (n : Ring) (q : Cmd) (bs : List Byte) (c : Chip) : Chip :=
  let h := bs.take 256
  let st := c.headerStatus h
  let st := if st = 1 ∧ ¬bodyOk h (bs.drop 256) then 8 else st
  if bs.length ≠ 256 + hdrLength h then c.endCmd n 4 0x11 []
  else if st ≠ 1 then c.endCmd n (imageStatus st).1 (imageStatus st).2 (res [(8, 4, hdrSeq h), (12, 1, st)])
  else ((((c.emit (.flashCode 0x66)).emit (.flashCode 0x99)).emit (.flashCode 0x06)).emit (.flashErase (slotAddr (q.le 20 1)))).onFront n fun _ => { q with stage := 2, payload := bs }

/-- FW_STAGE writes its slot (R237), one act a time: after the erase the bytes from 0x0004 on, then MAGIC, then the read-back. An
error of the flash ends it (R236). -/
def Chip.fwWrite (n : Ring) (fail : Bool) (q : Cmd) (c : Chip) : Chip :=
  let a := slotAddr (q.le 20 1)
  if fail then c.endCmd n 8 0x11 []
  else match q.stage with
    | 2 => (c.emit (.flashProgram (a + 4) (q.payload.drop 4))).toStage n 3 []
    | 3 => (c.emit (.flashProgram a (q.payload.take 4))).toStage n 4 []
    | 4 => (c.emit (.flashRead a 0x10000)).toStage n 5 []
    | _ => c.endCmd n 0 0 (res [(8, 4, hdrSeq q.payload), (12, 1, 1)])

/-- FW_STAGE on ring n (R341, R236, R237); fail is a flash erase, program or read-back error. -/
def Chip.fwStage (n : Ring) (fail : Bool) (c : Chip) : Chip :=
  match c.front n 0x100 (fun q => decide (2 ≤ q.stage)) with
  | some q => c.fwWrite n fail q
  | none =>
    c.payloadThen n 0x100 (fun q c => firstOf [(decide (65536 < q.len), 4, 0x13), (decide (1 < q.le 20 1), 4, 0x11),
      (q.le 20 1 == c.tirba.bootSlot || q.le 20 1 == c.tirba.runSlot, 5, 0x15), (c.runsNow 0x101, 5, 0x12),
      (c.runsNow 0x100, 1, 0x10)]) (Chip.fwImage n)

/-- Where Tirba's two buffers of a live activation stand in Vellum: 0 the staged slot, 1 the running image (R238). The place is
free (assumption 110). -/
def fwBuffer (i : Nat) : Nat := 64 * (Config.fwPlace.toNat % (vlmSize / 64 - 2048)) + 0x10000 * i

/-- Where Tirba passes core 7 the parameters of a live activation, in core 7's local memory (R238); the place is free, and the layout
the model's (assumption 110). -/
def fwParams : Nat := lmBase 7 + 64 * (Config.fwParams.toNat % 254)

/-- HASH, LENGTH, LOAD and ENTRY of a header. -/
def hdrParams (h : List Byte) : List Byte := part h 0x20 32 ++ part h 0x0C 12

/-- Step 4 of R238: the values of both headers and both buffer addresses are passed to core 7, which is signalled. -/
def Chip.fwPass (h old : List Byte) (c : Chip) : Chip :=
  let c := c.memWrite fwParams (hdrParams h ++ hdrParams old ++ leBytes 4 (vlmBase + fwBuffer 0) ++ leBytes 4 (vlmBase + fwBuffer 1))
  c.onCore 7 fun k => { k with latch := true }

/-- Core 0 is released into the park window and told to go on (R238 step 7). -/
def Chip.core0Go (entry : Word) (c : Chip) : Chip :=
  ((c.wr (R.YLX_ENTRY 0) entry).coreRelease 0).onCore 0 fun k => { k with latch := true }

/-- Core 7 copies image i, 0 the new and 1 the old, from its buffer to its LOAD in core 0's local memory and hashes it there (R238 steps 5
and 6): whether it passes. -/
def Chip.fwCopy (i : Nat) (c : Chip) : Bool × Chip :=
  let p := c.bytes (fwParams + 44 * i) 44
  let (bs, bad, c) := c.vRead .core 7 (leNat (c.bytes (fwParams + 88 + 4 * i) 4) - vlmBase + 256) (leNat (part p 32 4))
  let (copy, c) := c.copyIn (lmBase 0 + (leNat (part p 36 4) - 0x00100000)) bs
  (!bad && sha256 copy == p.take 32, c)

/-- Steps 4 to 9 of R238, when nothing but the activation on ring n is in flight; with core 7 held nothing of steps 5 on happens. The
image that runs serves the rings from ring 0 on. -/
def Chip.fwSwitch (n : Ring) (q : Cmd) (lmErr : Bool) (c : Chip) : Chip :=
  let h := c.vbytes (fwBuffer 0) 256
  let t := c.tirba
  let slot := q.le 8 1
  let c := c.fwPass h t.runHeader
  if c.heldCore 7 then c
  else
    let (new, c) := (c.coreHold 0).fwCopy 0
    if new && !lmErr then
      let c := c.onTirba fun t => { t with
        last := 63, runHeader := h, runSlot := slot, runSeq := w32 (hdrSeq h), runEntry := w32 (hdrEntry h), runLoad := hdrLoad h
        runLen := hdrLength h }
      (c.core0Go (w32 (hdrEntry h))).endCmd n 0 0 (res [(8, 4, hdrSeq h), (12, 1, slot)])
    else
      let (old, c) := c.fwCopy 1
      if old then
        ((c.onTirba fun t => { t with last := 63 }).core0Go t.runEntry).endCmd n 6 8 (res [(8, 4, t.runSeq.toNat), (12, 1, t.runSlot)])
      else c.faultEntry

/-- Steps 1 to 3 of R238 for a slot whose header passed: the buffers, and the fetch loop stops. What was fetched from the own ring after
the activation runs before the exchange (assumption 110). -/
def Chip.fwBuffers (n : Ring) (f : FlashSlot) (c : Chip) : Chip :=
  let t := c.tirba
  let c := c.vWrite (fwBuffer 0) ((f.header ++ List.replicate 256 0#8).take 256 ++ f.body)
  let c := c.vWrite (fwBuffer 1) (t.runHeader ++ c.bytes (lmAddr 0 t.runLoad) t.runLen)
  c.onRing n fun s => { s with flight := match s.flight with
    | [] => []
    | q :: l => l ++ [{ q with stage := 2 }] }

/-- FW_ACTIVATE on ring n (R342, R238): it starts with what the flash holds in the slot, stops the fetch loop, and goes on when
every other command in flight has ended. lmErr says whether an uncorrectable error of core 0's local memory meets core 7's hash of
the new image (assumption 110). -/
def Chip.fwActivate (n : Ring) (f : FlashSlot) (lmErr : Bool) (c : Chip) : Chip :=
  match c.front n 0x101 anyOf with
  | none => c
  | some q =>
    let slot := q.le 8 1
    if q.stage = 0 then
      match firstOf [(decide (1 < slot), 4, 0x11), (slot == c.tirba.runSlot, 5, 0x15), (c.tirba.adopt.isSome, 5, 0x14),
          (c.runsNow 0x100 || c.runsNow 0x101, 5, 0x12)] with
      | some (s, d) => c.endCmd n s d []
      | none =>
        let (st, c) := c.flashHeader slot f
        if st ≠ 1 then c.endCmd n (imageStatus st).1 (imageStatus st).2 (res [(8, 4, c.tirba.runSeq.toNat), (12, 1, c.tirba.runSlot)])
        else (c.emit (.flashRead (slotAddr slot + 0x100) 0xFF00)).fwBuffers n f
    else if c.inFlight = 1 then c.fwSwitch n q lmErr
    else c

/-- FW_INFO (R343). -/
def Chip.fwInfo (c : Chip) : Ans :=
  let v (a : Nat) : Nat := (c.rd a).toNat
  c.ok (res [(8, 1, c.tirba.bootSlot), (9, 1, c.tirba.runSlot), (12, 4, v R.SYS_BOOT_STAT), (16, 4, v R.SYS_BOOT_SEQ_A),
    (20, 4, v R.SYS_BOOT_SEQ_B), (24, 4, c.tirba.runSeq.toNat), (28, 1, c.arbCount), (32, 2, c.rf R.MBX_VERSION 31 16)])

/-! ### The life cycle (R344, R345) -/

/-- LCY_STATUS (R344). -/
def Chip.lcyStatus (c : Chip) : Ans :=
  c.ok (res [(8, 1, c.lcyState), (9, 1, c.arbCount), (10, 1, ofBits ((List.range 4).map c.keyInForce)),
    (11, 1, b2n (c.rb R.LCY_STICKY 0)), (16, 8, Config.serial.toNat)])

/-- The status and DETAIL of a RESULT (R709, R711, R712). -/
def resultStatus (r : Nat) : Nat × Nat :=
  match r with
  | 0 => (0, 0)
  | 1 => (4, 0x11)
  | 3 => (5, 0x13)
  | 6 => (5, 0x12)
  | 7 => (8, 0x10)
  | 8 => (8, 0x10)
  | _ => (6, 0)

/-- The place of the record of LCY_ADVANCE in Vellum. -/
def recordBase : Nat := 64 * (Config.recordPlace.toNat % (vlmSize / 64 - 4))

/-- LCY_ADVANCE ends with the sequencer's RESULT. -/
def Chip.lcyDone (n : Ring) (c : Chip) : Chip :=
  let s := resultStatus (c.rf R.LCY_OP_STAT 3 0)
  c.endCmd n s.1 s.2 (if s.1 = 0 then res [(8, 1, c.lcyState)] else [])

/-- LCY_ADVANCE with its record: the sequencer starts, and the command waits for it; a record that is cut short is no record. -/
def Chip.lcyRecord (n : Ring) (jrnBad : Bool) (q : Cmd) (bs : List Byte) (c : Chip) : Chip :=
  if bs.length < 192 ∨ leNat (part bs 5 1) ≠ q.le 20 1 then c.endCmd n 4 0x11 []
  else if c.lcyBusy then c.endCmd n 5 0x12 []
  else
    let c := (c.vWrite recordBase bs).lcyGo (w32 (recordBase + 2 ^ 31)) jrnBad
    if c.lcyBusy then c.toStage n 2 [] else c.lcyDone n

/-- LCY_ADVANCE on ring n (R345, R709); jrnBad is a read-back of the journal that differs (R711). -/
def Chip.lcyAdvance (n : Ring) (jrnBad : Bool) (c : Chip) : Chip :=
  match c.front n 0x111 (fun q => q.stage == 2) with
  | some _ => if c.lcyBusy then c else c.lcyDone n
  | none =>
    c.payloadThen n 0x111 (fun q c => firstOf [(decide (256 < q.len), 4, 0x13), (c.lcyBusy, 5, 0x12)]) (Chip.lcyRecord n jrnBad)

/-! ### Logs (R346) -/

/-- Entry s of the fault journal as it stands in Vellum, with whether a word of it is uncorrectable. -/
def Chip.journalAt (s : Nat) (c : Chip) : (List Byte × Bool) × Chip :=
  let (bs, bad, c) := c.vRead .core 0 (c.rf R.DRN_JRN_BASE 25 13 * 0x2000 + 32 * (s % 256)) 32
  ((bs, bad), c)

/-- Entries of the journal, read in order. -/
def Chip.journalRead : List Nat → Chip → (List Byte × Bool) × Chip
  | [], c => (([], false), c)
  | s :: t, c =>
    let (a, c) := c.journalAt s
    let (r, c) := Chip.journalRead t c
    ((a.1 ++ r.1, a.2 || r.2), c)

/-- LOG_READ (R346). -/
def Chip.logRead (q : Cmd) (c : Chip) : Ans :=
  let log := q.le 20 1
  let start := q.le 24 4
  Chip.checked [(decide (1 < log), 4, 0x11), (decide (q.len < 32), 4, 0x13)] c fun c =>
    let top := if log = 0 then (c.rd R.DRN_JRN_SEQ).toNat else c.drn.log.length
    let oldest := if log = 0 then top - 256 else 0
    let first := if start = 0xFFFFFFFF ∨ start < oldest then oldest else min start top
    let k := min (q.len / 32) (top - first)
    let (r, c) : (List Byte × Bool) × Chip :=
      if log = 0 then c.journalRead ((List.range k).map (first + ·)) else ((((c.drn.log.drop first).take k).flatten, false), c)
    if r.2 then c.no 8 0x12
    else
      let gone := if start = 0xFFFFFFFF then 0 else oldest - start
      (c.writeRef q r.1).ok (res [(8, 4, first), (12, 4, k), (16, 4, first + k), (20, 4, gone)])

/-! ### Commands -/

/-- TELEMETRY_READ (R334), with what it measures. -/
def execTelemetryRead (n : Ring) (tmax tmin vcore vin vbat ichg : Half) (s : State) : Out :=
  (s.chip.once n 0x0E0 anyOf fun _ => Chip.telemetry { tmax, tmin, vcore, vin, vbat, ichg }).next s

/-- SUPPLY_CONFIG (R335). -/
def execSupplyConfig (n : Ring) (s : State) : Out := (s.chip.once n 0x0E1 anyOf Chip.supplyConfig).next s

/-- CHARGER_CONFIG (R336). -/
def execChargerConfig (n : Ring) (s : State) : Out := (s.chip.once n 0x0E2 anyOf Chip.chargerConfig).next s

/-- DARN_STATUS (R337). -/
def execDarnStatus (n : Ring) (s : State) : Out := (s.chip.once n 0x0F0 anyOf fun _ => Chip.darnStatus).next s

/-- DARN_REQUEST (R338). -/
def execDarnRequest (n : Ring) (s : State) : Out := (s.chip.darnRequest n).next s

/-- GLASS_HOLD, enter (R339). -/
def execGlassHoldEnter (n : Ring) (s : State) : Out := (s.chip.glassEnter n).next s

/-- GLASS_HOLD, release (R339). -/
def execGlassHoldRelease (n : Ring) (s : State) : Out := (s.chip.glassRelease n).next s

/-- GLASS_HOLD, adopt (R699). -/
def execGlassHoldAdopt (n : Ring) (s : State) : Out := (s.chip.once n 0x0F8 (actionIs 9 2 2 false) Chip.glassAdopt).next s

/-- DEVICE_RESET, warm, and the kinds that it does not have (R340). -/
def execDeviceResetWarm (n : Ring) (s : State) : Out := (s.chip.deviceReset n (actionIs 8 0 1 true)).next s

/-- DEVICE_RESET, cold (R340). -/
def execDeviceResetCold (n : Ring) (s : State) : Out := (s.chip.deviceReset n (actionIs 8 1 1 false)).next s

/-- FW_STAGE (R341): its start, and the end of the writing of the slot. -/
def execFwStage (n : Ring) (fail : Bool) (s : State) : Out := (s.chip.fwStage n fail).next s

/-- FW_ACTIVATE (R342): its start, and the exchange of the image. -/
def execFwActivate (n : Ring) (slot : FlashSlot) (lmErr : Bool) (s : State) : Out := (s.chip.fwActivate n slot lmErr).next s

/-- FW_INFO (R343). -/
def execFwInfo (n : Ring) (s : State) : Out := (s.chip.once n 0x102 anyOf fun _ => Chip.fwInfo).next s

/-- LCY_STATUS (R344). -/
def execLcyStatus (n : Ring) (s : State) : Out := (s.chip.once n 0x110 anyOf fun _ => Chip.lcyStatus).next s

/-- LCY_ADVANCE (R345). -/
def execLcyAdvance (n : Ring) (jrnBad : Bool) (s : State) : Out := (s.chip.lcyAdvance n jrnBad).next s

/-- LOG_READ (R346). -/
def execLogRead (n : Ring) (s : State) : Out := (s.chip.once n 0x120 anyOf Chip.logRead).next s

end Sys2Proof.Machine
end

