-- ==== Sys2Proof/Machine/Dispatch.lean ====
section
/-! DEFINITION. One arm per command: the meaning of each row of spec/opcode_table.json. -/

namespace Sys2Proof.Machine

/-- The effect of a command on everything but the queue. -/
def exec (i : Instr) (s : State) : Host.Outcome State Fault Refusal :=
  match i with
  | .registerWrite who user a v => Sys2Proof.Machine.execRegisterWrite who user a v s
  | .storeLand n => Sys2Proof.Machine.execStoreLand n s
  | .speedUpdate laps => Sys2Proof.Machine.execSpeedUpdate laps s
  | .runWrite b => Sys2Proof.Machine.execRunWrite b s
  | .counterStart b unackedVb0 unackedCommit => Sys2Proof.Machine.execCounterStart b unackedVb0 unackedCommit s
  | .runClear b => Sys2Proof.Machine.execRunClear b s
  | .beamStop b unackedVb0 unackedCommit => Sys2Proof.Machine.execBeamStop b unackedVb0 unackedCommit s
  | .synUnlock b pixel => Sys2Proof.Machine.execSynUnlock b s pixel
  | .lockReturn b unackedVb0 unackedCommit => Sys2Proof.Machine.execLockReturn b unackedVb0 unackedCommit s
  | .lineStart b => Sys2Proof.Machine.execLineStart b s
  | .frameAdvance b => Sys2Proof.Machine.execFrameAdvance b s
  | .hs b unacked => Sys2Proof.Machine.execHs b unacked s
  | .vs b unacked => Sys2Proof.Machine.execVs b unacked s
  | .vb0 b unacked => Sys2Proof.Machine.execVb0 b unacked s
  | .commitPoint b unacked => Sys2Proof.Machine.execCommitPoint b unacked s
  | .pfs b unacked => Sys2Proof.Machine.execPfs b unacked s
  | .genlockEdge b pixel => Sys2Proof.Machine.execGenlockEdge b pixel s
  | .genlockLoss b => Sys2Proof.Machine.execGenlockLoss b s
  | .fsyncPulseStart n => Sys2Proof.Machine.execFsyncPulseStart n s
  | .fsyncPulseEnd n => Sys2Proof.Machine.execFsyncPulseEnd n s
  | .vellumRead cls idx off n => Sys2Proof.Machine.execVellumRead cls idx off n s
  | .vellumWrite cls idx off bytes => Sys2Proof.Machine.execVellumWrite cls idx off bytes s
  | .tokenAcquire => Sys2Proof.Machine.execTokenAcquire s
  | .writeAccept ch => Sys2Proof.Machine.execWriteAccept ch s
  | .bankGrant n => Sys2Proof.Machine.execBankGrant n s
  | .vlmReadComplete cls idx find => Sys2Proof.Machine.execVlmReadComplete cls idx find s
  | .cntClr => Sys2Proof.Machine.execCntClr s
  | .scrubSlotOpen => Sys2Proof.Machine.execScrubSlotOpen s
  | .scrubPromote => Sys2Proof.Machine.execScrubPromote s
  | .scrubSlotComplete n find => Sys2Proof.Machine.execScrubSlotComplete n find s
  | .darnCopyGranule find => Sys2Proof.Machine.execDarnCopyGranule find s
  | .coreHold n => Sys2Proof.Machine.execCoreHold n s
  | .coreRelease n => Sys2Proof.Machine.execCoreRelease n s
  | .coreRestart n => Sys2Proof.Machine.execCoreRestart n s
  | .lmScrubRead n e w => Sys2Proof.Machine.execLmScrubRead n e s w
  | .interruptEntry n => Sys2Proof.Machine.execInterruptEntry n s
  | .wdgKick n v => Sys2Proof.Machine.execWdgKick n v s
  | .wdgLock n => Sys2Proof.Machine.execWdgLock n s
  | .wdgStage1 n => Sys2Proof.Machine.execWdgStage1 n s
  | .wdgStage2 n => Sys2Proof.Machine.execWdgStage2 n s
  | .add n p u gd ga gb => Sys2Proof.Machine.execAdd n p u gd ga gb s
  | .sub n p u gd ga gb => Sys2Proof.Machine.execSub n p u gd ga gb s
  | .and n p u gd ga gb => Sys2Proof.Machine.execAnd n p u gd ga gb s
  | .or n p u gd ga gb => Sys2Proof.Machine.execOr n p u gd ga gb s
  | .xor n p u gd ga gb => Sys2Proof.Machine.execXor n p u gd ga gb s
  | .shl n p u gd ga gb => Sys2Proof.Machine.execShl n p u gd ga gb s
  | .shr n p u gd ga gb => Sys2Proof.Machine.execShr n p u gd ga gb s
  | .sar n p u gd ga gb => Sys2Proof.Machine.execSar n p u gd ga gb s
  | .mul n p u gd ga gb => Sys2Proof.Machine.execMul n p u gd ga gb s
  | .mulhs n p u gd ga gb => Sys2Proof.Machine.execMulhs n p u gd ga gb s
  | .mulhu n p u gd ga gb => Sys2Proof.Machine.execMulhu n p u gd ga gb s
  | .divs n p u gd ga gb => Sys2Proof.Machine.execDivs n p u gd ga gb s
  | .divu n p u gd ga gb => Sys2Proof.Machine.execDivu n p u gd ga gb s
  | .rems n p u gd ga gb => Sys2Proof.Machine.execRems n p u gd ga gb s
  | .remu n p u gd ga gb => Sys2Proof.Machine.execRemu n p u gd ga gb s
  | .min n p u gd ga gb => Sys2Proof.Machine.execMin n p u gd ga gb s
  | .max n p u gd ga gb => Sys2Proof.Machine.execMax n p u gd ga gb s
  | .minu n p u gd ga gb => Sys2Proof.Machine.execMinu n p u gd ga gb s
  | .maxu n p u gd ga gb => Sys2Proof.Machine.execMaxu n p u gd ga gb s
  | .addi n p u gd ga imm => Sys2Proof.Machine.execAddi n p u gd ga imm s
  | .andi n p u gd ga imm => Sys2Proof.Machine.execAndi n p u gd ga imm s
  | .ori n p u gd ga imm => Sys2Proof.Machine.execOri n p u gd ga imm s
  | .xori n p u gd ga imm => Sys2Proof.Machine.execXori n p u gd ga imm s
  | .shli n p u gd ga cnt => Sys2Proof.Machine.execShli n p u gd ga cnt s
  | .shri n p u gd ga cnt => Sys2Proof.Machine.execShri n p u gd ga cnt s
  | .sari n p u gd ga cnt => Sys2Proof.Machine.execSari n p u gd ga cnt s
  | .movi n p u gd imm => Sys2Proof.Machine.execMovi n p u gd imm s
  | .movhi n p u gd imm => Sys2Proof.Machine.execMovhi n p u gd imm s
  | .cmp n p u cc pd ga gb => Sys2Proof.Machine.execCmp n p u cc pd ga gb s
  | .cmpi n p u cc pd ga imm => Sys2Proof.Machine.execCmpi n p u cc pd ga imm s
  | .plog n p u fn pd pa pb => Sys2Proof.Machine.execPlog n p u fn pd pa pb s
  | .movsGetPred n p u gd => Sys2Proof.Machine.execMovsGetPred n p u gd s
  | .movsSetPred n p u ga => Sys2Proof.Machine.execMovsSetPred n p u ga s
  | .movsGetUsp n p u gd => Sys2Proof.Machine.execMovsGetUsp n p u gd s
  | .movsSetUsp n p u ga => Sys2Proof.Machine.execMovsSetUsp n p u ga s
  | .ldw n p u gd ga imm => Sys2Proof.Machine.execLdw n p u gd ga imm s
  | .ldh n p u gd ga imm => Sys2Proof.Machine.execLdh n p u gd ga imm s
  | .ldhu n p u gd ga imm => Sys2Proof.Machine.execLdhu n p u gd ga imm s
  | .ldb n p u gd ga imm => Sys2Proof.Machine.execLdb n p u gd ga imm s
  | .ldbu n p u gd ga imm => Sys2Proof.Machine.execLdbu n p u gd ga imm s
  | .stw n p u gs ga imm => Sys2Proof.Machine.execStw n p u gs ga imm s
  | .sth n p u gs ga imm => Sys2Proof.Machine.execSth n p u gs ga imm s
  | .stb n p u gs ga imm => Sys2Proof.Machine.execStb n p u gs ga imm s
  | .xchg n p u gd ga => Sys2Proof.Machine.execXchg n p u gd ga s
  | .br n p u off => Sys2Proof.Machine.execBr n p u off s
  | .bl n p u off => Sys2Proof.Machine.execBl n p u off s
  | .jr n p u ga => Sys2Proof.Machine.execJr n p u ga s
  | .jlr n p u gd ga => Sys2Proof.Machine.execJlr n p u gd ga s
  | .callm n p u ga mask => Sys2Proof.Machine.execCallm n p u ga mask s
  | .retm n p u mask => Sys2Proof.Machine.execRetm n p u mask s
  | .sev n p u mask => Sys2Proof.Machine.execSev n p u mask s
  | .wfe n p u => Sys2Proof.Machine.execWfe n p u s
  | .wfeWake n src => Sys2Proof.Machine.execWfeWake n src s
  | .waituntil n p u src after gn => Sys2Proof.Machine.execWaituntil n p u src after gn s
  | .waituntilMatch n => Sys2Proof.Machine.execWaituntilMatch n s
  | .trap n p u imm => Sys2Proof.Machine.execTrap n p u imm s
  | .eret n p u => Sys2Proof.Machine.execEret n p u s
  | .brk n p u imm => Sys2Proof.Machine.execBrk n p u imm s
  | .nop n p u => Sys2Proof.Machine.execNop n p u s
  | .irqEoi n v => Sys2Proof.Machine.execIrqEoi n v s
  | .irqSwset v => Sys2Proof.Machine.execIrqSwset v s
  | .irqMsiSet v => Sys2Proof.Machine.execIrqMsiSet v s
  | .msiSend v => Sys2Proof.Machine.execMsiSend v s
  | .romBoot bad a b => Sys2Proof.Machine.execRomBoot bad a b s
  | .romLock n => Sys2Proof.Machine.execRomLock n s
  | .hostRecovery headerErr bodyErr => Sys2Proof.Machine.execHostRecovery headerErr bodyErr s
  | .hostBar0Request write off be dwords v cfg => Sys2Proof.Machine.execHostBar0Request write off be dwords v s cfg
  | .bar2Access write off bytes => Sys2Proof.Machine.execBar2Access write off bytes s
  | .d3hotEntry => Sys2Proof.Machine.execD3hotEntry s
  | .d0Return => Sys2Proof.Machine.execD0Return s
  | .linkReset => Sys2Proof.Machine.execLinkReset s
  | .doorbellTail n t => Sys2Proof.Machine.execDoorbellTail n t s
  | .cqHeadUpdate n h => Sys2Proof.Machine.execCqHeadUpdate n h s
  | .sqHeadSet n h => Sys2Proof.Machine.execSqHeadSet n h s
  | .ringEnable k v => Sys2Proof.Machine.execRingEnable k v s
  | .ringReset k v => Sys2Proof.Machine.execRingReset k v s
  | .resetAll => Sys2Proof.Machine.execResetAll s
  | .qspiBar0Read addr len crc gap short => Sys2Proof.Machine.execQspiBar0Read addr len crc gap short s
  | .qspiBar0Write addr len data crc gap short => Sys2Proof.Machine.execQspiBar0Write addr len data crc gap short s
  | .qspiVellumRead addr len crc gap short => Sys2Proof.Machine.execQspiVellumRead addr len crc gap short s
  | .qspiVellumWrite addr len data crc gap short => Sys2Proof.Machine.execQspiVellumWrite addr len data crc gap short s
  | .qspiFrameStatus code gap => Sys2Proof.Machine.execQspiFrameStatus code gap s
  | .descriptorFetch => Sys2Proof.Machine.execDescriptorFetch s
  | .completionPost n => Sys2Proof.Machine.execCompletionPost n s
  | .commandTimeout n => Sys2Proof.Machine.execCommandTimeout n s
  | .heartbeat => Sys2Proof.Machine.execHeartbeat s
  | .sessionOpen n => Sys2Proof.Machine.execSessionOpen n s
  | .sessionClose n => Sys2Proof.Machine.execSessionClose n s
  | .ringStatus n => Sys2Proof.Machine.execRingStatus n s
  | .paramQuery n => Sys2Proof.Machine.execParamQuery n s
  | .blockCopy n => Sys2Proof.Machine.execBlockCopy n s
  | .blockFill n => Sys2Proof.Machine.execBlockFill n s
  | .planeSet n => Sys2Proof.Machine.execPlaneSet n s
  | .motifConfig n => Sys2Proof.Machine.execMotifConfig n s
  | .windowSet n => Sys2Proof.Machine.execWindowSet n s
  | .layerOrder n => Sys2Proof.Machine.execLayerOrder n s
  | .paletteLoad n => Sys2Proof.Machine.execPaletteLoad n s
  | .commit n => Sys2Proof.Machine.execCommit n s
  | .sigRegionSet n => Sys2Proof.Machine.execSigRegionSet n s
  | .sigRead n => Sys2Proof.Machine.execSigRead n s
  | .portConfig n => Sys2Proof.Machine.execPortConfig n s
  | .portStart n => Sys2Proof.Machine.execPortStart n s
  | .portStop n => Sys2Proof.Machine.execPortStop n s
  | .portPolicy n => Sys2Proof.Machine.execPortPolicy n s
  | .portStatus n => Sys2Proof.Machine.execPortStatus n s
  | .i2cTransfer n => Sys2Proof.Machine.execI2cTransfer n s
  | .voicePlay n => Sys2Proof.Machine.execVoicePlay n s
  | .voiceControlStop n => Sys2Proof.Machine.execVoiceControlStop n s
  | .voiceControlRelease n => Sys2Proof.Machine.execVoiceControlRelease n s
  | .voiceControlGain n => Sys2Proof.Machine.execVoiceControlGain n s
  | .voiceControlPitch n => Sys2Proof.Machine.execVoiceControlPitch n s
  | .busConfig n => Sys2Proof.Machine.execBusConfig n s
  | .audioPort n => Sys2Proof.Machine.execAudioPort n s
  | .telemetryRead n tmax tmin vcore vin vbat ichg => Sys2Proof.Machine.execTelemetryRead n tmax tmin vcore vin vbat ichg s
  | .supplyConfig n => Sys2Proof.Machine.execSupplyConfig n s
  | .chargerConfig n => Sys2Proof.Machine.execChargerConfig n s
  | .darnStatus n => Sys2Proof.Machine.execDarnStatus n s
  | .darnRequest n => Sys2Proof.Machine.execDarnRequest n s
  | .glassHoldEnter n => Sys2Proof.Machine.execGlassHoldEnter n s
  | .glassHoldRelease n => Sys2Proof.Machine.execGlassHoldRelease n s
  | .glassHoldAdopt n => Sys2Proof.Machine.execGlassHoldAdopt n s
  | .deviceResetWarm n => Sys2Proof.Machine.execDeviceResetWarm n s
  | .deviceResetCold n => Sys2Proof.Machine.execDeviceResetCold n s
  | .fwStage n fail => Sys2Proof.Machine.execFwStage n fail s
  | .fwActivate n slot lmErr => Sys2Proof.Machine.execFwActivate n slot lmErr s
  | .fwInfo n => Sys2Proof.Machine.execFwInfo n s
  | .lcyStatus n => Sys2Proof.Machine.execLcyStatus n s
  | .lcyAdvance n jrnBad => Sys2Proof.Machine.execLcyAdvance n jrnBad s
  | .logRead n => Sys2Proof.Machine.execLogRead n s
  | .rasterLoad n => Sys2Proof.Machine.execRasterLoad n s
  | .rasterStop n => Sys2Proof.Machine.execRasterStop n s
  | .rasterStart n => Sys2Proof.Machine.execRasterStart n s
  | .rasterStatus n => Sys2Proof.Machine.execRasterStatus n s
  | .planeFetchComplete p b l slack => Sys2Proof.Machine.execPlaneFetchComplete p b l slack s
  | .tileInval mask => Sys2Proof.Machine.execTileInval mask s
  | .livePaletteWrite n b v pixel => Sys2Proof.Machine.execLivePaletteWrite n b v s pixel
  | .shadowPaletteWrite n b v => Sys2Proof.Machine.execShadowPaletteWrite n b v s
  | .motifLoadEnd b => Sys2Proof.Machine.execMotifLoadEnd b s
  | .motifEvaluation b => Sys2Proof.Machine.execMotifEvaluation b s
  | .motifLineComplete b l slack => Sys2Proof.Machine.execMotifLineComplete b l slack s
  | .liveAttributeWrite n b v => Sys2Proof.Machine.execLiveAttributeWrite n b v s
  | .mtfInval v => Sys2Proof.Machine.execMtfInval v s
  | .mtfReloadEnd => Sys2Proof.Machine.execMtfReloadEnd s
  | .frameStartPacket n vc hdrBad fnum pixel => Sys2Proof.Machine.execFrameStartPacket n vc hdrBad fnum pixel s
  | .longPacket n vc dt hdrBad crcBad bytes lost => Sys2Proof.Machine.execLongPacket n vc dt hdrBad crcBad bytes lost s
  | .frameEndPacket n vc hdrBad => Sys2Proof.Machine.execFrameEndPacket n vc hdrBad s
  | .deskewSequence n => Sys2Proof.Machine.execDeskewSequence n s
  | .outputRowLand n fail => Sys2Proof.Machine.execOutputRowLand n fail s
  | .lostTimeout n => Sys2Proof.Machine.execLostTimeout n s
  | .eyeRunStart n => Sys2Proof.Machine.execEyeRunStart n s
  | .eyeRunStop n => Sys2Proof.Machine.execEyeRunStop n s
  | .eyeAbort n => Sys2Proof.Machine.execEyeAbort n s
  | .compositeStart b slack => Sys2Proof.Machine.execCompositeStart b slack s
  | .spanDue b complete => Sys2Proof.Machine.execSpanDue b complete s
  | .commitRequest b => Sys2Proof.Machine.execCommitRequest b s
  | .transferEnd b => Sys2Proof.Machine.execTransferEnd b s
  | .linkStop b => Sys2Proof.Machine.execLinkStop b s
  | .syncPacket b vss => Sys2Proof.Machine.execSyncPacket b vss s
  | .pixelPacket b => Sys2Proof.Machine.execPixelPacket b s
  | .cmdFifoWrite b v => Sys2Proof.Machine.execCmdFifoWrite b v s
  | .cmdSend b => Sys2Proof.Machine.execCmdSend b s
  | .commandPacketSend b => Sys2Proof.Machine.execCommandPacketSend b s
  | .teEdge b pixel => Sys2Proof.Machine.execTeEdge b pixel s
  | .teMiss b => Sys2Proof.Machine.execTeMiss b s
  | .ulpsWrite b v => Sys2Proof.Machine.execUlpsWrite b v s
  | .mark1End b => Sys2Proof.Machine.execMark1End b s
  | .holdEnter b => Sys2Proof.Machine.execHoldEnter b s
  | .holdRelease b => Sys2Proof.Machine.execHoldRelease b s
  | .fsEdge late under rx bad => Sys2Proof.Machine.execFsEdge late under rx bad s
  | .voiceArm v => Sys2Proof.Machine.execVoiceArm v s
  | .voiceCmdRelease v => Sys2Proof.Machine.execVoiceCmdRelease v s
  | .voiceCmdStop v => Sys2Proof.Machine.execVoiceCmdStop v s
  | .voiceGainWrite v w => Sys2Proof.Machine.execVoiceGainWrite v w s
  | .busGainWrite b w => Sys2Proof.Machine.execBusGainWrite b w s
  | .efxLoad b => Sys2Proof.Machine.execEfxLoad b s
  | .efxLoadComplete b => Sys2Proof.Machine.execEfxLoadComplete b s
  | .audioPortEnable p v => Sys2Proof.Machine.execAudioPortEnable p v s
  | .audioSynthLock => Sys2Proof.Machine.execAudioSynthLock s
  | .slaveFsEdge p ticks bclks rx => Sys2Proof.Machine.execSlaveFsEdge p ticks bclks rx s
  | .timeCompareMatch => Sys2Proof.Machine.execTimeCompareMatch s
  | .tcmpHiWrite v => Sys2Proof.Machine.execTcmpHiWrite v s
  | .channelTick n => Sys2Proof.Machine.execChannelTick n s
  | .channelStart n => Sys2Proof.Machine.execChannelStart n s
  | .channelStop n => Sys2Proof.Machine.execChannelStop n s
  | .cntWrite n v => Sys2Proof.Machine.execCntWrite n v s
  | .lpStep => Sys2Proof.Machine.execLpStep s
  | .chkInit n => Sys2Proof.Machine.execChkInit n s
  | .chkCheck n => Sys2Proof.Machine.execChkCheck n s
  | .chkDataW n v => Sys2Proof.Machine.execChkDataW n v s
  | .chkDataH n v => Sys2Proof.Machine.execChkDataH n v s
  | .chkDataB n v => Sys2Proof.Machine.execChkDataB n v s
  | .chkStateWrite n v => Sys2Proof.Machine.execChkStateWrite n v s
  | .bobStart n => Sys2Proof.Machine.execBobStart n s
  | .bobStop n => Sys2Proof.Machine.execBobStop n s
  | .bobAbort n => Sys2Proof.Machine.execBobAbort n s
  | .bobDescriptorFetch n => Sys2Proof.Machine.execBobDescriptorFetch n s
  | .bobTrigger n src sel => Sys2Proof.Machine.execBobTrigger n src sel s
  | .bobDescriptorEnd n => Sys2Proof.Machine.execBobDescriptorEnd n s
  | .uartDataWrite u v => Sys2Proof.Machine.execUartDataWrite u v s
  | .uartDataRead u => Sys2Proof.Machine.execUartDataRead u s
  | .uartCharSent u => Sys2Proof.Machine.execUartCharSent u s
  | .uartCharReceived u early samples => Sys2Proof.Machine.execUartCharReceived u early samples s
  | .uartRxTimeout u => Sys2Proof.Machine.execUartRxTimeout u s
  | .qspiGo v => Sys2Proof.Machine.execQspiGo v s
  | .qspiDone rx => Sys2Proof.Machine.execQspiDone rx s
  | .i2cGo m v => Sys2Proof.Machine.execI2cGo m v s
  | .i2cDone m e => Sys2Proof.Machine.execI2cDone m e s
  | .i2cSclTimeout m => Sys2Proof.Machine.execI2cSclTimeout m s
  | .adcTrigger e => Sys2Proof.Machine.execAdcTrigger e s
  | .adcStart => Sys2Proof.Machine.execAdcStart s
  | .adcSequenceEnd codes => Sys2Proof.Machine.execAdcSequenceEnd codes s
  | .adcCal => Sys2Proof.Machine.execAdcCal s
  | .adcCalAuto => Sys2Proof.Machine.execAdcCalAuto s
  | .gpioSet k v => Sys2Proof.Machine.execGpioSet k v s
  | .gpioClr k v => Sys2Proof.Machine.execGpioClr k v s
  | .gpioInputChange n v samples => Sys2Proof.Machine.execGpioInputChange n v samples s
  | .lanternDecision icore sense => Sys2Proof.Machine.execLanternDecision icore sense s
  | .shedLimitAdvance => Sys2Proof.Machine.execShedLimitAdvance s
  | .vsetStep => Sys2Proof.Machine.execVsetStep s
  | .phaseCurrentLimit p on => Sys2Proof.Machine.execPhaseCurrentLimit p on s
  | .phaseOpen p => Sys2Proof.Machine.execPhaseOpen p s
  | .phaseShort p => Sys2Proof.Machine.execPhaseShort p s
  | .blindDetect iin vin vcore sense => Sys2Proof.Machine.execBlindDetect iin vin vcore sense s
  | .spareEngaged p => Sys2Proof.Machine.execSpareEngaged p s
  | .ltnIsolate v => Sys2Proof.Machine.execLtnIsolate v s
  | .shedEnWrite v => Sys2Proof.Machine.execShedEnWrite v s
  | .supplySwitch vin => Sys2Proof.Machine.execSupplySwitch vin s
  | .aonPor => Sys2Proof.Machine.execAonPor s
  | .chargerRecompute vin => Sys2Proof.Machine.execChargerRecompute vin s
  | .tempSample temps => Sys2Proof.Machine.execTempSample temps s
  | .chargeProbeEnd vbat => Sys2Proof.Machine.execChargeProbeEnd vbat s
  | .preToFast vbat => Sys2Proof.Machine.execPreToFast s vbat
  | .preTimeout => Sys2Proof.Machine.execPreTimeout s
  | .fastTimeout => Sys2Proof.Machine.execFastTimeout s
  | .cvEntry vbat => Sys2Proof.Machine.execCvEntry s vbat
  | .chargeTermination ua => Sys2Proof.Machine.execChargeTermination s ua
  | .rechargeStart vbat => Sys2Proof.Machine.execRechargeStart s vbat
  | .noCellReprobe => Sys2Proof.Machine.execNoCellReprobe s
  | .cellOvp vbat => Sys2Proof.Machine.execCellOvp s vbat
  | .embCtrlWrite v => Sys2Proof.Machine.execEmbCtrlWrite v s
  | .rtcSecond => Sys2Proof.Machine.execRtcSecond s
  | .rtcCalibrate => Sys2Proof.Machine.execRtcCalibrate s
  | .rtcSecWrite v => Sys2Proof.Machine.execRtcSecWrite v s
  | .powerRequest v => Sys2Proof.Machine.execPowerRequest v s
  | .powerStateEntry => Sys2Proof.Machine.execPowerStateEntry s
  | .wakeInput k level edge held => Sys2Proof.Machine.execWakeInput k level edge held s
  | .wakeEvent e => Sys2Proof.Machine.execWakeEvent e s
  | .wakeStart => Sys2Proof.Machine.execWakeStart s
  | .drnCopyGo v => Sys2Proof.Machine.execDrnCopyGo v s
  | .drnCopyNocopy v => Sys2Proof.Machine.execDrnCopyNocopy v s
  | .drnCopyAbort => Sys2Proof.Machine.execDrnCopyAbort s
  | .sliceCheckVisit bad => Sys2Proof.Machine.execSliceCheckVisit bad s
  | .sliceMark k => Sys2Proof.Machine.execSliceMark k s
  | .sliceAssign k => Sys2Proof.Machine.execSliceAssign k s
  | .voiceFailMark k v => Sys2Proof.Machine.execVoiceFailMark k v s
  | .coreSelfTest n pass => Sys2Proof.Machine.execCoreSelfTest n pass s
  | .adoption n => Sys2Proof.Machine.execAdoption n s
  | .adoptedProgramStart => Sys2Proof.Machine.execAdoptedProgramStart s
  | .core7Fault => Sys2Proof.Machine.execCore7Fault s
  | .core0Restart => Sys2Proof.Machine.execCore0Restart s
  | .darnRecordApply => Sys2Proof.Machine.execDarnRecordApply s
  | .journalEntryWrite => Sys2Proof.Machine.execJournalEntryWrite s
  | .jrnPost v => Sys2Proof.Machine.execJrnPost v s
  | .lcyOpGo v jrnBad => Sys2Proof.Machine.execLcyOpGo v jrnBad s
  | .lcyOperationEnd bad => Sys2Proof.Machine.execLcyOperationEnd bad s
  | .tapReset => Sys2Proof.Machine.execTapReset s
  | .jtagExtest scan => Sys2Proof.Machine.execJtagExtest scan s
  | .jtagSamplePreload cap load => Sys2Proof.Machine.execJtagSamplePreload cap load s
  | .jtagIdcode => Sys2Proof.Machine.execJtagIdcode s
  | .jtagClamp => Sys2Proof.Machine.execJtagClamp s
  | .jtagHighz => Sys2Proof.Machine.execJtagHighz s
  | .jtagBypass code => Sys2Proof.Machine.execJtagBypass code s
  | .dbgChal => Sys2Proof.Machine.execDbgChal s
  | .dbgResp resp => Sys2Proof.Machine.execDbgResp resp s
  | .dbgResponseCheckEnd => Sys2Proof.Machine.execDbgResponseCheckEnd s
  | .dbgRevoke => Sys2Proof.Machine.execDbgRevoke s
  | .dbgNop n => Sys2Proof.Machine.execDbgNop n s
  | .dbgHalt n => Sys2Proof.Machine.execDbgHalt n s
  | .dbgResume n => Sys2Proof.Machine.execDbgResume n s
  | .dbgStep n => Sys2Proof.Machine.execDbgStep n s
  | .dbgReadG n a => Sys2Proof.Machine.execDbgReadG n a s
  | .dbgWriteG n a v => Sys2Proof.Machine.execDbgWriteG n a v s
  | .dbgLoad n a => Sys2Proof.Machine.execDbgLoad n a s
  | .dbgStore n a v => Sys2Proof.Machine.execDbgStore n a v s
  | .vinPowerOn strap => Sys2Proof.Machine.execVinPowerOn strap s
  | .nresetFall strap => Sys2Proof.Machine.execNresetFall strap s
  | .startSequence fails => Sys2Proof.Machine.execStartSequence fails s
  | .vioCTimeout => Sys2Proof.Machine.execVioCTimeout s
  | .vinBrownout strap => Sys2Proof.Machine.execVinBrownout strap s
  | .coreBrownout mv strap => Sys2Proof.Machine.execCoreBrownout mv strap s
  | .thermalTrip strap => Sys2Proof.Machine.execThermalTrip strap s
  | .fatalFault vlm strap => Sys2Proof.Machine.execFatalFault vlm strap s
  | .sysResetWarm who user key strap => Sys2Proof.Machine.execSysResetWarm who user key s strap
  | .sysResetCold who user key strap => Sys2Proof.Machine.execSysResetCold who user key strap s
  | .vioBankChange k volts mv => Sys2Proof.Machine.execVioBankChange k volts mv s
  | .nopCommand n => Sys2Proof.Machine.execNopCommand n s
  | .busMasterCompletion k data => Sys2Proof.Machine.execBusMasterCompletion k data s
  | .completionTimeout k => Sys2Proof.Machine.execCompletionTimeout k s
  | .adcCalEnd => Sys2Proof.Machine.execAdcCalEnd s

end Sys2Proof.Machine
end

