-- ==== Sys2Proof/Machine/Step.lean ====
section
/-! DEFINITION. One step of the block: the command at the front of the queue runs; with no command waiting, a tick of the time
counter passes. -/

namespace Sys2Proof.Machine

/-- A tick of the block's clock: the time counter, the prescalers and the watchdogs count, and a reset that DEVICE_RESET has
ordered falls due (assumption 9). -/
def Chip.tick (c : Chip) : Chip := c.timerTick.wdgTick.dueReset

/-- One step (assumption 9). -/
def step (s : State) : Host.Outcome State Fault Refusal :=
  match s.pending with
  | [] => .next { s with chip := s.chip.tick }
  | i :: rest => exec i { s with pending := rest }

/-- The state with the command that a word spells in front: the table gives no row any bits, so none does (assumption 10). -/
def State.withFetchWord (s : State) (nbits w : Nat) : State :=
  match decodeTableWord nbits w with
  | some i => { s with pending := i :: s.pending }
  | none => s

end Sys2Proof.Machine
end

