-- ==== Sys2Proof/Machine/Pins.lean ====
section
/-! DEFINITION. What the device drives on its balls (26, 27): the boundary balls in their order, the pin states of R738, and the
lanes. -/

namespace Sys2Proof.Machine

/-- A CMOS signal ball (R746). -/
inductive Ball where
  | wake (i : Fin 2) | nReset | hostsel | tck | tms | tdi | tdo | genlock
  | flSck | flCs | flIo (k : Fin 4)
  | uartTx (u : Fin 2) | uartRx (u : Fin 2)
  | i2cScl (m : Fin 4) | i2cSda (m : Fin 4)
  | fsync (p : Port)
  | hqSck | hqCs | hqIo (k : Fin 4) | hqInt
  | gpio (n : Fin 48)
deriving DecidableEq, Repr

/-- What the device does on a ball: nothing, a level, or the waveform of a transfer in progress. -/
inductive Drive where
  | float | low | high | active
deriving DecidableEq, Repr

/-- A level driven. -/
def Drive.level (v : Bool) : Drive := if v then .high else .low

/-- The balls of the boundary register, group by group: by column, and in a column from row A on (R746, R749). -/
def boundaryBalls : List Ball :=
  [.wake 0, .wake 1, .nReset, .hostsel, .flSck, .flCs, .flIo 0, .flIo 1, .flIo 2, .flIo 3, .uartTx 0, .uartRx 0, .uartTx 1, .uartRx 1,
    .i2cScl 0, .i2cSda 0, .i2cScl 1, .i2cSda 1] ++
  [.i2cScl 2, .i2cSda 2, .i2cScl 3, .i2cSda 3, .genlock] ++ (List.finRange 8).map .fsync ++
  [.hqSck, .hqCs, .hqIo 0, .hqIo 1, .hqIo 2, .hqIo 3, .hqInt] ++ (List.finRange 48).map .gpio

/-- The VIO bank of a ball; none for the always-on balls (R740). -/
def Ball.bank : Ball → Option (Fin 3)
  | .wake _ | .nReset | .hostsel => none
  | .i2cScl _ | .i2cSda _ | .fsync _ | .genlock => some 0
  | .gpio _ | .hqSck | .hqCs | .hqIo _ | .hqInt => some 1
  | .tck | .tms | .tdi | .tdo | .flSck | .flCs | .flIo _ | .uartTx _ | .uartRx _ => some 2

/-- Balls on which the output and enable cells have no effect (R749). -/
def Ball.fixed : Ball → Bool
  | .wake _ | .nReset | .hostsel | .genlock => true
  | _ => false

/-- Balls that an enabled output drives low only (R749). -/
def Ball.openDrain : Ball → Bool
  | .i2cScl _ | .i2cSda _ | .hqInt => true
  | _ => false

/-- What the boundary register drives on a ball (R749); a ball outside it is left alone. -/
def boundaryDrive (v : BitVec 258) (b : Ball) : Drive :=
  let g := boundaryBalls.idxOf b
  if boundaryBalls.length ≤ g ∨ b.fixed ∨ ¬v.getLsbD (3 * g + 2) then .float
  else if b.openDrain && v.getLsbD (3 * g + 1) then .float
  else Drive.level (v.getLsbD (3 * g + 1))

/-- A bank monitor finds its bank good (R729); the always-on balls have no bank. -/
def Chip.bankGood (c : Chip) : Option (Fin 3) → Bool
  | some k => c.rb R.SYS_VIO k
  | none => true

/-- The balls may be driven: the device is past its start point, and in RUN or DIM (R732, R738). -/
def Chip.ballsUp (c : Chip) : Bool := c.rst.phase == .run && decide (c.power < 2)

/-- What an audio port drives on an output ball (R524). -/
def Chip.audDrive (c : Chip) (p : Fin 3) : Drive :=
  if !c.rb (R.AUD_PCTRL p) 0 then .float
  else if c.rb (R.AUD_PSTAT p) 0 then .active
  else if c.power = 1 then .low
  else .float

/-- The function of a GPIO ball at FUNC 1 (R617): audio ports 0 to 2 on balls 0 to 8, BCLK and FS of a master port and DOUT being
outputs (R523), and the TE inputs on balls 9 and 10. -/
def Chip.gpioFunction (c : Chip) (n : Fin 48) : Drive :=
  let p : Fin 3 := ⟨n / 3 % 3, Nat.mod_lt _ (by decide)⟩
  if 9 ≤ n.val then .float
  else if n % 3 = 2 then (if p = 2 then .float else c.audDrive p)
  else if c.rb (R.AUD_PCTRL p) 1 then c.audDrive p
  else .float

/-- What the units drive on a ball (R596, R599, R606, R617, R91, R265). -/
def Chip.unitDrive (c : Chip) (b : Ball) : Drive :=
  match b with
  | .flSck => if !c.ser.flashOn then .float else if c.qspiBusy then .active else .low
  | .flCs => if !c.ser.flashOn then .float else Drive.level (!c.qspiBusy)
  | .flIo _ => if c.ser.flashOn && c.qspiBusy then .active else .float
  | .uartTx u => if (c.uart u).sending.isSome then .active else if c.rb (R.UART_CTRL u) 0 then .high else .float
  | .i2cScl m | .i2cSda m => if c.rb (R.I2C_CTRL m) 0 && (c.ser.i2c[m]).isSome then .active else .float
  | .fsync p => match (c.fs[p]).level with
    | some v => Drive.level v
    | none => .float
  | .hqInt => if c.hqIntLow then .low else .float
  | .gpio n =>
    if c.padFunc n then c.gpioFunction n
    else match c.gpioDrive n with
      | some v => Drive.level v
      | none => .float
  | .wake _ | .nReset | .hostsel | .tck | .tms | .tdi | .tdo | .genlock | .uartRx _ | .hqSck | .hqCs | .hqIo _ => .float

/-- What the device drives on a ball between two commands: the TAP's override first (R717), then the pin states (R729, R738), then
the units. -/
def Chip.ballDrive (c : Chip) (b : Ball) : Drive :=
  match c.ballMode with
  | .boundary v => if c.rst.phase = .lockout then .float else boundaryDrive v b
  | .highZ => .float
  | .normal => if c.ballsUp && c.bankGood b.bank then c.unitDrive b else .float

/-- The state of the lanes of a DSI link, coded as BMO_STATx.LINK: 0 is high-impedance (R473, R738). -/
def Chip.dsiLaneState (c : Chip) (l : Fin 4) : Nat :=
  let b : Beam := ⟨l / 2, by omega⟩
  if !c.ballsUp ∨ (l % 2 = 1 ∧ !c.dual b) then 0 else c.link b

/-- The PCI Express lanes are active (R245, R738). -/
def Chip.pcieLanes (c : Chip) : Bool := c.ballsUp && c.pcieOn

end Sys2Proof.Machine
end

