-- ==== Sys2Proof/WellFormed.lean ====
section
/-! DEFINITION. The commands whose operands a list or a number holds and whose lengths the spec bounds; the types of the other
operands bound them. -/

namespace Sys2Proof

/-- The bounds that the spec sets to the operands of a command: the words and bytes of one transfer, the samples of one event, and
the units that it names. -/
def Instr.wf : Instr → Bool
  | .vellumWrite _ _ _ bytes => bytes.length % 8 == 0 && decide (8 ≤ bytes.length) && decide (bytes.length ≤ 64)
  | .scrubSlotComplete _ find => find.all fun f => decide (f.1 < 256)
  | .darnCopyGranule find => decide (find.length ≤ 8)
  | .longPacket _ _ _ _ _ bytes _ => decide (bytes.length < 65536)
  | .adcSequenceEnd codes => decide (codes.length ≤ 16)
  | .lanternDecision _ sense => decide (sense.length ≤ 14)
  | .blindDetect _ _ _ sense => decide (sense.length ≤ 14)
  | .lcyOperationEnd bad => bad.all fun f => decide (f.1 < 104) && decide (f.2 < 256)
  | .dbgResp resp => resp.length == 132
  | .hostBar0Request _ _ _ dwords _ _ => decide (1 ≤ dwords) && decide (dwords ≤ 1024)
  | .bar2Access _ off bytes => decide (off.toNat + bytes.length ≤ 2 ^ 26)
  | .romBoot bad a b => (bad.all fun f => decide (f.1 < 104) && decide (f.2 < 256)) && a.header.length == 256 && b.header.length == 256
  | .fwActivate _ slot _ => slot.header.length == 256 && decide (slot.body.length ≤ 65280)
  | .busMasterCompletion i data => decide (i < 32) && decide ((data.getD []).length ≤ 512)
  | .completionTimeout i => decide (i < 32)
  | _ => true

end Sys2Proof
end

