-- ==== Sys2Proof/Safety.lean ====
section
/-! DEFINITION. The terms that statements about the block are made of: the state with another chip, the canonical form of its
data, its queue, and what one register or byte write leaves alone. -/

namespace Sys2Proof.Machine

/-- The state with the chip c: what a command answers, since no command touches the queue. -/
def State.withChip (s : State) (c : Chip) : State := { s with chip := c }

/-- Every command that waits is well-formed. -/
def State.queueWf (s : State) : Prop := ∀ i ∈ s.pending, i.wf = true

/-- n steps lead from one state to another: none of them stops. -/
def State.runs : Nat → State → State → Prop
  | 0, s, t => t = s
  | n + 1, s, t => ∃ u, step s = .next u ∧ State.runs n u t

/-- The register file and memory are in canonical form, so that equal contents are equal data. -/
def Chip.canon (c : Chip) : Prop := c.regsWf = true ∧ c.memWf = true

/-- Core n runs, the instruction at its pc can be fetched without an error, it is not the boot ROM's own code (R136), and the
predicate holds: the instruction's own effect takes place (R171). -/
def Chip.issues (c : Chip) (n : Core) (p : BitVec 3) : Prop :=
  c.runs n = true ∧ (∃ w, c.fetch n = (.ok w, c)) ∧ c.romCode n = none ∧ c.predTrue n p = true

/-- An instruction of core n that changes only the core, by f, and steps on to the next address. -/
def State.after (s : State) (n : Core) (f : CoreSt → CoreSt) : State := s.withChip (s.chip.onCore n fun k => (f k).adv)

/-- Two chips agree on every register outside a list. -/
def Chip.sameRegsBut (l : List Nat) (c t : Chip) : Prop := ∀ a, a ∉ l → t.rd a = c.rd a

/-- Two chips agree on every byte of memory. -/
def Chip.sameMem (c t : Chip) : Prop := ∀ a, t.byte a = c.byte a

end Sys2Proof.Machine
end

