-- ==== Sys2Proof/Certificates/Slice0/Obligations.lean ====
section
/-! DEFINITION. The statements for the provers: what each command and the machine do, by the rules of spec/. -/

open Sys2Proof Sys2Proof.Machine

/-- O1. RUN_WRITE on a stopped Beam corrects the synthesizer settings, takes them and starts the lock; on a running Beam it cancels an armed stop. RUN_CLEAR arms the stop of a running Beam and abandons a start that still locks. COUNTER_START runs the counter start of a Beam that has locked. BEAM_STOP at VB0 of a Beam with a stop armed raises the events of the position and stops counters and links. SYN_UNLOCK stops a running Beam at the pixel of the event, sets SYN_UNLOCK, clears SYN_LOCKED, unlocks the link and writes a journal entry. LOCK_RETURN restarts the Beam when RUN is 1 and leaves it stopped when RUN is 0. Each answers the state with exactly that chip, so nothing else changes. -/
def Obligations.BeamStartsAndStops : Prop :=
  (∀ (b : Beam) (s : State), s.chip.rb (R.PRK_CTRL b) 0 = false → s.chip.running b = false →
    let c := (s.chip.sb (R.PRK_CTRL b) 0).synClamp b
    exec (.runWrite b) s = .next (s.withChip (c.onBeam b fun k => { k with
      synOn := true, locking := true, relocking := false
      synInt := c.rf (R.PRK_SYN_INT b) 4 0, synPost := c.rf (R.PRK_SYN_INT b) 14 8, centre := c.synRegs b }))) ∧
  (∀ (b : Beam) (s : State), s.chip.rb (R.PRK_CTRL b) 0 = false → s.chip.running b = true →
    exec (.runWrite b) s = .next (s.withChip ((s.chip.sb (R.PRK_CTRL b) 0).onBeam b fun k => { k with stopArmed := false }))) ∧
  (∀ (b : Beam) (s : State), s.chip.rb (R.PRK_CTRL b) 0 = true → s.chip.running b = true →
    exec (.runClear b) s = .next (s.withChip ((s.chip.wb (R.PRK_CTRL b) 0 false).onBeam b fun k => { k with stopArmed := true }))) ∧
  (∀ (b : Beam) (s : State), s.chip.rb (R.PRK_CTRL b) 0 = true → s.chip.running b = false → (s.chip.beam b).locking = true →
    exec (.runClear b) s = .next (s.withChip (((s.chip.wb (R.PRK_CTRL b) 0 false).onBeam b fun k =>
      { k with locking := false, synOn := false }).wb (R.PRK_STAT b) 1 false))) ∧
  (∀ (b : Beam) (u v : Bool) (s : State), s.chip.rb (R.PRK_CTRL b) 0 = true → s.chip.running b = false →
    (s.chip.beam b).locking = true → exec (.counterStart b u v) s = .next (s.withChip (s.chip.counterStart b u v))) ∧
  (∀ (b : Beam) (u v : Bool) (s : State), s.chip.atLine b (s.chip.beam b).vactive = true → (s.chip.beam b).stopArmed = true →
    let c := s.chip.vb0 b u
    let d := if (c.beam b).commitLine = (c.beam b).vactive then c.commitEv b v else c
    exec (.beamStop b u v) s = .next (s.withChip ((((d.linkBeamStop b).counterStop b).apqStopped b).synStop b))) ∧
  (∀ (b : Beam) (p : BitVec 14) (s : State), s.chip.running b = true →
    let c := (((s.chip.setPos b (s.chip.line b) p.toNat).counterStop b).sb (R.PRK_STICKY b) 5).wb (R.PRK_STAT b) 1 false
    let d := (c.onBeam b fun k => { k with relocking := true }).linkUnlock b
    exec (.synUnlock b p) s = .next (s.withChip (d.journal 0x03 5 b.val (d.rd (R.PRK_STAT b)) 0 0))) ∧
  (∀ (b : Beam) (u v : Bool) (s : State), (s.chip.beam b).relocking = true →
    exec (.lockReturn b u v) s = .next (s.withChip (if s.chip.rb (R.PRK_CTRL b) 0 then s.chip.counterStart b u v
      else (s.chip.onBeam b fun k => { k with relocking := false }).sb (R.PRK_STAT b) 1)))

/-- O2. LINE_START moves a running Beam to pixel 0 of the next line (line 0 after line VTOTAL - 1), closes the line before it with its slack, and captures the live registers of the line that lies LEAD ahead if that is an active one. FRAME_ADVANCE at line 0, pixel 0 advances PRK_FRAME by 1 with wrap, takes the commit line, FSYNC settings and frame actions. HS and VS raise their events at pixel HACTIVE + HFRONT. VB0, COMMIT_POINT and PFS at their positions raise their events, whose requests go to the Bobbins and the ADC that select them, and do what hangs on them: rate, slack minimum, signatures and fray line; the commit point; the cache flush and region capture. None of them does anything on a stopped Beam. -/
def Obligations.BeamEventsOfRunningBeam : Prop :=
  (∀ (b : Beam) (s : State), s.chip.running b = true →
    let k := s.chip.beam b
    let m := s.chip.line b
    let l := if m + 1 < k.vtotal then m + 1 else 0
    let c := (((((s.chip.ltnLine b ((k.slack.find? fun e => e.1 == m).map (·.2))).ltnPixel b).lineDone b m).setPos b l 0).onBeam b
      fun k => { k with serial := k.serial + 1 }).palPrune b
    let t := (l + k.lead) % k.vtotal
    exec (.lineStart b) s = .next (s.withChip (if t < k.vactive then
      forEach (List.finRange 8) (fun n c => c.winCapture b t n)
        (forEach (List.finRange 8) (fun p c => c.planeCapture b t p) (c.apqCapture b t)) else c))) ∧
  (∀ (b : Beam) (u : Bool) (s : State), s.chip.running b = false →
    exec (.lineStart b) s = .next s ∧ exec (.hs b u) s = .next s ∧ exec (.vs b u) s = .next s ∧ exec (.vb0 b u) s = .next s ∧
    exec (.commitPoint b u) s = .next s ∧ exec (.pfs b u) s = .next s ∧ exec (.frameAdvance b) s = .next s) ∧
  (∀ (b : Beam) (s : State), s.chip.atLine b 0 = true →
    exec (.frameAdvance b) s = .next (s.withChip ((((((s.chip.wr (R.PRK_FRAME b) (s.chip.rd (R.PRK_FRAME b) + 1)).takeCommitLine b).onBeam b
      fun k => { k with frameBegun := true }).fsTakeAll b).apqFrame b).ltnFrame b))) ∧
  (∀ (b : Beam) (u : Bool) (s : State), s.chip.running b = true →
    exec (.hs b u) s = .next (s.withChip (((s.chip.setPos b (s.chip.line b) ((s.chip.beam b).hactive + (s.chip.beam b).hfront)).sb
      (R.PRK_EV_STAT b) 0).merge u b.val))) ∧
  (∀ (b : Beam) (u : Bool) (s : State), s.chip.running b = true → s.chip.line b = (s.chip.beam b).vactive + (s.chip.beam b).vfront →
    exec (.vs b u) s = .next (s.withChip (((s.chip.setPos b (s.chip.line b) ((s.chip.beam b).hactive + (s.chip.beam b).hfront)).sb
      (R.PRK_EV_STAT b) 1).merge u b.val))) ∧
  (∀ (b : Beam) (u : Bool) (s : State), s.chip.atLine b (s.chip.beam b).vactive = true → (s.chip.beam b).stopArmed = false →
    let done := (s.chip.beam b).frameBegun
    let c := ((((s.chip.sb (R.PRK_EV_STAT b) 2).request 2 (3 * b.val) u (some b.val)).rateAtVb0 b).onLtn
      fun l => if done then { l with first := l.first.set b true } else l)
    exec (.vb0 b u) s = .next (s.withChip (((((c.frameMin b).publish b).keepSigs b).frayVb0 b).linkStart b))) ∧
  (∀ (b : Beam) (u : Bool) (s : State), s.chip.atLine b (s.chip.beam b).commitLine = true →
    exec (.commitPoint b u) s = .next (s.withChip (((s.chip.sb (R.PRK_EV_STAT b) 3).request 2 (3 * b.val + 2) u (some b.val)).commitPoint b))) ∧
  (∀ (b : Beam) (u : Bool) (s : State), s.chip.atLine b ((s.chip.beam b).vtotal - (s.chip.beam b).lead) = true →
    exec (.pfs b u) s = .next (s.withChip ((((s.chip.sb (R.PRK_EV_STAT b) 4).request 2 (3 * b.val + 1) u (some b.val)).cacheFlush b).regionCapture b)))

/-- O3. With GENLOCK on and the Beam running without TE_LOCK, GENLOCK_EDGE steers by the captured pixel and GENLOCK_LOSS reports the loss, drops the lock and starts the counts again. FSYNC_PULSE_START begins a pulse of WIDTH pixels (0 as 1) of a driver that is on where its Beam, frame and line are those of its settings; FSYNC_PULSE_END ends one. SPEED_UPDATE writes SYS_SPEED.COUNT alone. -/
def Obligations.GenlockAndFsync : Prop :=
  (∀ (b : Beam) (p : BitVec 14) (s : State), s.chip.rb (R.PRK_CTRL b) 1 = true → s.chip.running b = true →
    s.chip.rb (R.BMO_CTRL b) 14 = false →
    exec (.genlockEdge b p) s = .next (s.withChip (s.chip.glkEdge b p.toNat)) ∧
    exec (.genlockLoss b) s = .next (s.withChip ((((s.chip.sb (R.PRK_STAT b) 3).sb (R.PRK_STICKY b) 6).wb (R.PRK_STAT b) 2 false).onBeam b
      fun k => { k with glkIn := 0, glkOut := 0, glkLimit := 0 }))) ∧
  (∀ (n : Port) (s : State), tb (s.chip.fs[n]).ctrl 0 = true → (s.chip.fs[n]).pulse = none →
    let p := s.chip.fs[n]
    let b := p.beam
    s.chip.running b = true → (s.chip.beam b).frameBegun = true → s.chip.line b = fld p.pos 26 14 → s.chip.pixel b ≤ fld p.pos 13 0 →
    (s.chip.rd (R.PRK_FRAME b)).toNat % (fld p.ctrl 7 4 + 1) = fld p.ctrl 11 8 →
    let c := s.chip.setPos b (fld p.pos 26 14) (fld p.pos 13 0)
    exec (.fsyncPulseStart n) s = .next (s.withChip
      ({ c with fs := upd c.fs n fun p => { p with pulse := some (b, max 1 (fld p.ctrl 31 16)) } }.fsEmit n))) ∧
  (∀ (n : Port) (s : State), (s.chip.fs[n]).pulse.isSome = true →
    exec (.fsyncPulseEnd n) s = .next (s.withChip
      ({ s.chip with fs := upd s.chip.fs n fun p => { p with pulse := none } }.fsEmit n))) ∧
  (∀ (laps : BitVec 16) (s : State), exec (.speedUpdate laps) s = .next (s.withChip (s.chip.wf R.SYS_SPEED 15 0 laps.toNat)))

/-- O4. STORE_LAND takes the oldest posted store of a core from its queue and makes it in the register of its address. REGISTER_WRITE by core n makes the write as core n in its mode, in S mode also in a YLX register, which no other agent reaches; by a Bobbin as core 0 in S mode (log entry 14, the model's choice); by the host it is a configuration write of a whole dword (log entry 30, the model's choice), which nothing answers while the endpoint is not selected or not enabled. For a write by a core to TMR_PRES of channel n, a plain register, the state changes in that register alone, bit by bit as its access kinds say. -/
def Obligations.StoresLandInTheirRegisters : Prop :=
  (∀ (n : Core) (a : Nat) (v : Word) (u : Bool) (t : List (Nat × Word × Bool)) (s : State), (s.chip.core n).stores = (a, v, u) :: t →
    exec (.storeLand n) s = .next (s.withChip ((s.chip.onCore n fun k => { k with stores := t }).storeReg n u a v))) ∧
  (∀ (n m : Core) (k : BobCh) (u : Bool) (a : BitVec 32) (off : Nat) (v : Word) (s : State),
    (ylxAt n a.toNat = none → exec (.registerWrite (.core n) u a v) s = .next (s.withChip (s.chip.storeReg n u a.toNat v))) ∧
    (ylxAt n a.toNat = some (m, off) → isReg (0x00120000 + 0x1000 * m.val + off) = true →
      exec (.registerWrite (.core n) false a v) s = .next (s.withChip (s.chip.storeYlx m off v)) ∧
      exec (.registerWrite (.core n) true a v) s = .next s) ∧
    exec (.registerWrite (.bobbin k) u a v) s = .next (s.withChip (s.chip.storeReg 0 false a.toNat v)) ∧
    (s.chip.pcieOn = true → exec (.registerWrite .host u a v) s = .next (s.withChip (s.chip.cfgRequest true a.toNat 0xF v))) ∧
    (s.chip.pcieOn = false → exec (.registerWrite .host u a v) s = .next s)) ∧
  (∀ (n : Core) (u : Bool) (m : TmrCh) (v : Word) (s : State),
    exec (.registerWrite (.core n) u (BitVec.ofNat 32 (R.TMR_PRES m)) v) s = .next (s.withChip (s.chip.wr (R.TMR_PRES m)
      ((s.chip.rd (R.TMR_PRES m) &&& 0xFFFF0000#32) ||| (v &&& 0xFFFF#32)))))

/-- O5. VELLUM_READ of 1 to 8 words that the checks of R100 allow joins the requests, with a token if its requester is below its bound, one is free for its class, and no read of its class, nor for a token of the pool one of a higher class, waits for one. VELLUM_WRITE joins them, accepted if nothing of its channel waits and the channel has room. TOKEN_ACQUIRE gives a token to the oldest read that its bound lets take one, of the first class that has such a read and a token free. WRITE_ACCEPT accepts the oldest waiting write of a channel with room. BANK_GRANT, where no promoted scrub comes first, grants the request that the arbiter chooses and advances the round robin: a write is applied to memory and leaves the queue, and a doorbell that waited only for it takes effect; a read takes its words' bytes and their marks. With no request a scrub slot in the bank takes one read. A promoted slot takes all its reads as one run before any request. -/
def Obligations.VellumRequestsQueueAndAreGranted : Prop :=
  (∀ (k : VClass) (i : Fin 16) (off : BitVec 26) (n : Fin 8) (s : State), reqOk off.toNat (n.val + 1) = true →
    let v := s.chip.vlm
    let same := v.reqs.any fun r => v.wants r && decide (r.cls = k)
    let above := v.reqs.any fun r => v.wants r && decide (clsCode r.cls < clsCode k)
    let t := if same || v.atBound k i.val || (above && v.token k == some false) then none else v.token k
    exec (.vellumRead k i off n) s = .next (s.withChip (s.chip.setReqs (s.chip.vlm.reqs ++
      [{ cls := k, idx := i.val, write := false, off := off.toNat, n := n.val + 1, bytes := [], acked := t.isSome, own := t.getD false, granted := false }])).tokPeak)) ∧
  (∀ (k : VClass) (i : Fin 16) (off : BitVec 26) (bs : List (Option Byte)) (s : State), bs.length % 8 = 0 →
    reqOk off.toNat (bs.length / 8) = true →
    let waits := s.chip.vlm.reqs.any fun r => r.write && !r.acked && vChannel r.off == vChannel off.toNat
    let room := decide (s.chip.vlm.buffered (vChannel off.toNat) < 16)
    exec (.vellumWrite k i off bs) s = .next (s.withChip (s.chip.setReqs (s.chip.vlm.reqs ++
      [{ cls := k, idx := i.val, write := true, off := off.toNat, n := bs.length / 8, bytes := bs, acked := !waits && room, own := false, granted := false }])))) ∧
  (∀ (k : VClass) (s : State),
    (clsAll.find? fun k => (s.chip.vlm.reqs.any fun r => s.chip.vlm.wants r && decide (r.cls = k)) && (s.chip.vlm.token k).isSome) = some k →
    exec .tokenAcquire s = .next (s.withChip (s.chip.setReqs (changeFirst (fun r => s.chip.vlm.wants r && decide (r.cls = k))
      (fun r => { r with acked := true, own := (s.chip.vlm.token k).getD false }) s.chip.vlm.reqs)).tokPeak)) ∧
  (∀ (ch : Fin 8) (s : State), s.chip.vlm.buffered ch.val < 16 →
    exec (.writeAccept ch) s = .next (s.withChip (s.chip.setReqs (changeFirst (fun r => r.write && !r.acked && vChannel r.off == ch.val)
      (fun r => { r with acked := true }) s.chip.vlm.reqs)))) ∧
  (∀ (n : Bank) (r : VReq) (s : State), (s.chip.bank n.val).promoted = false → s.chip.arbitrate n.val = some r →
    let c := s.chip.onBank n.val fun k => { k with rr := Sparse.set 15 k.rr (clsCode r.cls) (r.idx % 16) }
    exec (.bankGrant n) s = .next (s.withChip (s.chip.bellsAfter (if r.write then
        (c.applyWrite r).setReqs (removeFirst (fun x => decide (x = r)) c.vlm.reqs)
      else c.setReqs (changeFirst (fun x => decide (x = r)) (fun x => { x with
        granted := true, bytes := (c.vbytes r.off (8 * r.n)).map some, bad := c.badWords r.off r.n }) c.vlm.reqs))))) ∧
  (∀ (n : Bank) (s : State), s.chip.arbitrate n.val = none → 0 < (s.chip.bank n.val).left → (s.chip.bank n.val).promoted = false →
    exec (.bankGrant n) s = .next (s.withChip ((s.chip.tokTouch .scrub).onBank n.val fun k => { k with left := k.left - 1 }))) ∧
  (∀ (n : Bank) (s : State), (s.chip.bank n.val).promoted = true → 0 < (s.chip.bank n.val).left →
    exec (.bankGrant n) s = .next (s.withChip ((s.chip.tokTouch .scrub).onBank n.val fun k => { k with left := 0 })))

/-- O6. VLM_READ_COMPLETE of a granted read reports the errors found, delivers the bytes and removes the request. CNT_CLR clears both total counts and every bank's. SCRUB_SLOT_OPEN, scrubbing on, at the VB0 of the Beam that is the reference or 1,600,000 ticks after the free-period slot before, opens a slot in each scrubbed bank or counts a miss where it pauses or the bank is copied. SCRUB_PROMOTE at that Beam's PFS, or 800,000 ticks after the opening, promotes each open slot with reads left. SCRUB_SLOT_COMPLETE of an open slot whose 256 reads have been granted checks its words, advances the position by 256 modulo 65,536 and closes it. DARN_COPY_GRANULE of a copy that may run reads 8 words, counts the bad words and advances NEXT; the last one switches the map, ends the copy with COPY_DONE, its journal entry and its darn record. DRN_COPY_GO with a bank below 96 starts a copy, DRN_COPY_NOCOPY maps the bank without one, DRN_COPY_ABORT ends a copy with its journal entry; GO and NOCOPY change nothing while a copy is active. -/
def Obligations.ScrubbingReadsAndTheBankCopy : Prop :=
  (∀ (k : VClass) (i : BitVec 7) (find : List (Option Ecc)) (r : VReq) (s : State),
    (s.chip.vlm.reqs.find? fun r => r.granted && !r.write && decide (r.cls = k) && r.idx == i.toNat) = some r →
    let word (j : Nat) : Nat := r.off + 8 * j
    let found (j : Nat) : Bool := match find[j]?.join with
      | some (.ue _) => true
      | _ => false
    let c := forEach (List.range r.n) (fun j c => c.vFindIn (r.bad.contains (word j)) k i.toNat (word j) (find[j]?.join)) s.chip
    let bad := ((List.range r.n).filter fun j => r.bad.contains (word j) || found j).map word
    exec (.vlmReadComplete k i find) s = .next (s.withChip { c with vlm := { c.vlm with
      reqs := removeFirst (fun x => decide (x = r)) c.vlm.reqs
      delivered := { cls := k, idx := i.toNat, off := r.off, bytes := r.bytes.map (·.getD 0), bad } ::
        c.vlm.delivered.filter fun x => !(decide (x.cls = k) && x.idx == i.toNat) } })) ∧
  (∀ s : State, exec .cntClr s = .next (s.withChip (forEach (List.range 102) (fun n c => c.onBank n fun k => { k with ce := 0, ue := 0 })
    ((s.chip.wr R.VLM_CE_COUNT 0).wr R.VLM_UE_COUNT 0)))) ∧
  (∀ s : State, s.chip.rb R.VLM_CTRL 0 = true →
    let pause := s.chip.rb R.VLM_CTRL 1 || s.chip.shed 1
    let opened (c : Chip) : Chip := (forEach (List.range 102) (fun n c =>
      if !c.scrubbed n then c.onBank n fun k => { k with slot := .idle, left := 0 }
      else if pause || c.inCopy n then c.bankMiss n
      else c.onBank n fun k => { k with slot := .active, left := 256, promoted := false }) c).slotClose
    (s.chip.scrubRef = 2 → 1600000 ≤ (s.chip.time - s.chip.vlm.freeFrom).toNat →
      exec .scrubSlotOpen s = .next (s.withChip (opened { s.chip with vlm := { s.chip.vlm with
        freeFrom := s.chip.vlm.freeFrom + 1600000, slotAt := s.chip.time, copyHold := none } }))) ∧
    ∀ b : Beam, s.chip.scrubRef = b.val → s.chip.line b = (s.chip.beam b).vactive → s.chip.pixel b = 0 →
      exec .scrubSlotOpen s = .next (s.withChip (opened { s.chip with vlm := { s.chip.vlm with slotAt := s.chip.time } }))) ∧
  (∀ s : State, (s.chip.scrubRef = 2 ∧ 800000 ≤ (s.chip.time - s.chip.vlm.slotAt).toNat) ∨
      (∃ b : Beam, s.chip.scrubRef = b.val ∧ s.chip.line b = (s.chip.beam b).vtotal - (s.chip.beam b).lead ∧ s.chip.pixel b = 0) →
    exec .scrubPromote s = .next (s.withChip (forEach (List.range 102) (fun n c =>
      if (c.bank n).slot = .active ∧ 0 < (c.bank n).left then c.onBank n fun k => { k with promoted := true } else c) s.chip))) ∧
  (∀ (n : Bank) (find : List (Nat × Ecc)) (s : State), (s.chip.bank n.val).slot = .active → (s.chip.bank n.val).left = 0 →
    let k := s.chip.bank n.val
    let marked := (List.range 256).filter fun i =>
      let w := (k.pos + i) % 65536
      if n.val < 96 then s.chip.vBad (vOffset n.val w) 8 else s.chip.vlm.spareUe.contains (n.val * 65536 + w)
    let words := (List.range 256).filter fun i => marked.contains i || find.any fun f => f.1 == i
    let c := forEach words (fun i c => c.scrubWord n.val ((k.pos + i) % 65536) ((find.find? fun f => f.1 == i).map (·.2))) s.chip
    exec (.scrubSlotComplete n find) s = .next (s.withChip ((c.onBank n.val fun k' => { k' with
      pos := (k.pos + 256) % 65536, slot := .done, left := 0, promoted := false, misses := 0
      ended := k'.ended || (k.pos + 256) % 65536 == 0 }).slotClose.passEnd))) ∧
  (∀ (find : List (Option Ecc)) (s : State), s.chip.copyMay = true →
    let next := s.chip.rf R.DRN_COPY_STAT 15 0
    let bank := s.chip.rf R.DRN_COPY 6 0
    let c := forEach (List.range 8) (fun i c => c.vFind .scrub 1 (vOffset bank (next + i)) (find[i]?.join))
      ({ s.chip with vlm := { s.chip.vlm with copyHold := none } }.tokTouch .scrub)
    let bad := ((List.range 8).filter fun i => c.vBad (vOffset bank (next + i)) 8).length
    let d := (c.wf R.DRN_COPY_STAT 31 24 (min 255 (c.rf R.DRN_COPY_STAT 31 24 + bad))).wf R.DRN_COPY_STAT 15 0 (next + 8)
    let spare := min 5 (s.chip.rf R.DRN_COPY 10 8)
    let e := ((d.mapSwitch bank spare).wb R.DRN_COPY_STAT 16 false).sb R.DRN_STICKY 1
    (next + 8 < 65536 → exec (.darnCopyGranule find) s = .next (s.withChip d)) ∧
    (65536 ≤ next + 8 → exec (.darnCopyGranule find) s =
      .next (s.withChip ((e.journal 0x0A 0x03 bank (e.rd R.DRN_STICKY) 0 0).darned 0 spare bank)))) ∧
  (∀ (v : Word) (s : State), s.chip.copyActive = false →
    let c := s.chip.store R.DRN_COPY (setBit (setBit v 16 true) 17 false)
    let d := s.chip.store R.DRN_COPY (setBit (setBit v 16 true) 17 true)
    (c.rf R.DRN_COPY 6 0 < 96 → exec (.drnCopyGo v) s =
      .next (s.withChip (c.copyGo (c.rf R.DRN_COPY 6 0) (min 5 (c.rf R.DRN_COPY 10 8))))) ∧
    (d.rf R.DRN_COPY 6 0 < 96 → exec (.drnCopyNocopy v) s = .next (s.withChip
      (d.copyNoCopy (d.rf R.DRN_COPY 6 0) (min 5 (d.rf R.DRN_COPY 10 8)))))) ∧
  (∀ (v : Word) (s : State), s.chip.copyActive = true → tb v 18 = false →
    exec (.drnCopyGo v) s = .next s ∧ exec (.drnCopyNocopy v) s = .next s) ∧
  (∀ s : State, s.chip.copyActive = true →
    let c := (s.chip.wb R.DRN_COPY_STAT 16 false).sb R.DRN_STICKY 2
    exec .drnCopyAbort s = .next (s.withChip (c.journal 0x0A 0x04 (c.rf R.DRN_COPY 6 0) (c.rd R.DRN_STICKY) 0 0)))

/-- O7. CORE_HOLD of core n sets YLX_PCTRL.HOLD and ends the core's sleep, wait and debug halt. CORE_RELEASE of a held core, and CORE_RESTART, start it: it is no longer held, it is in S mode with YLX_ESTAT and YLX_MPU_CTRL at 0 (interrupts and the MPU disabled), at 0x0000_0000 if ROM_LOCK is 0 and at 0x0000_7FC0 if it is 1 (there asleep in the park window). Every byte of memory, local memory included, and every other core are unchanged. CORE_RELEASE of a core that is not held changes nothing. -/
def Obligations.CoresHoldReleaseAndRestart : Prop :=
  ∀ (n : Core) (s : State),
    let started (c : Chip) : Prop := c.heldCore n = false ∧ (c.core n).mode = .S ∧ c.rd (R.YLX_ESTAT n) = 0 ∧
      c.rd (R.YLX_MPU_CTRL n) = 0 ∧ (c.core n).pc = (if s.chip.romLocked then 0x7FC0#32 else 0#32) ∧
      (c.core n).asleep = s.chip.romLocked ∧ (c.core n).wait = none ∧ (c.core n).halted = false ∧
      s.chip.sameMem c ∧ (∀ m, m ≠ n → c.core m = s.chip.core m)
    exec (.coreHold n) s = .next (s.withChip ((s.chip.sb (R.YLX_PCTRL n) 0).onCore n fun k =>
      { k with asleep := false, parked := false, wait := none, halted := false })) ∧
    (s.chip.heldCore n = true → ∃ c, exec (.coreRelease n) s = .next (s.withChip c) ∧ started c) ∧
    (s.chip.heldCore n = false → exec (.coreRelease n) s = .next s) ∧
    (∃ c, exec (.coreRestart n) s = .next (s.withChip c) ∧ started c)

/-- O8. WDG_KICK with 0x0000_C1A5 reloads the count from YLX_WDG_LOAD and forgets stage 1; any other value changes nothing. WDG_LOCK sets YLX_WDG_CTRL.LOCK. While the watchdog is on and its count has reached 0, WDG_STAGE1 (the first expiry without a kick, or any with STAGE2_EN at 0) sets YLX_STAT.WDG1 and reloads the count, and WDG_STAGE2 (the next, with STAGE2_EN at 1) holds the core, marks its raster program, sets YLX_RST_CAUSE.WDG and queues a journal entry. LM_SCRUB_READ by the scrubber while LM_SCRUB_EN is 1 moves to the next of 16,384 words; where the word is sound, a single-bit error counts in CE; an uncorrectable one, found now or before, is counted in UE and recorded. For another read of a word (which the row's word names; log entry 103, the model's choice) a single-bit error of a sound word counts in CE and an uncorrectable one is marked, which every later read of it reports. -/
def Obligations.WatchdogsAndLocalScrubbers : Prop :=
  ∀ (n : Core) (s : State),
    exec (.wdgKick n 0xC1A5) s = .next (s.withChip ((s.chip.wr (R.YLX_WDG_COUNT n) (s.chip.rd (R.YLX_WDG_LOAD n))).onCore n
      fun k => { k with stage1 := false })) ∧
    (∀ v : Word, v ≠ 0xC1A5 → exec (.wdgKick n v) s = .next s) ∧
    exec (.wdgLock n) s = .next (s.withChip (s.chip.wr (R.YLX_WDG_CTRL n) (setBit (s.chip.rd (R.YLX_WDG_CTRL n)) 2 true))) ∧
    (s.chip.wdgCounts n = true → s.chip.rd (R.YLX_WDG_COUNT n) = 0 → (s.chip.core n).stage1 = false ∨ s.chip.rb (R.YLX_WDG_CTRL n) 3 = false →
      exec (.wdgStage1 n) s = .next (s.withChip (((s.chip.sb (R.YLX_STAT n) 4).wr (R.YLX_WDG_COUNT n) (s.chip.rd (R.YLX_WDG_LOAD n))).onCore n
        fun k => { k with stage1 := true }))) ∧
    (s.chip.wdgCounts n = true → s.chip.rd (R.YLX_WDG_COUNT n) = 0 → (s.chip.core n).stage1 = true → s.chip.rb (R.YLX_WDG_CTRL n) 3 = true →
      let c := ((s.chip.coreHold n).rasterHeld n 4).sb (R.YLX_RST_CAUSE n) 2
      exec (.wdgStage2 n) s = .next (s.withChip (c.journal 0x02 2 n.val (c.rd (R.YLX_STAT n)) 0 0))) ∧
    (s.chip.rb (R.YLX_CTRL n) 4 = true →
      let w := (s.chip.core n).lmScrub
      let a := lmBase n + 4 * w
      let on (c : Chip) : Out := .next (s.withChip (c.onCore n fun k => { k with lmScrub := (w + 1) % 16384 }))
      (s.chip.lmBad a = false → exec (.lmScrubRead n none) s = on s.chip ∧
        ∀ e, exec (.lmScrubRead n (some (.ce e))) s = on (s.chip.lmCe n)) ∧
      (s.chip.lmBad a = true → exec (.lmScrubRead n none) s = on (s.chip.lmUe n w)) ∧
      ∀ e, exec (.lmScrubRead n (some (.ue e))) s = on ({ s.chip with ue := insertSorted a s.chip.ue }.lmUe n w)) ∧
    ∀ (w : BitVec 14) (e : Byte),
      (s.chip.lmBad (lmBase n + 4 * w.toNat) = false →
        exec (.lmScrubRead n (some (.ce e)) (some w)) s = .next (s.withChip (s.chip.lmCe n))) ∧
      exec (.lmScrubRead n (some (.ue e)) (some w)) s =
        .next (s.withChip { s.chip with ue := insertSorted (lmBase n + 4 * w.toNat) s.chip.ue })

/-- O9. For a core that runs, whose fetch succeeds and whose predicate holds, each instruction of opcodes 0x01 to 0x09 with a destination other than g15 writes its result into gd as the mode names it, advances the pc by 4, and changes nothing else: add, sub, and, or, xor, shl, shr, sar (count modulo 32), mul, mulhs, mulhu, min, max, minu, maxu, their immediate forms with sext(imm15) for addi and zext(imm15) for andi, ori, xori, shli, shri, sari, movi with sext(imm16) and movhi, which keeps the low half. -/
def Obligations.RegisterInstructionsCompute : Prop :=
  ∀ (n : Core) (p : BitVec 3) (gd ga gb : GReg) (s : State), s.chip.issues n p → gd ≠ 15 →
    let a := (s.chip.core n).gr ga
    let b := (s.chip.core n).gr gb
    let gives (v : Word) : Out := .next (s.after n (CoreSt.setG gd v))
    exec (.add n p false gd ga gb) s = gives (a + b) ∧
    exec (.sub n p false gd ga gb) s = gives (a - b) ∧
    exec (.and n p false gd ga gb) s = gives (a &&& b) ∧
    exec (.or n p false gd ga gb) s = gives (a ||| b) ∧
    exec (.xor n p false gd ga gb) s = gives (a ^^^ b) ∧
    exec (.shl n p false gd ga gb) s = gives (a <<< (b.toNat % 32)) ∧
    exec (.shr n p false gd ga gb) s = gives (a >>> (b.toNat % 32)) ∧
    exec (.sar n p false gd ga gb) s = gives (a.sshiftRight (b.toNat % 32)) ∧
    exec (.mul n p false gd ga gb) s = gives (a * b) ∧
    exec (.mulhs n p false gd ga gb) s = gives (BitVec.ofInt 32 (a.toInt * b.toInt / 2 ^ 32)) ∧
    exec (.mulhu n p false gd ga gb) s = gives (BitVec.ofNat 32 (a.toNat * b.toNat / 2 ^ 32)) ∧
    exec (.min n p false gd ga gb) s = gives (if a.toInt ≤ b.toInt then a else b) ∧
    exec (.max n p false gd ga gb) s = gives (if a.toInt ≤ b.toInt then b else a) ∧
    exec (.minu n p false gd ga gb) s = gives (if a.toNat ≤ b.toNat then a else b) ∧
    exec (.maxu n p false gd ga gb) s = gives (if a.toNat ≤ b.toNat then b else a) ∧
    (∀ i : BitVec 15,
      exec (.addi n p false gd ga i) s = gives (a + i.signExtend 32) ∧
      exec (.andi n p false gd ga i) s = gives (a &&& i.setWidth 32) ∧
      exec (.ori n p false gd ga i) s = gives (a ||| i.setWidth 32) ∧
      exec (.xori n p false gd ga i) s = gives (a ^^^ i.setWidth 32)) ∧
    (∀ i : BitVec 5,
      exec (.shli n p false gd ga i) s = gives (a <<< i.toNat) ∧
      exec (.shri n p false gd ga i) s = gives (a >>> i.toNat) ∧
      exec (.sari n p false gd ga i) s = gives (a.sshiftRight i.toNat)) ∧
    (∀ i : BitVec 16,
      exec (.movi n p false gd i) s = gives (i.signExtend 32) ∧
      exec (.movhi n p false gd i) s = gives (setFld ((s.chip.core n).gr gd) 31 16 i.toNat))

/-- O10. For a core that runs, whose fetch succeeds and whose predicate holds, and a destination other than g15: divs and divu by zero write 0xFFFF_FFFF and rems and remu by zero write ga; the signed division of 0x8000_0000 by 0xFFFF_FFFF writes 0x8000_0000 from divs and 0 from rems; on every other operand the quotient is rounded toward zero and the remainder is what it leaves. None of them traps: each answers the state with gd written and the pc advanced by 4. -/
def Obligations.DivisionNeverTraps : Prop :=
  ∀ (n : Core) (p : BitVec 3) (gd ga gb : GReg) (s : State), s.chip.issues n p → gd ≠ 15 →
    let a := (s.chip.core n).gr ga
    let b := (s.chip.core n).gr gb
    let gives (v : Word) : Out := .next (s.after n (CoreSt.setG gd v))
    (b = 0 →
      exec (.divs n p false gd ga gb) s = gives 0xFFFFFFFF#32 ∧ exec (.divu n p false gd ga gb) s = gives 0xFFFFFFFF#32 ∧
      exec (.rems n p false gd ga gb) s = gives a ∧ exec (.remu n p false gd ga gb) s = gives a) ∧
    (a = 0x80000000#32 → b = 0xFFFFFFFF#32 →
      exec (.divs n p false gd ga gb) s = gives 0x80000000#32 ∧ exec (.rems n p false gd ga gb) s = gives 0#32) ∧
    (b ≠ 0 →
      exec (.divu n p false gd ga gb) s = gives (a / b) ∧ exec (.remu n p false gd ga gb) s = gives (a % b)) ∧
    (b ≠ 0 → ¬(a = 0x80000000#32 ∧ b = 0xFFFFFFFF#32) →
      exec (.divs n p false gd ga gb) s = gives (a.sdiv b) ∧ exec (.rems n p false gd ga gb) s = gives (a.srem b))

/-- O11. For a core that runs, whose fetch succeeds and whose predicate holds: cmp and cmpi with a code other than 111 and plog with a function other than 111, into a predicate other than 00, write the condition's value into that predicate; movs gd, pred gathers p3, p2, p1 into bits 3 to 1; movs pred, ga sets p1 to p3 from bits 1 to 3; in S mode movs reads and writes the U copy of g13; nop has no effect. Each advances the pc by 4 and changes nothing else. -/
def Obligations.PredicatesCompareAndMove : Prop :=
  ∀ (n : Core) (p : BitVec 3) (s : State), s.chip.issues n p →
    let k := s.chip.core n
    (∀ (cc : BitVec 3) (pd : BitVec 2) (ga gb : GReg) (i : BitVec 12), cc ≠ 7 → pd ≠ 0 →
      let holds (x y : Word) : Bool := match cc.toNat with
        | 0 => x == y | 1 => x != y | 2 => x.slt y | 3 => y.sle x | 4 => x.ult y | 5 => y.ule x | _ => (x &&& y) != 0
      exec (.cmp n p false cc pd ga gb) s = .next (s.after n (CoreSt.setP pd.toNat (holds (k.gr ga) (k.gr gb)))) ∧
      exec (.cmpi n p false cc pd ga i) s = .next (s.after n (CoreSt.setP pd.toNat (holds (k.gr ga) (i.signExtend 32))))) ∧
    (∀ (fn : BitVec 3) (pd pa pb : BitVec 2), fn ≠ 7 → pd ≠ 0 →
      let x := pa = 0 || k.pr pa.toNat
      let y := pb = 0 || k.pr pb.toNat
      let v := match fn.toNat with
        | 0 => x && y | 1 => x || y | 2 => x ^^ y | 3 => x && !y | 4 => true | 5 => false | _ => !x
      exec (.plog n p false fn pd pa pb) s = .next (s.after n (CoreSt.setP pd.toNat v))) ∧
    (∀ gd : GReg, gd ≠ 15 →
      exec (.movsGetPred n p false gd) s =
        .next (s.after n (CoreSt.setG gd (BitVec.ofNat 32 ((if k.p3 then 8 else 0) + (if k.p2 then 4 else 0) + (if k.p1 then 2 else 0)))))) ∧
    (∀ ga : GReg, exec (.movsSetPred n p false ga) s =
        .next (s.after n fun k' => { k' with p1 := (k.gr ga).getLsbD 1, p2 := (k.gr ga).getLsbD 2, p3 := (k.gr ga).getLsbD 3 })) ∧
    (k.mode = .S → ∀ g : GReg,
      (g ≠ 15 → exec (.movsGetUsp n p false g) s = .next (s.after n (CoreSt.setG g k.usp))) ∧
      exec (.movsSetUsp n p false g) s = .next (s.after n fun k' => { k' with usp := k.gr g })) ∧
    exec (.nop n p false) s = .next (s.after n id)

/-- O12. For every register or immediate instruction of a core that runs and whose fetch succeeds: with a defined encoding and a false predicate nothing changes but the pc, which advances by 4; with an undefined encoding (u) the core traps with UNDEF whatever the predicate, and so does add with g15 as its destination; in U mode movs with usp and eret trap with UNDEF. -/
def Obligations.FalsePredicatesAndUndefinedEncodings : Prop :=
  ∀ (n : Core) (p : BitVec 3) (s : State), s.chip.runs n = true → (∃ w, s.chip.fetch n = (.ok w, s.chip)) →
    (s.chip.predTrue n p = false → ∀ gd ga gb : GReg, gd ≠ 15 → ∀ (i : BitVec 15) (m : BitVec 13) (f : BitVec 23),
      exec (.add n p false gd ga gb) s = .next (s.after n id) ∧ exec (.ldw n p false gd ga i) s = .next (s.after n id) ∧
      exec (.stw n p false gd ga i) s = .next (s.after n id) ∧ exec (.xchg n p false gd ga) s = .next (s.after n id) ∧
      exec (.br n p false f) s = .next (s.after n id) ∧ exec (.callm n p false ga m) s = .next (s.after n id) ∧
      exec (.wfe n p false) s = .next (s.after n id)) ∧
    (∀ gd ga gb : GReg, ∀ i : BitVec 15,
      exec (.add n p true gd ga gb) s = .next (s.withChip (s.chip.trap n .undef none)) ∧
      exec (.add n p false 15 ga gb) s = .next (s.withChip (s.chip.trap n .undef none)) ∧
      exec (.ldw n p true gd ga i) s = .next (s.withChip (s.chip.trap n .undef none)) ∧
      exec (.nop n p true) s = .next (s.withChip (s.chip.trap n .undef none))) ∧
    ((s.chip.core n).mode = .U → ∀ g : GReg,
      exec (.movsGetUsp n p false g) s = .next (s.withChip (s.chip.trap n .undef none)) ∧
      exec (.movsSetUsp n p false g) s = .next (s.withChip (s.chip.trap n .undef none)) ∧
      exec (.eret n p false) s = .next (s.withChip (s.chip.trap n .undef none)))

/-- O13. For a core that issues, at the address ga + sext(imm15): where the checks give a word of core-local memory that is not marked, ldw, ldh, ldhu, ldb and ldbu write the little-endian data, sign-extended for ldh and ldb, into gd and step on; stw, sth and stb write the low 4, 2 or 1 bytes of gs to that place and step on; xchg writes gd to the word at ga and the word's old value to gd. Where the checks give a register page other than the core's own bank, stw joins the core's stores. Where the checks give a cause, each traps with it and the address, and gd and memory are unchanged. -/
def Obligations.LoadsStoresAndExchange : Prop :=
  ∀ (n : Core) (p : BitVec 3) (gd ga : GReg) (i : BitVec 15) (s : State), s.chip.issues n p → gd ≠ 15 →
    let k := s.chip.core n
    let a := k.gr ga + i.signExtend 32
    let lm (acc : Acc) (size m key : Nat) : Prop := s.chip.accCheck n acc size a = .ok (.lm m key) ∧ s.chip.lmBad key = false
    (∀ m key, lm .r 4 m key → exec (.ldw n p false gd ga i) s =
      .next (s.after n (CoreSt.setG gd (BitVec.ofNat 32 (s.chip.memLE key 4))))) ∧
    (∀ m key, lm .r 2 m key → exec (.ldh n p false gd ga i) s =
        .next (s.after n (CoreSt.setG gd ((BitVec.ofNat 16 (s.chip.memLE key 2)).signExtend 32))) ∧
      exec (.ldhu n p false gd ga i) s = .next (s.after n (CoreSt.setG gd (BitVec.ofNat 32 (s.chip.memLE key 2))))) ∧
    (∀ m key, lm .r 1 m key → exec (.ldb n p false gd ga i) s =
        .next (s.after n (CoreSt.setG gd ((BitVec.ofNat 8 (s.chip.memLE key 1)).signExtend 32))) ∧
      exec (.ldbu n p false gd ga i) s = .next (s.after n (CoreSt.setG gd (BitVec.ofNat 32 (s.chip.memLE key 1))))) ∧
    (∀ m key, s.chip.accCheck n .w 4 a = .ok (.lm m key) → exec (.stw n p false gd ga i) s =
      .next (s.withChip ((s.chip.memWrite key (leBytes 4 (k.gr gd).toNat)).onCore n CoreSt.adv))) ∧
    (∀ m key, s.chip.accCheck n .w 2 a = .ok (.lm m key) → exec (.sth n p false gd ga i) s =
      .next (s.withChip ((s.chip.memWrite key (leBytes 2 (k.gr gd).toNat)).onCore n CoreSt.adv))) ∧
    (∀ m key, s.chip.accCheck n .w 1 a = .ok (.lm m key) → exec (.stb n p false gd ga i) s =
      .next (s.withChip ((s.chip.memWrite key (leBytes 1 (k.gr gd).toNat)).onCore n CoreSt.adv))) ∧
    (s.chip.accCheck n .w 4 a = .ok .reg → ¬(0x40002000 ≤ a.toNat ∧ a.toNat < 0x40002400) → exec (.stw n p false gd ga i) s =
      .next (s.withChip ((s.chip.onCore n fun k' => { k' with stores := k'.stores ++ [(a.toNat, k.gr gd, s.chip.inU n)] }).onCore n CoreSt.adv))) ∧
    (∀ m key, s.chip.xchgCheck n (k.gr ga) = .ok (.lm m key) → s.chip.lmBad key = false → exec (.xchg n p false gd ga) s =
      .next (s.withChip ((s.chip.memWrite key (leBytes 4 (k.gr gd).toNat)).onCore n fun k' =>
        (k'.setG gd (BitVec.ofNat 32 (s.chip.memLE key 4))).adv))) ∧
    (∀ e, s.chip.accCheck n .r 4 a = .error e → exec (.ldw n p false gd ga i) s = .next (s.withChip (s.chip.trap n e (some a)))) ∧
    (∀ e, s.chip.accCheck n .w 4 a = .error e → exec (.stw n p false gd ga i) s = .next (s.withChip (s.chip.trap n e (some a)))) ∧
    (∀ e, s.chip.xchgCheck n (k.gr ga) = .error e → exec (.xchg n p false gd ga) s = .next (s.withChip (s.chip.trap n e (some (k.gr ga)))))

/-- O14. For a core that issues: br and bl continue at the address plus 4 plus 4 times sext(off23) when that is a multiple of 4, bl with g14 at the address plus 4; jr and jlr continue at ga, jlr with gd at the address plus 4, and trap with MISALIGN at a target that is no multiple of 4. callm, where its target and base are multiples of 4 and every store is permitted, stores the named registers in ascending order and the old g14 from base upward, writes base to g13 and the address plus 4 to g14, and continues at ga. retm, where g14 is a multiple of 4, every load is permitted and every word is received by a core that no store which landed meanwhile has reset or held, loads the named registers and then g14 from g13 upward, adds 4w to g13 and continues at the old g14. Nothing else changes. -/
def Obligations.BranchesCallsAndReturns : Prop :=
  ∀ (n : Core) (p : BitVec 3) (gd ga : GReg) (off : BitVec 23) (mask : BitVec 13) (s : State), s.chip.issues n p → gd ≠ 15 →
    let k := s.chip.core n
    let goes (t : Word) (f : CoreSt → CoreSt) : Out := .next (s.withChip (s.chip.onCore n fun k' => { f k' with pc := t }))
    let t := k.pc + 4 + (off.signExtend 32 <<< (2 : Nat))
    let rs := (List.finRange 16).filter fun i => decide (i.val < 13) && tb mask i.val
    let w := rs.length + 1
    (t.toNat % 4 = 0 → exec (.br n p false off) s = goes t id ∧ exec (.bl n p false off) s = goes t (CoreSt.setG 14 (k.pc + 4))) ∧
    ((k.gr ga).toNat % 4 = 0 → exec (.jr n p false ga) s = goes (k.gr ga) id ∧
      exec (.jlr n p false gd ga) s = goes (k.gr ga) (CoreSt.setG gd (k.pc + 4))) ∧
    ((k.gr ga).toNat % 4 ≠ 0 → exec (.jr n p false ga) s = .next (s.withChip (s.chip.trap n .misalign (some (k.gr ga)))) ∧
      exec (.jlr n p false gd ga) s = .next (s.withChip (s.chip.trap n .misalign (some (k.gr ga)))) ∧
      exec (.callm n p false ga mask) s = .next (s.withChip (s.chip.trap n .misalign (some (k.gr ga))))) ∧
    (let base := k.gr 13 - BitVec.ofNat 32 (4 * w)
     let at' := (List.range w).map fun i => base + BitVec.ofNat 32 (4 * i)
     (k.gr ga).toNat % 4 = 0 → base.toNat % 4 = 0 → s.chip.firstDenied n .w at' = none →
     exec (.callm n p false ga mask) s = .next (s.withChip (forEach (at'.zip (rs.map k.gr ++ [k.gr 14]))
       (fun e c => c.putWord n (s.chip.inU n) e.1 e.2)
       (s.chip.onCore n fun k' => { (k'.setG 13 base).setG 14 (k.pc + 4) with pc := k.gr ga })))) ∧
    (let at' := (List.range w).map fun i => k.gr 13 + BitVec.ofNat 32 (4 * i)
     (k.gr 14).toNat % 4 = 0 → s.chip.firstDenied n .r at' = none → ∀ vs c, Chip.getWords n at' s.chip = (.ok vs, c) → c.goesOn n = true →
     exec (.retm n p false mask) s = .next (s.withChip (c.onCore n fun k' =>
       { forEach ((rs ++ [14]).zip vs) (fun e k => k.setG e.1 e.2) (k'.setG 13 (k.gr 13 + BitVec.ofNat 32 (4 * w))) with pc := k.gr 14 })))

/-- O15. For a core that issues: sev lets the core's stores land and then, unless one of them reset or held the core, sets the latch of each core below SYS_PARAM0.CORES whose mask bit is 1; wfe with the latch set clears it and steps on, and else puts the core to sleep past the instruction (in the park window in S mode: at it, parked); waituntil with a source other than 11 waits for gN, or with AFTER at 1 and the value reached steps on. A sleeping core that is not parked and that its latch or an interrupt source wakes is awake with the latch clear; a parked one with IE at 0 whose YLX_ENTRY is 0 sleeps again at the park window's wfe. A waiting core whose time or position is reached steps on, at that position. -/
def Obligations.EventsWaitsAndWaking : Prop :=
  (∀ (n : Core) (p : BitVec 3) (s : State), s.chip.issues n p →
    (∀ mask : BitVec 8, (s.chip.landAll n).goesOn n = true → exec (.sev n p false mask) s = .next (s.withChip ((forEach ((List.finRange 8).filter fun m =>
        decide (m.val < (s.chip.landAll n).rf R.SYS_PARAM0 27 24) && tb mask m.val)
        (fun m c => c.onCore m fun k => { k with latch := true }) (s.chip.landAll n)).onCore n CoreSt.adv))) ∧
    ((s.chip.core n).latch = true → ¬((s.chip.core n).pc = parkWindow ∧ (s.chip.core n).mode = .S) → exec (.wfe n p false) s = .next (s.after n fun k => { k with latch := false })) ∧
    ((s.chip.core n).latch = false → ¬((s.chip.core n).pc = parkWindow ∧ (s.chip.core n).mode = .S) →
      exec (.wfe n p false) s = .next (s.after n fun k => { k with asleep := true })) ∧
    ((s.chip.core n).latch = false → (s.chip.core n).pc = parkWindow → (s.chip.core n).mode = .S →
      exec (.wfe n p false) s = .next (s.withChip (s.chip.onCore n fun k => { k with asleep := true, parked := true }))) ∧
    (∀ (src : BitVec 2) (after : Bool) (gn : GReg), src ≠ 3 →
      let v := (s.chip.core n).gr gn
      exec (.waituntil n p false src after gn) s = .next (if after && s.chip.reached src v then s.after n id
        else s.withChip (s.chip.onCore n fun k => { k with wait := some { src := src.toNat, value := v } })))) ∧
  (∀ (n : Core) (src : Option (BitVec 8)) (s : State), s.chip.coresUp = true → s.chip.heldCore n = false →
    (s.chip.core n).asleep = true → (s.chip.core n).parked = false → s.chip.wakes n src = true →
    exec (.wfeWake n src) s = .next (s.withChip (s.chip.onCore n fun k => { k with asleep := false, latch := false }))) ∧
  (∀ (n : Core) (src : Option (BitVec 8)) (s : State), s.chip.coresUp = true → s.chip.heldCore n = false →
    (s.chip.core n).asleep = true → (s.chip.core n).parked = true → (s.chip.core n).mode = .S → s.chip.wakes n src = true →
    s.chip.rb (R.YLX_ESTAT n) 0 = false → s.chip.rd (R.YLX_ENTRY n) = 0 →
    ∃ t, exec (.wfeWake n src) s = .next t ∧ (t.chip.core n).asleep = true ∧ (t.chip.core n).parked = true ∧
      (t.chip.core n).pc = parkWindow ∧ (t.chip.core n).latch = false) ∧
  (∀ (n : Core) (w : WaitFor) (s : State), s.chip.coresUp = true → s.chip.heldCore n = false → (s.chip.core n).wait = some w →
    (w.src = 2 → 0 ≤ (s.chip.time.setWidth 32 - w.value).toInt →
      exec (.waituntilMatch n) s = .next (s.after n fun k => { k with wait := none })) ∧
    (∀ b : Beam, w.src = b.val → s.chip.canTake b (w.value.toNat % 2 ^ 27) = true →
      exec (.waituntilMatch n) s = .next (s.withChip ((s.chip.onCore n fun k => ({ k with wait := none } : CoreSt).adv).setPos b
        (w.value.toNat % 2 ^ 27 / 2 ^ 14) (w.value.toNat % 2 ^ 14)))))

/-- O16. For a core that issues: trap imm16 with INTRAP at 0 writes the instruction's address to YLX_EPC, 0x0A to YLX_CAUSE and zext(imm16) to YLX_FADDR, copies IE to PIE and the mode to PMODE, sets INTRAP, enters S mode with IE at 0 and continues at YLX_VBASE; no other register, no byte of memory, no general register and no other core changes. With INTRAP at 1 it is a double fault instead: YLX_STAT.DOUBLE and YLX_RST_CAUSE.DOUBLE set, the core is held and a journal entry is queued. brk with core debug enabled sets DBG_STICKY.3 and halts the core past the instruction; otherwise it traps with UNDEF. -/
def Obligations.TrapsAndBreakpoints : Prop :=
  ∀ (n : Core) (p : BitVec 3) (imm : BitVec 16) (s : State), s.chip.issues n p →
    (s.chip.rb (R.YLX_ESTAT n) 3 = false → ∃ c, exec (.trap n p false imm) s = .next (s.withChip c) ∧
      c.rd (R.YLX_EPC n) = ((s.chip.core n).pc &&& ~~~3#32) ∧ c.rd (R.YLX_CAUSE n) = 0x0A ∧ c.rd (R.YLX_FADDR n) = imm.setWidth 32 ∧
      c.rd (R.YLX_ESTAT n) = setBit (setBit (setBit (setBit (s.chip.rd (R.YLX_ESTAT n)) 1 (s.chip.rb (R.YLX_ESTAT n) 0)) 2
        (decide ((s.chip.core n).mode = .U))) 0 false) 3 true ∧
      c.core n = { s.chip.core n with mode := .S, pc := s.chip.rd (R.YLX_VBASE n) } ∧
      s.chip.sameRegsBut [R.YLX_EPC n, R.YLX_CAUSE n, R.YLX_FADDR n, R.YLX_ESTAT n] c ∧ s.chip.sameMem c ∧
      ∀ m, m ≠ n → c.core m = s.chip.core m) ∧
    (s.chip.rb (R.YLX_ESTAT n) 3 = true → exec (.trap n p false imm) s = .next (s.withChip
      ((((((s.chip.sb (R.YLX_STAT n) 3).sb (R.YLX_RST_CAUSE n) 3).coreHold n).rasterHeld n 5)).journal 0x02 3 n.val
        (((s.chip.sb (R.YLX_STAT n) 3).sb (R.YLX_RST_CAUSE n) 3).rd (R.YLX_STAT n))
        (((s.chip.sb (R.YLX_STAT n) 3).sb (R.YLX_RST_CAUSE n) 3).rd (R.YLX_FADDR n)) 0))) ∧
    (s.chip.debugOpen = true → exec (.brk n p false imm) s = .next (s.withChip (((s.chip.onCore n CoreSt.adv).sb R.DBG_STICKY 3).onCore n
      fun k => { k with halted := true }))) ∧
    (s.chip.debugOpen = false → exec (.brk n p false imm) s = .next (s.withChip (s.chip.trap n .undef none)))

/-- O17. For a core in S mode that issues: eret writes PIE to IE and 0 to INTRAP in YLX_ESTAT, leaves the other bits, enters U mode if PMODE is 1 and S mode if it is 0, and continues at YLX_EPC. No other register, no byte of memory and no other part of any core changes. -/
def Obligations.EretReturns : Prop :=
  ∀ (n : Core) (p : BitVec 3) (s : State), s.chip.issues n p → (s.chip.core n).mode = .S →
    ∃ c, exec (.eret n p false) s = .next (s.withChip c) ∧
      c.rd (R.YLX_ESTAT n) = setBit (setBit (s.chip.rd (R.YLX_ESTAT n)) 0 (s.chip.rb (R.YLX_ESTAT n) 1)) 3 false ∧
      c.core n = { s.chip.core n with mode := if s.chip.rb (R.YLX_ESTAT n) 2 then .U else .S, pc := s.chip.rd (R.YLX_EPC n) } ∧
      s.chip.sameRegsBut [R.YLX_ESTAT n] c ∧ s.chip.sameMem c ∧ ∀ m, m ≠ n → c.core m = s.chip.core m

/-- O18. A core with IE at 1 that runs (a WAITUNTIL it abandons) takes, of the 192 sources eligible in its bank, the one of lowest PRIO and among those of lowest number: the pair of the source and the running priority goes onto the stack, the running priority becomes PRIO, ACT sets, a pulse source's PEND clears, YLX_EPC holds the pc, PIE takes IE, PMODE the mode, IE is 0, the core is in S mode at YLX_VBASE + 0x40. YLX_CAUSE, YLX_FADDR, INTRAP, every register but YLX_EPC, YLX_ESTAT and the ACT word, memory and the other cores are unchanged. -/
def Obligations.InterruptsAreTaken : Prop :=
  ∀ (n : Core) (x : Nat) (s : State), (s.chip.onCore n fun k => { k with wait := none }).runs n = true → s.chip.rb (R.YLX_ESTAT n) 0 = true →
    x < 192 → s.chip.eligible n x = true → (∀ y, y < 192 → s.chip.eligible n y = true →
      s.chip.irqPrio n x < s.chip.irqPrio n y ∨ (s.chip.irqPrio n x = s.chip.irqPrio n y ∧ x ≤ y)) →
    ∃ c, exec (.interruptEntry n) s = .next (s.withChip c) ∧
      c.rd (R.YLX_EPC n) = (s.chip.core n).pc ∧
      c.rd (R.YLX_ESTAT n) = setBit (setBit (setBit (s.chip.rd (R.YLX_ESTAT n)) 1 true) 2 (decide ((s.chip.core n).mode = .U))) 0 false ∧
      c.rd (R.IRQ_ACT n (x / 32)) = setBit (s.chip.rd (R.IRQ_ACT n (x / 32))) (x % 32) true ∧
      c.core n = { s.chip.core n with
        wait := none, mode := .S, pc := s.chip.rd (R.YLX_VBASE n) + 0x40, runPrio := s.chip.irqPrio n x
        stack := (x, (s.chip.core n).runPrio) :: (s.chip.core n).stack, pulse := (s.chip.core n).pulse.filter (· != x) } ∧
      s.chip.sameRegsBut [R.YLX_EPC n, R.YLX_ESTAT n, R.IRQ_ACT n (x / 32)] c ∧ s.chip.sameMem c ∧ ∀ m, m ≠ n → c.core m = s.chip.core m

/-- O19. IRQ_EOI of core n with (x, p) on top of the stack pops it, clears ACT(x) and makes p the running priority, and sets IRQ_STAT.EOI_MISMATCH if the written SOURCE is not x; with an empty stack it changes nothing but IRQ_STAT.EOI_EMPTY, which sets. A write to IRQ_EOI through the peer view changes nothing. IRQ_MSI_SET sets the pending bits of the vectors whose bits are 1 in the value and leaves the others. -/
def Obligations.EndOfInterruptAndMsiSet : Prop :=
  (∀ (n : Core) (v : Word) (x p : Nat) (t : List (Nat × Nat)) (s : State), (s.chip.core n).stack = (x, p) :: t →
    let c := (s.chip.wb (R.IRQ_ACT n (x / 32)) (x % 32) false).onCore n fun k => { k with stack := t, runPrio := p }
    exec (.irqEoi n v) s = .next (s.withChip (if v.toNat % 256 = x then c else c.sb (R.IRQ_STAT n) 0))) ∧
  (∀ (n : Core) (v : Word) (s : State), (s.chip.core n).stack = [] →
    exec (.irqEoi n v) s = .next (s.withChip (s.chip.sb (R.IRQ_STAT n) 1))) ∧
  (∀ (n : Core) (u : Bool) (v : Word) (s : State), exec (.registerWrite (.core n) u 0x40002404 v) s = .next s) ∧
  (∀ (v : Word) (s : State), ∃ c, exec (.irqMsiSet v) s = .next (s.withChip c) ∧ s.chip.sameRegsBut [R.IRQ_MSI_PEND] c ∧
    c = { s.chip with regs := c.regs } ∧
    ∀ i : Nat, (c.rd R.IRQ_MSI_PEND).getLsbD i = (v.getLsbD i || (s.chip.rd R.IRQ_MSI_PEND).getLsbD i))

/-- O20. ROM_BOOT with the cores supplied and ROM_LOCK 0 runs steps 2 to 5 and, once VIO_C is good, reads the slots; where both headers have a wrong MAGIC it resets the flash, reads the two headers, sets both statuses BAD_MAGIC and RESULT NO_IMAGE, and no core and no byte outside the ROM work area changes. A handover writes ENTRY to core 0's YLX_ENTRY and TIME_LO to SYS_BOOT_TIME, sets g0 to the slot, g1 to SEQ, g2 to SYS_BOOT_STAT and g3 to 0, resets core 0's interrupt bank, and puts core 0 at 0x0000_7FE0. ROM_LOCK sets the lock, and a core at 0x0000_7FE0 goes on at its YLX_ENTRY, core 0 with its bank in its reset state. A recovery check on NO_IMAGE copies the header and, where it is valid, the body into local memory, sets HOST to the status found and hands over only a valid image; in RETIRED nothing is checked. VIO_C_TIMEOUT sets RESULT to NO_IMAGE, in RETIRED to RETIRED. -/
def Obligations.BootRomAndHandover : Prop :=
  (∀ (bad : List (Nat × Nat)) (a b : FlashSlot) (s : State), s.chip.coresUp = true → s.chip.romLocked = false →
    (s.chip.rst.rom = 1 → let c := s.chip.romStart bad
      exec (.romBoot bad a b) s = .next (s.withChip (if c.rst.rom = 2 ∧ c.vioC = true then c.romSlots a b else c))) ∧
    (s.chip.rst.rom = 2 → s.chip.vioC = true → exec (.romBoot bad a b) s = .next (s.withChip (s.chip.romSlots a b)) ∧
      (s.chip.lcyState ≠ 6 → a.headerErr = false → b.headerErr = false → a.header.length = 256 → b.header.length = 256 →
        hdrField a.header 0 4 ≠ 0x54424948 → hdrField b.header 0 4 ≠ 0x54424948 →
        ∃ c, exec (.romBoot bad a b) s = .next (s.withChip c) ∧
          c.rf R.SYS_BOOT_STAT 3 0 = 4 ∧ c.rf R.SYS_BOOT_STAT 7 4 = 2 ∧ c.rf R.SYS_BOOT_STAT 11 8 = 2 ∧ c.cores = s.chip.cores ∧
          (∀ x, ¬(lmBase 0 + 0xE000 ≤ x ∧ x < lmBase 0 + 0x10000) → c.byte x = s.chip.byte x) ∧
          c.out = s.chip.out ++ [.flashCode 0x66, .flashCode 0x99, .flashRead 0 0x100, .flashRead 0x10000 0x100]))) ∧
  (∀ (slot : Nat) (h : List Byte) (c : Chip), let t := c.handover slot h
    t.rd (R.YLX_ENTRY 0) = BitVec.ofNat 32 (hdrEntry h) ∧ t.rd R.SYS_BOOT_TIME = c.time.setWidth 32 ∧
    (t.core 0).g[0] = BitVec.ofNat 32 slot ∧ (t.core 0).g[1] = BitVec.ofNat 32 (hdrSeq h) ∧
    (t.core 0).g[2] = c.rd R.SYS_BOOT_STAT ∧ (t.core 0).g[3] = 0 ∧ (t.core 0).pc = 0x7FE0 ∧ (t.core 0).asleep = false ∧
    (c.bankReset 0).sameRegsBut [R.YLX_ENTRY 0, R.SYS_BOOT_TIME] t) ∧
  (∀ (n : Core) (s : State), (s.chip.core n).pc ≠ 0x7FE0 → exec (.romLock n) s = .next (s.withChip (s.chip.sb R.SYS_BOOT_CTRL 0))) ∧
  (∀ (n : Core) (s : State), (s.chip.sb R.SYS_BOOT_CTRL 0).runs n = true → (s.chip.core n).pc = 0x7FE0 →
    ∃ c, exec (.romLock n) s = .next (s.withChip c) ∧ c.romLocked = true ∧ (c.core n).pc = s.chip.rd (R.YLX_ENTRY n) ∧
      (if n = 0 then s.chip.bankReset 0 else s.chip).sameRegsBut [R.SYS_BOOT_CTRL] c ∧ s.chip.sameMem c) ∧
  (∀ (he be : Bool) (s : State), s.chip.coresUp = true → s.chip.romLocked = false → s.chip.rf R.SYS_BOOT_STAT 3 0 = 4 →
    let read := s.chip.vRead .core 0 0 256
    let head := read.2.2.copyIn (workHeader 2) read.1
    let sh := if he || read.2.1 then 9 else head.2.headerStatus head.1
    let c := if head.2.lcyState = 1 then head.2.sb R.SYS_BOOT_STAT 16 else head.2
    let rest := c.vRead .core 0 0x100 (hdrLength head.1)
    let body := rest.2.2.loadBody head.1 rest.1
    let sb := if be || rest.2.1 then 9 else if bodyOk head.1 body.1 then 1 else 8
    (s.chip.lcyState ≠ 6 → exec (.hostRecovery he be) s = .next (s.withChip (if sh ≠ 1 then (c.slotStatus 2 sh).noImage 4
      else if sb = 1 then ((body.2.slotStatus 2 sb).wf R.SYS_BOOT_STAT 3 0 3).handover 2 head.1
      else (body.2.slotStatus 2 sb).noImage 4))) ∧
    (s.chip.lcyState = 6 → exec (.hostRecovery he be) s = .next s)) ∧
  (∀ s : State, s.chip.rst.rom = 2 → s.chip.vioC = false →
    exec .vioCTimeout s = .next (s.withChip { s.chip.wf R.SYS_BOOT_STAT 3 0 (if s.chip.lcyState = 6 then 5 else 4) with
      rst := { s.chip.rst with rom := 0 } }))

/-- O21. While the PCI Express link serves requests in D0: a single-DWORD BAR0 read at a register answers its value and a write acts as the host's write to that register; any other form sets BAD_ACCESS; an offset without a register reads 0 or ignores the write and sets BAR0_HOLE. A configuration request is served as such. A BAR2 write below the hole is applied with its byte enables and a read answers its bytes in TLPs, of which those with a byte of an uncorrectable word are poisoned; one that reaches the hole sets HOST_HOLE, writes only what lies below it and reads 0 above. In D3hot reads answer Unsupported Request and writes do nothing. D3HOT_ENTRY and D0_RETURN change the power state of the function only. LINK_RESET clears the configuration and both enable registers, sets LINK_RESET, ends the descriptor reads, discards the completions that go to host memory and closes sessions. MSI_SEND of a pending vector that may be sent clears it and sends its message. HEARTBEAT adds 1 while Tirba is ready. -/
def Obligations.HostMemoryRequests : Prop :=
  (∀ (w : Bool) (off : BitVec 16) (v : Word) (s : State), s.chip.pcieOn = true → s.chip.host.d3 = false → off.toNat % 4 = 0 →
    let c := if bar0Reg off.toNat then s.chip else s.chip.sb R.MBX_STAT 3
    exec (.hostBar0Request w off 0xF 1 v) s = .next (s.withChip (if w then c.bar0Write off.toNat v
      else c.emit (.hostRead (leBytes 4 (c.bar0Read off.toNat).toNat) false)))) ∧
  (∀ (w : Bool) (off : BitVec 16) (be : BitVec 4) (k : Nat) (v : Word) (s : State), s.chip.pcieOn = true → s.chip.host.d3 = false →
    be ≠ 0xF ∨ k ≠ 1 ∨ off.toNat % 4 ≠ 0 → exec (.hostBar0Request w off be k v) s =
      .next (s.withChip (if w then s.chip.sb R.MBX_STAT 2 else (s.chip.sb R.MBX_STAT 2).unsupported))) ∧
  (∀ (w : Bool) (off : BitVec 16) (be : BitVec 4) (k : Nat) (v : Word) (s : State), s.chip.pcieOn = true →
    exec (.hostBar0Request w off be k v true) s = .next (s.withChip (s.chip.cfgRequest w off.toNat be v))) ∧
  (∀ (off : BitVec 26) (bytes : List (Option Byte)) (s : State), s.chip.pcieOn = true → s.chip.host.d3 = false →
    let reads (n : Nat) (c : Chip) : Chip := forEach (tlpCuts (bytes.length + 1) off.toNat bytes.length)
      (fun t c => c.emit (c.readTlp t)) (c.vRead .host 0 off.toNat n).2.2
    (off.toNat + bytes.length ≤ 0x3000000 →
      exec (.bar2Access true off bytes) s = .next (s.withChip (s.chip.hostVWrite off.toNat bytes)) ∧
      exec (.bar2Access false off bytes) s = .next (s.withChip (reads bytes.length s.chip))) ∧
    (0x3000000 < off.toNat + bytes.length → 0 < bytes.length → let n := min bytes.length (0x3000000 - off.toNat)
      exec (.bar2Access true off bytes) s = .next (s.withChip ((s.chip.sb R.VLM_STICKY 3).hostVWrite off.toNat (bytes.take n))) ∧
      exec (.bar2Access false off bytes) s = .next (s.withChip (reads n (s.chip.sb R.VLM_STICKY 3))))) ∧
  (∀ (off : BitVec 26) (bytes : List (Option Byte)) (o : BitVec 16) (be : BitVec 4) (k : Nat) (v : Word) (s : State),
    s.chip.pcieOn = true → s.chip.host.d3 = true →
    exec (.bar2Access false off bytes) s = .next (s.withChip s.chip.unsupported) ∧
    exec (.hostBar0Request false o be k v) s = .next (s.withChip s.chip.unsupported) ∧
    exec (.bar2Access true off bytes) s = .next s ∧ exec (.hostBar0Request true o be k v) s = .next s) ∧
  (∀ s : State, s.chip.pcieOn = true → exec .d3hotEntry s = .next (s.withChip { s.chip with host := { s.chip.host with d3 := true } })) ∧
  (∀ s : State, s.chip.pcieOn = true → exec .d0Return s = .next (s.withChip { s.chip with host := { s.chip.host with d3 := false } })) ∧
  (∀ s : State, s.chip.pcieOn = true → exec .linkReset s = .next (s.withChip ((forEach (List.finRange 64)
      (fun n c => (c.fetchStop n).when (c.ring n).cqHost fun c => c.onRing n RingSt.discard)
    (((((s.chip.onHost fun h => { h with
        d3 := false, busMaster := false, msiEnable := false, msiGrant := 0, msiMask := 0, readSize := 2, msiAddr := 0, msiData := 0, bar0 := 0, bar2 := 0, aer := 0, bells := [] }).wr (R.MBX_RING_EN 0) 0).wr (R.MBX_RING_EN 1) 0).wr
      R.IRQ_MSI_PEND 0).sb R.MBX_STAT 1)).countFlight.onTirba fun t => { t with sessions := Vector.replicate 8 none }))) ∧
  (∀ (v : BitVec 5) (s : State), s.chip.rb R.IRQ_MSI_PEND v.toNat = true → s.chip.pcieOn = true → s.chip.host.d3 = false →
    s.chip.host.msiEnable = true → tb s.chip.host.msiMask v.toNat = false →
    let g := 2 ^ s.chip.host.msiGrant
    exec (.msiSend v) s = .next (s.withChip ((s.chip.wb R.IRQ_MSI_PEND v.toNat false).emit
      (.msi v.toNat s.chip.host.msiAddr (s.chip.host.msiData.toNat / g * g + v.toNat % g))))) ∧
  (∀ s : State, s.chip.rb R.MBX_STAT 0 = true → exec .heartbeat s = .next (s.withChip (s.chip.wr R.MBX_HEARTBEAT (s.chip.rd R.MBX_HEARTBEAT + 1))))

/-- O22. On an enabled ring after ROM_LOCK, no host write to Vellum waiting, the table entry is checked first where Tirba is ready, then: DOORBELL_TAIL with a tail in range that does not move back sets the tail and occurs the doorbell source; one out of range or back occurs it too, records RING_OVERRUN and has Tirba post a completion with tag 0xFFFF_FFFF. CQ_HEAD_UPDATE with a head in range that does not pass the tail sets the head, and else records CQ_OVERRUN. On a ring that is not enabled a tail is a bad ring. Before ROM_LOCK the tail is stored unchecked, and on ring 0 with RESULT NO_IMAGE a host image check begins. A doorbell while host writes wait is held until they have landed. SQ_HEAD_SET writes the submission head alone. RING_ENABLE writes the enables, ends the descriptor reads of each ring whose enable changes and starts each newly enabled ring at index 0 and PHASE 1. RING_RESET and RESET_ALL reset the rings named, in ascending order; RESET_ALL reads 1 while a reset lasts. -/
def Obligations.DoorbellsAndRingBits : Prop :=
  (∀ (n : Ring) (t h : BitVec 12) (s : State), s.chip.hostWrites = [] → s.chip.romLocked = true → s.chip.ringOn n = true →
    let c := (if s.chip.tirbaReady then s.chip.ringCheck n else s.chip).pulse (96 + n.val)
    let N := (c.ringN n).1
    let d := (c.ringN n).2
    exec (.doorbellTail n t) s = .next (s.withChip (
      if N ≤ t.toNat ∨ ringDist N (d.sqHead n) t.toNat < ringDist N (d.sqHead n) (d.sqTail n) then
        (d.mbxErr 1 n).reply n { tag := 0xFFFFFFFF, status := 0x0A, detail := 0, sqHead := d.sqHead n, result := [], notify := true, cmd := false }
      else d.wf (R.MBX_DB n) 11 0 t.toNat)) ∧
    exec (.cqHeadUpdate n h) s = .next (s.withChip (
      if N ≤ h.toNat ∨ ringDist N (d.cqHead n) (d.cqTail n) < ringDist N (d.cqHead n) h.toNat then d.mbxErr 2 n
      else d.wf (R.MBX_RST n) 11 0 h.toNat))) ∧
  (∀ (n : Ring) (t : BitVec 12) (s : State), s.chip.hostWrites = [] → s.chip.romLocked = true → s.chip.ringOn n = false →
    exec (.doorbellTail n t) s = .next (s.withChip (s.chip.mbxErr 3 n))) ∧
  (∀ (n : Ring) (t : BitVec 12) (s : State), s.chip.hostWrites = [] → s.chip.romLocked = false →
    let c := s.chip.pulse (96 + n.val)
    exec (.doorbellTail n t) s = .next (s.withChip ((if n = 0 ∧ c.rf R.SYS_BOOT_STAT 3 0 = 4 then c.wf R.SYS_BOOT_STAT 3 0 7 else c).wf
      (R.MBX_DB n) 11 0 t.toNat))) ∧
  (∀ (n : Ring) (t : BitVec 12) (s : State), s.chip.hostWrites ≠ [] →
    exec (.doorbellTail n t) s = .next (s.withChip (s.chip.onHost fun h =>
      { h with bells := h.bells ++ [(n, BitVec.ofNat 32 (t.toNat + 2 ^ 15), s.chip.hostWrites.length)] }))) ∧
  (∀ (n : Ring) (h : BitVec 12) (s : State),
    exec (.sqHeadSet n h) s = .next (s.withChip (s.chip.wr (R.MBX_DB n) (setFld (s.chip.rd (R.MBX_DB n)) 27 16 h.toNat)))) ∧
  (∀ (k : Fin 2) (v : Word) (s : State),
    let old := s.chip.rd (R.MBX_RING_EN k)
    exec (.ringEnable k v) s = .next (s.withChip (forEach ((List.finRange 64).filter fun n =>
        n.val / 32 == k.val && tb v (n.val % 32) && !tb old (n.val % 32))
      (fun n c => ((c.wr (R.MBX_DB n) 0).wr (R.MBX_RST n) (bitW 31)).onRing n fun r => { r with checked := false, prevOk := none, fresh := true })
      (forEach ((List.finRange 64).filter fun n => n.val / 32 == k.val && tb v (n.val % 32) != tb old (n.val % 32)) Chip.fetchStop
        (s.chip.wr (R.MBX_RING_EN k) v)))) ∧
    exec (.ringReset k v) s = .next (s.withChip (forEach ((List.finRange 64).filter fun n => n.val / 32 == k.val && tb v (n.val % 32))
      Chip.ringReset s.chip)) ∧
    let c := forEach (List.finRange 64) Chip.ringReset s.chip
    exec .resetAll s = .next (s.withChip (c.wb R.MBX_CTRL 0 (c.rd (R.MBX_RESET 0) != 0 || c.rd (R.MBX_RESET 1) != 0))))

/-- O23. While the QSPI slave is selected and enabled and no frame falls in the gap: QSPI_BAR0_READ and QSPI_VELLUM_READ whose checks pass send, after wait bytes, the start byte, the data (0xFF for the bytes of an uncorrectable word, status UE), the status and the CRC-16 over all of them; those that fail send LEN bytes of 0x00 with their status. QSPI_BAR0_WRITE and QSPI_VELLUM_WRITE whose checks pass write and are counted; those that fail write nothing; both leave their status for the frame status. A BAR0 address that is no register sets BAR0_HOLE. QSPI_FRAME_STATUS with 0x65 sends the status and count with their CRC. A frame in the gap is ignored and leaves BUSY. -/
def Obligations.QspiFrames : Prop :=
  ∀ (addr : Word) (len crc : Half) (data : List Byte) (s : State), s.chip.qspiOn = true →
    let rchk (bar0 : Bool) (code : Byte) : Nat := frameCheck bar0 (frameHead code addr len) addr len [] crc false
    let wchk (bar0 : Bool) (code : Byte) : Nat := frameCheck bar0 (frameHead code addr len) addr len data crc false
    let sends (c : Chip) (d : List Byte) (st : Nat) : Out :=
      let body := 0x5A#8 :: d ++ [BitVec.ofNat 8 st]
      .next (s.withChip (c.fresh.2.emit (.qspiFrame (Config.qspiWait c.fresh.1) (nibbles (body ++ beBytes 2 (crc16 body).toNat)))))
    let ends (c : Chip) (st : Nat) : Out := .next (s.withChip (c.onHost fun h =>
      { h with frameStatus := st, frameCount := if st = 0 then (h.frameCount + 1) % 256 else h.frameCount }))
    (rchk true 0x61 = 0 → exec (.qspiBar0Read addr len crc false false) s = sends s.chip (leBytes 4 (s.chip.bar0Read addr.toNat).toNat) 0) ∧
    (rchk true 0x61 ≠ 0 →
      exec (.qspiBar0Read addr len crc false false) s = sends (s.chip.bar0Hole (rchk true 0x61)) (List.replicate len.toNat 0#8) (rchk true 0x61)) ∧
    (rchk false 0x63 = 0 → exec (.qspiVellumRead addr len crc false false) s =
      let c := (s.chip.vRead .host 0 addr.toNat len.toNat).2.2
      sends c (c.vellumWords addr.toNat len.toNat) (if s.chip.vBad addr.toNat len.toNat then 5 else 0)) ∧
    (rchk false 0x63 ≠ 0 → exec (.qspiVellumRead addr len crc false false) s = sends s.chip (List.replicate len.toNat 0#8) (rchk false 0x63)) ∧
    (data.length = len.toNat → wchk true 0x62 = 0 →
      exec (.qspiBar0Write addr len data crc false false) s = ends (s.chip.bar0Write addr.toNat (BitVec.ofNat 32 (leNat data))) 0) ∧
    (data.length = len.toNat → wchk true 0x62 ≠ 0 →
      exec (.qspiBar0Write addr len data crc false false) s = ends (s.chip.bar0Hole (wchk true 0x62)) (wchk true 0x62)) ∧
    (data.length = len.toNat → wchk false 0x64 = 0 →
      exec (.qspiVellumWrite addr len data crc false false) s = ends (s.chip.hostVWrite addr.toNat (data.map some)) 0) ∧
    (data.length = len.toNat → wchk false 0x64 ≠ 0 → exec (.qspiVellumWrite addr len data crc false false) s = ends s.chip (wchk false 0x64)) ∧
    (let b := [BitVec.ofNat 8 s.chip.host.frameStatus, BitVec.ofNat 8 s.chip.host.frameCount]
     exec (.qspiFrameStatus 0x65 false) s = .next (s.withChip (s.chip.emit (.qspiFrame 0 (nibbles (b ++ beBytes 2 (crc16 b).toNat)))))) ∧
    ∀ (short : Bool) (code : Byte), let busy : Out := .next (s.withChip { s.chip with host := { s.chip.host with frameStatus := 7 } })
      exec (.qspiBar0Read addr len crc true short) s = busy ∧ exec (.qspiBar0Write addr len data crc true short) s = busy ∧
      exec (.qspiVellumRead addr len crc true short) s = busy ∧ exec (.qspiVellumWrite addr len data crc true short) s = busy ∧
      exec (.qspiFrameStatus code true) s = busy

/-- O24. DESCRIPTOR_FETCH while core 0 runs Tirba first begins to serve, where it may, and darns the units that have failed; then, while Tirba is ready and activates no image, it checks the rings offered and takes one descriptor from the next ring in turn, or nothing where no ring may be fetched from. COMPLETION_POST on a ring with room, whose completion queue Tirba reaches, writes bytes 0 to 3 and 8 to 63 at once and then bytes 4 to 7 (status, DETAIL, SQ_HEAD, PHASE) of the slot at cq_tail, advances cq_tail with PHASE inverted at the wrap, and notifies the host unless the command asked for none; with no room it holds. COMMAND_TIMEOUT ends a started front command with TIMEOUT. The end of a command moves it out of flight, records its tag and status newest first, and queues its completion. -/
def Obligations.TirbaFetchesAndPosts : Prop :=
  (∀ s : State, s.chip.tirbaUp = true → let c := s.chip.serve.darnService
    (c.tirbaReady = true → c.activating = false →
      (c.checkRings.nextRing = none → exec .descriptorFetch s = .next (s.withChip c.checkRings)) ∧
      (∀ n, c.checkRings.nextRing = some n → exec .descriptorFetch s = .next (s.withChip
        (if (c.checkRings.ring n).sqHost then c.checkRings.hostFetch n else c.checkRings.vellumFetch n)))) ∧
    (c.tirbaReady = false ∨ c.activating = true → exec .descriptorFetch s = .next (s.withChip c))) ∧
  (∀ (n : Ring) (r : Reply) (t : List Reply) (s : State), s.chip.tirbaUp = true → (s.chip.ring n).checked = true →
    (s.chip.ring n).posts = r :: t → ((s.chip.ring n).cqHost = true → s.chip.bmOn = true) → r.reset = none →
    let g := s.chip.ring n
    let next := (s.chip.cqTail n + 1) % 2 ^ g.log2
    (next = s.chip.cqHead n → exec (.completionPost n) s = .next s) ∧
    (next ≠ s.chip.cqHead n →
      let a := g.cqBase + 64 * s.chip.cqTail n
      let phase := s.chip.rb (R.MBX_RST n) 31
      let body := (r.result ++ List.replicate 56 0#8).take 56
      let c := (s.chip.putSlot g.cqHost a ((leBytes 4 r.tag.toNat).map some ++ List.replicate 4 none ++ body.map some)).putSlot g.cqHost (a + 4)
        ((leBytes 4 (r.status + r.detail * 2 ^ 8 + r.sqHead % 4096 * 2 ^ 16 + b2n phase * 2 ^ 31)).map some)
      let d := ((((c.wf (R.MBX_RST n) 27 16 next).wb (R.MBX_RST n) 31 (if next = 0 then !phase else phase)).onRing n
        fun g => { g with posts := t }).countFlight)
      exec (.completionPost n) s = .next (s.withChip (if r.notify then d.notify n else d)))) ∧
  (∀ (n : Ring) (q : Cmd) (t : List Cmd) (s : State), s.chip.tirbaUp = true → (s.chip.ring n).flight = q :: t → q.stage ≠ 0 →
    exec (.commandTimeout n) s = .next (s.withChip ((s.chip.onTirba fun k => { k with bm := k.bm.filter fun b => b.owner != .payload n }).endCmd n 7 0 []))) ∧
  (∀ (c : Chip) (n : Ring) (q : Cmd) (t : List Cmd) (st det : Nat) (r : List Byte), (c.ring n).flight = q :: t → q.discard = false →
    st ≠ 8 → q.opcode ≠ 2 ∨ st = 0 → let d := c.endFront n st det r none
    d.ring n = { c.ring n with
      flight := t, prevOk := some (st == 0), history := ({ tag := q.tag, status := st, discarded := false } :: (c.ring n).history).take 16
      posts := (c.ring n).posts ++ [{ tag := q.tag, status := st, detail := det, sqHead := q.sqHead, result := r, notify := !q.flag 27, cmd := true, reset := none }] } ∧
    d.regs = c.regs ∧ d.mem = c.mem ∧ ∀ m, m ≠ n → d.ring m = c.ring m)

/-- O25. Where the front command of a ring may start: NOP ends OK. SESSION_OPEN whose rings are all free and whose versions meet takes the lowest free session with v = min(VER_MAX, CMDSET) and answers its number, v and the versions supported, and the commands already fetched on its rings join it; with no free session it gives STATE 0x04; a claimed ring gives STATE 0x02, no common version STATE 0x03 with the versions. SESSION_CLOSE frees the session of the ring and answers its rings and aborted commands. RING_STATUS of the ring itself or one of the same session, FIRST 0 or 8, answers 8 records from FIRST on with the ring's state; another FIRST gives BOUNDS 0x11, any other ring STATE 0x02. PARAM_QUERY answers page 0 or 1, and gives BOUNDS 0x11 for any other. -/
def Obligations.TirbaSessionsAndQueries : Prop :=
  ∀ (n : Ring) (q : Cmd) (s : State),
    let ends (st det : Nat) (r : List Byte) (c : Chip) : Out := .next (s.withChip (c.endCmd n st det r))
    (s.chip.front n 0x000 anyOf = some q → exec (.nopCommand n) s = ends 0 0 [] s.chip) ∧
    (s.chip.front n 0x001 anyOf = some q →
      let rings := (List.range 64).filter fun m => m == n.val || q.le 16 8 / 2 ^ m % 2 == 1
      let v := min (q.le 10 2) (s.chip.rf R.MBX_VERSION 15 0)
      let range := [(12, 2, 0x100), (14, 2, s.chip.rf R.MBX_VERSION 15 0)]
      ((∃ m ∈ rings, (s.chip.sessionOf m).isSome = true) → exec (.sessionOpen n) s = ends 5 2 [] s.chip) ∧
      ((∀ m ∈ rings, s.chip.sessionOf m = none) →
        (v < max (q.le 8 2) 0x100 → exec (.sessionOpen n) s = ends 5 3 (res range) s.chip) ∧
        (max (q.le 8 2) 0x100 ≤ v → ∀ i : Fin 8, s.chip.tirba.sessions[i] = none → (∀ j : Fin 8, j < i → s.chip.tirba.sessions[j] ≠ none) →
          exec (.sessionOpen n) s = ends 0 0 (res ([(8, 1, i.val), (10, 2, v)] ++ range)) ((s.chip.onTirba fun t => { t with
            sessions := t.sessions.set i.val (some { version := v, rings, closing := false, aborted := 0 }) i.isLt }).sessionJoin n i rings)) ∧
        (max (q.le 8 2) 0x100 ≤ v → (∀ i : Fin 8, s.chip.tirba.sessions[i] ≠ none) → exec (.sessionOpen n) s = ends 5 4 [] s.chip))) ∧
    (s.chip.front n 0x002 anyOf = some q → ∀ (i : Fin 8) (k : Session), s.chip.sessionOf n = some i → s.chip.tirba.sessions[i] = some k →
      exec (.sessionClose n) s = ends 0 0 (res [(8, 1, k.rings.length), (12, 4, k.aborted)])
        (s.chip.onTirba fun t => { t with sessions := t.sessions.set i.val none i.isLt })) ∧
    (s.chip.front n 0x003 anyOf = some q →
      (64 ≤ q.le 8 1 → exec (.ringStatus n) s = ends 5 2 [] s.chip) ∧
      (∀ m : Ring, m.val = q.le 8 1 → (q.le 9 1 ≠ 0 → q.le 9 1 ≠ 8 → exec (.ringStatus n) s = ends 4 0x11 [] s.chip) ∧
        (q.le 9 1 = 0 ∨ q.le 9 1 = 8 → ¬(m = n ∨ (s.chip.sessionOf n ≠ none ∧ s.chip.sessionOf m = s.chip.sessionOf n)) →
          exec (.ringStatus n) s = ends 5 2 [] s.chip) ∧
        (q.le 9 1 = 0 ∨ q.le 9 1 = 8 → m = n ∨ (s.chip.sessionOf n ≠ none ∧ s.chip.sessionOf m = s.chip.sessionOf n) →
          let l := (((s.chip.ring m).history).drop (q.le 9 1)).take 8
          exec (.ringStatus n) s = ends 0 0 (res ([(8, 1, m.val), (9, 1, (s.chip.ring m).history.length),
            (10, 1, b2n (s.chip.ringOn m) + b2n (s.chip.ringBit R.MBX_FRAYED m) * 2 + b2n (s.chip.ringBit R.MBX_RESET m) * 4),
            (12, 2, s.chip.sqHead m), (14, 2, s.chip.sqTail m), (56, 1, ofBits (l.map EndRecord.discarded))] ++
            ((List.range l.length).map fun i => (16 + 4 * i, 4, ((l.map EndRecord.tag).getD i 0).toNat)) ++
            ((List.range l.length).map fun i => (48 + i, 1, (l.map EndRecord.status).getD i 0)))) s.chip))) ∧
    (s.chip.front n 0x010 anyOf = some q →
      (q.le 8 1 = 0 → exec (.paramQuery n) s = ends 0 0 (res [(8, 4, (s.chip.rd R.SYS_ID).toNat), (12, 4, (s.chip.rd R.SYS_PARAM0).toNat),
        (16, 4, (s.chip.rd R.SYS_PARAM1).toNat), (20, 4, (s.chip.rd R.SYS_PARAM2).toNat), (24, 4, (s.chip.rd R.SYS_PARAM3).toNat),
        (28, 4, (s.chip.rd R.SYS_STRAP).toNat), (32, 2, s.chip.rf R.MBX_VERSION 15 0), (34, 2, 0x100), (36, 2, s.chip.rf R.MBX_VERSION 31 16),
        (38, 1, s.chip.openSessions)]) s.chip) ∧
      (q.le 8 1 = 1 → exec (.paramQuery n) s = ends 0 0 (res [(8, 4, tirbaBase), (12, 4, tirbaLen),
        (16, 4, s.chip.rf R.DRN_JRN_BASE 25 13 * 0x2000), (20, 4, 0x2000)]) s.chip) ∧
      (2 ≤ q.le 8 1 → exec (.paramQuery n) s = ends 4 0x11 [] s.chip))

/-- O26. Where the front command of a ring may start: BLOCK_COPY of nothing ends OK at once; one within Vellum whose destination passes the checks, with no uncorrectable word in the source and no overlap that the copy runs into, writes the source bytes to the destination; one from host memory writes its payload once all of it is there. BLOCK_FILL of a multiple of 4 bytes writes the word over the range. COMMIT with a mask of its Beams requests the transfer of each and keeps the transfer that serves it; once these have ended it starts the Beams named for the first time and answers the frames and the LATE bits. -/
def Obligations.TirbaBlocksAndCommits : Prop :=
  ∀ (n : Ring) (q : Cmd) (s : State),
    let ends (st det : Nat) (r : List Byte) (c : Chip) : Out := .next (s.withChip (c.endCmd n st det r))
    (s.chip.front n 0x020 anyOf = some q → q.stage = 0 → q.len = 0 → exec (.blockCopy n) s = ends 0 0 [] s.chip) ∧
    (s.chip.front n 0x020 anyOf = some q → q.stage = 0 → q.len ≠ 0 → q.host = false → firstOf (rangeChecks (q.le 20 4) q.len) = none →
      s.chip.firstBad (vlmBase + q.addr) q.len = none → ¬(q.addr < q.le 20 4 ∧ q.le 20 4 < q.addr + q.len) →
      exec (.blockCopy n) s = ends 0 0 [] ((s.chip.vRead .bobbin Config.tirbaBob.toNat q.addr q.len).2.2.vWrite (q.le 20 4)
        (s.chip.vbytes q.addr q.len))) ∧
    (s.chip.front n 0x020 anyOf = some q → q.stage ≠ 0 → q.readFailed = false → q.len ≤ q.payload.length →
      exec (.blockCopy n) s = ends 0 0 [] (s.chip.vWrite (q.le 20 4) (q.payload.take q.len))) ∧
    (s.chip.front n 0x021 anyOf = some q → q.le 8 4 % 4 = 0 → q.le 12 4 % 4 = 0 →
      q.le 12 4 = 0 ∨ firstOf (rangeChecks (q.le 8 4) (q.le 12 4)) = none →
      exec (.blockFill n) s = ends 0 0 [] (s.chip.vWrite (q.le 8 4) (List.replicate (q.le 12 4 / 4) (leBytes 4 (q.le 16 4))).flatten)) ∧
    (s.chip.front n 0x021 anyOf = some q → q.le 8 4 % 4 ≠ 0 ∨ q.le 12 4 % 4 ≠ 0 → exec (.blockFill n) s = ends 4 0x12 [] s.chip) ∧
    (s.chip.front n 0x080 anyOf = some q → q.stage = 0 → q.le 8 1 = 3 →
      let a := s.chip.commitAsk 0
      let b := a.2.commitAsk 1
      exec (.commit n) s = .next (s.withChip (b.2.toStage n 2 [a.1.1, b.1.1, a.1.2 + b.1.2 * 2]))) ∧
    (s.chip.front n 0x080 anyOf = some q → q.stage ≠ 0 → q.le 8 1 = 1 → q.keep.getD 0 0 ≤ (s.chip.apq[(0 : Beam)]).ends.length →
      exec (.commit n) s = ends 0 0 (res [(8, 4, ((s.chip.apq[(0 : Beam)]).ends.getD (q.keep.getD 0 0 - 1) 0).toNat), (12, 4, 0),
        (16, 1, q.keep.getD 2 0)]) (s.chip.beamFirst 0)) ∧
    (s.chip.front n 0x080 anyOf = some q → q.stage = 0 → q.le 8 1 = 0 → exec (.commit n) s = ends 4 0x11 [] s.chip)

/-- O27. Where the front command of a ring may start and its checks pass, each writes the shadow registers that its fields give, as a store of a core would, and ends OK: PLANE_SET a block for each record, MOTIF_CONFIG both configurations, WINDOW_SET the window's control and position, LAYER_ORDER mode, backdrop and the five order words, PALETTE_LOAD the entries of its payload (held while the Beam's transfer runs), SIG_REGION_SET the region's position and size. SIG_READ of a frame that is kept answers its number, masks and the region's raw and folded signature, without reference use. A check that fails ends the command with its status and DETAIL and no effect. -/
def Obligations.TirbaLayersAndSignatures : Prop :=
  ∀ (n : Ring) (q : Cmd) (s : State),
    let ends (st det : Nat) (r : List Byte) (c : Chip) : Out := .next (s.withChip (c.endCmd n st det r))
    (s.chip.front n 0x040 anyOf = some q →
      (firstOf (s.chip.planeChecks q) = none → exec (.planeSet n) s = ends 0 0 [] (forEach q.planeRecs Chip.putPlane s.chip)) ∧
      (∀ st det, firstOf (s.chip.planeChecks q) = some (st, det) → exec (.planeSet n) s = ends st det [] s.chip)) ∧
    (s.chip.front n 0x041 anyOf = some q → firstOf (baseChecks (q.le 12 4) 0x8000) = none → exec (.motifConfig n) s = ends 0 0 []
      ((s.chip.storeMtf 0 R.MTF_SH_CFGA (BitVec.ofNat 32 (q.le 12 4 + q.bit 9 0 * 2 + q.bit 8 0))).storeMtf 0 R.MTF_SH_CFGB
        (BitVec.ofNat 32 (q.le 12 4 + q.bit 9 1 * 2 + q.bit 8 1)))) ∧
    (s.chip.front n 0x042 anyOf = some q → q.le 8 1 ≤ 7 → q.le 9 1 ≤ 1 → tb (s.chip.rd (R.EYE_WIN_SH_CTRL (q.le 8 1))) 0 = false →
      q.bit 10 0 = 0 ∨ s.chip.tirba.ports.contains (q.le 8 1) = true → exec (.windowSet n) s = ends 0 0 []
        ((s.chip.storeEyePage (R.EYE_WIN_SH_CTRL (q.le 8 1)) (BitVec.ofNat 32 (q.bit 10 0 + q.le 9 1 * 2 + q.bit 10 1 * 4 + q.le 11 1 * 256))).storeEyePage
          (R.EYE_WIN_SH_POS (q.le 8 1)) (BitVec.ofNat 32 (q.le 12 4)))) ∧
    (s.chip.front n 0x043 anyOf = some q → ∀ b : Beam, q.le 8 1 = b.val → q.le 9 1 = 0 → q.le 10 1 ≤ 1 →
      let id (i : Nat) : Nat := if i < 17 then q.le (12 + i) 1 else 0xFF
      exec (.layerOrder n) s = ends 0 0 [] (forEach (List.range 5) (fun k c => c.storeApq b (R.APQ_SH_ORDER b k)
          (BitVec.ofNat 32 (id (4 * k) + id (4 * k + 1) * 2 ^ 8 + id (4 * k + 2) * 2 ^ 16 + id (4 * k + 3) * 2 ^ 24)))
        ((s.chip.storeApq b (R.APQ_SH_MODE b) (BitVec.ofNat 32 (q.le 10 1 * 2))).storeApq b (R.APQ_SH_BACKDROP b) (BitVec.ofNat 32 (q.le 32 3))))) ∧
    (s.chip.front n 0x048 anyOf = some q → q.stage ≠ 0 → q.readFailed = false → q.len ≤ q.payload.length → ∀ b : Beam, q.le 20 1 = b.val →
      exec (.paletteLoad n) s = ends 0 0 [] (forEach (List.range (q.len / 4)) (fun i c => c.spalPut b (q.le 21 1 * 256 + q.le 22 2 + i)
        (BitVec.ofNat 32 (leNat (((q.payload.take q.len).drop (4 * i)).take 4)))) s.chip)) ∧
    (s.chip.front n 0x048 anyOf = some q → q.stage = 0 → ∀ st det, firstOf (paletteChecks q) = some (st, det) →
      exec (.paletteLoad n) s = ends st det [] s.chip) ∧
    (s.chip.front n 0x090 anyOf = some q → ∀ b : Beam, q.le 8 1 = b.val → q.le 9 1 ≤ 15 → exec (.sigRegionSet n) s = ends 0 0 []
      ((s.chip.storeApq b (R.APQ_SIG_SH_POS b (q.le 9 1)) (BitVec.ofNat 32 (min (q.le 12 2) 0x1FFF + min (q.le 14 2) 0x1FFF * 2 ^ 16))).storeApq b
        (R.APQ_SIG_SH_SIZE b (q.le 9 1)) (BitVec.ofNat 32 (min (q.le 16 2) 0x1FFF + min (q.le 18 2) 0x1FFF * 2 ^ 16 + q.bit 10 0 * 2 ^ 31)))) ∧
    (s.chip.front n 0x091 anyOf = some q → q.ref = false → ∀ b : Beam, q.le 20 1 = b.val → q.le 21 1 ≤ 15 → ∀ f : SigFrame,
      s.chip.sigFind b (BitVec.ofNat 32 (q.le 24 4)) = .frame f → exec (.sigRead n) s = ends 0 0 (res [(8, 4, f.frame.toNat),
        (12, 2, f.enabled.toNat), (14, 2, f.uncertain.toNat), (16, 2, f.mismatch q), (20, 4, (f.raw.getD (q.le 21 1) 0).toNat),
        (24, 4, (f.folded.getD (q.le 21 1) 0).toNat)]) s.chip)

/-- O28. Where the front command of a ring may start and its checks pass: PORT_CONFIG writes the port's registers, loads both coefficient tables, writes the FSYNC settings and marks the port configured. PORT_CONTROL start of a configured port that does not run, within the rate limit, sets its EN. PORT_CONTROL stop of a port that does not run ends OK; one that runs has EN cleared, and ends once it stands still, or after 100 ms with the port aborted (log entry 109, the model's choice). PORT_POLICY stores the policy, and takes it at once on a port that does not run. PORT_STATUS answers the port's counters. I2C_TRANSFER on a free master loads it and starts the transaction, and ends OK with the bytes read once it is done. -/
def Obligations.TirbaPortsAndI2c : Prop :=
  ∀ (n : Ring) (q : Cmd) (s : State),
    let ends (st det : Nat) (r : List Byte) (c : Chip) : Out := .next (s.withChip (c.endCmd n st det r))
    (s.chip.front n 0x0A0 anyOf = some q → ∀ p : Port, q.le 8 1 = p.val →
      firstOf (portFieldChecks q ++ rangeChecks (q.le 16 4) (portBytes q) ++ [(s.chip.eyeBusy p, 5, 0x11)]) = none →
      let ctrl := q.le 14 1 * 2 + q.le 23 1 * 8 + q.bit 22 0 * 16 + q.le 9 1 * 32 + q.le 12 1 * 256 + q.le 13 1 * 2 ^ 16 + q.le 15 1 * 2 ^ 24
      let lane := q.le 10 1 + q.le 11 1 % 32 * 2 ^ 8 + q.le 36 2 * 2 ^ 16
      let c := forEach [(R.EYE_CTRL p, w32 ctrl), (R.EYE_LANE p, w32 lane), (R.EYE_BUF p, w32 (q.le 16 4)), (R.EYE_STRIDE p, w32 (q.le 20 2)),
        (R.EYE_CROP_POS p, q.pair13 24), (R.EYE_CROP_SIZE p, q.pair13 28), (R.EYE_OUT_SIZE p, q.pair13 32)]
        (fun e c => c.storeEyePage e.1 e.2) s.chip
      let d := (c.loadCoefs p 0 (sat13 (q.le 28 2)) (sat13 (q.le 32 2))).loadCoefs p 1 (sat13 (q.le 30 2)) (sat13 (q.le 34 2))
      exec (.portConfig n) s = ends 0 0 [] (((d.storePrk 0 (R.PRK_FS_POS p) (w32 (q.le 40 4))).storePrk 0 (R.PRK_FS_CTRL p)
        (w32 (q.le 44 4))).onTirba fun t => { t with ports := if t.ports.contains p.val then t.ports else t.ports ++ [p.val] })) ∧
    (s.chip.front n 0x0A1 (fun q => q.le 9 1 != 0) = some q → ∀ p : Port, q.le 8 1 = p.val → q.le 9 1 = 1 →
      s.chip.tirba.ports.contains p.val = true →
      (s.chip.rb (R.EYE_CTRL p) 0 = true → exec (.portStart n) s = ends 0 0 [] s.chip) ∧
      (s.chip.rb (R.EYE_CTRL p) 0 = false →
        ((((List.finRange 8).filter fun m => m ≠ p ∧ s.chip.eyeBusy m).map s.chip.portRate).foldl (· + ·) (s.chip.portRate p)) ≤ 2400 →
        exec (.portStart n) s = ends 0 0 [] (s.chip.storeEyePage (R.EYE_CTRL p) (setBit (s.chip.rd (R.EYE_CTRL p)) 0 true)))) ∧
    (s.chip.front n 0x0A1 (fun q => q.le 9 1 == 0) = some q → q.stage = 0 → ∀ p : Port, q.le 8 1 = p.val →
      (s.chip.eyeRunning p = false → exec (.portStop n) s = ends 0 0 [] s.chip) ∧
      (s.chip.eyeRunning p = true →
        let c := s.chip.storeEyePage (R.EYE_CTRL p) (setBit (s.chip.rd (R.EYE_CTRL p)) 0 false)
        exec (.portStop n) s = if c.eyeRunning p then .next (s.withChip (c.toStage n 2 [c.time.toNat])) else ends 0 0 [] c)) ∧
    (s.chip.front n 0x0A1 (fun q => q.le 9 1 == 0) = some q → q.stage ≠ 0 → ∀ p : Port, q.le 8 1 = p.val →
      (s.chip.eyeRunning p = false → exec (.portStop n) s = ends 0 0 [] s.chip) ∧
      (s.chip.eyeRunning p = true → q.keep.getD 0 0 + 9600000 ≤ s.chip.time.toNat →
        exec (.portStop n) s = ends 0 0 [] (s.chip.eyeAbort p))) ∧
    (s.chip.front n 0x0A2 anyOf = some q → ∀ p : Port, q.le 8 1 = p.val → q.le 9 1 ≠ 1 → q.le 10 2 ≤ 1000 → q.le 12 1 ≤ 2 → q.le 13 1 ≤ 2 →
      q.le 14 1 ≤ 2 → q.le 15 1 ≤ 7 →
      ((q.le 12 1 = 2 ∨ q.le 13 1 = 2 ∨ q.le 14 1 = 2) → s.chip.rb (R.GND_SH_CTRL (q.le 15 1)) 1 = s.chip.rb (R.EYE_WIN_SH_CTRL p) 1) →
      let c := s.chip.onEye p fun k => { k with policy := some (w32 (q.le 9 1 + q.le 12 1 * 2 ^ 8 + q.le 13 1 * 2 ^ 10 + q.le 14 1 * 2 ^ 12 +
          q.le 15 1 * 2 ^ 16), w32 (q.le 10 2)) }
      (s.chip.eyeRunning p = false → exec (.portPolicy n) s = ends 0 0 [] (c.policyTake p)) ∧
      (s.chip.eyeRunning p = true → exec (.portPolicy n) s = ends 0 0 [] c)) ∧
    (s.chip.front n 0x0A3 anyOf = some q → ∀ p : Port, q.le 8 1 = p.val → exec (.portStatus n) s = ends 0 0
      (res [(8, 1, (s.chip.readEye (R.EYE_STAT p)).1.toNat % 16), (12, 4, (s.chip.rd (R.EYE_FRAMES p)).toNat),
        (16, 2, (s.chip.rd (R.EYE_FNUM p)).toNat), (20, 4, (s.chip.rd (R.PRK_FS_CAP p)).toNat), (24, 4, (s.chip.rd (R.EYE_PKTERR p)).toNat),
        (28, 4, (s.chip.rd (R.EYE_EVCNT p)).toNat)]) s.chip) ∧
    (s.chip.front n 0x0A8 anyOf = some q → ∀ m : Fin 4, q.le 8 1 = m.val →
      (q.stage = 0 → q.le 9 1 ≤ 127 → q.le 10 1 ≤ 2 → q.le 11 1 ≤ 32 → q.le 12 1 ≤ 32 → s.chip.rb (R.I2C_STAT m) 0 = false →
        let c := (s.chip.storeSer (R.I2C_CTRL m) (w32 (1 + q.le 10 1 * 2))).storeSer (R.I2C_STAT m) 0x7E
        let d := forEach (List.range ((q.le 11 1 + 3) / 4)) (fun k c => c.storeSer (R.I2C_WBUF m k) (w32 (q.le (16 + 4 * k) 4))) c
        exec (.i2cTransfer n) s = .next (s.withChip ((d.storeSer (R.I2C_XFER m)
          (w32 (q.le 9 1 + q.le 11 1 * 2 ^ 8 + q.le 12 1 * 2 ^ 16 + 2 ^ 31))).toStage n 2 []))) ∧
      (q.stage ≠ 0 → s.chip.rb (R.I2C_STAT m) 0 = false → s.chip.rb (R.I2C_STAT m) 2 = false → s.chip.rb (R.I2C_STAT m) 1 = true →
        let bs := ((List.range 8).flatMap fun k => leBytes 4 (s.chip.rd (R.I2C_RBUF m k)).toNat).take (q.le 12 1)
        exec (.i2cTransfer n) s = ends 0 0 (res [(16, q.le 12 1, leNat bs)]) s.chip))

/-- O29. Where the front command of a ring may start and its checks pass: VOICE_PLAY of an idle voice writes its registers and gain and arms it. VOICE_CONTROL stops or releases a voice in any state, and gives one that plays its gain or pitch. BUS_CONFIG without an effect block writes the bus gain and then enables the bus with its mode and port. AUDIO_PORT on a port that is off sets the clock for its role and then the port's fields. A voice number past 95 ends VOICE_CONTROL with BOUNDS 0x10 and no effect. -/
def Obligations.TirbaSoundCommands : Prop :=
  ∀ (n : Ring) (q : Cmd) (s : State),
    let ends (st det : Nat) (r : List Byte) (c : Chip) : Out := .next (s.withChip (c.endCmd n st det r))
    let v := q.le 8 1
    (s.chip.front n 0x0C0 anyOf = some q → v ≤ 95 → q.le 9 1 ≤ 7 → q.le 10 1 ≤ 5 → q.le 11 1 ≤ 15 → badGain (q.le 34 1) (q.le 36 2) = false →
      q.le 44 2 ≤ 10000 → q.le 46 2 ≤ 10000 → q.le 12 4 % 8 = 0 → q.le 16 4 ≠ 0 → q.le 16 4 < 2 ^ 25 → q.le 12 4 + q.le 16 4 * fmtBytes (q.le 10 1) ≤ vlmSize →
      q.le 20 4 + q.le 24 4 ≤ q.le 16 4 → inTirba (q.le 12 4) (q.le 16 4 * fmtBytes (q.le 10 1)) = false → s.chip.vState v = 0 →
      let c := forEach [(R.V_BASE v, q.le 12 4), (R.V_LENGTH v, q.le 16 4), (R.V_LOOP_START v, q.le 20 4), (R.V_LOOP_LEN v, q.le 24 4),
        (R.V_PITCH v, q.le 28 4), (R.V_ENV v, q.le 44 2 + q.le 46 2 * 2 ^ 16), (R.V_START v, q.le 40 4)] (fun e c => c.store e.1 (w32 e.2)) s.chip
      exec (.voicePlay n) s = ends 0 0 [] ((c.voiceGain v (w32 (q.le 32 2 + q.le 36 2 * 2 ^ 16 + q.le 34 1 * 2 ^ 31))).voiceCtrl v
        (w32 (q.le 10 1 + q.le 9 1 * 2 ^ 4 + q.le 11 1 * 2 ^ 8 + 2 ^ 16 + (if q.le 40 4 = 0 then 0 else 2 ^ 20))))) ∧
    (s.chip.front n 0x0C1 (actionIs 9 0 3 true) = some q → q.le 9 1 ≤ 3 → v ≤ 95 → exec (.voiceControlStop n) s = ends 0 0 [] (s.chip.voiceStop v)) ∧
    (s.chip.front n 0x0C1 (actionIs 9 0 3 true) = some q → 95 < v → exec (.voiceControlStop n) s = ends 4 0x10 [] s.chip) ∧
    (s.chip.front n 0x0C1 (actionIs 9 1 3 false) = some q → q.le 9 1 ≤ 3 → v ≤ 95 → exec (.voiceControlRelease n) s = ends 0 0 [] (s.chip.voiceRelease v)) ∧
    (s.chip.front n 0x0C1 (actionIs 9 2 3 false) = some q → q.le 9 1 ≤ 3 → v ≤ 95 → s.chip.vState v ≠ 0 → badGain (q.le 14 1) (q.le 16 2) = false →
      exec (.voiceControlGain n) s = ends 0 0 [] (s.chip.voiceGain v (w32 (q.le 12 2 + q.le 16 2 * 2 ^ 16 + q.le 14 1 * 2 ^ 31)))) ∧
    (s.chip.front n 0x0C1 (actionIs 9 3 3 false) = some q → q.le 9 1 ≤ 3 → v ≤ 95 → s.chip.vState v ≠ 0 →
      exec (.voiceControlPitch n) s = ends 0 0 [] (s.chip.store (R.V_PITCH v) (w32 (q.le 20 4)))) ∧
    (s.chip.front n 0x0C2 anyOf = some q → q.stage = 0 → q.ref = false → firstOf (s.chip.busChecks q) = none → ∀ b : Bus, q.le 20 1 = b.val →
      let c := s.chip.storeSnd 0 (R.SND_BUS_GAIN b) (w32 (q.le 22 2 + q.le 26 2 * 2 ^ 16 + q.le 24 1 * 2 ^ 31))
      let port := if q.le 28 1 = 0xFF then 3 else q.le 28 1
      exec (.busConfig n) s = ends 0 0 [] (c.storeSnd 0 (R.SND_BUS_CTRL b)
        (w32 (1 + q.le 21 1 * 2 + port * 4 + q.le 29 1 * 16 + b2n (c.rb (R.SND_BUS_CTRL b) 8) * 0x100)))) ∧
    (s.chip.front n 0x0C3 anyOf = some q → v ≤ 2 → q.le 9 1 = 1 → 1 ≤ q.le 10 1 → q.le 10 1 ≤ 8 → q.le 11 1 = 24 → q.le 12 1 ≤ 2 →
      q.bit 13 1 = 0 → s.chip.rb (R.AUD_PCTRL v) 0 = false →
      let master := q.bit 13 0
      exec (.audioPort n) s = ends 0 0 [] ((s.chip.storeAud R.AUD_CLK (w32 (q.le 12 1 + (1 - master) * 4 + (if master = 1 then 0 else v * 16)))).storeAud
        (R.AUD_PCTRL v) (w32 (master * 2 + (q.le 10 1 - 1) * 8 + 64 + 1))))

/-- O30. Where the front command of a ring may start: TELEMETRY_READ, DARN_STATUS, FW_INFO and LCY_STATUS answer the fields of their tables and change nothing but the ring. SUPPLY_CONFIG within its limits stores MARGIN, the shed limit and the voice shed. CHARGER_CONFIG within its limits, in no state RETIRED, stores the charge current, the input limit and then EMB_CTRL. LOG_READ of the darn log into Vellum writes the entries from START on that fit the reference and answers where it stands. A field out of range ends SUPPLY_CONFIG with BOUNDS 0x11 and no effect. -/
def Obligations.TirbaDeviceAnswers : Prop :=
  ∀ (n : Ring) (q : Cmd) (s : State),
    let ends (st det : Nat) (r : List Byte) (c : Chip) : Out := .next (s.withChip (c.endCmd n st det r))
    (s.chip.front n 0x0E0 anyOf = some q → ∀ tmax tmin vcore vin vbat ichg : Half, exec (.telemetryRead n tmax tmin vcore vin vbat ichg) s = ends 0 0
      (res [(8, 2, tmax.toNat), (10, 2, tmin.toNat), (12, 2, vcore.toNat), (14, 2, vin.toNat), (16, 2, vbat.toNat), (18, 2, ichg.toNat),
        (20, 2, s.chip.rf R.LTN_ICORE 15 0), (22, 1, s.chip.phasesOn), (23, 1, s.chip.shedLevel), (24, 2, s.chip.rf (R.PRK_SLACK 0) 31 16),
        (26, 2, s.chip.rf (R.PRK_SLACK 1) 31 16), (28, 2, s.chip.rf R.SYS_SPEED 15 0)]) s.chip) ∧
    (s.chip.front n 0x0E1 anyOf = some q →
      (q.le 8 2 ≤ 1023 → q.le 10 1 ≤ 15 → q.le 11 1 ≤ 15 →
        let c := s.chip.storeLtn R.LTN_MARGIN (setFld (s.chip.rd R.LTN_MARGIN) 9 0 (q.le 8 2))
        exec (.supplyConfig n) s = ends 0 0 [] ((c.storeLtn R.LTN_SHED (setFld (c.rd R.LTN_SHED) 11 8 (q.le 10 1))).storeSndPage 0 R.SND_SHED
          (w32 (q.le 11 1)))) ∧
      (1023 < q.le 8 2 ∨ 15 < q.le 10 1 ∨ 15 < q.le 11 1 → exec (.supplyConfig n) s = ends 4 0x11 [] s.chip)) ∧
    (s.chip.front n 0x0E2 anyOf = some q → q.le 8 1 ≤ 1 → q.le 9 1 ≤ 1 → 5 ≤ q.le 10 2 → q.le 10 2 ≤ 150 → 3000 ≤ q.le 12 2 → q.le 12 2 ≤ 3300 →
      q.le 14 1 ≤ 2 → s.chip.lcyState ≠ 6 → exec (.chargerConfig n) s = ends 0 0 []
        (((s.chip.storeEmb R.EMB_ICHG (w32 (q.le 10 2))).storeEmb R.EMB_VINREG (w32 (q.le 12 2))).storeEmb R.EMB_CTRL
          (w32 (q.le 8 1 + q.le 9 1 * 2 + q.le 14 1 * 4)))) ∧
    (s.chip.front n 0x0F0 anyOf = some q → exec (.darnStatus n) s = ends 0 0 (res [(8, 1, s.chip.freeSpares.length), (9, 1, b2n s.chip.pipeSpare),
      (10, 1, s.chip.spareVoices.length), (11, 1, b2n s.chip.motif.spareFor.isNone), (12, 1, s.chip.sparePhases.length),
      (13, 1, match s.chip.tirba.adopt with | some a => a.core.val | none => 0xFF),
      (14, 1, if s.chip.copyActive then s.chip.rf R.DRN_COPY 6 0 else 0xFF), (16, 2, s.chip.rf R.DRN_COPY_STAT 15 0), (20, 4, s.chip.drn.darns)]) s.chip) ∧
    (s.chip.front n 0x102 anyOf = some q → exec (.fwInfo n) s = ends 0 0 (res [(8, 1, s.chip.tirba.bootSlot), (9, 1, s.chip.tirba.runSlot),
      (12, 4, (s.chip.rd R.SYS_BOOT_STAT).toNat), (16, 4, (s.chip.rd R.SYS_BOOT_SEQ_A).toNat), (20, 4, (s.chip.rd R.SYS_BOOT_SEQ_B).toNat),
      (24, 4, s.chip.tirba.runSeq.toNat), (28, 1, s.chip.arbCount), (32, 2, s.chip.rf R.MBX_VERSION 31 16)]) s.chip) ∧
    (s.chip.front n 0x110 anyOf = some q → exec (.lcyStatus n) s = ends 0 0 (res [(8, 1, s.chip.lcyState), (9, 1, s.chip.arbCount),
      (10, 1, ofBits ((List.range 4).map s.chip.keyInForce)), (11, 1, b2n (s.chip.rb R.LCY_STICKY 0)), (16, 8, Config.serial.toNat)]) s.chip) ∧
    (s.chip.front n 0x120 anyOf = some q → q.le 20 1 = 1 → 32 ≤ q.len → q.le 24 4 ≠ 0xFFFFFFFF →
      let top := s.chip.drn.log.length
      let first := min (q.le 24 4) top
      let k := min (q.len / 32) (top - first)
      exec (.logRead n) s = ends 0 0 (res [(8, 4, first), (12, 4, k), (16, 4, first + k), (20, 4, 0)])
        (s.chip.writeRef q ((s.chip.drn.log.drop first).take k).flatten)) ∧
    (s.chip.front n 0x120 anyOf = some q → 1 < q.le 20 1 → exec (.logRead n) s = ends 4 0x11 [] s.chip)

/-- O31. Where the front command of a ring may start: DARN_REQUEST of a bank that a spare serves already ends with STATE 0x12, and while a copy runs with BUSY 0x11; of a healthy motif slice with its spare free it darns the slice and ends OK; of a bank with no free spare it journals NO_SPARE and ends with STATE 0x16; a request that waits for its bank ends OK once the spare serves it. GLASS_HOLD enter on a running Beam set up for it starts the hold, and ends once the hold is reached with its frame. Release of a held Beam starts the release and clears the record. Adopt of a Beam that never ran restores the hold. DEVICE_RESET with the right key ends OK, its completion carrying the reset, warm or cold. -/
def Obligations.TirbaDarningHoldAndReset : Prop :=
  ∀ (n : Ring) (q : Cmd) (s : State),
    let ends (st det : Nat) (r : List Byte) (c : Chip) : Out := .next (s.withChip (c.endCmd n st det r))
    (s.chip.front n 0x0F1 anyOf = some q → q.stage = 0 →
      (q.le 8 1 = 0 → q.le 10 2 < 96 → s.chip.physBank (q.le 10 2) ≠ q.le 10 2 → exec (.darnRequest n) s = ends 5 0x12 [] s.chip) ∧
      (q.le 8 1 = 0 → q.le 10 2 < 96 → s.chip.physBank (q.le 10 2) = q.le 10 2 → s.chip.copyActive = true →
        exec (.darnRequest n) s = ends 1 0x11 [] s.chip) ∧
      (q.le 8 1 = 0 → q.le 10 2 < 96 → s.chip.physBank (q.le 10 2) = q.le 10 2 → s.chip.copyActive = false → s.chip.freeSpares = [] →
        exec (.darnRequest n) s = ends 5 0x16 [] (s.chip.journal 0x0A 0x06 (q.le 10 2) 0 0 0)) ∧
      (q.le 8 1 = 2 → q.le 10 2 < 32 → s.chip.motif.spareFor = none →
        exec (.darnRequest n) s = ends 0 0 [] (s.chip.storeVlm R.DRN_SLICE (w32 (q.le 10 2 + 2 ^ 9))))) ∧
    (s.chip.front n 0x0F1 anyOf = some q → q.stage ≠ 0 → q.le 8 1 = 0 → s.chip.physBank (q.le 10 2) ≠ q.le 10 2 →
      exec (.darnRequest n) s = ends 0 0 [] s.chip) ∧
    (s.chip.front n 0x0F8 (actionIs 9 0 2 true) = some q → q.le 8 1 = 1 → q.le 9 1 = 0 →
      (q.stage = 0 → s.chip.running 0 = true → s.chip.holdUnset 0 = false → s.chip.holdSt 0 = 0 →
        exec (.glassHoldEnter n) s = .next (s.withChip ((s.chip.holdEnter 0).toStage n 2 []))) ∧
      (q.stage ≠ 0 → s.chip.holdSt 0 = 2 → exec (.glassHoldEnter n) s =
        ends 0 0 (res [(8, 4, (s.chip.rd (R.BMO_HOLD_FRAME 0)).toNat), (12, 4, 0)]) (s.chip.holdMark 0 true))) ∧
    (s.chip.front n 0x0F8 (actionIs 9 1 2 false) = some q → q.le 8 1 = 1 →
      (q.stage = 0 → s.chip.running 0 = true → s.chip.holdSt 0 = 2 →
        exec (.glassHoldRelease n) s = .next (s.withChip (((s.chip.holdRelease 0).holdMark 0 false).toStage n 2 []))) ∧
      (q.stage ≠ 0 → s.chip.holdSt 0 = 0 → s.chip.link 0 = 2 → exec (.glassHoldRelease n) s = ends 0 0 [] s.chip)) ∧
    (s.chip.front n 0x0F8 (actionIs 9 2 2 false) = some q → q.le 8 1 = 1 → s.chip.tirba.started[(0 : Beam)] = false → s.chip.running 0 = false →
      exec (.glassHoldAdopt n) s = ends 0 0 [] ((s.chip.wb (R.BMO_HOLD 0) 2 true).holdMark 0 true)) ∧
    (q.le 12 4 = 0x52535444 → (s.chip.runsNow 0x100 || s.chip.runsNow 0x101) = false →
      (s.chip.front n 0x0F9 (actionIs 8 0 1 true) = some q → q.le 8 1 = 0 →
        exec (.deviceResetWarm n) s = .next (s.withChip ((s.chip.endFront n 0 0 [] (some false)).settleAll))) ∧
      (s.chip.front n 0x0F9 (actionIs 8 1 1 false) = some q → q.le 8 1 = 1 →
        exec (.deviceResetCold n) s = .next (s.withChip ((s.chip.endFront n 0 0 [] (some true)).settleAll))))

/-- O32. FW_STAGE of a payload that is all there, read from the host or in Vellum where its checks pass, whose length is not that of its header ends with BOUNDS 0x11; one whose image fails a check answers that status; a valid image has its slot erased, then written from byte 4 on, then its MAGIC written, then read back, and the command ends OK, or with FAULT 0x11 on a flash error at any of these. FW_ACTIVATE of the running slot ends with STATE 0x15; of a slot whose header fails it answers that status; of a header-valid slot it reads the body and stages both images; once it is the only command in flight it switches the image. LCY_ADVANCE ends once the sequencer has ended, with its RESULT. LCY_OP_GO of a record that fails a check sets RESULT to that check; one that passes starts the operation, or where the journal does not read back sets RESULT 7 and leaves the journal's bytes open; while an operation runs nothing happens. LCY_OPERATION_END blows the operation's fuses and ends it with its RESULT. -/
def Obligations.TirbaFirmwareAndLifeCycle : Prop :=
  ∀ (n : Ring) (q : Cmd) (s : State),
    let ends (st det : Nat) (r : List Byte) (c : Chip) : Out := .next (s.withChip (c.endCmd n st det r))
    (∀ (fail : Bool) (bs : List Byte) (c : Chip), s.chip.front n 0x100 (fun q => decide (2 ≤ q.stage)) = none →
      s.chip.front n 0x100 (fun _ => true) = some q →
      (q.stage ≠ 0 ∧ q.readFailed = false ∧ q.len ≤ q.payload.length ∧ bs = q.payload.take q.len ∧ c = s.chip) ∨
        (q.stage = 0 ∧ q.host = false ∧ 0 < q.len ∧ q.len ≤ 65536 ∧ q.le 20 1 ≤ 1 ∧ q.le 20 1 ≠ s.chip.tirba.bootSlot ∧
          q.le 20 1 ≠ s.chip.tirba.runSlot ∧ s.chip.runsNow 0x101 = false ∧ s.chip.runsNow 0x100 = false ∧
          s.chip.vRead .core 0 q.addr q.len = (bs, false, c)) →
      let h := bs.take 256
      let st := if c.headerStatus h = 1 ∧ bodyOk h (bs.drop 256) = false then 8 else c.headerStatus h
      (bs.length ≠ 256 + hdrLength h → exec (.fwStage n fail) s = ends 4 0x11 [] c) ∧
      (bs.length = 256 + hdrLength h → st ≠ 1 → exec (.fwStage n fail) s =
        ends (imageStatus st).1 (imageStatus st).2 (res [(8, 4, hdrSeq h), (12, 1, st)]) c) ∧
      (bs.length = 256 + hdrLength h → st = 1 → exec (.fwStage n fail) s =
        .next (s.withChip (((((c.emit (.flashCode 0x66)).emit (.flashCode 0x99)).emit (.flashCode 0x06)).emit
          (.flashErase (0x10000 * q.le 20 1))).onFront n fun _ => { q with stage := 2, payload := bs })))) ∧
    (s.chip.front n 0x100 (fun q => decide (2 ≤ q.stage)) = some q →
      let a := 0x10000 * q.le 20 1
      let acts (o : Output) (k : Nat) : Out := .next (s.withChip ((s.chip.emit o).toStage n k []))
      exec (.fwStage n true) s = ends 8 0x11 [] s.chip ∧
      (q.stage = 2 → exec (.fwStage n false) s = acts (.flashProgram (a + 4) (q.payload.drop 4)) 3) ∧
      (q.stage = 3 → exec (.fwStage n false) s = acts (.flashProgram a (q.payload.take 4)) 4) ∧
      (q.stage = 4 → exec (.fwStage n false) s = acts (.flashRead a 0x10000) 5) ∧
      (q.stage = 5 → exec (.fwStage n false) s = ends 0 0 (res [(8, 4, hdrSeq q.payload), (12, 1, 1)]) s.chip)) ∧
    (s.chip.front n 0x101 anyOf = some q → q.stage = 0 → ∀ (f : FlashSlot) (e : Bool),
      (q.le 8 1 ≤ 1 → q.le 8 1 = s.chip.tirba.runSlot → exec (.fwActivate n f e) s = ends 5 0x15 [] s.chip) ∧
      (q.le 8 1 ≤ 1 → q.le 8 1 ≠ s.chip.tirba.runSlot → s.chip.tirba.adopt = none →
        (s.chip.runsNow 0x100 || s.chip.runsNow 0x101) = false →
        let st := (s.chip.flashHeader (q.le 8 1) f).1
        let c := (s.chip.flashHeader (q.le 8 1) f).2
        (st ≠ 1 → exec (.fwActivate n f e) s = ends (imageStatus st).1 (imageStatus st).2
          (res [(8, 4, c.tirba.runSeq.toNat), (12, 1, c.tirba.runSlot)]) c) ∧
        (st = 1 → exec (.fwActivate n f e) s =
          .next (s.withChip ((c.emit (.flashRead (0x10000 * q.le 8 1 + 0x100) 0xFF00)).fwBuffers n f))))) ∧
    (s.chip.front n 0x101 anyOf = some q → q.stage ≠ 0 → ∀ (f : FlashSlot) (e : Bool),
      (s.chip.inFlight ≠ 1 → exec (.fwActivate n f e) s = .next s) ∧
      (s.chip.inFlight = 1 → exec (.fwActivate n f e) s = .next (s.withChip (s.chip.fwSwitch n q e)))) ∧
    (s.chip.front n 0x111 (fun q => q.stage == 2) = some q → s.chip.lcyBusy = false → ∀ bad,
      let st := resultStatus (s.chip.rf R.LCY_OP_STAT 3 0)
      exec (.lcyAdvance n bad) s = ends st.1 st.2 (if st.1 = 0 then res [(8, 1, s.chip.lcyState)] else []) s.chip) ∧
    (∀ (v : Word) (bad : Bool), s.chip.lcyBusy = true → exec (.lcyOpGo v bad) s = .next s) ∧
    (∀ (v : Word) (bad : Bool), s.chip.lcyBusy = false →
      let c := s.chip.store R.LCY_OP (setBit v 31 true)
      let r := c.vbytes (c.rf R.LCY_OP 25 6 * 64) 192
      (c.recordCheck r ≠ 0 → exec (.lcyOpGo v bad) s = .next (s.withChip (c.wf R.LCY_OP_STAT 3 0 (c.recordCheck r)))) ∧
      (c.recordCheck r = 0 → exec (.lcyOpGo v false) s = .next (s.withChip ((c.setLcJournal (c.intent r (c.opOf r))).onLcy fun l =>
        { l with op := some (c.opOf r) }))) ∧
      (c.recordCheck r = 0 → exec (.lcyOpGo v true) s = .next (s.withChip
        ((c.fresh.2.setLcJournal ((List.range 64).map (Config.badJournal c.fresh.1))).wf R.LCY_OP_STAT 3 0 7)))) ∧
    (∀ (bad : List (Nat × Nat)) (o : LcyOp) (ok : Bool) (c' : Chip), s.chip.lcy.op = some o →
      (let hs := s.chip.hashFuses o
       let c := forEach (hs.takeWhile fun f => !bad.contains f) Chip.blowFuse s.chip
       (if hs.any bad.contains then (false, c) else c.blowGroups bad o.groups) = (ok, c')) →
      let c := c'.onLcy fun l => { l with op := none }
      let c := if ok then ((c.setLcJournal []).wf R.LCY_OP_STAT 3 0 0).sb R.LCY_OP_STAT 8 else (c.wf R.LCY_OP_STAT 3 0 8).sb R.LCY_STICKY 3
      exec (.lcyOperationEnd bad) s = .next (s.withChip (if c.access = 3 then c.grantEnd else c)))

/-- O33. PLANE_FETCH_COMPLETE of a captured line reads its map entries and pixels, buffers them for that line in place of the snapshot, and reports the slack; of a line whose last span has been sent it reports the slack only. TILE_INVAL empties the caches its mask names; with no fetch in progress it changes no register and no other plane. LIVE_PALETTE_WRITE writes the entry at the core's index, from the pixel where the write lands; SHADOW_PALETTE_WRITE does outside the transfer and is held during it. MOTIF_LOAD_END ends the load of a Beam, and evaluates line 0 where that waited for it. MOTIF_EVALUATION of an enabled running Beam gives the line two ahead, where that is an active one, a list of at most 256 motifs, each enabled and naming the Beam; with the layer off or shed no motifs; for line 0 during a load it sets LOAD_LATE and waits. MOTIF_LINE_COMPLETE replaces the list by its pixels and reports the slack; of a line whose last span has been sent it reports the slack only. LIVE_ATTRIBUTE_WRITE writes the word at the core's index, word 0 with its BEAM bit kept. MTF_INVAL with a count and a mask sets BUSY and reloads, after the loads that run if there are any; while BUSY it sets INVAL_DROP only; MTF_RELOAD_END of a reload that has run clears BUSY. -/
def Obligations.PlanesAndMotifs : Prop :=
  (∀ (p : Plane) (b : Beam) (l : BitVec 13) (slack : Int) (x : PlaneSnap) (s : State),
    ((s.chip.planes[p]).snaps.find? fun y => y.beam == b && y.line == l.toNat) = some x →
    let r := s.chip.fetchLine p x
    (x.got = [] → x.blank = false → x.beam = b →
      r = Chip.planePixels p x (List.range x.winW) (forEach x.mapReads (fun r c => (c.vRead .beam b r.1 r.2).2.2) s.chip)) ∧
    exec (.planeFetchComplete p b l slack) s = .next (s.withChip ((r.2.onPlane p fun st => { st with
      snaps := st.snaps.filter (fun y => !(y.beam == b && y.line == l.toNat))
      bufs := st.bufs.filter (fun y => !(y.beam == b && y.line == l.toNat)) ++ [{ beam := b, line := l.toNat, x0 := x.winX, px := r.1 }] }).onBeam b
        (PrkBeam.report l.toNat slack)))) ∧
  (∀ (p : Plane) (b : Beam) (l : BitVec 13) (slack : Int) (x : PlaneSnap) (s : State),
    ((s.chip.planes[p]).snaps.find? fun y => y.beam == b && y.line == l.toNat) = none →
    ((s.chip.planes[p]).late.find? fun y => y.beam == b && y.line == l.toNat) = some x →
    exec (.planeFetchComplete p b l slack) s = .next (s.withChip (((s.chip.fetchLine p x).2.onPlane p fun st => { st with
      late := st.late.filter fun y => !(y.beam == b && y.line == l.toNat) }).reportSlack b l.toNat true slack))) ∧
  (∀ (mask : Byte) (s : State), ∃ c, exec (.tileInval mask) s = .next (s.withChip c) ∧
    ((∀ p : Plane, (s.chip.planes[p]).snaps = []) → c.regs = s.chip.regs) ∧
    ∀ p : Plane, mask.toNat / 2 ^ p.val % 2 = 1 → (c.planes[p]).cache = []) ∧
  (∀ (mask : Byte) (p : Plane) (s : State), mask.toNat / 2 ^ p.val % 2 = 0 → (∀ q : Plane, (s.chip.planes[q]).snaps = []) →
    ∃ c, exec (.tileInval mask) s = .next (s.withChip c) ∧ c.planes[p] = s.chip.planes[p]) ∧
  (∀ (n : Core) (b : Beam) (pixel : BitVec 14) (v : Word) (s : State),
    let ia := if b.val = 0 then R.GND_PALA_IDX else R.GND_PALB_IDX
    let e := (s.chip.port n ia).toNat % 4096
    let c := s.chip.palWrite b pixel.toNat e v
    exec (.livePaletteWrite n b v pixel) s = .next (s.withChip (c.portInc n ia 4096)) ∧ Sparse.get 0 c.palLive (palKey b e) = v) ∧
  (∀ (n : Core) (b : Beam) (v : Word) (s : State),
    let ia := if b.val = 0 then R.GND_SPALA_IDX else R.GND_SPALB_IDX
    let e := (s.chip.port n ia).toNat % 4096
    (s.chip.inTransfer b = false → exec (.shadowPaletteWrite n b v) s = .next (s.withChip ((s.chip.spalWrite b e v).portInc n ia 4096))) ∧
    (s.chip.inTransfer b = true → exec (.shadowPaletteWrite n b v) s =
      .next (s.withChip ((s.chip.hold b (.spal (palKey b e) v)).portInc n ia 4096)))) ∧
  (∀ (b : Beam) (s : State), (s.chip.motifB[b]).loading = true → s.chip.motif.inval = none →
    let c := s.chip.onMotif b fun m => { m with loading := false, waits := false }
    exec (.motifLoadEnd b) s = .next (s.withChip (if (s.chip.motifB[b]).waits then c.motifEval b 0 else c))) ∧
  (∀ (b : Beam) (s : State),
    let k := s.chip.beam b
    let l := (s.chip.line b + 2) % k.vtotal
    s.chip.running b = true → l < k.vactive → s.chip.rb (mtfCfg b) 0 = true →
    (s.chip.shed 4 = false ∨ s.chip.rb (mtfCfg b) 1 = false) → (s.chip.motifB[b]).loading = false ∨ l ≠ 0 →
    ∃ c ms, exec (.motifEvaluation b) s = .next (s.withChip c) ∧ (c.motifB[b]).evals = (s.chip.motifB[b]).evals.filter (fun x => x.1 != l) ++ [(l, ms)] ∧
      ms.length ≤ 256 ∧ ∀ m ∈ ms, m.entry < 1024 ∧ tb (s.chip.attrWord b m.entry 0) 0 = true ∧
        tb (s.chip.attrWord b m.entry 0) 1 = decide (b.val = 1) ∧ m.words = (List.range 8).map fun w => s.chip.attrWord b m.entry w) ∧
  (∀ (b : Beam) (s : State),
    let k := s.chip.beam b
    let l := (s.chip.line b + 2) % k.vtotal
    let c := s.chip.setPos b (s.chip.line b) (max (s.chip.pixel b) k.hactive)
    s.chip.running b = true → l < k.vactive →
    (s.chip.rb (mtfCfg b) 0 = false ∨ (s.chip.shed 4 = true ∧ s.chip.rb (mtfCfg b) 1 = true) →
      exec (.motifEvaluation b) s = .next (s.withChip (c.onMotif b fun m => { m with
        evals := m.evals.filter (fun x => x.1 != l), bufs := m.bufs.filter (fun x => x.1 != l) ++ [(l, [])] }))) ∧
    (s.chip.rb (mtfCfg b) 0 = true → s.chip.shed 4 = false ∨ s.chip.rb (mtfCfg b) 1 = false → (s.chip.motifB[b]).loading = true → l = 0 →
      exec (.motifEvaluation b) s = .next (s.withChip ((c.sb R.MTF_STICKY (6 + b)).onMotif b fun m => { m with waits := true })))) ∧
  (∀ (b : Beam) (l : BitVec 13) (slack : Int) (e : Nat × List MotifSel) (s : State),
    ((s.chip.motifB[b]).evals.find? fun e => e.1 == l.toNat) = some e →
    let r := Chip.motifRows b l.toNat e.2 s.chip
    exec (.motifLineComplete b l slack) s = .next (s.withChip ((r.2.onMotif b fun m => { m with
      evals := m.evals.filter (fun x => x.1 != l.toNat), bufs := m.bufs.filter (fun x => x.1 != l.toNat) ++ [(l.toNat, r.1)] }).onBeam b
        (PrkBeam.report l.toNat slack)))) ∧
  (∀ (b : Beam) (l : BitVec 13) (slack : Int) (e : Nat × List MotifSel) (s : State),
    ((s.chip.motifB[b]).evals.find? fun e => e.1 == l.toNat) = none → ((s.chip.motifB[b]).late.find? fun e => e.1 == l.toNat) = some e →
    exec (.motifLineComplete b l slack) s = .next (s.withChip (((Chip.motifRows b l.toNat e.2 s.chip).2.onMotif b fun m =>
      { m with late := m.late.filter fun x => x.1 != l.toNat }).reportSlack b l.toNat true slack))) ∧
  (∀ (n : Core) (b : Beam) (v : Word) (s : State),
    let ia := if b.val = 0 then R.MTF_LIVEA_IDX else R.MTF_LIVEB_IDX
    let i := (s.chip.port n ia).toNat % 8192
    let w := if i % 8 = 0 then setBit v 1 (tb (s.chip.attrWord b (i / 8) 0) 1) else v
    exec (.liveAttributeWrite n b v) s = .next (s.withChip ((s.chip.setAttr b (i / 8) (i % 8) w).portInc n ia 8192)) ∧
    (s.chip.setAttr b (i / 8) (i % 8) w).attrWord b (i / 8) (i % 8) = w) ∧
  (∀ (v : Word) (s : State),
    (s.chip.rb R.MTF_INVAL_STAT 0 = true → exec (.mtfInval v) s = .next (s.withChip (s.chip.sb R.MTF_STICKY 9))) ∧
    (s.chip.rb R.MTF_INVAL_STAT 0 = false → fld v 20 10 = 0 ∨ fld v 25 24 = 0 → exec (.mtfInval v) s = .next s) ∧
    (s.chip.rb R.MTF_INVAL_STAT 0 = false → fld v 20 10 ≠ 0 → fld v 25 24 ≠ 0 → (∀ b : Beam, (s.chip.motifB[b]).loading = false) →
      exec (.mtfInval v) s = .next (s.withChip ((s.chip.sb R.MTF_INVAL_STAT 0).reload (fld v 9 0) (fld v 20 10) (fld v 25 24)))) ∧
    (∀ b : Beam, s.chip.rb R.MTF_INVAL_STAT 0 = false → fld v 20 10 ≠ 0 → fld v 25 24 ≠ 0 → (s.chip.motifB[b]).loading = true →
      ∃ w, b.val ∈ w ∧ exec (.mtfInval v) s = .next (s.withChip { s.chip.sb R.MTF_INVAL_STAT 0 with
        motif := { s.chip.motif with inval := some (fld v 9 0, fld v 20 10, fld v 25 24, w) } })) ∧
    (s.chip.motif.inval = none → exec .mtfReloadEnd s = .next (s.withChip (s.chip.wb R.MTF_INVAL_STAT 0 false))))

/-- O34. On a running port: a packet with a bad header counts in EYE_PKTERR and sets HDR_ERR; a packet of another virtual channel changes nothing. A frame start packet begins a camera frame, a long packet of type DT adds a row to it, of any other type but 0x12 sets STRAY, a frame end ends the frame. A deskew sequence inside a camera frame sets DESKEW_IGN only, outside one it waits for the next frame start. An output row whose rows are received is written to its buffer, or in a ring to its slot. LOST raises its event, counted and journalled. A start clears the counts; a stop with no frame in progress stops the port at once; an abort drops the frames and stops it. -/
def Obligations.EyeletFramesAndPackets : Prop :=
  ∀ (n : Port) (s : State),
    let c := s.chip
    (c.eyeRunning n = true →
      (∀ vc fnum pixel, exec (.frameStartPacket n vc true fnum pixel) s = .next (s.withChip ((c.incSat (R.EYE_PKTERR n)).sb (R.EYE_STICKY n) 6))) ∧
      (∀ vc fnum pixel, c.rf (R.EYE_CTRL n) 9 8 ≠ vc.val → exec (.frameStartPacket n vc false fnum pixel) s = .next s) ∧
      (∀ vc fnum pixel, c.rf (R.EYE_CTRL n) 9 8 = vc.val →
        exec (.frameStartPacket n vc false fnum pixel) s = .next (s.withChip ((c.frameStart n fnum pixel.toNat).eyePrune n))) ∧
      (∀ vc dt bad bs lost, exec (.longPacket n vc dt true bad bs lost) s = .next (s.withChip ((c.incSat (R.EYE_PKTERR n)).sb (R.EYE_STICKY n) 6))) ∧
      (∀ vc dt bad bs lost, c.rf (R.EYE_CTRL n) 9 8 ≠ vc.val → exec (.longPacket n vc dt false bad bs lost) s = .next s) ∧
      (∀ vc (dt : BitVec 6) (bad : Bool) bs lost, c.rf (R.EYE_CTRL n) 9 8 = vc.val →
        let d := if bad then (c.incSat (R.EYE_PKTERR n)).sb (R.EYE_STICKY n) 7 else c
        (dt = 0x12 → exec (.longPacket n vc dt false bad bs lost) s = .next s) ∧
        (dt ≠ 0x12 → (c.eye[n]).current = none → exec (.longPacket n vc dt false bad bs lost) s = .next (s.withChip (d.sb (R.EYE_STICKY n) 11))) ∧
        (∀ f, dt ≠ 0x12 → (c.eye[n]).current = some f → exec (.longPacket n vc dt false bad bs lost) s =
          .next (s.withChip (if dt.toNat = f.geom.dt then d.inputRow n f bs lost else d.sb (R.EYE_STICKY n) 11)))) ∧
      (∀ vc, exec (.frameEndPacket n vc true) s = .next (s.withChip ((c.incSat (R.EYE_PKTERR n)).sb (R.EYE_STICKY n) 6))) ∧
      (∀ vc, c.rf (R.EYE_CTRL n) 9 8 = vc.val → exec (.frameEndPacket n vc false) s = .next (s.withChip ((c.frameEnd n).eyePrune n))) ∧
      ((c.eye[n]).current ≠ none → exec (.deskewSequence n) s = .next (s.withChip (c.sb (R.EYE_STICKY n) 10))) ∧
      ((c.eye[n]).current = none → exec (.deskewSequence n) s = .next (s.withChip (c.onEye n fun p => { p with deskewPend := true }))) ∧
      (c.rf (R.EYE_LOST n) 9 0 ≠ 0 → c.rb (R.EYE_STAT n) 3 = false →
        let d := ((c.sb (R.EYE_STAT n) 3).sb (R.EYE_STICKY n) 18).incSat (R.EYE_EVCNT n)
        exec (.lostTimeout n) s = .next (s.withChip (d.journal 0x04 18 n.val (d.rd (R.EYE_STAT n)) 0 0))) ∧
      exec (.eyeRunStart n) s = .next (s.withChip (c.sb (R.EYE_CTRL n) 0)) ∧
      ((c.eye[n]).current = none → exec (.eyeRunStop n) s = .next (s.withChip ((c.wb (R.EYE_CTRL n) 0 false).wb (R.EYE_STAT n) 0 false))) ∧
      ((c.eye[n]).current ≠ none → exec (.eyeRunStop n) s = .next (s.withChip (c.wb (R.EYE_CTRL n) 0 false))) ∧
      ((c.eye[n]).current = none → exec (.eyeAbort n) s = .next (s.withChip (((c.onEye n fun p => { p with frames := [] }).wb (R.EYE_STAT n) 0 false).wb
        (R.EYE_CTRL n) 0 false))) ∧
      (∃ e, exec (.eyeAbort n) s = .next (s.withChip e) ∧ (e.eye[n]).frames = [] ∧ e.rb (R.EYE_STAT n) 0 = false ∧ e.rb (R.EYE_CTRL n) 0 = false)) ∧
    (∀ f t, (c.eye[n]).frames = f :: t → f.next < f.geom.outH → (c.rowDeps n f f.next).all (fun y => (f.source y).any Option.isSome) = true →
      f.dead = false →
      let g := f.geom
      let off := if g.mode = 2 then g.base + f.next % g.ring * g.stride else g.base + f.buf * g.stride * g.outH + f.next * g.stride
      let d := c.vWrite off ((eyeBytes g.argb (c.eyeRow n f f.next)).take (vlmSize - off))
      ∃ e, exec (.outputRowLand n false) s = .next (s.withChip e) ∧ e.mem = d.mem) ∧
    (c.eyeRunning n = false → ∃ e, exec (.eyeRunStart n) s = .next (s.withChip e) ∧ e.rb (R.EYE_CTRL n) 0 = true ∧ e.rd (R.EYE_FRAMES n) = 0 ∧
      e.rd (R.EYE_PKTERR n) = 0 ∧ e.rd (R.EYE_EVCNT n) = 0 ∧ e.rd (R.EYE_SKIP n) = 0 ∧ (e.eye[n]).frames = [] ∧ (e.eye[n]).newest = none)

/-- O35. COMPOSITE_START of a running Beam, its next line ready, marks that line started. SPAN_DUE of the span that is due on the present line sets the position to its due pixel, sends the span or strikes it as a fray, and ends the line with its last span. COMMIT_REQUEST sets PENDING before the commit point and ARMED at it or after, noting its frame; on a stopped Beam it transfers at once; during a transfer it arms for after it. TRANSFER_END sets APQ_COMMIT_FRAME to the next frame, returns to IDLE with REQ clear where nothing is armed, and lets the held writes land. LINK_STOP between frames with EN 0 brings the link to LP-11. -/
def Obligations.CompositionAndCommits : Prop :=
  ∀ (b : Beam) (s : State),
    let c := s.chip
    let k := c.beam b
    let q := c.apq[b]
    (∀ x, c.running b = true → q.started < k.vactive → c.layersReady b q.started = true → q.snap q.started = some x →
      (∀ slack, ∃ d, exec (.compositeStart b slack) s = .next (s.withChip d) ∧ (d.apq[b]).started = q.started + 1) ∧
      (x.late = none → exec (.compositeStart b none) s = .next (s.withChip (c.onApq b fun q => { q with started := q.started + 1 })))) ∧
    (∀ complete, c.running b = true → q.outLine < k.vactive → c.line b = q.outLine → 64 * q.outSpan + 128 < k.htotal → q.overtook = [] →
      let d := (c.setPos b q.outLine (64 * q.outSpan + 128)).spanSend b q.outLine q.outSpan complete
      exec (.spanDue b complete) s = .next (s.withChip (if k.hactive ≤ 64 * (q.outSpan + 1) then d.lineSent b q.outLine else d))) ∧
    (let e := c.sb (R.APQ_COMMIT b) 0
     let d := e.onApq b fun q => { q with armOf := c.rd (R.PRK_FRAME b) }
     (c.rf (R.APQ_COMMIT b) 5 4 = 2 → q.armAfter = true → exec (.commitRequest b) s = .next (s.withChip (e.onApq b fun q => { q with armAfter := true }))) ∧
     (c.rf (R.APQ_COMMIT b) 5 4 = 2 → q.armAfter = false → exec (.commitRequest b) s = .next (s.withChip (d.onApq b fun q => { q with armAfter := true }))) ∧
     (c.rf (R.APQ_COMMIT b) 5 4 = 1 ∨ c.rf (R.APQ_COMMIT b) 5 4 = 3 → exec (.commitRequest b) s = .next (s.withChip e)) ∧
     (c.rf (R.APQ_COMMIT b) 5 4 = 0 → c.running b = false → exec (.commitRequest b) s = .next (s.withChip (d.transfer b))) ∧
     (c.rf (R.APQ_COMMIT b) 5 4 = 0 → c.running b = true → exec (.commitRequest b) s =
       .next (s.withChip (d.wf (R.APQ_COMMIT b) 5 4 (if c.line b < k.commitLine then 1 else 3))))) ∧
    (c.rf (R.APQ_COMMIT b) 5 4 = 2 → q.held = [] → q.armAfter = false →
      let d := ((c.wr (R.APQ_COMMIT_FRAME b) (c.rd (R.PRK_FRAME b) + 1)).wf (R.APQ_COMMIT b) 5 4 0).wb (R.APQ_COMMIT b) 0 false
      exec (.transferEnd b) s = .next (s.withChip (d.onApq b fun q => { q with
        held := [], armAfter := false, ends := q.ends ++ [c.rd (R.PRK_FRAME b) + 1] }))) ∧
    (∀ k v, c.rf (R.APQ_COMMIT b) 5 4 = 2 → q.held = [.spal k v] → q.armAfter = true → c.running b = true → ∃ d,
      exec (.transferEnd b) s = .next (s.withChip d) ∧ d.palShadow = Sparse.set 0 c.palShadow k v ∧ d.rf (R.APQ_COMMIT b) 5 4 = 3 ∧
      d.rb (R.APQ_COMMIT b) 0 = true ∧ d.rd (R.APQ_COMMIT_FRAME b) = c.rd (R.PRK_FRAME b) + 1) ∧
    (c.link b = 2 → c.rb (R.BMO_CTRL b) 0 = false → c.holdSt b = 0 → (c.bmo[b]).inFrame = false → exec (.linkStop b) s = .next (s.withChip (c.linkLp b)))

/-- O36. A running link of a running Beam sends in a video mode the sync packet that is due, VSS where the HS of the line before fell at VS, else HSS, and not the other. PIXEL_PACKET of a later line of a begun frame sends the line. A word written to BMO_CMD_FIFO queues, or with 64 queued is dropped with CMD_OVF. CMD_SEND releases every whole packet. COMMAND_PACKET_SEND sends the oldest packet in LPDT on a link at LP-11. TE_EDGE captures the position; TE_MISS sets its flag. ULPS_WRITE takes a link at LP-11 into ULPS and one in ULPS to Mark-1, which MARK1_END ends at LP-11, with a deskew above 1,500 Mb/s. ENTER and RELEASE where they may not act only set HOLD_REFUSED; ENTER with a good list sets ENTERING and queues it, RELEASE sets RELEASING and leaves ULPS. -/
def Obligations.LinksCommandsAndHolding : Prop :=
  ∀ (b : Beam) (s : State),
    let c := s.chip
    let k := c.beam b
    let q := c.bmo[b]
    (c.running b = true → c.link b = 2 → c.cmdMode b = false →
      let d := c.setPos b (c.line b) (max (c.pixel b) (k.hactive + k.hfront))
      let vss := decide ((c.line b + k.vtotal - 1) % k.vtotal = k.vactive + k.vfront)
      exec (.syncPacket b vss) s = .next (s.withChip ((d.onLinks b (.dsiSync · (d.dsiVc b) vss)).bllp b)) ∧ exec (.syncPacket b !vss) s = .next s) ∧
    (c.link b = 2 → c.running b = true → 2 ≤ c.line b → c.line b < k.vactive → q.frameOn = true → q.inFrame = true → q.heldFrame = none →
      exec (.pixelPacket b) s = .next (s.withChip (c.sendLine b (c.line b - 1) (c.apq[b]).store))) ∧
    (∀ v, (q.level < 64 → exec (.cmdFifoWrite b v) s = .next (s.withChip (c.onBmo b fun q => { q with fifo := q.fifo ++ [v] }))) ∧
      (64 ≤ q.level → exec (.cmdFifoWrite b v) s = .next (s.withChip (c.sb (R.BMO_STICKY b) 4)))) ∧
    (∀ ps rest bad, splitPackets 64 q.fifo = (ps, rest, bad) → exec (.cmdSend b) s =
      .next (s.withChip ((if bad then c.sb (R.BMO_STICKY b) 5 else c).onBmo b fun q => { q with fifo := rest, ready := q.ready ++ ps }))) ∧
    (∀ p t, c.link b = 1 → q.list = [] → q.ready = p :: t → exec (.commandPacketSend b) s =
      .next (s.withChip ((c.onLinks b (.dsiCommand · (c.dsiVc b) false p)).onBmo b fun q => { q with ready := t }))) ∧
    (∀ pixel : BitVec 14, c.rf (R.GPIO_PAD (9 + b.val)) 2 0 = 1 → c.rb (R.BMO_CTRL b) 13 = true → c.rb (R.BMO_CTRL b) 14 = false →
      exec (.teEdge b pixel) s = .next (s.withChip (c.wr (R.BMO_TE_CAP b) (w32 (2 ^ 31 + c.line b % 8192 * 16384 + pixel.toNat % 16384))))) ∧
    (c.rb (R.BMO_CTRL b) 13 = true → c.rb (R.BMO_CTRL b) 14 = false → exec (.teMiss b) s = .next (s.withChip (c.sb (R.BMO_STICKY b) 2))) ∧
    (c.holdSt b = 0 →
      (c.link b = 1 → exec (.ulpsWrite b true) s = .next (s.withChip ((c.wb (R.BMO_CTRL b) 15 true).setLink b 3))) ∧
      (c.link b = 3 → exec (.ulpsWrite b false) s = .next (s.withChip ((c.wb (R.BMO_CTRL b) 15 false).setLink b 4)))) ∧
    (c.link b = 4 → q.marking = false → exec (.mark1End b) s = .next (s.withChip ((c.setLink b 1).deskewLinks b))) ∧
    (c.holdSt b ≠ 0 ∨ c.link b ≠ 2 → exec (.holdEnter b) s = .next (s.withChip (c.sb (R.BMO_STICKY b) 6))) ∧
    (∀ ps d, c.holdSt b = 0 → c.link b = 2 → c.holdList b (c.rd (R.BMO_ENTER_BASE b)).toNat (c.rf (R.BMO_ENTER_LEN b) 8 0) = (some ps, d) →
      exec (.holdEnter b) s = .next (s.withChip ((d.wf (R.BMO_STAT b) 5 4 1).onBmo b fun q => { q with
        list := ps, listDone := ps.isEmpty, heldFrame := none }))) ∧
    (∀ d, c.holdSt b = 0 → c.link b = 2 → c.holdList b (c.rd (R.BMO_ENTER_BASE b)).toNat (c.rf (R.BMO_ENTER_LEN b) 8 0) = (none, d) →
      exec (.holdEnter b) s = .next (s.withChip (d.sb (R.BMO_STICKY b) 5))) ∧
    (c.holdSt b ≠ 2 → exec (.holdRelease b) s = .next (s.withChip (c.sb (R.BMO_STICKY b) 6))) ∧
    (c.holdSt b = 2 → exec (.holdRelease b) s =
      .next (s.withChip ((((c.wf (R.BMO_STAT b) 5 4 3).wb (R.BMO_HOLD b) 2 false).setLink b 4).onBmo b fun q => { q with marking := true })))

/-- O37. ARM of an idle voice whose registers pass R500 arms it with its registers' values; otherwise it sets ARM_REFUSED. RELEASE of an armed voice, and STOP of any, makes it idle; RELEASE of a playing voice with a release time starts the release by ceil(E / nr). Gain writes to idle voices store only; to a busy one or to an enabled bus they start a change. EFX_LOAD notes the base; the load's end clears the note, and a load past the end of Vellum sets EFX_ERR. Enabling a port starts it where it may run; disabling stops it. The synthesizer locks and starts the ports that may run. An FS edge takes FS_TIME, counts AUD_FRAME, sends the frame computed before, or when that is late the last one again and counts it, and computes the next; with no port running it does nothing. A slave edge with a wrong BCLK count sets FRAMING. -/
def Obligations.VoicesBusesAndAudioPorts : Prop :=
  ∀ s : State,
    let c := s.chip
    (∀ (late : Bool) under rx bad, c.framesExist = true →
      let d := (c.wr R.AUD_FS_TIME c.timeLo).incWrap R.AUD_FRAME
      let d := if late then (d.sb R.AUD_STICKY 0).incSat R.AUD_LATE_COUNT else d.onSnd fun s => { s with prev0 := s.next0, prev1 := s.next1 }
      let mute := d.rb R.AUD_CLK 2 && !d.rb R.AUD_CLK 8
      let e := d.audOut 0 (if mute then [] else d.snd.prev0)
      let e := e.audOut 1 (if mute then [] else e.snd.prev1)
      let r := if e.audRunning 2 = false then ([], e) else if e.onEngineEdge 2 then ((rx.map (slotIn (e.slotWidth 2))).take (e.slots 2), e) else e.audPop 2
      let f := (if e.audRunning 2 then r.2.capture r.1 else r.2).computeFrame under r.1
      exec (.fsEdge late under rx bad) s = .next (s.withChip (if f.engineOn then f.voiceCheck bad else f))) ∧
    (∀ late under rx bad, c.framesExist = false → exec (.fsEdge late under rx bad) s = .next s) ∧
    (∀ v : Voice,
      (c.vState v ≠ 0 → exec (.voiceArm v) s = .next (s.withChip (c.sb R.SND_STICKY 0))) ∧
      (c.vState v = 0 → c.armCause v ≠ 0 → exec (.voiceArm v) s =
        .next (s.withChip ((c.sb R.SND_STICKY 0).wf (R.V_STAT v) 9 8 (c.armCause v)))) ∧
      (c.vState v = 0 → c.armCause v = 0 → ∃ x d, exec (.voiceArm v) s = .next (s.withChip ((c.setVoice v x).setVState v 1)) ∧
        d = (c.setVoice v x).setVState v 1 ∧ x.base = (c.rd (R.V_BASE v)).toNat ∧ x.length = c.rf (R.V_LENGTH v) 24 0 ∧
        x.loopStart = c.rf (R.V_LOOP_START v) 24 0 ∧ x.loopLen = c.rf (R.V_LOOP_LEN v) 24 0 ∧ x.format = c.rf (R.V_CTRL v) 3 0 ∧
        x.bus = c.rf (R.V_CTRL v) 6 4 ∧ x.attackMs = c.rf (R.V_ENV v) 13 0 ∧ x.releaseMs = c.rf (R.V_ENV v) 29 16 ∧ x.pos = 0 ∧ x.env = 0) ∧
      (c.vState v = 1 → exec (.voiceCmdRelease v) s = .next (s.withChip (c.voiceIdle v))) ∧
      (c.vState v = 2 → c.frames (c.voice v).releaseMs ≠ 0 → exec (.voiceCmdRelease v) s = .next (s.withChip
        ((c.setVoice v { c.voice v with na := 0, step := ceilDiv (c.voice v).env (c.frames (c.voice v).releaseMs) }).setVState v 3))) ∧
      (c.vState v ≠ 0 → exec (.voiceCmdStop v) s = .next (s.withChip (c.voiceIdle v))) ∧
      (c.vState v = 0 → exec (.voiceCmdStop v) s = .next s) ∧
      (∀ w, c.vState v = 0 → (c.store (R.V_GAIN v) w).vState v = 0 → exec (.voiceGainWrite v w) s = .next (s.withChip (c.store (R.V_GAIN v) w))) ∧
      (∀ w d, d = c.store (R.V_GAIN v) w → d.vState v ≠ 0 → exec (.voiceGainWrite v w) s = .next (s.withChip
        ((d.setVoice v { d.voice v with startRamp := false, gain := d.gainChange (d.rd (R.V_GAIN v)) (d.voice v).gain }).sb (R.V_STAT v) 3)))) ∧
    (∀ (b : Bus) (w : Word) (d : Chip), d = c.store (R.SND_BUS_GAIN b) w →
      (d.rb (R.SND_BUS_CTRL b) 0 = true → exec (.busGainWrite b w) s = .next (s.withChip ((d.onBus b fun k =>
        { k with gain := d.gainChange (d.rd (R.SND_BUS_GAIN b)) k.gain }).sb (R.SND_BUS_STAT b) 8))) ∧
      (d.rb (R.SND_BUS_CTRL b) 0 = false → exec (.busGainWrite b w) s = .next (s.withChip ((d.onBus b fun k =>
        { k with gain := { l := fld w 15 0, r := fld w 15 0 } }).wb (R.SND_BUS_STAT b) 8 false)))) ∧
    (∀ b : Bus, exec (.efxLoad b) s = .next (s.withChip (c.onBus b fun k => { k with loading := some (c.rd (R.SND_BUS_EFX_BASE b)).toNat })) ∧
      (∀ off, (c.snd.buses[b]).loading = some off → vlmSize < off + 128 → exec (.efxLoadComplete b) s =
        .next (s.withChip ((c.onBus b fun k => { k with loading := none }).sb R.SND_STICKY 4))) ∧
      (∀ off, (c.snd.buses[b]).loading = some off → ∃ d, exec (.efxLoadComplete b) s = .next (s.withChip d) ∧ (d.snd.buses[b]).loading = none)) ∧
    (∀ p : Fin 3,
      (c.rb (R.AUD_PCTRL p) 0 = false → exec (.audioPortEnable p true) s = .next (s.withChip ((c.sb (R.AUD_PCTRL p) 0).audStart p))) ∧
      (∀ d, c.rb (R.AUD_PCTRL p) 0 = true → d = ((c.wb (R.AUD_PCTRL p) 0 false).wb (R.AUD_PSTAT p) 0 false).emit (.audioPins p 0) →
        (d.rb (R.AUD_PCTRL 0) 0 || d.rb (R.AUD_PCTRL 1) 0 || d.rb (R.AUD_PCTRL 2) 0) = true →
        exec (.audioPortEnable p false) s = .next (s.withChip d)) ∧
      (∃ d, exec (.audioPortEnable p false) s = .next (s.withChip d) ∧ d.rb (R.AUD_PCTRL p) 0 = false ∧
        (c.rb (R.AUD_PCTRL p) 0 = true → d.rb (R.AUD_PSTAT p) 0 = false)) ∧
      (∀ ticks bclks rx, c.rb R.AUD_CLK 2 = true → c.audRunning p = true → c.onEngineEdge p = false → p.val ≠ 2 →
        let d := if bclks = c.slots p * c.slotWidth p then c else c.sb R.AUD_STICKY 3
        exec (.slaveFsEdge p ticks bclks rx) s = .next (s.withChip ((d.audPop p).2.audSend p (d.audPop p).1)))) ∧
    (c.rb R.AUD_CLK 2 = false → (c.rb (R.AUD_PCTRL 0) 0 || c.rb (R.AUD_PCTRL 1) 0 || c.rb (R.AUD_PCTRL 2) 0) = true →
      ∃ d, exec .audioSynthLock s = .next (s.withChip d) ∧ d.rb R.AUD_CLK 8 = true ∧
        ∀ p : Fin 3, c.rb (R.AUD_PCTRL p) 0 = true → c.audOk p = true → d.rb (R.AUD_PSTAT p) 0 = true)

/-- O38. TIME_COMPARE_MATCH with EN 1, a value not yet passed and the counter at or above it sets MATCH and raises event 32; TCMP_HI takes both halves as one value and compares. CHANNEL_TICK of a running channel that counts ticks, once PRES + 1 of them are counted, goes from TOP to 0 with WRAP, else adds 1, matches at CMP, and stops in one-shot mode at the wrap. CHANNEL_START of a stopped channel with START_EV 0 runs it with its prescaler at 0, with START_EV 1 arms it, and of a running channel only stores EN. CHANNEL_STOP keeps the counter. CNT_WRITE writes the counter and restarts the prescaler. -/
def Obligations.TimersCountAndStart : Prop :=
  ∀ (n : TmrCh) (s : State),
    let c := s.chip
    (c.rb R.TMR_TCTRL 0 = true → c.tmr.passed = false → c.tmr.tcmp ≤ c.time → exec .timeCompareMatch s =
      .next (s.withChip (((c.sb R.TMR_TSTAT 0).onTmr fun t => { t with passed := true }).raiseTmr (-1) [32]))) ∧
    (∀ v : Word, c.rb R.TMR_TCTRL 0 = false → exec (.tcmpHiWrite v) s =
      .next (s.withChip (c.onTmr fun t => { t with tcmp := v ++ t.tcmpLo, passed := false }))) ∧
    (∀ v : Word, c.rb R.TMR_TCTRL 0 = true → v ++ c.tmr.tcmpLo ≤ c.time →
      let d := c.onTmr fun t => { t with tcmp := v ++ t.tcmpLo, passed := false }
      exec (.tcmpHiWrite v) s = .next (s.withChip (((d.sb R.TMR_TSTAT 0).onTmr fun t => { t with passed := true }).raiseTmr (-1) [32]))) ∧
    (c.tickLost = false → c.rb (R.TMR_CTRL n) 8 = false → c.tmr.pre[n] < c.rf (R.TMR_PRES n) 15 0 + 1 → exec (.channelTick n) s = .next s) ∧
    (c.tickLost = false → c.rb (R.TMR_CTRL n) 8 = false → c.chRun n = true → c.rf (R.TMR_PRES n) 15 0 + 1 ≤ c.tmr.pre[n] →
      let v : Word := if c.rd (R.TMR_CNT n) = c.rd (R.TMR_TOP n) then 0 else c.rd (R.TMR_CNT n) + 1
      let d := (c.onTmr fun t => { t with pre := upd t.pre n fun _ => c.tmr.pre[n] - (c.rf (R.TMR_PRES n) 15 0 + 1) }).wr (R.TMR_CNT n) v
      let d := if v = c.rd (R.TMR_CMP n) then d.sb (R.TMR_STAT n) 0 else d
      let d := if v = 0 then d.sb (R.TMR_STAT n) 1 else d
      let d := if v = 0 ∧ c.rf (R.TMR_CTRL n) 2 1 = 1 then (d.wb (R.TMR_CTRL n) 0 false).wb (R.TMR_STAT n) 3 false else d
      exec (.channelTick n) s = .next (s.withChip (d.raiseTmr n.val
        ((if v = c.rd (R.TMR_CMP n) then [2 * n.val] else []) ++ (if v = 0 then [2 * n.val + 1] else []))))) ∧
    (c.chRun n = true → exec (.channelStart n) s = .next (s.withChip (c.sb (R.TMR_CTRL n) 0))) ∧
    (c.chRun n = false → c.rb (R.TMR_CTRL n) 24 = true →
      exec (.channelStart n) s = .next (s.withChip ((c.sb (R.TMR_CTRL n) 0).sb (R.TMR_STAT n) 4))) ∧
    (c.chRun n = false → c.rb (R.TMR_CTRL n) 24 = false → exec (.channelStart n) s = .next (s.withChip
      ((((c.sb (R.TMR_CTRL n) 0).wb (R.TMR_STAT n) 4 false).sb (R.TMR_STAT n) 3).onTmr fun t => { t with pre := upd t.pre n fun _ => 0 }))) ∧
    (∃ d, exec (.channelStop n) s = .next (s.withChip d) ∧ d.rb (R.TMR_CTRL n) 0 = false ∧ d.rb (R.TMR_STAT n) 3 = false ∧
      d.rb (R.TMR_STAT n) 4 = false ∧ d.rd (R.TMR_CNT n) = c.rd (R.TMR_CNT n)) ∧
    (∀ v, exec (.cntWrite n v) s = .next (s.withChip ((c.wr (R.TMR_CNT n) v).onTmr fun t => { t with pre := upd t.pre n fun _ => 0 })))

/-- O39. While the tick is lost and the LP stepper is in use, LP_STEP advances the time counter by 2,930 ticks where accumulator plus 11 is 16 or more and by 2,929 otherwise, and keeps the tick lost. Sixteen LP edges from any accumulator value below 16 advance it by exactly 46,875 ticks and give the accumulator back. -/
def Obligations.LpStepperKeepsTime : Prop :=
  (∀ s : State, s.chip.tickLost = true → s.chip.tmr.lp = true → ∃ t, exec .lpStep s = .next t ∧ t.chip.tickLost = true ∧ t.chip.tmr.lp = true ∧
    t.chip.tmr.acc = (s.chip.tmr.acc + 11) % 16 ∧ t.chip.time = s.chip.time + (if 16 ≤ s.chip.tmr.acc + 11 then 2930 else 2929)) ∧
  (∀ s : State, s.chip.tickLost = true → s.chip.tmr.lp = true → s.chip.tmr.acc < 16 →
    let edge (r : Host.Outcome State Fault Refusal) := match r with
      | .next t => exec .lpStep t
      | .fault f => .fault f
      | .refused f => .refused f
    ∃ t, Nat.iterate edge 16 (.next s) = .next t ∧ t.chip.time = s.chip.time + 46875 ∧ t.chip.tmr.acc = s.chip.tmr.acc)

/-- O40. INIT latches the parameters, sets the state to INIT and the count to 0. CHK_DATA_W, H and B feed 4, 2 and 1 bytes, low byte first, and add them to the count; a word store leaves every register as its four byte stores, low byte first, leave it. STATE_WRITE sets the state, masked to the width (the model's choice, log entry 113), and nothing else. CHECK compares the result, or the fold where CMP_FOLD is 1, with EXPECT, sets DONE, and sets MISMATCH exactly where they differ and it was not set before. On channels 4 to 7 INIT and the bytes of "123456789" give 0xE306_9283. -/
def Obligations.CheckUnitsFeedAndCompare : Prop :=
  ∀ (n : ChkCh) (s : State),
    let c := s.chip
    (∃ d, exec (.chkInit n) s = .next (s.withChip d) ∧ d.chk[n] = c.chkParams n ∧ d.rd (R.CHK_COUNT n) = 0 ∧
      d.rd (R.CHK_STATE n) = w32 ((c.chkParams n).init % 2 ^ (c.chkParams n).w)) ∧
    (∀ v : Word, ∃ d, exec (.chkDataW n v) s = .next (s.withChip d) ∧ d.rd (R.CHK_COUNT n) = c.rd (R.CHK_COUNT n) + 4) ∧
    (∀ v : Word, exec (.chkDataW n v) s = .next (s.withChip (c.chkFeed n
      [v.setWidth 8, (v >>> 8).setWidth 8, (v >>> 16).setWidth 8, (v >>> 24).setWidth 8]))) ∧
    (∀ v : Word, exec (.chkDataH n v) s = .next (s.withChip (c.chkFeed n [v.setWidth 8, (v >>> 8).setWidth 8]))) ∧
    (∀ v : Word, exec (.chkDataB n v) s = .next (s.withChip (c.chkFeed n [v.setWidth 8]))) ∧
    (∀ v : Word, (c.chk[n]).w = 8 ∨ (c.chk[n]).w = 16 ∨ (c.chk[n]).w = 32 →
      let b (k : Nat) (r : Out) : Out := match r with
        | .next t => exec (.chkDataB n (v >>> (8 * k))) t
        | .fault f => .fault f
        | .refused f => .refused f
      ∃ t u, exec (.chkDataW n v) s = .next t ∧ b 3 (b 2 (b 1 (b 0 (.next s)))) = .next u ∧ (∀ a, u.chip.rd a = t.chip.rd a) ∧ u.chip.chk = t.chip.chk) ∧
    (∀ v : Word, exec (.chkStateWrite n v) s = .next (s.withChip (c.wr (R.CHK_STATE n) (w32 (v.toNat % 2 ^ (c.chk[n]).w))))) ∧
    (∃ d, exec (.chkCheck n) s = .next (s.withChip d) ∧ d.rb (R.CHK_STAT n) 0 = true ∧
      d.rb (R.CHK_STAT n) 1 = (c.rb (R.CHK_STAT n) 1 || decide ((if c.rb (R.CHK_CTRL n) 6 then c.chkFold n else c.chkRes n) ≠ (c.rd (R.CHK_EXPECT n)).toNat))) ∧
    (4 ≤ n.val → ∃ d, exec (.chkInit n) s = .next (s.withChip d) ∧
      (d.chkFeed n [0x31, 0x32, 0x33, 0x34, 0x35, 0x36, 0x37, 0x38, 0x39]).chkRes n = 0xE3069283)

/-- O41. BOB_START of a stopped channel sets EN and RUNNING, clears DONE, ERR, ERR_CODE and the trigger count, and fetches at BOB_DESC; of a running one it does nothing. BOB_STOP before a fetch ends the channel with DONE, in a descriptor it sets STOPPING. BOB_ABORT ends a running channel with ERR and ABORTED, but one that waits for a host read only when that has completed: ABORT reads 1 until then; on a stopped one it does nothing. In FULL, with no uncorrectable word marked: a descriptor outside memory ends with DESC; a good one in local memory that needs no trigger begins to move, a null one ends at once. BOB_TRIGGER takes a request held for the channel, and does nothing with none: to an enabled channel that waits it is a release; otherwise it adds to TRIG_PEND up to 15 and at 15 sets TRIG_OVF. -/
def Obligations.BobbinsStartStopAndTrigger : Prop :=
  ∀ (n : BobCh) (s : State),
    let c := s.chip
    (c.bobRunning n = true → exec (.bobStart n) s = .next s) ∧
    (c.bobRunning n = false → ∃ d, exec (.bobStart n) s = .next (s.withChip d) ∧ d.rb (R.BOB_CTRL n) 0 = true ∧ d.bobRunning n = true ∧
      d.rf (R.BOB_STAT n) 4 1 = 0 ∧ d.rf (R.BOB_STAT n) 11 8 = 0 ∧ d.rf (R.BOB_STAT n) 19 16 = 0 ∧ d.rd (R.BOB_CUR n) = c.rd (R.BOB_DESC n) ∧
      d.rd (R.BOB_TOTAL n) = 0 ∧ d.bob[n] = { phase := .fetch, desc := none }) ∧
    (c.bobRunning n = true → (c.bob[n]).phase = .fetch → exec (.bobStop n) s = .next (s.withChip ((c.bobStopped n).sb (R.BOB_STAT n) 3))) ∧
    (c.bobRunning n = true → (c.bob[n]).phase ≠ .fetch → exec (.bobStop n) s = .next (s.withChip (c.sb (R.BOB_STAT n) 2))) ∧
    (c.bobRunning n = false → exec (.bobAbort n) s = .next s) ∧
    (c.bobRunning n = true → (c.bob[n]).phase ≠ .abort → (∀ k, (c.bob[n]).phase ≠ .host k) → exec (.bobAbort n) s =
      .next (s.withChip (((c.bobStopped n).sb (R.BOB_STAT n) 4).wf (R.BOB_STAT n) 11 8 7))) ∧
    (∀ k, c.bobRunning n = true → (c.bob[n]).phase = .host k → exec (.bobAbort n) s =
      .next (s.withChip ((c.sb (R.BOB_CTRL n) 1).onBob n fun b => { b with phase := .abort }))) ∧
    ((c.bob[n]).phase = .fetch → c.power = 0 → c.ue = [] →
      let a := (c.rd (R.BOB_CUR n)).toNat
      let d := (c.wr (R.BOB_ROW n) 0).wr (R.BOB_OFF n) 0
      (¬(0x00200000 ≤ a ∧ a < 0x00280000) → bobTarget a ≠ .vellum →
        exec (.bobDescriptorFetch n) s = .next (s.withChip (((d.bobStopped n).sb (R.BOB_STAT n) 4).wf (R.BOB_STAT n) 11 8 1))) ∧
      (∀ x, 0x00200000 ≤ a → a < 0x00280000 → bobDesc (c.bytes a 32) = some x → x.null = true →
        exec (.bobDescriptorFetch n) s = .next (s.withChip (d.bobEnd n x))) ∧
      (∀ x, 0x00200000 ≤ a → a < 0x00280000 → bobDesc (c.bytes a 32) = some x → x.null = false → x.check (c.rb R.SYS_STRAP 0) = 0 →
        x.trig = false → x.rowTrig = false →
        exec (.bobDescriptorFetch n) s = .next (s.withChip (d.onBob n fun _ => { phase := .move, desc := some x })))) ∧
    (∀ (src : BitVec 2) (sel : BitVec 6), c.reqs.contains { dst := some n, src := src.toNat, sel := sel.toNat } = false →
      exec (.bobTrigger n src sel) s = .next s) ∧
    (∀ (src : BitVec 2) (sel : BitVec 6) (r : EvReq), r = { dst := some n, src := src.toNat, sel := sel.toNat } → c.reqs.contains r = true →
      c.bobTrigOf n src.toNat sel.toNat = true → c.rb (R.BOB_CTRL n) 0 = true →
      let d := { c with reqs := c.reqs.erase r }
      ((c.bob[n]).phase = .wait → exec (.bobTrigger n src sel) s =
        .next (s.withChip ((d.wb (R.BOB_STAT n) 1 false).onBob n fun b => { b with phase := .move }))) ∧
      ((c.bob[n]).phase ≠ .wait → c.rf (R.BOB_STAT n) 19 16 = 15 → exec (.bobTrigger n src sel) s = .next (s.withChip (d.sb (R.BOB_STAT n) 5))) ∧
      ((c.bob[n]).phase ≠ .wait → c.rf (R.BOB_STAT n) 19 16 ≠ 15 → exec (.bobTrigger n src sel) s =
        .next (s.withChip (d.wf (R.BOB_STAT n) 19 16 (c.rf (R.BOB_STAT n) 19 16 + 1)))))

/-- O42. In FULL, BOB_DESCRIPTOR_END on a channel that moves a last 1D descriptor from its start, both sides in Vellum, neither fixed nor at the host, with no uncorrectable word marked, and with DST at or below SRC or the ranges apart, gives a next state in which byte i of the destination is the old byte i of the source for every i below COUNT, every byte outside the destination is as it was, and the channel is stopped with DONE set. -/
def Obligations.BobbinCopiesVellum : Prop :=
  ∀ (n : BobCh) (d : BobDesc) (s : State), (s.chip.bob[n]).phase = .move → (s.chip.bob[n]).desc = some d → s.chip.power = 0 →
    d.srcHost = false → d.dstHost = false → d.srcFix = false → d.dstFix = false → d.d2 = false → d.last = true →
    s.chip.rf (R.BOB_ROW n) 15 0 = 0 → s.chip.rd (R.BOB_OFF n) = 0 → s.chip.ue = [] →
    vlmBase ≤ d.src → d.src + d.count ≤ vlmBase + vlmSize → vlmBase ≤ d.dst → d.dst + d.count ≤ vlmBase + vlmSize → 0 < d.count →
    d.dst ≤ d.src ∨ d.src + d.count ≤ d.dst →
    ∃ c, exec (.bobDescriptorEnd n) s = .next (s.withChip c) ∧ (∀ i, i < d.count → c.byte (d.dst + i) = s.chip.byte (d.src + i)) ∧
      (∀ a, a < d.dst ∨ d.dst + d.count ≤ a → c.byte a = s.chip.byte a) ∧ c.bobRunning n = false ∧ c.rb (R.BOB_STAT n) 3 = true

/-- O43. A write to UART_DATA with fewer than 32 characters queued queues the character and starts it where the UART may send; with 32 it sets TX_OVF only. A read pops the oldest received entry, or reads the empty mark. A character sent leaves the FIFO on the line with its start, data, parity and stop bits, and at the threshold raises the transmit request. A received character with clean samples enters the FIFO with its error flags where there is room, and at the threshold raises the receive request, and with 32 entries is dropped with RX_OVF; its error bits set either way. The timeout raises the receive request once while the FIFO holds something. -/
def Obligations.UartsMoveCharacters : Prop :=
  ∀ (u : Fin 2) (s : State),
    let c := s.chip
    let x := c.uart u
    (∀ v : Byte, x.tx.length < 32 → exec (.uartDataWrite u v) s = .next (s.withChip ((c.onUart u fun s => { s with tx := s.tx ++ [v] }).uartNext u))) ∧
    (∀ v : Byte, 32 ≤ x.tx.length → exec (.uartDataWrite u v) s = .next (s.withChip (c.sb (R.UART_STAT u) 21))) ∧
    (∀ w t, x.rx = w :: t → exec (.uartDataRead u) s = .next (s.withChip (c.onUart u fun s => { s with rx := t })) ∧ (c.uartRead u).1 = w) ∧
    (x.rx = [] → exec (.uartDataRead u) s = .next s ∧ (c.uartRead u).1 = 0x80000000) ∧
    (∀ ctrl baud b t, x.sending = some (ctrl, baud) → x.tx = b :: t →
      let d := (c.emit (.uart u (uartBits ctrl b) (uartPeriod baud))).onUart u fun s => { s with tx := t, sending := none }
      exec (.uartCharSent u) s = .next (s.withChip ((if t.length = c.rf (R.UART_FIFO u) 12 8 then d.unitReq (7 + 2 * u.val) else d).uartNext u))) ∧
    (∀ bits d fe pe brk, uartFrame (c.rd (R.UART_CTRL u)) bits = some (d, fe, pe, brk) →
      let e := ((c.sbIf fe (R.UART_STAT u) 16).sbIf pe (R.UART_STAT u) 17).sbIf brk (R.UART_STAT u) 18
      let e := e.onUart u fun s => { s with timedOut := false }
      let samples : List (BitVec 3) := (false :: bits).map fun b => if b then 7 else 0
      (32 ≤ x.rx.length → exec (.uartCharReceived u false samples) s = .next (s.withChip (e.sb (R.UART_STAT u) 20))) ∧
      (x.rx.length < 32 →
        let g := e.onUart u fun s => { s with rx := s.rx ++ [w32 (d + b2n fe * 2 ^ 8 + b2n pe * 2 ^ 9 + b2n brk * 2 ^ 10)] }
        exec (.uartCharReceived u false samples) s =
          .next (s.withChip (if x.rx.length + 1 = c.rf (R.UART_FIFO u) 4 0 then g.unitReq (6 + 2 * u.val) else g)))) ∧
    (x.rx ≠ [] → x.timedOut = false → exec (.uartRxTimeout u) s =
      .next (s.withChip ((c.unitReq (6 + 2 * u.val)).onUart u fun s => { s with timedOut := true })))

/-- O44. QSPI_GO on an idle master sets BUSY and sends the transaction; in FULL; while BUSY it sets its refusal bit only. QSPI_DONE of a read stores its bytes, clears BUSY, sets DONE. I2C_GO on an idle master sets BUSY, and sends where the master is enabled; the end stores the bytes read and sets DONE, or sets DONE with NACK, ARB_LOST or BUS_STUCK; a held clock sets TIMEOUT. In FULL an ADC start, or a trigger whose request the ADC holds, starts a sequence with nothing running, behind one it queues up to 4, and then drops, counted. CAL sets CAL_BUSY and CAL_END clears it with no sequence running. GPIO_SET sets and GPIO_CLR clears exactly the bits written 1. An accepted input change, VIO_B good for a rise, moves the ball and sets ISTAT by IMODE. -/
def Obligations.SerialBusesAdcAndGpio : Prop :=
  ∀ s : State,
    let c := s.chip
    (∀ v, c.rb R.QSPI_STAT 0 = true → exec (.qspiGo v) s = .next (s.withChip (c.sb R.QSPI_STAT 2))) ∧
    (∀ v d, c.rb R.QSPI_STAT 0 = false → d = c.store R.QSPI_CMD v → d.power = 0 → exec (.qspiGo v) s =
      .next (s.withChip ((d.sb R.QSPI_STAT 0).emit (.flash d.flashTx)))) ∧
    (∀ rx, c.rb R.QSPI_STAT 0 = true → tb (c.rd R.QSPI_CMD) 17 = false → exec (.qspiDone rx) s = .next (s.withChip
      (((c.setRegBytes (R.QSPI_BUF 0) (rx.take (flashLen (c.rd R.QSPI_CMD)))).wb R.QSPI_STAT 0 false).sb R.QSPI_STAT 1))) ∧
    (∀ (m : Fin 4) (v : Word) (d : Chip), d = c.store (R.I2C_XFER m) v → d.rb (R.I2C_STAT m) 0 = false → d.power = 0 →
      let t : I2cTx := { addr := fld v 6 0, wr := d.i2cWbuf m (min 32 (fld v 13 8)), rlen := min 32 (fld v 21 16), speed := min 2 (d.rf (R.I2C_CTRL m) 2 1) }
      exec (.i2cGo m v) s = .next (s.withChip (((d.sb (R.I2C_STAT m) 0).setI2c m (some t)).when (d.rb (R.I2C_CTRL m) 0) fun e =>
        e.emit (.i2c m t.ops (i2cTimes t.speed).1 (i2cTimes t.speed).2)))) ∧
    (∀ (m : Fin 4) (t : I2cTx), c.ser.i2c[m] = some t →
      (∀ rx, exec (.i2cDone m (.ok rx)) s = .next (s.withChip ((c.setRegBytes (R.I2C_RBUF m 0) (rx.take t.rlen)).i2cEnd m 1))) ∧
      (∀ idx, exec (.i2cDone m (.nack idx)) s = .next (s.withChip (((c.i2cEnd m 1).sb (R.I2C_STAT m) 2).wf (R.I2C_STAT m) 13 8 idx.toNat))) ∧
      exec (.i2cDone m .arbLost) s = .next (s.withChip (c.i2cEnd m 4)) ∧ exec (.i2cDone m .busStuck) s = .next (s.withChip (c.i2cEnd m 5))) ∧
    (∀ m : Fin 4, c.rb (R.I2C_STAT m) 0 = true → exec (.i2cSclTimeout m) s = .next (s.withChip (c.i2cEnd m 3))) ∧
    (let q := c.rf R.ADC_STAT 6 4
     let go (d : Chip) (o : Out) : Prop :=
      (c.ser.adcSeq = none → q = 0 → c.power = 0 → o = .next (s.withChip (d.onSer fun x => { x with adcSeq := some (BitVec.ofNat 16 (c.rf R.ADC_SEQ 15 0)) }))) ∧
      (c.ser.adcSeq ≠ none → q < 4 → o = .next (s.withChip (d.wf R.ADC_STAT 6 4 (q + 1)))) ∧
      (4 ≤ q → o = .next (s.withChip ((d.incSat R.ADC_DROP).sb R.ADC_STAT 1)))
     go c (exec .adcStart s) ∧
     (∀ e : BitVec 6, c.reqs.contains { dst := none, src := 1, sel := e.toNat } = true → c.rb R.ADC_TRIG 0 = true → c.rf R.ADC_TRIG 13 8 = e.toNat →
      e.toNat ≤ 32 → go { c with reqs := c.reqs.erase { dst := none, src := 1, sel := e.toNat } } (exec (.adcTrigger e) s)) ∧
     (∀ e : BitVec 6, c.reqs.contains { dst := none, src := 1, sel := e.toNat } = false → exec (.adcTrigger e) s = .next s)) ∧
    (∀ codes q, c.ser.adcSeq = some q → exec (.adcSequenceEnd codes) s = .next (s.withChip
      ((((c.adcResults (setBitsOf 16 q.toNat) codes).onSer fun x => { x with adcSeq := none }).sb R.ADC_STAT 0).unitReq 10).adcNext)) ∧
    exec .adcCal s = .next (s.withChip (c.sb R.ADC_STAT 2)) ∧
    (c.rb R.ADC_CTRL 2 = true → exec .adcCalAuto s = .next (s.withChip (c.sb R.ADC_STAT 2))) ∧
    (c.ser.adcSeq = none → exec .adcCalEnd s = .next (s.withChip (c.wb R.ADC_STAT 2 false))) ∧
    (∀ (k : Fin 2) (v : Word), ∃ d, exec (.gpioSet k v) s = .next (s.withChip d) ∧
      ∀ i, i < (if k.val = 0 then 32 else 16) → d.rb (R.GPIO_OUT k) i = (c.rb (R.GPIO_OUT k) i || tb v i)) ∧
    (∀ (k : Fin 2) (v : Word), ∃ d, exec (.gpioClr k v) s = .next (s.withChip d) ∧ ∀ i, i < 32 → d.rb (R.GPIO_OUT k) i = (c.rb (R.GPIO_OUT k) i && !tb v i)) ∧
    (∀ (n : Fin 48) (v : Bool) (k : Nat), tb c.ser.balls n ≠ v → (v = true → c.rb R.SYS_VIO 1 = true) → (if c.rb (R.GPIO_PAD n) 12 then 3 else 1) ≤ k →
      let d := c.onSer fun s => { s with balls := if v then s.balls ||| BitVec.ofNat 48 (2 ^ n.val) else s.balls &&& ~~~(BitVec.ofNat 48 (2 ^ n.val)) }
      exec (.gpioInputChange n v k) s = .next (s.withChip (if c.padMode n = 3 ∨ (c.padMode n = 1 ∧ v = true) ∨ (c.padMode n = 2 ∧ v = false) then
        d.sb (R.GPIO_ISTAT (n / 32)) (n % 32) else d)))

/-- O45. LANTERN_DECISION in FULL, at the instant of the pace Beam's line or 1,296 ticks after the one before with no Beam, takes the sense currents and ICORE, tracks in mode TRACK, decides the shed level, and clears the slacks taken; at another time it does nothing. SHED_LIMIT_ADVANCE in FULL, 768 ticks after limitation began or the advance before, with a phase limited raises the level to the next allowed step, with SHED and a journal entry from level 0. VSET_STEP in FULL in mode FIXED moves the target one code toward the goal. A phase reported at its limit is marked; an open or short active phase fails with its sticky bit, a journal entry and a spare; LTN_ISOLATE with GO does so as OPEN. BLIND_DETECT with check 1 alone sets SUM. SPARE_ENGAGED sets SPARE, journals and counts the darn. A write to LTN_SHED stores it. -/
def Obligations.LanternDecidesAndSheds : Prop :=
  ∀ s : State,
    let c := s.chip
    (∀ icore sense, c.decisionDue = true →
      let d := ((c.takeSense sense).limitNote).wf R.LTN_ICORE 15 0 icore.toNat
      let d := (if d.rb R.LTN_CTRL 0 then d.track else d).shedDecide
      exec (.lanternDecision icore sense) s = .next (s.withChip (d.onLtn fun l => { l with
        s := Vector.replicate 2 none, due := false, freeAt := l.freeAt + BitVec.ofNat 64 1296 }))) ∧
    (∀ icore sense, c.decisionDue = false → exec (.lanternDecision icore sense) s = .next s) ∧
    (c.decisionDue = true ↔ c.power = 0 ∧ (if c.rf R.LTN_STAT 13 12 < 2 then c.ltn.due = true else 1296 ≤ (c.time - c.ltn.freeAt).toNat)) ∧
    (∀ t k, c.ltnLimit = true → c.power = 0 → c.ltn.limitAt = some t → 768 ≤ (c.time - t).toNat → ((List.range 5).find? fun s => decide (c.shedLevel < s) && c.shedAllowed s) = some k →
      let d := c.shedChange (Chip.wf R.LTN_SHED 2 0 k)
      let e := if c.shedLevel = 0 then (d.sb R.LTN_STICKY 5).journal 0x08 5 k ((d.sb R.LTN_STICKY 5).rd R.LTN_STICKY) 0 0 else d
      exec .shedLimitAdvance s = .next (s.withChip (e.onLtn fun l => { l with limitAt := some c.time }))) ∧
    (c.rb R.LTN_CTRL 0 = false → c.power = 0 →
      let goal := clampN c.vMin c.vMax (min 77 (c.rf R.LTN_VSET 6 0))
      (c.vcode < goal → exec .vsetStep s = .next (s.withChip (c.setVcode (c.vcode + 1)))) ∧
      (goal < c.vcode → exec .vsetStep s = .next (s.withChip (c.setVcode (c.vcode - 1)))) ∧
      (c.vcode = goal → exec .vsetStep s = .next s)) ∧
    (∀ p : Phase, c.phaseOn p = true →
      exec (.phaseCurrentLimit p true) s = .next (s.withChip (c.onLtn fun l => { l with
        limited := insertSorted p l.limited, sense := l.sense.set p (min 300 l.sense[p].1, l.sense[p].2) }).limitNote) ∧
      (∀ bit, bit = 0 ∨ bit = 1 →
        let d := (c.setPhase p 3).sb R.LTN_STICKY bit
        let d := (d.journal 0x08 bit p (d.rd R.LTN_STICKY) 0 0).onLtn fun l => { l with limited := l.limited.filter (· != p) }
        exec (if bit = 0 then .phaseOpen p else .phaseShort p) s = .next (s.withChip (d.engage p).limitNote))) ∧
    (∀ p : Phase, exec (.phaseCurrentLimit p false) s = .next (s.withChip (c.onLtn fun l => { l with limited := l.limited.filter (· != p.val) }).limitNote)) ∧
    (∀ p : Phase, exec (.phaseOpen p) s = .next (s.withChip (c.phaseFault p 0)) ∧ exec (.phaseShort p) s = .next (s.withChip (c.phaseFault p 1))) ∧
    (∀ v d, d = c.store R.LTN_ISOLATE v → tb v 31 = true → fld v 3 0 < 14 → d.phaseOn (fld v 3 0) = true →
      exec (.ltnIsolate v) s = .next (s.withChip (d.phaseFail (fld v 3 0) 0))) ∧
    (∀ iin vin vcore sense,
      let ps := ((List.range 14).filter c.phaseOn).map fun p => (p, (sense.getD p (0, 0)).1.toNat, (sense.getD p (0, 0)).2.toNat)
      sumFails iin vin vcore (ps.map fun x => x.2.1) = true → (plausFails ps).filter (fun p => c.phaseSt p == 1) = [] →
      exec (.blindDetect iin vin vcore sense) s = .next (s.withChip (c.sb R.LTN_STICKY 8))) ∧
    (∀ (p : Phase) (q : Nat), (c.ltn.engaging.find? fun e => e.1 == p.val) = some (p.val, q) →
      let d := (c.onLtn fun l => { l with engaging := l.engaging.filter fun e => e.1 != p.val }).sb R.LTN_STICKY 3
      let d := if d.phaseSt q = 2 then d.setPhase q 3 else d
      exec (.spareEngaged p) s = .next (s.withChip ((d.journal 0x0A 0x05 q 0 0 0).darned 4 0 q))) ∧
    (∀ v, exec (.shedEnWrite v) s = .next (s.withChip (c.shedChange (Chip.store R.LTN_SHED v))))

/-- O46. VMAX in use is the lesser of LTN_VLIM.VMAX and 77, and VMIN in use the lesser of LTN_VLIM.VMIN and that. Where the target lies between them it lies there after VSET_STEP (mode FIXED) and after LANTERN_DECISION (mode TRACK), which both answer a next state, and a write to LTN_VLIM brings the target between the new limits at once. -/
def Obligations.VcoreTargetStaysInItsLimits : Prop :=
  (∀ c : Chip, c.vMax = min 77 (c.rf R.LTN_VLIM 14 8) ∧ c.vMin = min (c.rf R.LTN_VLIM 6 0) c.vMax) ∧
  (∀ (icore : Half) (sense : List (Half × BitVec 10)) (s : State), s.chip.vMin ≤ s.chip.vcode → s.chip.vcode ≤ s.chip.vMax →
    (∃ c, exec .vsetStep s = .next (s.withChip c) ∧ c.vMin ≤ c.vcode ∧ c.vcode ≤ c.vMax) ∧
    (∃ c, exec (.lanternDecision icore sense) s = .next (s.withChip c) ∧ c.vMin ≤ c.vcode ∧ c.vcode ≤ c.vMax)) ∧
  (∀ (v : Word) (c : Chip), (c.storeLtn R.LTN_VLIM v).vMin ≤ (c.storeLtn R.LTN_VLIM v).vcode ∧
    (c.storeLtn R.LTN_VLIM v).vcode ≤ (c.storeLtn R.LTN_VLIM v).vMax)

/-- O47. SUPPLY_SWITCH at or below 2.70 V on VIN moves the domain to VBAT with SRC and SWITCH set. AON_POR resets the always-on registers and sets POR in both. CHARGER_RECOMPUTE in FULL or DIM with EN 1 slews the current by at most 1 mA toward the phase current times k. A TEMP_SAMPLE with a sensor out of range holds the charge, one with all in the inner range ends the hold. PROBE ends in NO_CELL, FAULT, PRE or FAST by VBAT; PRE moves to FAST at V_PRE, or by timeout to FAULT; FAST to CV at V_CV, or by timeout to FAULT; CV to DONE below the termination current; DONE to PROBE below V_CV - 100 mV, and a cell not found to PROBE; a VBAT above OVP brings a charge to FAULT; at other voltages and currents none of these moves. EMB_CTRL with EN 0 stops the charge; EN 1 from 0 in FULL or DIM starts it at PROBE. -/
def Obligations.EmberCharges : Prop :=
  ∀ s : State,
    let c := s.chip
    let enter (p : Nat) (d : Chip) : Out := .next (s.withChip ((d.wf R.EMB_STAT 2 0 p).onEmb fun e => { e with
      noCell := false, cur := if 2 ≤ p ∧ p ≤ 4 then e.cur else 0 }))
    (∀ vin, c.rb R.AON_STAT 0 = false → vin ≤ 2700 → ∃ d, exec (.supplySwitch vin) s = .next (s.withChip d) ∧ d.emb.vin = vin ∧
      d.rb R.AON_STAT 0 = true ∧ d.rb R.EMB_STICKY 6 = true) ∧
    (∃ d, exec .aonPor s = .next (s.withChip d) ∧ d.rb R.AON_STICKY 4 = true ∧ d.rb R.AON_WAKE_CAUSE 8 = true ∧ d.time = 0 ∧ d.rd R.SYS_RST_CAUSE = 0) ∧
    (∀ vin, c.rb R.EMB_CTRL 0 = true → c.power ≤ 1 →
      let d := c.onEmb fun e => { e with vin }
      exec (.chargerRecompute vin) s = .next (s.withChip ((d.wb R.EMB_STAT 4 (decide (d.inputK < 1))).onEmb fun e => { e with
        cur := if d.rb R.EMB_STAT 5 then 0 else clampQ (e.cur - 1) (e.cur + 1) (d.phaseCurrent * d.inputK) }))) ∧
    (∀ temps : List Int, (∃ t ∈ temps, 450 < t ∨ t < 0) → exec (.tempSample temps) s =
      .next (s.withChip (((c.sb R.EMB_STAT 5).sb R.EMB_STICKY 5).onEmb fun e => { e with cur := 0 }))) ∧
    (∀ temps : List Int, (∀ t ∈ temps, 20 ≤ t ∧ t ≤ 430) → exec (.tempSample temps) s = .next (s.withChip (c.wb R.EMB_STAT 5 false))) ∧
    (∀ vbat, c.charge = 1 → c.emb.noCell = false →
      exec (.chargeProbeEnd vbat) s =
        (if vbat < 1000 then .next (s.withChip ((c.sb R.EMB_STICKY 4).onEmb fun e => { e with noCell := true }))
         else if (if c.rb R.EMB_CTRL 1 then 3750 else 4350) < vbat then enter 6 (c.sb R.EMB_STICKY 3)
         else if vbat < (if c.rb R.EMB_CTRL 1 then 2500 else 3000) then enter 2 c else enter 3 c)) ∧
    (let vcv := if c.rb R.EMB_CTRL 1 then 3600 else 4200
     let vpre := if c.rb R.EMB_CTRL 1 then 2500 else 3000
     let ovp := if c.rb R.EMB_CTRL 1 then 3750 else 4350
     ∀ vbat : Nat,
      (c.charge = 2 → vpre ≤ vbat → exec (.preToFast vbat) s = enter 3 c) ∧ (vbat < vpre → exec (.preToFast vbat) s = .next s) ∧
      (c.charge = 3 → vcv ≤ vbat → exec (.cvEntry vbat) s = enter 4 c) ∧ (vbat < vcv → exec (.cvEntry vbat) s = .next s) ∧
      (c.charge = 5 → vbat < vcv - 100 → exec (.rechargeStart vbat) s = enter 1 c) ∧ (vcv - 100 ≤ vbat → exec (.rechargeStart vbat) s = .next s) ∧
      (c.charge ≠ 0 → ovp < vbat → exec (.cellOvp vbat) s = enter 6 (c.sb R.EMB_STICKY 3)) ∧ (vbat ≤ ovp → exec (.cellOvp vbat) s = .next s)) ∧
    (c.charge = 2 → c.rb R.EMB_STAT 5 = false → exec .preTimeout s = enter 6 (c.sb R.EMB_STICKY 1)) ∧
    (c.charge = 3 → c.rb R.EMB_STAT 5 = false → exec .fastTimeout s = enter 6 (c.sb R.EMB_STICKY 2)) ∧
    (∀ ua : Nat, c.charge = 4 → c.rb R.EMB_STAT 4 = false → c.rb R.EMB_STAT 5 = false →
      ((ua : Rat) < 1000 * c.termCurrent → exec (.chargeTermination ua) s = enter 5 (c.sb R.EMB_STICKY 0)) ∧
      (¬(ua : Rat) < 1000 * c.termCurrent → exec (.chargeTermination ua) s = .next s)) ∧
    (c.charge = 1 → c.emb.noCell = true → exec .noCellReprobe s = enter 1 c) ∧
    (∀ v, tb v 0 = false → exec (.embCtrlWrite v) s = enter 0 (c.store R.EMB_CTRL v)) ∧
    (∀ v, tb v 0 = true → tb (c.rd R.EMB_CTRL) 0 = false → (c.store R.EMB_CTRL v).power ≤ 1 → exec (.embCtrlWrite v) s = enter 1 (c.store R.EMB_CTRL v))

/-- O48. RTC_SECOND at 32,767 subseconds clears AON_RTC_SUB, adds 1 to AON_RTC_SEC and checks the alarm. RTC_CALIBRATE after 1,048,576 LP edges adds the signed CAL and borrows or carries a second; before them neither does anything. A write to AON_RTC_SEC clears AON_RTC_SUB. A request of another state, with no wake level held, sets REQ and PENDING; of RUN in RUN clears them. POWER_STATE_ENTRY with DIM pending enters DIM; with HOLD or STANDBY pending, the cores asleep and no life-cycle operation in progress, it enters that; with nothing pending it does nothing. A wake input that meets its mode for DEB counts, one that does not records its level only. An enabled wake event of a wake input or the alarm sets its cause and cancels a pending request; in DIM it leaves DIM and wakes core 0, in HOLD and STANDBY it is held at 3.00 V or below and begins the wake start above. WAKE_START from HOLD or STANDBY returns to RUN with the wake cause. -/
def Obligations.RtcPowerStatesAndWake : Prop :=
  ∀ s : State,
    let c := s.chip
    ((c.rd R.AON_RTC_SUB).toNat = 32767 → exec .rtcSecond s = .next (s.withChip (((c.wr R.AON_RTC_SUB 0).incWrap R.AON_RTC_SEC).alarmCheck))) ∧
    ((c.rd R.AON_RTC_SUB).toNat ≠ 32767 → exec .rtcSecond s = .next s) ∧
    (c.emb.calTicks < 1048576 → exec .rtcCalibrate s = .next s) ∧
    (1048576 ≤ c.emb.calTicks →
     let x : Int := (c.rd R.AON_RTC_SUB).toNat + signed 8 (c.rf R.AON_RTC_CAL 7 0)
     let d := c.wr R.AON_RTC_SUB (w32 (toField 15 x))
     let out (d : Chip) : Out := .next (s.withChip (d.onEmb fun e => { e with calTicks := e.calTicks - 1048576 }))
     (0 ≤ x → x < 32768 → exec .rtcCalibrate s = out d) ∧
     (x < 0 → exec .rtcCalibrate s = out ((d.wr R.AON_RTC_SEC (d.rd R.AON_RTC_SEC - 1)).alarmCheck)) ∧
     (32768 ≤ x → exec .rtcCalibrate s = out ((d.wr R.AON_RTC_SEC (d.rd R.AON_RTC_SEC + 1)).alarmCheck))) ∧
    (∀ v, exec (.rtcSecWrite v) s = .next (s.withChip ((c.wr R.AON_RTC_SEC v).wr R.AON_RTC_SUB 0))) ∧
    (∀ v, fld v 1 0 = 0 → c.power ≠ 1 → exec (.powerRequest v) s = .next (s.withChip ((c.wf R.AON_PWR 1 0 0).wb R.AON_PWR 8 false))) ∧
    (∀ v, fld v 1 0 ≠ 0 → fld v 1 0 ≠ c.power →
      let d := (c.wf R.AON_PWR 1 0 (fld v 1 0)).sb R.AON_PWR 8
      d.wakeLevelHolds 0 = false → d.wakeLevelHolds 1 = false → exec (.powerRequest v) s = .next (s.withChip d)) ∧
    (c.rb R.AON_PWR 8 = true → c.rf R.AON_PWR 1 0 = 1 → exec .powerStateEntry s =
      .next (s.withChip ((c.wb R.AON_PWR 8 false).wf R.AON_PWR 5 4 1).eyeDim.bmoDim.sndDim)) ∧
    (c.rb R.AON_PWR 8 = true → 2 ≤ c.rf R.AON_PWR 1 0 → c.coresAsleep = true → c.lcyBusy = false →
      ∃ d, exec .powerStateEntry s = .next (s.withChip d) ∧ d.power = c.rf R.AON_PWR 1 0 ∧ d.rb R.AON_PWR 8 = false) ∧
    (c.rb R.AON_PWR 8 = false → exec .powerStateEntry s = .next s) ∧
    (∀ (i : Fin 2) (level edge : Bool) (held : Nat),
      let d := c.onEmb fun e => { e with wakeLvl := e.wakeLvl.set i level }
      (held < c.rf R.AON_WAKE_CFG 15 8 → exec (.wakeInput i level edge held) s = .next (s.withChip d)) ∧
      (c.rf R.AON_WAKE_CFG 15 8 ≤ held → c.rf R.AON_WAKE_CFG (2 * i.val + 1) (2 * i.val) = 2 → level = true → exec (.wakeInput i level edge held) s =
        .next (s.withChip ((d.sbIf (decide (c.power = 0) || c.rb R.AON_WAKE_EN i) R.AON_STICKY (1 + i.val)).wakeEvent i)))) ∧
    (∀ e : Fin 5, e.val ≤ 2 → c.rb R.AON_WAKE_EN e = true →
      let d := c.sb R.AON_WAKE_CAUSE e
      let d := if c.rb R.AON_PWR 8 then ((d.wf R.AON_PWR 1 0 0).wb R.AON_PWR 8 false).sb R.AON_STICKY 3 else d
      (c.power = 1 → exec (.wakeEvent e) s = .next (s.withChip (d.dimLeave.onCore 0 fun k => { k with latch := true }))) ∧
      (c.power = 0 → exec (.wakeEvent e) s = .next (s.withChip d)) ∧
      (2 ≤ c.power → c.emb.vin ≤ 3000 → exec (.wakeEvent e) s = .next (s.withChip (d.sb R.AON_STAT 1))) ∧
      (2 ≤ c.power → 3000 < c.emb.vin → exec (.wakeEvent e) s =
        .next (s.withChip (d.onEmb fun x => { x with waking := true })))) ∧
    (c.emb.waking = true → 2 ≤ c.power →
      let d := (c.sleepReset (c.power == 2)).powerRun.onEmb fun e => { e with waking := false, fell := false }
      let d := d.onRst fun r => { r with phase := if c.power = 2 then .run else .wait, rom := 1 }
      exec .wakeStart s = .next (s.withChip (d.sb R.SYS_RST_CAUSE RstCause.wake.bit).embWake))

/-- O49. SLICE_CHECK_VISIT with checking on and no slice darned steps to the next slice; a slice bad at two visits in a row is marked failed, with its sticky bit and a journal entry, and is to be darned. SLICE_MARK marks a slice, SLICE_ASSIGN gives it the free spare, journalled and counted. VOICE_FAIL_MARK stores its word, of which the last holds 8 voices. JOURNAL_ENTRY_WRITE with the journal off drops the oldest entry, counted; on, it writes its bytes 4 to 31 and then 0 to 3 at the slot of its sequence number and counts that. JRN_POST queues an entry with a code of at least 0x10. DARN_RECORD_APPLY, once after a start, turns the journal on, applies the record, and holds the Beams that have a hold record. -/
def Obligations.SlicesVoicesAndJournal : Prop :=
  ∀ s : State,
    let c := s.chip
    (∀ bad, c.rb R.DRN_CTRL 1 = true → c.motif.spareFor = none → (bad = false ∨ c.motif.suspects.contains (c.rf R.DRN_SLICE_CHK 4 0) = false) →
      let k := c.rf R.DRN_SLICE_CHK 4 0
      let d := c.wr R.DRN_SLICE_CHK (w32 ((k + 1) % 32))
      exec (.sliceCheckVisit bad) s = .next (s.withChip { d with motif := { d.motif with
        suspects := if bad then insertSorted k d.motif.suspects else d.motif.suspects.filter (· != k) } })) ∧
    (c.rb R.DRN_CTRL 1 = true → c.motif.spareFor = none → c.motif.suspects.contains (c.rf R.DRN_SLICE_CHK 4 0) = true →
      let k := c.rf R.DRN_SLICE_CHK 4 0
      let d := c.wr R.DRN_SLICE_CHK (w32 ((k + 1) % 32))
      let d := ({ d with motif := { d.motif with suspects := d.motif.suspects.filter (· != k), failed := insertSorted k d.motif.failed } } : Chip).sb R.DRN_STICKY 3
      exec (.sliceCheckVisit true) s = .next (s.withChip ((d.journal 0x06 3 k (d.rd R.DRN_STICKY) 0 0).wantDarn 2 k))) ∧
    (∀ k : BitVec 5, exec (.sliceMark k) s = .next (s.withChip (let d := c.store R.DRN_SLICE (setBit (w32 k.toNat) 8 true)
      { d with motif := { d.motif with failed := insertSorted k.toNat d.motif.failed } }))) ∧
    (∀ k : BitVec 5, c.motif.spareFor = none → exec (.sliceAssign k) s = .next (s.withChip
      ((((c.store R.DRN_SLICE (setBit (w32 k.toNat) 9 true)).sliceServe k.toNat).journal 0x0A 0x05 k.toNat 0 0 0).darned 2 0 k.toNat))) ∧
    (∀ (k : Fin 4) (v : Word), exec (.voiceFailMark k v) s = .next (s.withChip (c.store (R.DRN_VFAIL k) (if k.val = 3 then v &&& 0xFF else v)))) ∧
    (∀ e t, c.jrnQ = e :: t →
      (c.rb R.DRN_JRN_BASE 0 = false → exec .journalEntryWrite s =
        .next (s.withChip ((({ c with jrnQ := t } : Chip).incSat R.DRN_JRN_DROP).sb R.DRN_STICKY 5))) ∧
      (let seq := c.rd R.DRN_JRN_SEQ
       let off := c.rf R.DRN_JRN_BASE 25 13 * 0x2000 + 32 * (seq.toNat % 256)
       c.rb R.DRN_JRN_BASE 0 = true → off + 32 ≤ vlmSize → exec .journalEntryWrite s =
        .next (s.withChip ((((({ c with jrnQ := t } : Chip).vWrite (off + 4) ((e.bytes seq).drop 4)).vWrite off ((e.bytes seq).take 4)).incWrap
          R.DRN_JRN_SEQ).mirror (e.bytes seq))))) ∧
    (∀ v : Word, exec (.jrnPost v) s = .next (s.withChip (c.journal (max 0x10 (fld v 7 0)) (fld v 15 8) (fld v 31 16) (c.rd (R.DRN_JRN_D 0))
      (c.rd (R.DRN_JRN_D 1)) (c.rd (R.DRN_JRN_D 2))))) ∧
    (c.tirbaUp = true → c.romLocked = true → c.tirba.applied = false →
      let d := c.storeVlm R.DRN_JRN_BASE (w32 (1 + journalUnit * 0x2000))
      let d := forEach (List.range 8) (fun i c => c.applyEntry (c.recEntry i)) d
      let d := forEach (List.finRange 2) (fun b c => if c.emb.holdRec[b] then c.storeBmo (R.BMO_HOLD b) (bitW 2) else c) d
      exec .darnRecordApply s = .next (s.withChip (d.onTirba fun t => { t with applied := true })))

/-- O50. Where the front command of a ring may start: RASTER_LOAD that fails a check ends with it; with its payload there and its program placed it installs program and regions and answers where. RASTER_CONTROL of core 0 or 7 ends with BOUNDS 0x11; stop of a running, trapped or held one brings its core to the stub; start of a stopped one starts it on the core that runs it. RASTER_STATUS answers the program's fields. CORE_SELF_TEST of a held faulty beam core clears the fault, and brings it to the stub or records the failure. ADOPTION moves its program to core 7, which starts at the first VB0 1 ms later. A fault of core 7 holds it and ends the adoption. CORE0_RESTART restarts core 0 once, with the rings off. -/
def Obligations.RasterProgramsAndAdoption : Prop :=
  (∀ (n : Ring) (q : Cmd) (s : State),
    let ends (st det : Nat) (r : List Byte) (c : Chip) : Out := .next (s.withChip (c.endCmd n st det r))
    (s.chip.front n 0x130 anyOf = some q →
      (∀ st det, q.stage = 0 → firstOf (s.chip.loadChecks q) = some (st, det) → exec (.rasterLoad n) s = ends st det [] s.chip) ∧
      (∀ pl : Placing, q.stage ≠ 0 → q.readFailed = false → q.len ≤ q.payload.length → firstOf (s.chip.loadChecks q) = none →
        placing 0x00104000 (q.le 24 2) (q.le 28 2) = some pl → q.bit 21 0 = 0 →
        let r := coreNo (q.le 20 1)
        let bs := q.payload.take q.len
        let p : RasterSt := { s.chip.raster r with
          state := 1, traps := 0, cover := s.chip.unitCover (beamOf r), codeBase := pl.code, dataBase := pl.data, pc2 := pl.codeLog, pd2 := pl.dataLog, entry := q.le 30 2
          code := bs.take (q.le 24 2), data := bs.drop (q.le 24 2), dataSize := q.le 28 2, params := (List.range 4).map fun i => w32 (q.le (32 + 4 * i) 4)
          wdg := if w32 (q.le 48 4) = 0 then s.chip.frameLineTicks (beamOf r) else w32 (q.le 48 4) }
        exec (.rasterLoad n) s = ends 0 0 (res [(8, 4, pl.code), (12, 4, pl.data), (16, 1, pl.codeLog), (17, 1, pl.dataLog)])
          (((s.chip.onRaster r fun _ => p).putProgram p r).putRegions r r))) ∧
    (s.chip.front n 0x131 (fun q => q.le 9 1 != 1) = some q →
      (q.le 8 1 = 0 ∨ q.le 8 1 = 7 → exec (.rasterStop n) s = ends 4 0x11 [] s.chip) ∧
      (∀ run, 1 ≤ q.le 8 1 → q.le 8 1 ≤ 6 → q.le 9 1 = 0 → 2 ≤ (s.chip.raster (coreNo (q.le 8 1))).state → s.chip.runCore (coreNo (q.le 8 1)) = some run →
        s.chip.tirba.adopt = none → exec (.rasterStop n) s = ends 0 0 [] ((s.chip.toStub run).onRaster (coreNo (q.le 8 1)) fun p => { p with state := 1 }))) ∧
    (s.chip.front n 0x131 (fun q => q.le 9 1 == 1) = some q → ∀ run, 1 ≤ q.le 8 1 → q.le 8 1 ≤ 6 → (s.chip.raster (coreNo (q.le 8 1))).state = 1 →
      s.chip.runCore (coreNo (q.le 8 1)) = some run →
      exec (.rasterStart n) s = ends 0 0 [] ((s.chip.startProgram (coreNo (q.le 8 1)) run ((List.range 4).map fun i => w32 (q.le (12 + 4 * i) 4))).onTirba fun t =>
        { t with adopt := t.adopt.map fun a => if a.core = coreNo (q.le 8 1) then { a with started := true } else a })) ∧
    (s.chip.front n 0x132 anyOf = some q → 1 ≤ q.le 8 1 → q.le 8 1 ≤ 6 →
      let r := coreNo (q.le 8 1)
      let p := s.chip.raster r
      exec (.rasterStatus n) s = ends 0 0 (res [(8, 1, p.state), (9, 1, p.cause), (10, 1, if s.chip.runCore r = some 7 then 7 else r.val),
        (12, 4, p.epc.toNat), (16, 4, p.faddr.toNat), (20, 4, p.traps)]) s.chip)) ∧
  (∀ (n : Core) (s : State), s.chip.tirbaUp = true → s.chip.beamCore n = true →
    (s.chip.heldCore n = true → s.chip.coreFault n = true →
      exec (.coreSelfTest n true) s = .next (s.withChip ((s.chip.clearFault n).toStub n)) ∧
      exec (.coreSelfTest n false) s = .next (s.withChip ((s.chip.clearFault n).onDrn fun d => { d with selfFail := insertSorted n.val d.selfFail }))) ∧
    (s.chip.drn.selfFail.contains n.val = true → exec (.adoption n) s = .next (s.withChip (s.chip.adoptCore n (s.chip.raster n).faultAt)))) ∧
  (∀ (a : AdoptSt) (s : State), s.chip.tirba.adopt = some a → a.starts = true → a.started = false → s.chip.heldCore 7 = false →
    a.since.toNat + 96000 ≤ s.chip.time.toNat → s.chip.atLine a.beam (s.chip.beam a.beam).vactive = true →
    exec .adoptedProgramStart s = .next (s.withChip ((s.chip.onTirba fun t => { t with adopt := some { a with started := true } }).startProgram a.core 7
      (s.chip.raster a.core).params))) ∧
  (∀ s : State, s.chip.tirbaUp = true → s.chip.coreFault 7 = true → exec .core7Fault s =
    .next (s.withChip (((s.chip.coreHold 7).clearFault 7).onTirba fun t => { t with core7Lost := true }).adoptEnd)) ∧
  (∀ s : State, s.chip.coreFault 0 = true → s.chip.drn.core0Restarted = false → s.chip.tirba.core7Lost = false → s.chip.heldCore 7 = false →
    ∃ c, exec .core0Restart s = .next (s.withChip c) ∧ c.drn.core0Restarted = true ∧ c.rb R.MBX_STAT 0 = false ∧ c.rd (R.MBX_RING_EN 0) = 0 ∧
      c.rd (R.MBX_RING_EN 1) = 0)

/-- O51. Out of lockout with VIO_C good (otherwise the port does nothing): Test-Logic-Reset selects IDCODE; each instruction selects itself, a code that is none of the eight reading as itself and a used one as 0x1F under BYPASS; EXTEST and SAMPLE/PRELOAD capture and load the boundary register and shift it out; IDCODE shifts out its 32 bits. DBG_CHAL makes a challenge of 32 bytes and keeps it with the time. DBG_RESP, with no check in progress, uses the challenge up, which counts for 60 s, and starts the check; its end grants the level and sets GRANT, or counts the failure, sets FAIL, and at the third blocks with BLOCK. REVOKE of a grant ends it, sets REVOKED and resumes every core. -/
def Obligations.JtagPortAndGrants : Prop :=
  ∀ s : State,
    let c := s.chip
    let ir (i : BitVec 5) (d : Chip) : Chip := d.onDbg fun x => { x with ir := i }
    (c.jtagOn = true ↔ c.rst.phase ≠ .lockout ∧ c.rb R.SYS_VIO 2 = true) ∧
    (∀ i, c.jtagOn = false → (i = .tapReset ∨ (∃ x, i = .jtagExtest x) ∨ (∃ x y, i = .jtagSamplePreload x y) ∨ i = .jtagIdcode ∨ i = .jtagClamp ∨
      i = .jtagHighz ∨ (∃ x, i = .jtagBypass x) ∨ i = .dbgChal ∨ (∃ x, i = .dbgResp x)) → exec i s = .next s) ∧
    (c.jtagOn = true → exec .tapReset s = .next (s.withChip (ir 2 c)) ∧
     exec (.jtagExtest none) s = .next (s.withChip (ir 0 c)) ∧
     (∀ cap load, exec (.jtagExtest (some (cap, load))) s = .next (s.withChip (((ir 0 c).onDbg fun d => { d with captured := cap, drive := load }).emit
      (.tdo 258 cap.toNat)))) ∧
     (∀ cap load, exec (.jtagSamplePreload cap load) s = .next (s.withChip (((ir 1 c).onDbg fun d => { d with captured := cap, drive := load }).emit
      (.tdo 258 cap.toNat)))) ∧
     exec .jtagIdcode s = .next (s.withChip ((ir 2 c).emit (.tdo 32 idcode))) ∧
     exec .jtagClamp s = .next (s.withChip (ir 3 c)) ∧ exec .jtagHighz s = .next (s.withChip (ir 4 c)) ∧
     (∀ code : BitVec 5, exec (.jtagBypass code) s = .next (s.withChip (ir
      (if code.toNat ≤ 4 ∨ code = 0x10 ∨ code = 0x11 ∨ code = 0x12 then 0x1F else code) c))) ∧
     (∃ d ch, exec .dbgChal s = .next (s.withChip d) ∧ d.dbg.challenge = some (ch, c.time) ∧ ch.length = 32 ∧ d.dbg.ir = 0x10 ∧ d.regs = c.regs ∧
      ch.drop 16 = leBytes 8 Config.serial.toNat ++ leBytes 8 c.lcyState) ∧
     (∀ r, c.dbg.checking = none →
      (c.dbg.challenge = none → exec (.dbgResp r) s = .next (s.withChip (c.onDbg fun d => { d with ir := 0x11, checking := some (r, none), challenge := none }))) ∧
      (∀ ch t, c.dbg.challenge = some (ch, t) → exec (.dbgResp r) s = .next (s.withChip (c.onDbg fun d => { d with
        ir := 0x11, checking := some (r, if (c.time - t).toNat ≤ 5760000000 then some ch else none), challenge := none }))))) ∧
    (∀ r ch, c.dbg.checking = some (r, ch) →
      (c.responseOk r ch = true → exec .dbgResponseCheckEnd s =
        .next (s.withChip ((c.onDbg fun d => { d with checking := none, level := some (leNat (part r 0 1)) }).sb R.DBG_STICKY 0))) ∧
      (let d := (c.onDbg fun d => { d with checking := none, fails := satInc 3 d.fails }).sb R.DBG_STICKY 1
       c.responseOk r ch = false → exec .dbgResponseCheckEnd s = .next (s.withChip
        (if 2 ≤ c.dbg.fails ∧ c.dbg.blocked = false then (d.onDbg fun d => { d with blocked := true }).sb R.DBG_STICKY 2 else d)))) ∧
    (c.dbg.level ≠ none → ∃ d, exec .dbgRevoke s = .next (s.withChip d) ∧ d.dbg.level = none ∧ d.rb R.DBG_STICKY 4 = true ∧
      ∀ n, d.core n = { c.core n with halted := false })

/-- O52. Where the debug port responds (otherwise nothing happens): a DBG_CMD captures the last command's result. Where ACCESS is neither OPEN nor GRANTED, or the core lies outside the level, or a STEP, READ_G, WRITE_G, LOAD or STORE names a core that is not halted, it sets DONE and ERROR and changes no register, no core and no memory. Otherwise NOP ends without ERROR; HALT halts a released running core and sets HALT; RESUME clears the halt; READ_G returns the register; WRITE_G writes it; LOAD and STORE of an address that is no target end with ERROR, and of one that is end with the word, and with the word stored; STEP runs one instruction, or where the core stands in the ROM's own code that, and ends the WFE or WAITUNTIL that it began. -/
def Obligations.DebugCommandsNeedAccess : Prop :=
  ∀ (n : Core) (s : State),
    let c := s.chip
    let may := c.debugOpen && c.inLevel n
    let d := c.dbgCapture
    (∀ i, c.jtagOn = false → i = .dbgNop n ∨ i = .dbgHalt n ∨ i = .dbgResume n ∨ i = .dbgStep n ∨ (∃ a, i = .dbgReadG n a) ∨
      (∃ a v, i = .dbgWriteG n a v) ∨ (∃ a, i = .dbgLoad n a) ∨ (∃ a v, i = .dbgStore n a v) → exec i s = .next s) ∧
    (c.jtagOn = true →
    (∀ (i : Instr) (needHalt : Bool),
      (needHalt = false ∧ (i = .dbgNop n ∨ i = .dbgHalt n ∨ i = .dbgResume n)) ∨
      (needHalt = true ∧ (i = .dbgStep n ∨ (∃ a, i = .dbgReadG n a) ∨ (∃ a v, i = .dbgWriteG n a v) ∨ (∃ a, i = .dbgLoad n a) ∨ (∃ a v, i = .dbgStore n a v))) →
      (may = false ∨ (needHalt = true ∧ (c.core n).halted = false)) →
      ∃ e, exec i s = .next (s.withChip e) ∧ e.dbg.cmdDone = true ∧ e.dbg.cmdError = true ∧ e.regs = c.regs ∧ e.mem = c.mem ∧ e.cores = c.cores ∧ e.ue = c.ue) ∧
    (may = true → exec (.dbgNop n) s = .next (s.withChip (d.dbgEnd false))) ∧
    (may = true → c.coresUp = true → c.heldCore n = false → (c.core n).halted = false →
      exec (.dbgHalt n) s = .next (s.withChip ((d.debugHalt n).dbgEnd false))) ∧
    (may = true →
      let x := d.onCore n fun k => { k with halted := false }
      exec (.dbgResume n) s = .next (s.withChip ((if (c.core n).halted then x.parkOn n else x).dbgEnd false))) ∧
    (may = true → (c.core n).halted = true →
      (∀ a : Word, 16 ≤ a.toNat → exec (.dbgReadG n a) s = .next (s.withChip (d.dbgEnd true)) ∧ ∀ v, exec (.dbgWriteG n a v) s = .next (s.withChip (d.dbgEnd true))) ∧
      (∀ g : Fin 16, exec (.dbgReadG n (w32 g)) s = .next (s.withChip (d.onDbg fun x => { x with cmdDone := true, cmdError := false, cmdData := (c.core n).gr g }))) ∧
      (∀ (g : Fin 16) (v : Word), exec (.dbgWriteG n (w32 g) v) s = .next (s.withChip ((d.onCore n (CoreSt.setG g v)).dbgEnd false))) ∧
      (∀ a e, accTarget n .r 4 a = .error e → exec (.dbgLoad n a) s = .next (s.withChip (d.dbgEnd true))) ∧
      (∀ a t v e, accTarget n .r 4 a = .ok t → d.loadTgt n 8 4 a t = (.ok v, e) →
        exec (.dbgLoad n a) s = .next (s.withChip (e.onDbg fun x => { x with cmdDone := true, cmdError := false, cmdData := w32 v }))) ∧
      (∀ a v e, accTarget n .w 4 a = .error e → exec (.dbgStore n a v) s = .next (s.withChip (d.dbgEnd true))) ∧
      (∀ a v t, accTarget n .w 4 a = .ok t → exec (.dbgStore n a v) s = .next (s.withChip ((d.storeTgt n false 4 a v t).dbgEnd false))) ∧
      (∀ w e, d.fetch n = (.ok w, e) → e.romCode n = none →
        let x := e.execOp n (predOf w) (decodeYelex w)
        exec (.dbgStep n) s = .next (s.withChip ((if (x.core n).halted then x.waitEnd n else x).dbgEnd false))) ∧
      (∀ w e x, d.fetch n = (.ok w, e) → e.romCode n = some x →
        exec (.dbgStep n) s = .next (s.withChip ((if (x.core n).halted then x.waitEnd n else x).dbgEnd false)))))

/-- O53. VIN_POWER_ON, a thermal trip, a fatal fault and a VCORE below its limit reset the block cold with their cause where it is not locked out; nRESET and a VIN brownout do so always, and from lockout set LOCKOUT. A fatal fault that recurs within 10 s locks out. START_SEQUENCE with at least 6 good phases assigns them and runs; with fewer it locks out. SYS_RESET from U mode or with another key only logs RESET_KEY; with the key in RUN it resets warm, or cold. A VIO bank at 1.62 to 1.98 V or 2.97 to 3.63 V becomes good and keeps its level; one that leaves those ranges past the start clears GOOD and sets its lost bit, and the GPIO balls of VIO_B then read 0. Without an override of the JTAG port, no ball is driven before the start, in HOLD or STANDBY, or of a bank that is not good, and no DSI or PCI Express lane before the start, in HOLD or STANDBY. -/
def Obligations.ResetsStartsAndBanks : Prop :=
  ∀ s : State,
    let c := s.chip
    let cold (cause : RstCause) (strap : Bool) : Chip := c.coldReset cause (some strap)
    (c.rst.phase ≠ .lockout → ∀ strap,
      exec (.vinPowerOn strap) s = .next (s.withChip ((cold .vinPor strap).onDbg fun _ => {})) ∧
      exec (.thermalTrip strap) s = .next (s.withChip (cold .thermal strap)) ∧
      (∀ mv, c.power < 2 → mv < 530 → exec (.coreBrownout mv strap) s = .next (s.withChip (cold .coreBor strap))) ∧
      (∀ vlm, c.rst.fatal ≠ some vlm ∨ 960000000 ≤ c.time.toNat →
        exec (.fatalFault vlm strap) s = .next (s.withChip (cold (if vlm then .fatalVlm else .fatalPhase) strap))) ∧
      (∀ vlm, c.rst.fatal = some vlm → c.time.toNat < 960000000 →
        exec (.fatalFault vlm strap) s = .next (s.withChip ((cold (if vlm then .fatalVlm else .fatalPhase) strap).onRst fun r => { r with phase := .lockout })))) ∧
    (∀ mv strap, 530 ≤ mv → exec (.coreBrownout mv strap) s = .next s) ∧
    (∀ strap, exec (.nresetFall strap) s = .next (s.withChip (if c.rst.phase = .lockout then (cold .nreset strap).sb R.SYS_RST_CAUSE 10 else cold .nreset strap)) ∧
      exec (.vinBrownout strap) s = .next (s.withChip (if c.rst.phase = .lockout then (cold .vinBor strap).sb R.SYS_RST_CAUSE 10 else cold .vinBor strap))) ∧
    (∀ fails : BitVec 14, c.rst.phase = .wait →
      let good := ((List.range 14).filter fun p => !tb fails p).length
      (good < 6 → exec (.startSequence fails) s = .next (s.withChip (c.onRst fun r => { r with phase := .lockout }))) ∧
      (6 ≤ good → exec (.startSequence fails) s = .next (s.withChip ((c.phaseTest fails).onRst fun r => { r with phase := .run })))) ∧
    (∀ (who : BitVec 4) (user : Bool) (key : BitVec 24), user = true ∨ key ≠ 0x525354 →
      ∀ strap, exec (.sysResetWarm who user key strap) s = .next (s.withChip (c.accLog 1 who.toNat (w32 R.SYS_RESET))) ∧
        exec (.sysResetCold who user key strap) s = .next (s.withChip (c.accLog 1 who.toNat (w32 R.SYS_RESET)))) ∧
    (∀ who : BitVec 4, c.rst.phase = .run → ∀ strap,
      exec (.sysResetWarm who false 0x525354 strap) s = .next (s.withChip (c.warmReset strap)) ∧
      exec (.sysResetCold who false 0x525354 strap) s = .next (s.withChip (cold .swCold strap))) ∧
    (∀ (k : Fin 3) (volts : Nat) (mV : Fin 1000), let mv := 1000 * volts + mV.val
      let good := (1620 ≤ mv ∧ mv ≤ 1980) ∨ (2970 ≤ mv ∧ mv ≤ 3630)
      (good → c.rb R.SYS_VIO k = true → exec (.vioBankChange k volts mV) s = .next s) ∧
      (good → c.rb R.SYS_VIO k = false →
        exec (.vioBankChange k volts mV) s = .next (s.withChip ((c.sb R.SYS_VIO k).wb R.SYS_VIO (4 + k.val) (decide (2970 ≤ mv))))) ∧
      (¬good → k ≠ 1 → c.rb R.SYS_VIO k = true → c.rst.phase = .run →
        exec (.vioBankChange k volts mV) s = .next (s.withChip ((c.wb R.SYS_VIO k false).sb R.SYS_VIO (8 + k.val)))) ∧
      (¬good → c.rb R.SYS_VIO 1 = true → c.rst.phase = .run →
        exec (.vioBankChange 1 volts mV) s = .next (s.withChip (((c.wb R.SYS_VIO 1 false).sb R.SYS_VIO 9).gpioDark)))) ∧
    (∀ b : Ball, c.ballMode = .normal → c.rst.phase ≠ .run ∨ 2 ≤ c.power ∨ c.bankGood b.bank = false → c.ballDrive b = .float) ∧
    (c.rst.phase ≠ .run ∨ 2 ≤ c.power → (∀ l : Fin 4, c.dsiLaneState l = 0) ∧ c.pcieLanes = false)

/-- O54. A cold reset by any cause but VIN_POR, in RUN or not, keeps every register of the always-on domain but AON_PWR, which reads RUN, gives every other register but SYS_RST_CAUSE, SYS_VIO and SYS_STRAP its reset value, empties the memory listing, stops the time counter at 0 and adds its cause to SYS_RST_CAUSE. A warm reset with the ROM locked keeps memory, its uncorrectable marks, the time counter, the Ember state, the life-cycle fuses, the host link and the bank map, the always-on registers, the boot registers, MBX_SCRATCH and the entry addresses. -/
def Obligations.ResetsKeepWhatTheSpecKeeps : Prop :=
  (∀ (strap : Bool) (cause : RstCause) (c : Chip),
    let d := c.coldReset cause (some strap)
    (∀ a, a ∈ aonRegs → a ≠ R.AON_PWR → d.rd a = c.rd a) ∧ d.power = 0 ∧ d.rb R.AON_PWR 8 = false ∧
    (∀ a, aonKeep a = false → d.rd a = ({} : Chip).rd a) ∧ d.mem = [] ∧ d.ue = [] ∧ d.time = 0 ∧ d.rst.phase = .wait ∧
    (∀ i, i < 32 → d.rb R.SYS_RST_CAUSE i = (c.rb R.SYS_RST_CAUSE i || decide (i = cause.bit)))) ∧
  (∀ (who : BitVec 4) (strap : Bool) (s : State), s.chip.rst.phase = .run → s.chip.romLocked = true →
    ∃ d, exec (.sysResetWarm who false 0x525354 strap) s = .next (s.withChip d) ∧ d.mem = s.chip.mem ∧ d.ue = s.chip.ue ∧ d.time = s.chip.time ∧
      d.emb = s.chip.emb ∧ d.lcy = s.chip.lcy ∧ d.host = s.chip.host ∧ d.vlm.map = s.chip.vlm.map ∧ d.romLocked = true ∧
      (∀ a, a ∈ aonRegs → d.rd a = s.chip.rd a) ∧ d.rd R.SYS_BOOT_STAT = s.chip.rd R.SYS_BOOT_STAT ∧ d.rd R.MBX_SCRATCH = s.chip.rd R.MBX_SCRATCH ∧
      d.rb R.SYS_RST_CAUSE RstCause.swWarm.bit = true)

/-- O55. BUS_MASTER_COMPLETION of a read in flight with bytes that do not complete it collects them; with the last of them it ends the read and gives its owner the bytes; a failed one, and COMPLETION_TIMEOUT, which sets the Completion Timeout status of Advanced Error Reporting, end it as failed. A number that names no read changes nothing. A write to IRQ_SWSET pulses, in every core, the software sources whose bits are 1 among the lowest eight, and changes no register. -/
def Obligations.BusMasterReadsAndSwset : Prop :=
  (∀ (i : Nat) (r : BmRead) (s : State), s.chip.tirba.bm[i]? = some r →
    let gone := s.chip.onTirba fun t => { t with bm := dropAt t.bm i }
    (∀ bs : List Byte, r.got.length + bs.length < r.len → exec (.busMasterCompletion i (some bs)) s =
      .next (s.withChip (s.chip.onTirba fun t => { t with bm := t.bm.set i { r with got := r.got ++ bs } }))) ∧
    (∀ bs : List Byte, r.len ≤ r.got.length + bs.length → exec (.busMasterCompletion i (some bs)) s =
      .next (s.withChip (gone.bmEnd { r with got := r.got ++ bs } false))) ∧
    exec (.busMasterCompletion i none) s = .next (s.withChip (gone.bmEnd r true)) ∧
    exec (.completionTimeout i) s = .next (s.withChip (((s.chip.onHost fun h => { h with aer := setBit h.aer 14 true }).onTirba fun t =>
      { t with bm := dropAt t.bm i }).bmEnd r true))) ∧
  (∀ (i : Nat) (data : Option (List Byte)) (s : State), s.chip.tirba.bm[i]? = none →
    exec (.busMasterCompletion i data) s = .next s ∧ exec (.completionTimeout i) s = .next s) ∧
  (∀ (v : Word) (s : State), ∃ c, exec (.irqSwset v) s = .next (s.withChip c) ∧ c.regs = s.chip.regs ∧ c.mem = s.chip.mem ∧
    ∀ (n : Core) (k : Nat), k ∈ (c.core n).pulse ↔ k ∈ (s.chip.core n).pulse ∨ (k < 8 ∧ tb v k = true))

/-- O56. With a command at the front of the queue, a step is that command run on the state with the queue's rest. With no command waiting, a step is a tick of the time counter and leaves the queue empty. That commands run one at a time in the order of a queue, and that a tick is what an empty queue lets pass, is the model's choice (assumption 9). -/
def Obligations.StepRunsTheFrontCommand : Prop :=
  (∀ (c : Chip) (i : Instr) (rest : List Instr), step { chip := c, pending := i :: rest } = exec i { chip := c, pending := rest }) ∧
  (∀ c : Chip, step { chip := c, pending := [] } = .next { chip := c.tick, pending := [] })

/-- O57. Every command, on every state, answers a next state that differs from the one before in the chip alone: no fault, no refusal, and the queue is left as it is. So from every state the first commands of a queue, however many and whatever their operands, run in order, one step each, and leave the rest of the queue; in particular a queue of n commands is empty after n steps. That a command whose premise does not hold changes nothing and does not stop is the model's reading (assumption 11). -/
def Obligations.EveryCommandEndsInANextState : Prop :=
  (∀ (i : Instr) (s : State), ∃ c, exec i s = .next (s.withChip c)) ∧
  (∀ (l r : List Instr) (c : Chip), ∃ d, State.runs l.length { chip := c, pending := l ++ r } { chip := d, pending := r }) ∧
  (∀ s : State, ∃ d, s.runs s.pending.length { chip := d, pending := [] })

/-- O58. From every state whose register file and memory are in canonical form (addresses strictly rising, nothing listed that an unlisted address reads as) and whose waiting commands are all well-formed, every step that answers a next state gives a state of which the same holds, whatever command it runs: so equal contents stay equal data. The canonical form is the model's own representation (assumption 3 says what an unlisted byte reads as). -/
def Obligations.CanonicalFormIsKept : Prop :=
  ∀ s t : State, s.chip.canon → s.queueWf → step s = .next t → t.chip.canon ∧ t.queueWf

/-- O59. For every offset A of Vellum: the channel is A[8:6], the stripe A[25:22], the logical bank 8 times the stripe plus the channel, the word within the bank (A[21:9] << 3) | A[5:3], the byte within the word A[2:0]; each lies in the range of R97 (0 to 7, 0 to 11, 0 to 95, 0 to 0xFFFF, 0 to 7). The decode loses nothing: the offset of the word that the bank and the word name, plus the byte, is A again; and every bank below 96 and word below 0x10000 is the decode of the offset that they name, which lies in Vellum. -/
def Obligations.VellumDecodeIsOneToOne : Prop :=
  (∀ A : BitVec 26, A.toNat < vlmSize →
    let stripe := (A.extractLsb 25 22).toNat
    vChannel A.toNat = (A.extractLsb 8 6).toNat ∧ vChannel A.toNat ≤ 7 ∧ stripe ≤ 11 ∧
    vBank A.toNat = 8 * stripe + vChannel A.toNat ∧ vBank A.toNat ≤ 95 ∧
    vWord A.toNat = (A.extractLsb 21 9).toNat <<< 3 ||| (A.extractLsb 5 3).toNat ∧ vWord A.toNat ≤ 0xFFFF ∧
    A.toNat % 8 = (A.extractLsb 2 0).toNat ∧
    vOffset (vBank A.toNat) (vWord A.toNat) + (A.extractLsb 2 0).toNat = A.toNat) ∧
  (∀ b w : Nat, b < 96 → w < 0x10000 → vOffset b w + 8 ≤ vlmSize ∧ vBank (vOffset b w) = b ∧ vWord (vOffset b w) = w)

/-- O60. The state after reset holds in every register the value that the Reset column gives its field; sixteen of them are written out from the register tables, over the units of the device. The queue is empty, memory lists nothing, and the register file and memory are in canonical form, so the invariant of CanonicalFormIsKept holds at reset. (What an unlisted byte reads as, and what the fuse registers hold, are the model's choices (assumptions 1 and 3): the statement rests on neither.) -/
def Obligations.ResetHoldsTheSpecsValues : Prop :=
  State.reset.pending = [] ∧ State.reset.chip.mem = [] ∧ State.reset.chip.canon ∧ State.reset.queueWf ∧ core.reset = State.reset ∧
  (∀ a r, regSpec a = some r → a ≠ R.SYS_SPEED → a ≠ R.PRK_REFOSC → ¬(0x40006080 ≤ a ∧ a < 0x400060C0) →
    State.reset.chip.rd a = BitVec.ofNat 32 r.reset) ∧
  (∀ a v, (a, v) ∈ ([(R.SYS_ID, 0x484304B0), (R.LTN_VSET, 0x28), (R.LTN_VLIM, 0x4D00), (R.TMR_TOP 0, 0xFFFFFFFF), (R.CHK_CTRL 0, 0x238),
      (R.CHK_POLY 7, 0x1EDC6F41), (R.BOB_CTRL 15, 0x20), (R.PRK_SYN_INT 1, 0x3010), (R.PRK_HTOTAL 0, 0x420), (R.PRK_VTOTAL 0, 0x20D),
      (R.EYE_PIPE_MAP, 0x76543210), (R.BMO_CTRL 0, 0x1040), (R.ADC_CTRL, 4), (R.VLM_CTRL, 0x601), (R.UART_CTRL 0, 6),
      (R.YLX_MPU_CTRL 3, 0)] : List (Nat × Word)) → State.reset.chip.rd a = v)
end

