-- ==== Sys2Proof/Laws/Sparse.lean ====
section
/-! SUPPORT. Sparse maps: reading after a write, and the canonical form that every write keeps. -/

namespace Sys2Proof.Machine

variable {α : Type}

/-! ### Reading -/

/-- Reading the key just listed. -/
theorem Sparse.get_insert_same (x : α) (k : Nat) (v : α) : ∀ m : List (Nat × α), Sparse.get x (Sparse.insert m k v) k = v
  | [] => by simp [Sparse.insert, Sparse.get]
  | (a, y) :: t => by
    simp only [Sparse.insert]
    split
    · subst_vars; simp [Sparse.get]
    · split
      · simp [Sparse.get]
      · simp [Sparse.get, *, Sparse.get_insert_same x k v t]

/-- Reading another key after listing one. -/
theorem Sparse.get_insert_ne (x : α) (k j : Nat) (v : α) (hj : j ≠ k) :
    ∀ m : List (Nat × α), Sparse.get x (Sparse.insert m k v) j = Sparse.get x m j
  | [] => by simp [Sparse.insert, Sparse.get, hj]
  | (a, y) :: t => by
    simp only [Sparse.insert]
    split
    · subst_vars; simp [Sparse.get, hj]
    · split
      · simp [Sparse.get, hj]
      · simp only [Sparse.get, Sparse.get_insert_ne x k j v hj t]

/-- Reading the key just removed. -/
theorem Sparse.get_erase_same (x : α) (k : Nat) : ∀ m : List (Nat × α), Sparse.get x (Sparse.erase m k) k = x
  | [] => rfl
  | (a, y) :: t => by
    have ih := Sparse.get_erase_same x k t
    simp only [Sparse.erase] at ih ⊢
    by_cases h : a = k
    · simp [h, ih]
    · simp [h, Sparse.get, Ne.symm h, ih]

/-- Reading another key after removing one. -/
theorem Sparse.get_erase_ne (x : α) (k j : Nat) (hj : j ≠ k) :
    ∀ m : List (Nat × α), Sparse.get x (Sparse.erase m k) j = Sparse.get x m j
  | [] => rfl
  | (a, y) :: t => by
    have ih := Sparse.get_erase_ne x k j hj t
    simp only [Sparse.erase] at ih ⊢
    by_cases h : a = k
    · subst h; simp [Sparse.get, hj, ih]
    · simp [h, Sparse.get, ih]

/-- A read after a write: the key written reads what was written, every other key as before. -/
theorem Sparse.get_set [DecidableEq α] (d : Nat → α) (m : List (Nat × α)) (k j : Nat) (v : α) :
    Sparse.get (d j) (Sparse.set (d k) m k v) j = if j = k then v else Sparse.get (d j) m j := by
  simp only [Sparse.set]
  split <;> split
  · subst_vars; exact Sparse.get_erase_same _ _ _
  · exact Sparse.get_erase_ne _ _ _ (by assumption) _
  · subst_vars; exact Sparse.get_insert_same _ _ _ _
  · exact Sparse.get_insert_ne _ _ _ _ (by assumption) _

/-! ### The canonical form -/

/-- The canonical form from a higher key on is one from a lower key on. -/
theorem Sparse.wfFrom_mono [DecidableEq α] (d : Nat → α) {lo lo' : Nat} {m : List (Nat × α)} (h : Sparse.wfFrom d lo m = true)
    (hl : lo' ≤ lo) : Sparse.wfFrom d lo' m = true := by
  cases m with
  | nil => rfl
  | cons e t =>
    obtain ⟨a, v⟩ := e
    simp only [Sparse.wfFrom, Bool.and_eq_true, decide_eq_true_eq] at h ⊢
    exact ⟨⟨by omega, h.1.2⟩, h.2⟩

/-- Listing a key with a value that it does not read by itself keeps the canonical form. -/
theorem Sparse.wfFrom_insert [DecidableEq α] (d : Nat → α) (k : Nat) (v : α) (hv : v ≠ d k) :
    ∀ (m : List (Nat × α)) (lo : Nat), Sparse.wfFrom d lo m = true → lo ≤ k → Sparse.wfFrom d lo (Sparse.insert m k v) = true
  | [], lo, _, hl => by simp [Sparse.insert, Sparse.wfFrom, hl, hv]
  | (a, x) :: t, lo, h, hl => by
    simp only [Sparse.wfFrom, Bool.and_eq_true, decide_eq_true_eq] at h
    simp only [Sparse.insert]
    split
    · subst_vars
      simp [Sparse.wfFrom, h.1.1, hv, h.2]
    · split
      · simp [Sparse.wfFrom, hl, hv, h.1.2, h.2]
        omega
      · have := Sparse.wfFrom_insert d k v hv t (a + 1) h.2 (by omega)
        simp [Sparse.wfFrom, h.1.1, h.1.2, this]

/-- A map with some entries left out is in canonical form. -/
theorem Sparse.wfFrom_filter [DecidableEq α] (d : Nat → α) (p : Nat × α → Bool) :
    ∀ (m : List (Nat × α)) (lo : Nat), Sparse.wfFrom d lo m = true → Sparse.wfFrom d lo (m.filter p) = true
  | [], _, _ => rfl
  | (a, x) :: t, lo, h => by
    simp only [Sparse.wfFrom, Bool.and_eq_true, decide_eq_true_eq] at h
    have ih := Sparse.wfFrom_filter d p t (a + 1) h.2
    by_cases hp : p (a, x) = true
    · simp [hp, Sparse.wfFrom, h.1.1, h.1.2, ih]
    · simp [hp, Sparse.wfFrom_mono d ih (by omega : lo ≤ a + 1)]

/-- See wfFrom_filter. -/
theorem Sparse.wf_filter [DecidableEq α] (d : Nat → α) (p : Nat × α → Bool) (m : List (Nat × α)) (h : Sparse.wf d m = true) :
    Sparse.wf d (m.filter p) = true := Sparse.wfFrom_filter d p m 0 h

/-- A write keeps the canonical form. -/
theorem Sparse.wf_set [DecidableEq α] (d : Nat → α) (m : List (Nat × α)) (k : Nat) (v : α) (h : Sparse.wf d m = true) :
    Sparse.wf d (Sparse.set (d k) m k v) = true := by
  simp only [Sparse.wf, Sparse.set] at *
  split
  · exact Sparse.wfFrom_filter d _ m 0 h
  · next hv => exact Sparse.wfFrom_insert d k v hv m 0 h (Nat.zero_le k)

end Sys2Proof.Machine
end

