-- ==== Sys2Proof/Laws/State.lean ====
section
/-! SUPPORT. What each update of the state leaves as it is: one lemma per field and update, so that no later proof unfolds a
record update. -/

namespace Sys2Proof.Machine

/-! wr -/

@[simp] theorem Chip.wr_mem (a : Nat) (v : Word) (c : Chip) : (c.wr a v).mem = c.mem := rfl
@[simp] theorem Chip.wr_ue (a : Nat) (v : Word) (c : Chip) : (c.wr a v).ue = c.ue := rfl
@[simp] theorem Chip.wr_time (a : Nat) (v : Word) (c : Chip) : (c.wr a v).time = c.time := rfl
@[simp] theorem Chip.wr_jrnQ (a : Nat) (v : Word) (c : Chip) : (c.wr a v).jrnQ = c.jrnQ := rfl
@[simp] theorem Chip.wr_out (a : Nat) (v : Word) (c : Chip) : (c.wr a v).out = c.out := rfl
@[simp] theorem Chip.wr_freeCount (a : Nat) (v : Word) (c : Chip) : (c.wr a v).freeCount = c.freeCount := rfl
@[simp] theorem Chip.wr_reqs (a : Nat) (v : Word) (c : Chip) : (c.wr a v).reqs = c.reqs := rfl
@[simp] theorem Chip.wr_prk (a : Nat) (v : Word) (c : Chip) : (c.wr a v).prk = c.prk := rfl
@[simp] theorem Chip.wr_fs (a : Nat) (v : Word) (c : Chip) : (c.wr a v).fs = c.fs := rfl
@[simp] theorem Chip.wr_vlm (a : Nat) (v : Word) (c : Chip) : (c.wr a v).vlm = c.vlm := rfl
@[simp] theorem Chip.wr_cores (a : Nat) (v : Word) (c : Chip) : (c.wr a v).cores = c.cores := rfl
@[simp] theorem Chip.wr_planes (a : Nat) (v : Word) (c : Chip) : (c.wr a v).planes = c.planes := rfl
@[simp] theorem Chip.wr_palLive (a : Nat) (v : Word) (c : Chip) : (c.wr a v).palLive = c.palLive := rfl
@[simp] theorem Chip.wr_palShadow (a : Nat) (v : Word) (c : Chip) : (c.wr a v).palShadow = c.palShadow := rfl
@[simp] theorem Chip.wr_palLog (a : Nat) (v : Word) (c : Chip) : (c.wr a v).palLog = c.palLog := rfl
@[simp] theorem Chip.wr_motifB (a : Nat) (v : Word) (c : Chip) : (c.wr a v).motifB = c.motifB := rfl
@[simp] theorem Chip.wr_motif (a : Nat) (v : Word) (c : Chip) : (c.wr a v).motif = c.motif := rfl
@[simp] theorem Chip.wr_apq (a : Nat) (v : Word) (c : Chip) : (c.wr a v).apq = c.apq := rfl
@[simp] theorem Chip.wr_eye (a : Nat) (v : Word) (c : Chip) : (c.wr a v).eye = c.eye := rfl
@[simp] theorem Chip.wr_eyeCoef (a : Nat) (v : Word) (c : Chip) : (c.wr a v).eyeCoef = c.eyeCoef := rfl
@[simp] theorem Chip.wr_pipeFailed (a : Nat) (v : Word) (c : Chip) : (c.wr a v).pipeFailed = c.pipeFailed := rfl
@[simp] theorem Chip.wr_bmo (a : Nat) (v : Word) (c : Chip) : (c.wr a v).bmo = c.bmo := rfl
@[simp] theorem Chip.wr_snd (a : Nat) (v : Word) (c : Chip) : (c.wr a v).snd = c.snd := rfl
@[simp] theorem Chip.wr_tmr (a : Nat) (v : Word) (c : Chip) : (c.wr a v).tmr = c.tmr := rfl
@[simp] theorem Chip.wr_chk (a : Nat) (v : Word) (c : Chip) : (c.wr a v).chk = c.chk := rfl
@[simp] theorem Chip.wr_bob (a : Nat) (v : Word) (c : Chip) : (c.wr a v).bob = c.bob := rfl
@[simp] theorem Chip.wr_ser (a : Nat) (v : Word) (c : Chip) : (c.wr a v).ser = c.ser := rfl
@[simp] theorem Chip.wr_drn (a : Nat) (v : Word) (c : Chip) : (c.wr a v).drn = c.drn := rfl
@[simp] theorem Chip.wr_ltn (a : Nat) (v : Word) (c : Chip) : (c.wr a v).ltn = c.ltn := rfl
@[simp] theorem Chip.wr_emb (a : Nat) (v : Word) (c : Chip) : (c.wr a v).emb = c.emb := rfl
@[simp] theorem Chip.wr_lcy (a : Nat) (v : Word) (c : Chip) : (c.wr a v).lcy = c.lcy := rfl
@[simp] theorem Chip.wr_dbg (a : Nat) (v : Word) (c : Chip) : (c.wr a v).dbg = c.dbg := rfl
@[simp] theorem Chip.wr_host (a : Nat) (v : Word) (c : Chip) : (c.wr a v).host = c.host := rfl
@[simp] theorem Chip.wr_tirba (a : Nat) (v : Word) (c : Chip) : (c.wr a v).tirba = c.tirba := rfl
@[simp] theorem Chip.wr_rst (a : Nat) (v : Word) (c : Chip) : (c.wr a v).rst = c.rst := rfl

/-! wf -/

@[simp] theorem Chip.wf_mem (a hi lo v : Nat) (c : Chip) : (c.wf a hi lo v).mem = c.mem := rfl
@[simp] theorem Chip.wf_ue (a hi lo v : Nat) (c : Chip) : (c.wf a hi lo v).ue = c.ue := rfl
@[simp] theorem Chip.wf_time (a hi lo v : Nat) (c : Chip) : (c.wf a hi lo v).time = c.time := rfl
@[simp] theorem Chip.wf_jrnQ (a hi lo v : Nat) (c : Chip) : (c.wf a hi lo v).jrnQ = c.jrnQ := rfl
@[simp] theorem Chip.wf_out (a hi lo v : Nat) (c : Chip) : (c.wf a hi lo v).out = c.out := rfl
@[simp] theorem Chip.wf_freeCount (a hi lo v : Nat) (c : Chip) : (c.wf a hi lo v).freeCount = c.freeCount := rfl
@[simp] theorem Chip.wf_reqs (a hi lo v : Nat) (c : Chip) : (c.wf a hi lo v).reqs = c.reqs := rfl
@[simp] theorem Chip.wf_prk (a hi lo v : Nat) (c : Chip) : (c.wf a hi lo v).prk = c.prk := rfl
@[simp] theorem Chip.wf_fs (a hi lo v : Nat) (c : Chip) : (c.wf a hi lo v).fs = c.fs := rfl
@[simp] theorem Chip.wf_vlm (a hi lo v : Nat) (c : Chip) : (c.wf a hi lo v).vlm = c.vlm := rfl
@[simp] theorem Chip.wf_cores (a hi lo v : Nat) (c : Chip) : (c.wf a hi lo v).cores = c.cores := rfl
@[simp] theorem Chip.wf_planes (a hi lo v : Nat) (c : Chip) : (c.wf a hi lo v).planes = c.planes := rfl
@[simp] theorem Chip.wf_palLive (a hi lo v : Nat) (c : Chip) : (c.wf a hi lo v).palLive = c.palLive := rfl
@[simp] theorem Chip.wf_palShadow (a hi lo v : Nat) (c : Chip) : (c.wf a hi lo v).palShadow = c.palShadow := rfl
@[simp] theorem Chip.wf_palLog (a hi lo v : Nat) (c : Chip) : (c.wf a hi lo v).palLog = c.palLog := rfl
@[simp] theorem Chip.wf_motifB (a hi lo v : Nat) (c : Chip) : (c.wf a hi lo v).motifB = c.motifB := rfl
@[simp] theorem Chip.wf_motif (a hi lo v : Nat) (c : Chip) : (c.wf a hi lo v).motif = c.motif := rfl
@[simp] theorem Chip.wf_apq (a hi lo v : Nat) (c : Chip) : (c.wf a hi lo v).apq = c.apq := rfl
@[simp] theorem Chip.wf_eye (a hi lo v : Nat) (c : Chip) : (c.wf a hi lo v).eye = c.eye := rfl
@[simp] theorem Chip.wf_eyeCoef (a hi lo v : Nat) (c : Chip) : (c.wf a hi lo v).eyeCoef = c.eyeCoef := rfl
@[simp] theorem Chip.wf_pipeFailed (a hi lo v : Nat) (c : Chip) : (c.wf a hi lo v).pipeFailed = c.pipeFailed := rfl
@[simp] theorem Chip.wf_bmo (a hi lo v : Nat) (c : Chip) : (c.wf a hi lo v).bmo = c.bmo := rfl
@[simp] theorem Chip.wf_snd (a hi lo v : Nat) (c : Chip) : (c.wf a hi lo v).snd = c.snd := rfl
@[simp] theorem Chip.wf_tmr (a hi lo v : Nat) (c : Chip) : (c.wf a hi lo v).tmr = c.tmr := rfl
@[simp] theorem Chip.wf_chk (a hi lo v : Nat) (c : Chip) : (c.wf a hi lo v).chk = c.chk := rfl
@[simp] theorem Chip.wf_bob (a hi lo v : Nat) (c : Chip) : (c.wf a hi lo v).bob = c.bob := rfl
@[simp] theorem Chip.wf_ser (a hi lo v : Nat) (c : Chip) : (c.wf a hi lo v).ser = c.ser := rfl
@[simp] theorem Chip.wf_drn (a hi lo v : Nat) (c : Chip) : (c.wf a hi lo v).drn = c.drn := rfl
@[simp] theorem Chip.wf_ltn (a hi lo v : Nat) (c : Chip) : (c.wf a hi lo v).ltn = c.ltn := rfl
@[simp] theorem Chip.wf_emb (a hi lo v : Nat) (c : Chip) : (c.wf a hi lo v).emb = c.emb := rfl
@[simp] theorem Chip.wf_lcy (a hi lo v : Nat) (c : Chip) : (c.wf a hi lo v).lcy = c.lcy := rfl
@[simp] theorem Chip.wf_dbg (a hi lo v : Nat) (c : Chip) : (c.wf a hi lo v).dbg = c.dbg := rfl
@[simp] theorem Chip.wf_host (a hi lo v : Nat) (c : Chip) : (c.wf a hi lo v).host = c.host := rfl
@[simp] theorem Chip.wf_tirba (a hi lo v : Nat) (c : Chip) : (c.wf a hi lo v).tirba = c.tirba := rfl
@[simp] theorem Chip.wf_rst (a hi lo v : Nat) (c : Chip) : (c.wf a hi lo v).rst = c.rst := rfl

/-! wb -/

@[simp] theorem Chip.wb_mem (a i : Nat) (b : Bool) (c : Chip) : (c.wb a i b).mem = c.mem := rfl
@[simp] theorem Chip.wb_ue (a i : Nat) (b : Bool) (c : Chip) : (c.wb a i b).ue = c.ue := rfl
@[simp] theorem Chip.wb_time (a i : Nat) (b : Bool) (c : Chip) : (c.wb a i b).time = c.time := rfl
@[simp] theorem Chip.wb_jrnQ (a i : Nat) (b : Bool) (c : Chip) : (c.wb a i b).jrnQ = c.jrnQ := rfl
@[simp] theorem Chip.wb_out (a i : Nat) (b : Bool) (c : Chip) : (c.wb a i b).out = c.out := rfl
@[simp] theorem Chip.wb_freeCount (a i : Nat) (b : Bool) (c : Chip) : (c.wb a i b).freeCount = c.freeCount := rfl
@[simp] theorem Chip.wb_reqs (a i : Nat) (b : Bool) (c : Chip) : (c.wb a i b).reqs = c.reqs := rfl
@[simp] theorem Chip.wb_prk (a i : Nat) (b : Bool) (c : Chip) : (c.wb a i b).prk = c.prk := rfl
@[simp] theorem Chip.wb_fs (a i : Nat) (b : Bool) (c : Chip) : (c.wb a i b).fs = c.fs := rfl
@[simp] theorem Chip.wb_vlm (a i : Nat) (b : Bool) (c : Chip) : (c.wb a i b).vlm = c.vlm := rfl
@[simp] theorem Chip.wb_cores (a i : Nat) (b : Bool) (c : Chip) : (c.wb a i b).cores = c.cores := rfl
@[simp] theorem Chip.wb_planes (a i : Nat) (b : Bool) (c : Chip) : (c.wb a i b).planes = c.planes := rfl
@[simp] theorem Chip.wb_palLive (a i : Nat) (b : Bool) (c : Chip) : (c.wb a i b).palLive = c.palLive := rfl
@[simp] theorem Chip.wb_palShadow (a i : Nat) (b : Bool) (c : Chip) : (c.wb a i b).palShadow = c.palShadow := rfl
@[simp] theorem Chip.wb_palLog (a i : Nat) (b : Bool) (c : Chip) : (c.wb a i b).palLog = c.palLog := rfl
@[simp] theorem Chip.wb_motifB (a i : Nat) (b : Bool) (c : Chip) : (c.wb a i b).motifB = c.motifB := rfl
@[simp] theorem Chip.wb_motif (a i : Nat) (b : Bool) (c : Chip) : (c.wb a i b).motif = c.motif := rfl
@[simp] theorem Chip.wb_apq (a i : Nat) (b : Bool) (c : Chip) : (c.wb a i b).apq = c.apq := rfl
@[simp] theorem Chip.wb_eye (a i : Nat) (b : Bool) (c : Chip) : (c.wb a i b).eye = c.eye := rfl
@[simp] theorem Chip.wb_eyeCoef (a i : Nat) (b : Bool) (c : Chip) : (c.wb a i b).eyeCoef = c.eyeCoef := rfl
@[simp] theorem Chip.wb_pipeFailed (a i : Nat) (b : Bool) (c : Chip) : (c.wb a i b).pipeFailed = c.pipeFailed := rfl
@[simp] theorem Chip.wb_bmo (a i : Nat) (b : Bool) (c : Chip) : (c.wb a i b).bmo = c.bmo := rfl
@[simp] theorem Chip.wb_snd (a i : Nat) (b : Bool) (c : Chip) : (c.wb a i b).snd = c.snd := rfl
@[simp] theorem Chip.wb_tmr (a i : Nat) (b : Bool) (c : Chip) : (c.wb a i b).tmr = c.tmr := rfl
@[simp] theorem Chip.wb_chk (a i : Nat) (b : Bool) (c : Chip) : (c.wb a i b).chk = c.chk := rfl
@[simp] theorem Chip.wb_bob (a i : Nat) (b : Bool) (c : Chip) : (c.wb a i b).bob = c.bob := rfl
@[simp] theorem Chip.wb_ser (a i : Nat) (b : Bool) (c : Chip) : (c.wb a i b).ser = c.ser := rfl
@[simp] theorem Chip.wb_drn (a i : Nat) (b : Bool) (c : Chip) : (c.wb a i b).drn = c.drn := rfl
@[simp] theorem Chip.wb_ltn (a i : Nat) (b : Bool) (c : Chip) : (c.wb a i b).ltn = c.ltn := rfl
@[simp] theorem Chip.wb_emb (a i : Nat) (b : Bool) (c : Chip) : (c.wb a i b).emb = c.emb := rfl
@[simp] theorem Chip.wb_lcy (a i : Nat) (b : Bool) (c : Chip) : (c.wb a i b).lcy = c.lcy := rfl
@[simp] theorem Chip.wb_dbg (a i : Nat) (b : Bool) (c : Chip) : (c.wb a i b).dbg = c.dbg := rfl
@[simp] theorem Chip.wb_host (a i : Nat) (b : Bool) (c : Chip) : (c.wb a i b).host = c.host := rfl
@[simp] theorem Chip.wb_tirba (a i : Nat) (b : Bool) (c : Chip) : (c.wb a i b).tirba = c.tirba := rfl
@[simp] theorem Chip.wb_rst (a i : Nat) (b : Bool) (c : Chip) : (c.wb a i b).rst = c.rst := rfl

/-! sb -/

@[simp] theorem Chip.sb_mem (a i : Nat) (c : Chip) : (c.sb a i).mem = c.mem := rfl
@[simp] theorem Chip.sb_ue (a i : Nat) (c : Chip) : (c.sb a i).ue = c.ue := rfl
@[simp] theorem Chip.sb_time (a i : Nat) (c : Chip) : (c.sb a i).time = c.time := rfl
@[simp] theorem Chip.sb_jrnQ (a i : Nat) (c : Chip) : (c.sb a i).jrnQ = c.jrnQ := rfl
@[simp] theorem Chip.sb_out (a i : Nat) (c : Chip) : (c.sb a i).out = c.out := rfl
@[simp] theorem Chip.sb_freeCount (a i : Nat) (c : Chip) : (c.sb a i).freeCount = c.freeCount := rfl
@[simp] theorem Chip.sb_reqs (a i : Nat) (c : Chip) : (c.sb a i).reqs = c.reqs := rfl
@[simp] theorem Chip.sb_prk (a i : Nat) (c : Chip) : (c.sb a i).prk = c.prk := rfl
@[simp] theorem Chip.sb_fs (a i : Nat) (c : Chip) : (c.sb a i).fs = c.fs := rfl
@[simp] theorem Chip.sb_vlm (a i : Nat) (c : Chip) : (c.sb a i).vlm = c.vlm := rfl
@[simp] theorem Chip.sb_cores (a i : Nat) (c : Chip) : (c.sb a i).cores = c.cores := rfl
@[simp] theorem Chip.sb_planes (a i : Nat) (c : Chip) : (c.sb a i).planes = c.planes := rfl
@[simp] theorem Chip.sb_palLive (a i : Nat) (c : Chip) : (c.sb a i).palLive = c.palLive := rfl
@[simp] theorem Chip.sb_palShadow (a i : Nat) (c : Chip) : (c.sb a i).palShadow = c.palShadow := rfl
@[simp] theorem Chip.sb_palLog (a i : Nat) (c : Chip) : (c.sb a i).palLog = c.palLog := rfl
@[simp] theorem Chip.sb_motifB (a i : Nat) (c : Chip) : (c.sb a i).motifB = c.motifB := rfl
@[simp] theorem Chip.sb_motif (a i : Nat) (c : Chip) : (c.sb a i).motif = c.motif := rfl
@[simp] theorem Chip.sb_apq (a i : Nat) (c : Chip) : (c.sb a i).apq = c.apq := rfl
@[simp] theorem Chip.sb_eye (a i : Nat) (c : Chip) : (c.sb a i).eye = c.eye := rfl
@[simp] theorem Chip.sb_eyeCoef (a i : Nat) (c : Chip) : (c.sb a i).eyeCoef = c.eyeCoef := rfl
@[simp] theorem Chip.sb_pipeFailed (a i : Nat) (c : Chip) : (c.sb a i).pipeFailed = c.pipeFailed := rfl
@[simp] theorem Chip.sb_bmo (a i : Nat) (c : Chip) : (c.sb a i).bmo = c.bmo := rfl
@[simp] theorem Chip.sb_snd (a i : Nat) (c : Chip) : (c.sb a i).snd = c.snd := rfl
@[simp] theorem Chip.sb_tmr (a i : Nat) (c : Chip) : (c.sb a i).tmr = c.tmr := rfl
@[simp] theorem Chip.sb_chk (a i : Nat) (c : Chip) : (c.sb a i).chk = c.chk := rfl
@[simp] theorem Chip.sb_bob (a i : Nat) (c : Chip) : (c.sb a i).bob = c.bob := rfl
@[simp] theorem Chip.sb_ser (a i : Nat) (c : Chip) : (c.sb a i).ser = c.ser := rfl
@[simp] theorem Chip.sb_drn (a i : Nat) (c : Chip) : (c.sb a i).drn = c.drn := rfl
@[simp] theorem Chip.sb_ltn (a i : Nat) (c : Chip) : (c.sb a i).ltn = c.ltn := rfl
@[simp] theorem Chip.sb_emb (a i : Nat) (c : Chip) : (c.sb a i).emb = c.emb := rfl
@[simp] theorem Chip.sb_lcy (a i : Nat) (c : Chip) : (c.sb a i).lcy = c.lcy := rfl
@[simp] theorem Chip.sb_dbg (a i : Nat) (c : Chip) : (c.sb a i).dbg = c.dbg := rfl
@[simp] theorem Chip.sb_host (a i : Nat) (c : Chip) : (c.sb a i).host = c.host := rfl
@[simp] theorem Chip.sb_tirba (a i : Nat) (c : Chip) : (c.sb a i).tirba = c.tirba := rfl
@[simp] theorem Chip.sb_rst (a i : Nat) (c : Chip) : (c.sb a i).rst = c.rst := rfl

/-! incWrap -/

@[simp] theorem Chip.incWrap_mem (a : Nat) (c : Chip) : (c.incWrap a).mem = c.mem := rfl
@[simp] theorem Chip.incWrap_ue (a : Nat) (c : Chip) : (c.incWrap a).ue = c.ue := rfl
@[simp] theorem Chip.incWrap_time (a : Nat) (c : Chip) : (c.incWrap a).time = c.time := rfl
@[simp] theorem Chip.incWrap_jrnQ (a : Nat) (c : Chip) : (c.incWrap a).jrnQ = c.jrnQ := rfl
@[simp] theorem Chip.incWrap_out (a : Nat) (c : Chip) : (c.incWrap a).out = c.out := rfl
@[simp] theorem Chip.incWrap_freeCount (a : Nat) (c : Chip) : (c.incWrap a).freeCount = c.freeCount := rfl
@[simp] theorem Chip.incWrap_reqs (a : Nat) (c : Chip) : (c.incWrap a).reqs = c.reqs := rfl
@[simp] theorem Chip.incWrap_prk (a : Nat) (c : Chip) : (c.incWrap a).prk = c.prk := rfl
@[simp] theorem Chip.incWrap_fs (a : Nat) (c : Chip) : (c.incWrap a).fs = c.fs := rfl
@[simp] theorem Chip.incWrap_vlm (a : Nat) (c : Chip) : (c.incWrap a).vlm = c.vlm := rfl
@[simp] theorem Chip.incWrap_cores (a : Nat) (c : Chip) : (c.incWrap a).cores = c.cores := rfl
@[simp] theorem Chip.incWrap_planes (a : Nat) (c : Chip) : (c.incWrap a).planes = c.planes := rfl
@[simp] theorem Chip.incWrap_palLive (a : Nat) (c : Chip) : (c.incWrap a).palLive = c.palLive := rfl
@[simp] theorem Chip.incWrap_palShadow (a : Nat) (c : Chip) : (c.incWrap a).palShadow = c.palShadow := rfl
@[simp] theorem Chip.incWrap_palLog (a : Nat) (c : Chip) : (c.incWrap a).palLog = c.palLog := rfl
@[simp] theorem Chip.incWrap_motifB (a : Nat) (c : Chip) : (c.incWrap a).motifB = c.motifB := rfl
@[simp] theorem Chip.incWrap_motif (a : Nat) (c : Chip) : (c.incWrap a).motif = c.motif := rfl
@[simp] theorem Chip.incWrap_apq (a : Nat) (c : Chip) : (c.incWrap a).apq = c.apq := rfl
@[simp] theorem Chip.incWrap_eye (a : Nat) (c : Chip) : (c.incWrap a).eye = c.eye := rfl
@[simp] theorem Chip.incWrap_eyeCoef (a : Nat) (c : Chip) : (c.incWrap a).eyeCoef = c.eyeCoef := rfl
@[simp] theorem Chip.incWrap_pipeFailed (a : Nat) (c : Chip) : (c.incWrap a).pipeFailed = c.pipeFailed := rfl
@[simp] theorem Chip.incWrap_bmo (a : Nat) (c : Chip) : (c.incWrap a).bmo = c.bmo := rfl
@[simp] theorem Chip.incWrap_snd (a : Nat) (c : Chip) : (c.incWrap a).snd = c.snd := rfl
@[simp] theorem Chip.incWrap_tmr (a : Nat) (c : Chip) : (c.incWrap a).tmr = c.tmr := rfl
@[simp] theorem Chip.incWrap_chk (a : Nat) (c : Chip) : (c.incWrap a).chk = c.chk := rfl
@[simp] theorem Chip.incWrap_bob (a : Nat) (c : Chip) : (c.incWrap a).bob = c.bob := rfl
@[simp] theorem Chip.incWrap_ser (a : Nat) (c : Chip) : (c.incWrap a).ser = c.ser := rfl
@[simp] theorem Chip.incWrap_drn (a : Nat) (c : Chip) : (c.incWrap a).drn = c.drn := rfl
@[simp] theorem Chip.incWrap_ltn (a : Nat) (c : Chip) : (c.incWrap a).ltn = c.ltn := rfl
@[simp] theorem Chip.incWrap_emb (a : Nat) (c : Chip) : (c.incWrap a).emb = c.emb := rfl
@[simp] theorem Chip.incWrap_lcy (a : Nat) (c : Chip) : (c.incWrap a).lcy = c.lcy := rfl
@[simp] theorem Chip.incWrap_dbg (a : Nat) (c : Chip) : (c.incWrap a).dbg = c.dbg := rfl
@[simp] theorem Chip.incWrap_host (a : Nat) (c : Chip) : (c.incWrap a).host = c.host := rfl
@[simp] theorem Chip.incWrap_tirba (a : Nat) (c : Chip) : (c.incWrap a).tirba = c.tirba := rfl
@[simp] theorem Chip.incWrap_rst (a : Nat) (c : Chip) : (c.incWrap a).rst = c.rst := rfl

/-! incSat -/

@[simp] theorem Chip.incSat_mem (a : Nat) (c : Chip) : (c.incSat a).mem = c.mem := rfl
@[simp] theorem Chip.incSat_ue (a : Nat) (c : Chip) : (c.incSat a).ue = c.ue := rfl
@[simp] theorem Chip.incSat_time (a : Nat) (c : Chip) : (c.incSat a).time = c.time := rfl
@[simp] theorem Chip.incSat_jrnQ (a : Nat) (c : Chip) : (c.incSat a).jrnQ = c.jrnQ := rfl
@[simp] theorem Chip.incSat_out (a : Nat) (c : Chip) : (c.incSat a).out = c.out := rfl
@[simp] theorem Chip.incSat_freeCount (a : Nat) (c : Chip) : (c.incSat a).freeCount = c.freeCount := rfl
@[simp] theorem Chip.incSat_reqs (a : Nat) (c : Chip) : (c.incSat a).reqs = c.reqs := rfl
@[simp] theorem Chip.incSat_prk (a : Nat) (c : Chip) : (c.incSat a).prk = c.prk := rfl
@[simp] theorem Chip.incSat_fs (a : Nat) (c : Chip) : (c.incSat a).fs = c.fs := rfl
@[simp] theorem Chip.incSat_vlm (a : Nat) (c : Chip) : (c.incSat a).vlm = c.vlm := rfl
@[simp] theorem Chip.incSat_cores (a : Nat) (c : Chip) : (c.incSat a).cores = c.cores := rfl
@[simp] theorem Chip.incSat_planes (a : Nat) (c : Chip) : (c.incSat a).planes = c.planes := rfl
@[simp] theorem Chip.incSat_palLive (a : Nat) (c : Chip) : (c.incSat a).palLive = c.palLive := rfl
@[simp] theorem Chip.incSat_palShadow (a : Nat) (c : Chip) : (c.incSat a).palShadow = c.palShadow := rfl
@[simp] theorem Chip.incSat_palLog (a : Nat) (c : Chip) : (c.incSat a).palLog = c.palLog := rfl
@[simp] theorem Chip.incSat_motifB (a : Nat) (c : Chip) : (c.incSat a).motifB = c.motifB := rfl
@[simp] theorem Chip.incSat_motif (a : Nat) (c : Chip) : (c.incSat a).motif = c.motif := rfl
@[simp] theorem Chip.incSat_apq (a : Nat) (c : Chip) : (c.incSat a).apq = c.apq := rfl
@[simp] theorem Chip.incSat_eye (a : Nat) (c : Chip) : (c.incSat a).eye = c.eye := rfl
@[simp] theorem Chip.incSat_eyeCoef (a : Nat) (c : Chip) : (c.incSat a).eyeCoef = c.eyeCoef := rfl
@[simp] theorem Chip.incSat_pipeFailed (a : Nat) (c : Chip) : (c.incSat a).pipeFailed = c.pipeFailed := rfl
@[simp] theorem Chip.incSat_bmo (a : Nat) (c : Chip) : (c.incSat a).bmo = c.bmo := rfl
@[simp] theorem Chip.incSat_snd (a : Nat) (c : Chip) : (c.incSat a).snd = c.snd := rfl
@[simp] theorem Chip.incSat_tmr (a : Nat) (c : Chip) : (c.incSat a).tmr = c.tmr := rfl
@[simp] theorem Chip.incSat_chk (a : Nat) (c : Chip) : (c.incSat a).chk = c.chk := rfl
@[simp] theorem Chip.incSat_bob (a : Nat) (c : Chip) : (c.incSat a).bob = c.bob := rfl
@[simp] theorem Chip.incSat_ser (a : Nat) (c : Chip) : (c.incSat a).ser = c.ser := rfl
@[simp] theorem Chip.incSat_drn (a : Nat) (c : Chip) : (c.incSat a).drn = c.drn := rfl
@[simp] theorem Chip.incSat_ltn (a : Nat) (c : Chip) : (c.incSat a).ltn = c.ltn := rfl
@[simp] theorem Chip.incSat_emb (a : Nat) (c : Chip) : (c.incSat a).emb = c.emb := rfl
@[simp] theorem Chip.incSat_lcy (a : Nat) (c : Chip) : (c.incSat a).lcy = c.lcy := rfl
@[simp] theorem Chip.incSat_dbg (a : Nat) (c : Chip) : (c.incSat a).dbg = c.dbg := rfl
@[simp] theorem Chip.incSat_host (a : Nat) (c : Chip) : (c.incSat a).host = c.host := rfl
@[simp] theorem Chip.incSat_tirba (a : Nat) (c : Chip) : (c.incSat a).tirba = c.tirba := rfl
@[simp] theorem Chip.incSat_rst (a : Nat) (c : Chip) : (c.incSat a).rst = c.rst := rfl

/-! setByte -/

@[simp] theorem Chip.setByte_regs (a : Nat) (b : Byte) (c : Chip) : (c.setByte a b).regs = c.regs := rfl
@[simp] theorem Chip.setByte_ue (a : Nat) (b : Byte) (c : Chip) : (c.setByte a b).ue = c.ue := rfl
@[simp] theorem Chip.setByte_time (a : Nat) (b : Byte) (c : Chip) : (c.setByte a b).time = c.time := rfl
@[simp] theorem Chip.setByte_jrnQ (a : Nat) (b : Byte) (c : Chip) : (c.setByte a b).jrnQ = c.jrnQ := rfl
@[simp] theorem Chip.setByte_out (a : Nat) (b : Byte) (c : Chip) : (c.setByte a b).out = c.out := rfl
@[simp] theorem Chip.setByte_freeCount (a : Nat) (b : Byte) (c : Chip) : (c.setByte a b).freeCount = c.freeCount := rfl
@[simp] theorem Chip.setByte_reqs (a : Nat) (b : Byte) (c : Chip) : (c.setByte a b).reqs = c.reqs := rfl
@[simp] theorem Chip.setByte_prk (a : Nat) (b : Byte) (c : Chip) : (c.setByte a b).prk = c.prk := rfl
@[simp] theorem Chip.setByte_fs (a : Nat) (b : Byte) (c : Chip) : (c.setByte a b).fs = c.fs := rfl
@[simp] theorem Chip.setByte_vlm (a : Nat) (b : Byte) (c : Chip) : (c.setByte a b).vlm = c.vlm := rfl
@[simp] theorem Chip.setByte_cores (a : Nat) (b : Byte) (c : Chip) : (c.setByte a b).cores = c.cores := rfl
@[simp] theorem Chip.setByte_planes (a : Nat) (b : Byte) (c : Chip) : (c.setByte a b).planes = c.planes := rfl
@[simp] theorem Chip.setByte_palLive (a : Nat) (b : Byte) (c : Chip) : (c.setByte a b).palLive = c.palLive := rfl
@[simp] theorem Chip.setByte_palShadow (a : Nat) (b : Byte) (c : Chip) : (c.setByte a b).palShadow = c.palShadow := rfl
@[simp] theorem Chip.setByte_palLog (a : Nat) (b : Byte) (c : Chip) : (c.setByte a b).palLog = c.palLog := rfl
@[simp] theorem Chip.setByte_motifB (a : Nat) (b : Byte) (c : Chip) : (c.setByte a b).motifB = c.motifB := rfl
@[simp] theorem Chip.setByte_motif (a : Nat) (b : Byte) (c : Chip) : (c.setByte a b).motif = c.motif := rfl
@[simp] theorem Chip.setByte_apq (a : Nat) (b : Byte) (c : Chip) : (c.setByte a b).apq = c.apq := rfl
@[simp] theorem Chip.setByte_eye (a : Nat) (b : Byte) (c : Chip) : (c.setByte a b).eye = c.eye := rfl
@[simp] theorem Chip.setByte_eyeCoef (a : Nat) (b : Byte) (c : Chip) : (c.setByte a b).eyeCoef = c.eyeCoef := rfl
@[simp] theorem Chip.setByte_pipeFailed (a : Nat) (b : Byte) (c : Chip) : (c.setByte a b).pipeFailed = c.pipeFailed := rfl
@[simp] theorem Chip.setByte_bmo (a : Nat) (b : Byte) (c : Chip) : (c.setByte a b).bmo = c.bmo := rfl
@[simp] theorem Chip.setByte_snd (a : Nat) (b : Byte) (c : Chip) : (c.setByte a b).snd = c.snd := rfl
@[simp] theorem Chip.setByte_tmr (a : Nat) (b : Byte) (c : Chip) : (c.setByte a b).tmr = c.tmr := rfl
@[simp] theorem Chip.setByte_chk (a : Nat) (b : Byte) (c : Chip) : (c.setByte a b).chk = c.chk := rfl
@[simp] theorem Chip.setByte_bob (a : Nat) (b : Byte) (c : Chip) : (c.setByte a b).bob = c.bob := rfl
@[simp] theorem Chip.setByte_ser (a : Nat) (b : Byte) (c : Chip) : (c.setByte a b).ser = c.ser := rfl
@[simp] theorem Chip.setByte_drn (a : Nat) (b : Byte) (c : Chip) : (c.setByte a b).drn = c.drn := rfl
@[simp] theorem Chip.setByte_ltn (a : Nat) (b : Byte) (c : Chip) : (c.setByte a b).ltn = c.ltn := rfl
@[simp] theorem Chip.setByte_emb (a : Nat) (b : Byte) (c : Chip) : (c.setByte a b).emb = c.emb := rfl
@[simp] theorem Chip.setByte_lcy (a : Nat) (b : Byte) (c : Chip) : (c.setByte a b).lcy = c.lcy := rfl
@[simp] theorem Chip.setByte_dbg (a : Nat) (b : Byte) (c : Chip) : (c.setByte a b).dbg = c.dbg := rfl
@[simp] theorem Chip.setByte_host (a : Nat) (b : Byte) (c : Chip) : (c.setByte a b).host = c.host := rfl
@[simp] theorem Chip.setByte_tirba (a : Nat) (b : Byte) (c : Chip) : (c.setByte a b).tirba = c.tirba := rfl
@[simp] theorem Chip.setByte_rst (a : Nat) (b : Byte) (c : Chip) : (c.setByte a b).rst = c.rst := rfl

/-! emit -/

@[simp] theorem Chip.emit_regs (o : Output) (c : Chip) : (c.emit o).regs = c.regs := rfl
@[simp] theorem Chip.emit_mem (o : Output) (c : Chip) : (c.emit o).mem = c.mem := rfl
@[simp] theorem Chip.emit_ue (o : Output) (c : Chip) : (c.emit o).ue = c.ue := rfl
@[simp] theorem Chip.emit_time (o : Output) (c : Chip) : (c.emit o).time = c.time := rfl
@[simp] theorem Chip.emit_jrnQ (o : Output) (c : Chip) : (c.emit o).jrnQ = c.jrnQ := rfl
@[simp] theorem Chip.emit_freeCount (o : Output) (c : Chip) : (c.emit o).freeCount = c.freeCount := rfl
@[simp] theorem Chip.emit_reqs (o : Output) (c : Chip) : (c.emit o).reqs = c.reqs := rfl
@[simp] theorem Chip.emit_prk (o : Output) (c : Chip) : (c.emit o).prk = c.prk := rfl
@[simp] theorem Chip.emit_fs (o : Output) (c : Chip) : (c.emit o).fs = c.fs := rfl
@[simp] theorem Chip.emit_vlm (o : Output) (c : Chip) : (c.emit o).vlm = c.vlm := rfl
@[simp] theorem Chip.emit_cores (o : Output) (c : Chip) : (c.emit o).cores = c.cores := rfl
@[simp] theorem Chip.emit_planes (o : Output) (c : Chip) : (c.emit o).planes = c.planes := rfl
@[simp] theorem Chip.emit_palLive (o : Output) (c : Chip) : (c.emit o).palLive = c.palLive := rfl
@[simp] theorem Chip.emit_palShadow (o : Output) (c : Chip) : (c.emit o).palShadow = c.palShadow := rfl
@[simp] theorem Chip.emit_palLog (o : Output) (c : Chip) : (c.emit o).palLog = c.palLog := rfl
@[simp] theorem Chip.emit_motifB (o : Output) (c : Chip) : (c.emit o).motifB = c.motifB := rfl
@[simp] theorem Chip.emit_motif (o : Output) (c : Chip) : (c.emit o).motif = c.motif := rfl
@[simp] theorem Chip.emit_apq (o : Output) (c : Chip) : (c.emit o).apq = c.apq := rfl
@[simp] theorem Chip.emit_eye (o : Output) (c : Chip) : (c.emit o).eye = c.eye := rfl
@[simp] theorem Chip.emit_eyeCoef (o : Output) (c : Chip) : (c.emit o).eyeCoef = c.eyeCoef := rfl
@[simp] theorem Chip.emit_pipeFailed (o : Output) (c : Chip) : (c.emit o).pipeFailed = c.pipeFailed := rfl
@[simp] theorem Chip.emit_bmo (o : Output) (c : Chip) : (c.emit o).bmo = c.bmo := rfl
@[simp] theorem Chip.emit_snd (o : Output) (c : Chip) : (c.emit o).snd = c.snd := rfl
@[simp] theorem Chip.emit_tmr (o : Output) (c : Chip) : (c.emit o).tmr = c.tmr := rfl
@[simp] theorem Chip.emit_chk (o : Output) (c : Chip) : (c.emit o).chk = c.chk := rfl
@[simp] theorem Chip.emit_bob (o : Output) (c : Chip) : (c.emit o).bob = c.bob := rfl
@[simp] theorem Chip.emit_ser (o : Output) (c : Chip) : (c.emit o).ser = c.ser := rfl
@[simp] theorem Chip.emit_drn (o : Output) (c : Chip) : (c.emit o).drn = c.drn := rfl
@[simp] theorem Chip.emit_ltn (o : Output) (c : Chip) : (c.emit o).ltn = c.ltn := rfl
@[simp] theorem Chip.emit_emb (o : Output) (c : Chip) : (c.emit o).emb = c.emb := rfl
@[simp] theorem Chip.emit_lcy (o : Output) (c : Chip) : (c.emit o).lcy = c.lcy := rfl
@[simp] theorem Chip.emit_dbg (o : Output) (c : Chip) : (c.emit o).dbg = c.dbg := rfl
@[simp] theorem Chip.emit_host (o : Output) (c : Chip) : (c.emit o).host = c.host := rfl
@[simp] theorem Chip.emit_tirba (o : Output) (c : Chip) : (c.emit o).tirba = c.tirba := rfl
@[simp] theorem Chip.emit_rst (o : Output) (c : Chip) : (c.emit o).rst = c.rst := rfl

/-! onCore -/

@[simp] theorem Chip.onCore_regs (n : Core) (f : CoreSt → CoreSt) (c : Chip) : (c.onCore n f).regs = c.regs := rfl
@[simp] theorem Chip.onCore_mem (n : Core) (f : CoreSt → CoreSt) (c : Chip) : (c.onCore n f).mem = c.mem := rfl
@[simp] theorem Chip.onCore_ue (n : Core) (f : CoreSt → CoreSt) (c : Chip) : (c.onCore n f).ue = c.ue := rfl
@[simp] theorem Chip.onCore_time (n : Core) (f : CoreSt → CoreSt) (c : Chip) : (c.onCore n f).time = c.time := rfl
@[simp] theorem Chip.onCore_jrnQ (n : Core) (f : CoreSt → CoreSt) (c : Chip) : (c.onCore n f).jrnQ = c.jrnQ := rfl
@[simp] theorem Chip.onCore_out (n : Core) (f : CoreSt → CoreSt) (c : Chip) : (c.onCore n f).out = c.out := rfl
@[simp] theorem Chip.onCore_freeCount (n : Core) (f : CoreSt → CoreSt) (c : Chip) : (c.onCore n f).freeCount = c.freeCount := rfl
@[simp] theorem Chip.onCore_reqs (n : Core) (f : CoreSt → CoreSt) (c : Chip) : (c.onCore n f).reqs = c.reqs := rfl
@[simp] theorem Chip.onCore_prk (n : Core) (f : CoreSt → CoreSt) (c : Chip) : (c.onCore n f).prk = c.prk := rfl
@[simp] theorem Chip.onCore_fs (n : Core) (f : CoreSt → CoreSt) (c : Chip) : (c.onCore n f).fs = c.fs := rfl
@[simp] theorem Chip.onCore_vlm (n : Core) (f : CoreSt → CoreSt) (c : Chip) : (c.onCore n f).vlm = c.vlm := rfl
@[simp] theorem Chip.onCore_planes (n : Core) (f : CoreSt → CoreSt) (c : Chip) : (c.onCore n f).planes = c.planes := rfl
@[simp] theorem Chip.onCore_palLive (n : Core) (f : CoreSt → CoreSt) (c : Chip) : (c.onCore n f).palLive = c.palLive := rfl
@[simp] theorem Chip.onCore_palShadow (n : Core) (f : CoreSt → CoreSt) (c : Chip) : (c.onCore n f).palShadow = c.palShadow := rfl
@[simp] theorem Chip.onCore_palLog (n : Core) (f : CoreSt → CoreSt) (c : Chip) : (c.onCore n f).palLog = c.palLog := rfl
@[simp] theorem Chip.onCore_motifB (n : Core) (f : CoreSt → CoreSt) (c : Chip) : (c.onCore n f).motifB = c.motifB := rfl
@[simp] theorem Chip.onCore_motif (n : Core) (f : CoreSt → CoreSt) (c : Chip) : (c.onCore n f).motif = c.motif := rfl
@[simp] theorem Chip.onCore_apq (n : Core) (f : CoreSt → CoreSt) (c : Chip) : (c.onCore n f).apq = c.apq := rfl
@[simp] theorem Chip.onCore_eye (n : Core) (f : CoreSt → CoreSt) (c : Chip) : (c.onCore n f).eye = c.eye := rfl
@[simp] theorem Chip.onCore_eyeCoef (n : Core) (f : CoreSt → CoreSt) (c : Chip) : (c.onCore n f).eyeCoef = c.eyeCoef := rfl
@[simp] theorem Chip.onCore_pipeFailed (n : Core) (f : CoreSt → CoreSt) (c : Chip) : (c.onCore n f).pipeFailed = c.pipeFailed := rfl
@[simp] theorem Chip.onCore_bmo (n : Core) (f : CoreSt → CoreSt) (c : Chip) : (c.onCore n f).bmo = c.bmo := rfl
@[simp] theorem Chip.onCore_snd (n : Core) (f : CoreSt → CoreSt) (c : Chip) : (c.onCore n f).snd = c.snd := rfl
@[simp] theorem Chip.onCore_tmr (n : Core) (f : CoreSt → CoreSt) (c : Chip) : (c.onCore n f).tmr = c.tmr := rfl
@[simp] theorem Chip.onCore_chk (n : Core) (f : CoreSt → CoreSt) (c : Chip) : (c.onCore n f).chk = c.chk := rfl
@[simp] theorem Chip.onCore_bob (n : Core) (f : CoreSt → CoreSt) (c : Chip) : (c.onCore n f).bob = c.bob := rfl
@[simp] theorem Chip.onCore_ser (n : Core) (f : CoreSt → CoreSt) (c : Chip) : (c.onCore n f).ser = c.ser := rfl
@[simp] theorem Chip.onCore_drn (n : Core) (f : CoreSt → CoreSt) (c : Chip) : (c.onCore n f).drn = c.drn := rfl
@[simp] theorem Chip.onCore_ltn (n : Core) (f : CoreSt → CoreSt) (c : Chip) : (c.onCore n f).ltn = c.ltn := rfl
@[simp] theorem Chip.onCore_emb (n : Core) (f : CoreSt → CoreSt) (c : Chip) : (c.onCore n f).emb = c.emb := rfl
@[simp] theorem Chip.onCore_lcy (n : Core) (f : CoreSt → CoreSt) (c : Chip) : (c.onCore n f).lcy = c.lcy := rfl
@[simp] theorem Chip.onCore_dbg (n : Core) (f : CoreSt → CoreSt) (c : Chip) : (c.onCore n f).dbg = c.dbg := rfl
@[simp] theorem Chip.onCore_host (n : Core) (f : CoreSt → CoreSt) (c : Chip) : (c.onCore n f).host = c.host := rfl
@[simp] theorem Chip.onCore_tirba (n : Core) (f : CoreSt → CoreSt) (c : Chip) : (c.onCore n f).tirba = c.tirba := rfl
@[simp] theorem Chip.onCore_rst (n : Core) (f : CoreSt → CoreSt) (c : Chip) : (c.onCore n f).rst = c.rst := rfl

/-! onBeam -/

@[simp] theorem Chip.onBeam_regs (b : Beam) (f : PrkBeam → PrkBeam) (c : Chip) : (c.onBeam b f).regs = c.regs := rfl
@[simp] theorem Chip.onBeam_mem (b : Beam) (f : PrkBeam → PrkBeam) (c : Chip) : (c.onBeam b f).mem = c.mem := rfl
@[simp] theorem Chip.onBeam_ue (b : Beam) (f : PrkBeam → PrkBeam) (c : Chip) : (c.onBeam b f).ue = c.ue := rfl
@[simp] theorem Chip.onBeam_time (b : Beam) (f : PrkBeam → PrkBeam) (c : Chip) : (c.onBeam b f).time = c.time := rfl
@[simp] theorem Chip.onBeam_jrnQ (b : Beam) (f : PrkBeam → PrkBeam) (c : Chip) : (c.onBeam b f).jrnQ = c.jrnQ := rfl
@[simp] theorem Chip.onBeam_out (b : Beam) (f : PrkBeam → PrkBeam) (c : Chip) : (c.onBeam b f).out = c.out := rfl
@[simp] theorem Chip.onBeam_freeCount (b : Beam) (f : PrkBeam → PrkBeam) (c : Chip) : (c.onBeam b f).freeCount = c.freeCount := rfl
@[simp] theorem Chip.onBeam_reqs (b : Beam) (f : PrkBeam → PrkBeam) (c : Chip) : (c.onBeam b f).reqs = c.reqs := rfl
@[simp] theorem Chip.onBeam_fs (b : Beam) (f : PrkBeam → PrkBeam) (c : Chip) : (c.onBeam b f).fs = c.fs := rfl
@[simp] theorem Chip.onBeam_vlm (b : Beam) (f : PrkBeam → PrkBeam) (c : Chip) : (c.onBeam b f).vlm = c.vlm := rfl
@[simp] theorem Chip.onBeam_cores (b : Beam) (f : PrkBeam → PrkBeam) (c : Chip) : (c.onBeam b f).cores = c.cores := rfl
@[simp] theorem Chip.onBeam_planes (b : Beam) (f : PrkBeam → PrkBeam) (c : Chip) : (c.onBeam b f).planes = c.planes := rfl
@[simp] theorem Chip.onBeam_palLive (b : Beam) (f : PrkBeam → PrkBeam) (c : Chip) : (c.onBeam b f).palLive = c.palLive := rfl
@[simp] theorem Chip.onBeam_palShadow (b : Beam) (f : PrkBeam → PrkBeam) (c : Chip) : (c.onBeam b f).palShadow = c.palShadow := rfl
@[simp] theorem Chip.onBeam_palLog (b : Beam) (f : PrkBeam → PrkBeam) (c : Chip) : (c.onBeam b f).palLog = c.palLog := rfl
@[simp] theorem Chip.onBeam_motifB (b : Beam) (f : PrkBeam → PrkBeam) (c : Chip) : (c.onBeam b f).motifB = c.motifB := rfl
@[simp] theorem Chip.onBeam_motif (b : Beam) (f : PrkBeam → PrkBeam) (c : Chip) : (c.onBeam b f).motif = c.motif := rfl
@[simp] theorem Chip.onBeam_apq (b : Beam) (f : PrkBeam → PrkBeam) (c : Chip) : (c.onBeam b f).apq = c.apq := rfl
@[simp] theorem Chip.onBeam_eye (b : Beam) (f : PrkBeam → PrkBeam) (c : Chip) : (c.onBeam b f).eye = c.eye := rfl
@[simp] theorem Chip.onBeam_eyeCoef (b : Beam) (f : PrkBeam → PrkBeam) (c : Chip) : (c.onBeam b f).eyeCoef = c.eyeCoef := rfl
@[simp] theorem Chip.onBeam_pipeFailed (b : Beam) (f : PrkBeam → PrkBeam) (c : Chip) : (c.onBeam b f).pipeFailed = c.pipeFailed := rfl
@[simp] theorem Chip.onBeam_bmo (b : Beam) (f : PrkBeam → PrkBeam) (c : Chip) : (c.onBeam b f).bmo = c.bmo := rfl
@[simp] theorem Chip.onBeam_snd (b : Beam) (f : PrkBeam → PrkBeam) (c : Chip) : (c.onBeam b f).snd = c.snd := rfl
@[simp] theorem Chip.onBeam_tmr (b : Beam) (f : PrkBeam → PrkBeam) (c : Chip) : (c.onBeam b f).tmr = c.tmr := rfl
@[simp] theorem Chip.onBeam_chk (b : Beam) (f : PrkBeam → PrkBeam) (c : Chip) : (c.onBeam b f).chk = c.chk := rfl
@[simp] theorem Chip.onBeam_bob (b : Beam) (f : PrkBeam → PrkBeam) (c : Chip) : (c.onBeam b f).bob = c.bob := rfl
@[simp] theorem Chip.onBeam_ser (b : Beam) (f : PrkBeam → PrkBeam) (c : Chip) : (c.onBeam b f).ser = c.ser := rfl
@[simp] theorem Chip.onBeam_drn (b : Beam) (f : PrkBeam → PrkBeam) (c : Chip) : (c.onBeam b f).drn = c.drn := rfl
@[simp] theorem Chip.onBeam_ltn (b : Beam) (f : PrkBeam → PrkBeam) (c : Chip) : (c.onBeam b f).ltn = c.ltn := rfl
@[simp] theorem Chip.onBeam_emb (b : Beam) (f : PrkBeam → PrkBeam) (c : Chip) : (c.onBeam b f).emb = c.emb := rfl
@[simp] theorem Chip.onBeam_lcy (b : Beam) (f : PrkBeam → PrkBeam) (c : Chip) : (c.onBeam b f).lcy = c.lcy := rfl
@[simp] theorem Chip.onBeam_dbg (b : Beam) (f : PrkBeam → PrkBeam) (c : Chip) : (c.onBeam b f).dbg = c.dbg := rfl
@[simp] theorem Chip.onBeam_host (b : Beam) (f : PrkBeam → PrkBeam) (c : Chip) : (c.onBeam b f).host = c.host := rfl
@[simp] theorem Chip.onBeam_tirba (b : Beam) (f : PrkBeam → PrkBeam) (c : Chip) : (c.onBeam b f).tirba = c.tirba := rfl
@[simp] theorem Chip.onBeam_rst (b : Beam) (f : PrkBeam → PrkBeam) (c : Chip) : (c.onBeam b f).rst = c.rst := rfl

/-! journal -/

@[simp] theorem Chip.journal_regs (so ev u : Nat) (d0 d1 d2 : Word) (c : Chip) : (c.journal so ev u d0 d1 d2).regs = c.regs := rfl
@[simp] theorem Chip.journal_mem (so ev u : Nat) (d0 d1 d2 : Word) (c : Chip) : (c.journal so ev u d0 d1 d2).mem = c.mem := rfl
@[simp] theorem Chip.journal_ue (so ev u : Nat) (d0 d1 d2 : Word) (c : Chip) : (c.journal so ev u d0 d1 d2).ue = c.ue := rfl
@[simp] theorem Chip.journal_time (so ev u : Nat) (d0 d1 d2 : Word) (c : Chip) : (c.journal so ev u d0 d1 d2).time = c.time := rfl
@[simp] theorem Chip.journal_out (so ev u : Nat) (d0 d1 d2 : Word) (c : Chip) : (c.journal so ev u d0 d1 d2).out = c.out := rfl
@[simp] theorem Chip.journal_freeCount (so ev u : Nat) (d0 d1 d2 : Word) (c : Chip) : (c.journal so ev u d0 d1 d2).freeCount = c.freeCount := rfl
@[simp] theorem Chip.journal_reqs (so ev u : Nat) (d0 d1 d2 : Word) (c : Chip) : (c.journal so ev u d0 d1 d2).reqs = c.reqs := rfl
@[simp] theorem Chip.journal_prk (so ev u : Nat) (d0 d1 d2 : Word) (c : Chip) : (c.journal so ev u d0 d1 d2).prk = c.prk := rfl
@[simp] theorem Chip.journal_fs (so ev u : Nat) (d0 d1 d2 : Word) (c : Chip) : (c.journal so ev u d0 d1 d2).fs = c.fs := rfl
@[simp] theorem Chip.journal_vlm (so ev u : Nat) (d0 d1 d2 : Word) (c : Chip) : (c.journal so ev u d0 d1 d2).vlm = c.vlm := rfl
@[simp] theorem Chip.journal_cores (so ev u : Nat) (d0 d1 d2 : Word) (c : Chip) : (c.journal so ev u d0 d1 d2).cores = c.cores := rfl
@[simp] theorem Chip.journal_planes (so ev u : Nat) (d0 d1 d2 : Word) (c : Chip) : (c.journal so ev u d0 d1 d2).planes = c.planes := rfl
@[simp] theorem Chip.journal_palLive (so ev u : Nat) (d0 d1 d2 : Word) (c : Chip) : (c.journal so ev u d0 d1 d2).palLive = c.palLive := rfl
@[simp] theorem Chip.journal_palShadow (so ev u : Nat) (d0 d1 d2 : Word) (c : Chip) : (c.journal so ev u d0 d1 d2).palShadow = c.palShadow := rfl
@[simp] theorem Chip.journal_palLog (so ev u : Nat) (d0 d1 d2 : Word) (c : Chip) : (c.journal so ev u d0 d1 d2).palLog = c.palLog := rfl
@[simp] theorem Chip.journal_motifB (so ev u : Nat) (d0 d1 d2 : Word) (c : Chip) : (c.journal so ev u d0 d1 d2).motifB = c.motifB := rfl
@[simp] theorem Chip.journal_motif (so ev u : Nat) (d0 d1 d2 : Word) (c : Chip) : (c.journal so ev u d0 d1 d2).motif = c.motif := rfl
@[simp] theorem Chip.journal_apq (so ev u : Nat) (d0 d1 d2 : Word) (c : Chip) : (c.journal so ev u d0 d1 d2).apq = c.apq := rfl
@[simp] theorem Chip.journal_eye (so ev u : Nat) (d0 d1 d2 : Word) (c : Chip) : (c.journal so ev u d0 d1 d2).eye = c.eye := rfl
@[simp] theorem Chip.journal_eyeCoef (so ev u : Nat) (d0 d1 d2 : Word) (c : Chip) : (c.journal so ev u d0 d1 d2).eyeCoef = c.eyeCoef := rfl
@[simp] theorem Chip.journal_pipeFailed (so ev u : Nat) (d0 d1 d2 : Word) (c : Chip) : (c.journal so ev u d0 d1 d2).pipeFailed = c.pipeFailed := rfl
@[simp] theorem Chip.journal_bmo (so ev u : Nat) (d0 d1 d2 : Word) (c : Chip) : (c.journal so ev u d0 d1 d2).bmo = c.bmo := rfl
@[simp] theorem Chip.journal_snd (so ev u : Nat) (d0 d1 d2 : Word) (c : Chip) : (c.journal so ev u d0 d1 d2).snd = c.snd := rfl
@[simp] theorem Chip.journal_tmr (so ev u : Nat) (d0 d1 d2 : Word) (c : Chip) : (c.journal so ev u d0 d1 d2).tmr = c.tmr := rfl
@[simp] theorem Chip.journal_chk (so ev u : Nat) (d0 d1 d2 : Word) (c : Chip) : (c.journal so ev u d0 d1 d2).chk = c.chk := rfl
@[simp] theorem Chip.journal_bob (so ev u : Nat) (d0 d1 d2 : Word) (c : Chip) : (c.journal so ev u d0 d1 d2).bob = c.bob := rfl
@[simp] theorem Chip.journal_ser (so ev u : Nat) (d0 d1 d2 : Word) (c : Chip) : (c.journal so ev u d0 d1 d2).ser = c.ser := rfl
@[simp] theorem Chip.journal_drn (so ev u : Nat) (d0 d1 d2 : Word) (c : Chip) : (c.journal so ev u d0 d1 d2).drn = c.drn := rfl
@[simp] theorem Chip.journal_ltn (so ev u : Nat) (d0 d1 d2 : Word) (c : Chip) : (c.journal so ev u d0 d1 d2).ltn = c.ltn := rfl
@[simp] theorem Chip.journal_emb (so ev u : Nat) (d0 d1 d2 : Word) (c : Chip) : (c.journal so ev u d0 d1 d2).emb = c.emb := rfl
@[simp] theorem Chip.journal_lcy (so ev u : Nat) (d0 d1 d2 : Word) (c : Chip) : (c.journal so ev u d0 d1 d2).lcy = c.lcy := rfl
@[simp] theorem Chip.journal_dbg (so ev u : Nat) (d0 d1 d2 : Word) (c : Chip) : (c.journal so ev u d0 d1 d2).dbg = c.dbg := rfl
@[simp] theorem Chip.journal_host (so ev u : Nat) (d0 d1 d2 : Word) (c : Chip) : (c.journal so ev u d0 d1 d2).host = c.host := rfl
@[simp] theorem Chip.journal_tirba (so ev u : Nat) (d0 d1 d2 : Word) (c : Chip) : (c.journal so ev u d0 d1 d2).tirba = c.tirba := rfl
@[simp] theorem Chip.journal_rst (so ev u : Nat) (d0 d1 d2 : Word) (c : Chip) : (c.journal so ev u d0 d1 d2).rst = c.rst := rfl

/-! onApq -/

@[simp] theorem Chip.onApq_regs (b : Beam) (f : ApqBeam → ApqBeam) (c : Chip) : (c.onApq b f).regs = c.regs := rfl
@[simp] theorem Chip.onApq_mem (b : Beam) (f : ApqBeam → ApqBeam) (c : Chip) : (c.onApq b f).mem = c.mem := rfl
@[simp] theorem Chip.onApq_ue (b : Beam) (f : ApqBeam → ApqBeam) (c : Chip) : (c.onApq b f).ue = c.ue := rfl
@[simp] theorem Chip.onApq_time (b : Beam) (f : ApqBeam → ApqBeam) (c : Chip) : (c.onApq b f).time = c.time := rfl
@[simp] theorem Chip.onApq_jrnQ (b : Beam) (f : ApqBeam → ApqBeam) (c : Chip) : (c.onApq b f).jrnQ = c.jrnQ := rfl
@[simp] theorem Chip.onApq_out (b : Beam) (f : ApqBeam → ApqBeam) (c : Chip) : (c.onApq b f).out = c.out := rfl
@[simp] theorem Chip.onApq_freeCount (b : Beam) (f : ApqBeam → ApqBeam) (c : Chip) : (c.onApq b f).freeCount = c.freeCount := rfl
@[simp] theorem Chip.onApq_reqs (b : Beam) (f : ApqBeam → ApqBeam) (c : Chip) : (c.onApq b f).reqs = c.reqs := rfl
@[simp] theorem Chip.onApq_prk (b : Beam) (f : ApqBeam → ApqBeam) (c : Chip) : (c.onApq b f).prk = c.prk := rfl
@[simp] theorem Chip.onApq_fs (b : Beam) (f : ApqBeam → ApqBeam) (c : Chip) : (c.onApq b f).fs = c.fs := rfl
@[simp] theorem Chip.onApq_vlm (b : Beam) (f : ApqBeam → ApqBeam) (c : Chip) : (c.onApq b f).vlm = c.vlm := rfl
@[simp] theorem Chip.onApq_cores (b : Beam) (f : ApqBeam → ApqBeam) (c : Chip) : (c.onApq b f).cores = c.cores := rfl
@[simp] theorem Chip.onApq_planes (b : Beam) (f : ApqBeam → ApqBeam) (c : Chip) : (c.onApq b f).planes = c.planes := rfl
@[simp] theorem Chip.onApq_palLive (b : Beam) (f : ApqBeam → ApqBeam) (c : Chip) : (c.onApq b f).palLive = c.palLive := rfl
@[simp] theorem Chip.onApq_palShadow (b : Beam) (f : ApqBeam → ApqBeam) (c : Chip) : (c.onApq b f).palShadow = c.palShadow := rfl
@[simp] theorem Chip.onApq_palLog (b : Beam) (f : ApqBeam → ApqBeam) (c : Chip) : (c.onApq b f).palLog = c.palLog := rfl
@[simp] theorem Chip.onApq_motifB (b : Beam) (f : ApqBeam → ApqBeam) (c : Chip) : (c.onApq b f).motifB = c.motifB := rfl
@[simp] theorem Chip.onApq_motif (b : Beam) (f : ApqBeam → ApqBeam) (c : Chip) : (c.onApq b f).motif = c.motif := rfl
@[simp] theorem Chip.onApq_eye (b : Beam) (f : ApqBeam → ApqBeam) (c : Chip) : (c.onApq b f).eye = c.eye := rfl
@[simp] theorem Chip.onApq_eyeCoef (b : Beam) (f : ApqBeam → ApqBeam) (c : Chip) : (c.onApq b f).eyeCoef = c.eyeCoef := rfl
@[simp] theorem Chip.onApq_pipeFailed (b : Beam) (f : ApqBeam → ApqBeam) (c : Chip) : (c.onApq b f).pipeFailed = c.pipeFailed := rfl
@[simp] theorem Chip.onApq_bmo (b : Beam) (f : ApqBeam → ApqBeam) (c : Chip) : (c.onApq b f).bmo = c.bmo := rfl
@[simp] theorem Chip.onApq_snd (b : Beam) (f : ApqBeam → ApqBeam) (c : Chip) : (c.onApq b f).snd = c.snd := rfl
@[simp] theorem Chip.onApq_tmr (b : Beam) (f : ApqBeam → ApqBeam) (c : Chip) : (c.onApq b f).tmr = c.tmr := rfl
@[simp] theorem Chip.onApq_chk (b : Beam) (f : ApqBeam → ApqBeam) (c : Chip) : (c.onApq b f).chk = c.chk := rfl
@[simp] theorem Chip.onApq_bob (b : Beam) (f : ApqBeam → ApqBeam) (c : Chip) : (c.onApq b f).bob = c.bob := rfl
@[simp] theorem Chip.onApq_ser (b : Beam) (f : ApqBeam → ApqBeam) (c : Chip) : (c.onApq b f).ser = c.ser := rfl
@[simp] theorem Chip.onApq_drn (b : Beam) (f : ApqBeam → ApqBeam) (c : Chip) : (c.onApq b f).drn = c.drn := rfl
@[simp] theorem Chip.onApq_ltn (b : Beam) (f : ApqBeam → ApqBeam) (c : Chip) : (c.onApq b f).ltn = c.ltn := rfl
@[simp] theorem Chip.onApq_emb (b : Beam) (f : ApqBeam → ApqBeam) (c : Chip) : (c.onApq b f).emb = c.emb := rfl
@[simp] theorem Chip.onApq_lcy (b : Beam) (f : ApqBeam → ApqBeam) (c : Chip) : (c.onApq b f).lcy = c.lcy := rfl
@[simp] theorem Chip.onApq_dbg (b : Beam) (f : ApqBeam → ApqBeam) (c : Chip) : (c.onApq b f).dbg = c.dbg := rfl
@[simp] theorem Chip.onApq_host (b : Beam) (f : ApqBeam → ApqBeam) (c : Chip) : (c.onApq b f).host = c.host := rfl
@[simp] theorem Chip.onApq_tirba (b : Beam) (f : ApqBeam → ApqBeam) (c : Chip) : (c.onApq b f).tirba = c.tirba := rfl
@[simp] theorem Chip.onApq_rst (b : Beam) (f : ApqBeam → ApqBeam) (c : Chip) : (c.onApq b f).rst = c.rst := rfl

/-! onBmo -/

@[simp] theorem Chip.onBmo_regs (b : Beam) (f : BmoBeam → BmoBeam) (c : Chip) : (c.onBmo b f).regs = c.regs := rfl
@[simp] theorem Chip.onBmo_mem (b : Beam) (f : BmoBeam → BmoBeam) (c : Chip) : (c.onBmo b f).mem = c.mem := rfl
@[simp] theorem Chip.onBmo_ue (b : Beam) (f : BmoBeam → BmoBeam) (c : Chip) : (c.onBmo b f).ue = c.ue := rfl
@[simp] theorem Chip.onBmo_time (b : Beam) (f : BmoBeam → BmoBeam) (c : Chip) : (c.onBmo b f).time = c.time := rfl
@[simp] theorem Chip.onBmo_jrnQ (b : Beam) (f : BmoBeam → BmoBeam) (c : Chip) : (c.onBmo b f).jrnQ = c.jrnQ := rfl
@[simp] theorem Chip.onBmo_out (b : Beam) (f : BmoBeam → BmoBeam) (c : Chip) : (c.onBmo b f).out = c.out := rfl
@[simp] theorem Chip.onBmo_freeCount (b : Beam) (f : BmoBeam → BmoBeam) (c : Chip) : (c.onBmo b f).freeCount = c.freeCount := rfl
@[simp] theorem Chip.onBmo_reqs (b : Beam) (f : BmoBeam → BmoBeam) (c : Chip) : (c.onBmo b f).reqs = c.reqs := rfl
@[simp] theorem Chip.onBmo_prk (b : Beam) (f : BmoBeam → BmoBeam) (c : Chip) : (c.onBmo b f).prk = c.prk := rfl
@[simp] theorem Chip.onBmo_fs (b : Beam) (f : BmoBeam → BmoBeam) (c : Chip) : (c.onBmo b f).fs = c.fs := rfl
@[simp] theorem Chip.onBmo_vlm (b : Beam) (f : BmoBeam → BmoBeam) (c : Chip) : (c.onBmo b f).vlm = c.vlm := rfl
@[simp] theorem Chip.onBmo_cores (b : Beam) (f : BmoBeam → BmoBeam) (c : Chip) : (c.onBmo b f).cores = c.cores := rfl
@[simp] theorem Chip.onBmo_planes (b : Beam) (f : BmoBeam → BmoBeam) (c : Chip) : (c.onBmo b f).planes = c.planes := rfl
@[simp] theorem Chip.onBmo_palLive (b : Beam) (f : BmoBeam → BmoBeam) (c : Chip) : (c.onBmo b f).palLive = c.palLive := rfl
@[simp] theorem Chip.onBmo_palShadow (b : Beam) (f : BmoBeam → BmoBeam) (c : Chip) : (c.onBmo b f).palShadow = c.palShadow := rfl
@[simp] theorem Chip.onBmo_palLog (b : Beam) (f : BmoBeam → BmoBeam) (c : Chip) : (c.onBmo b f).palLog = c.palLog := rfl
@[simp] theorem Chip.onBmo_motifB (b : Beam) (f : BmoBeam → BmoBeam) (c : Chip) : (c.onBmo b f).motifB = c.motifB := rfl
@[simp] theorem Chip.onBmo_motif (b : Beam) (f : BmoBeam → BmoBeam) (c : Chip) : (c.onBmo b f).motif = c.motif := rfl
@[simp] theorem Chip.onBmo_apq (b : Beam) (f : BmoBeam → BmoBeam) (c : Chip) : (c.onBmo b f).apq = c.apq := rfl
@[simp] theorem Chip.onBmo_eye (b : Beam) (f : BmoBeam → BmoBeam) (c : Chip) : (c.onBmo b f).eye = c.eye := rfl
@[simp] theorem Chip.onBmo_eyeCoef (b : Beam) (f : BmoBeam → BmoBeam) (c : Chip) : (c.onBmo b f).eyeCoef = c.eyeCoef := rfl
@[simp] theorem Chip.onBmo_pipeFailed (b : Beam) (f : BmoBeam → BmoBeam) (c : Chip) : (c.onBmo b f).pipeFailed = c.pipeFailed := rfl
@[simp] theorem Chip.onBmo_snd (b : Beam) (f : BmoBeam → BmoBeam) (c : Chip) : (c.onBmo b f).snd = c.snd := rfl
@[simp] theorem Chip.onBmo_tmr (b : Beam) (f : BmoBeam → BmoBeam) (c : Chip) : (c.onBmo b f).tmr = c.tmr := rfl
@[simp] theorem Chip.onBmo_chk (b : Beam) (f : BmoBeam → BmoBeam) (c : Chip) : (c.onBmo b f).chk = c.chk := rfl
@[simp] theorem Chip.onBmo_bob (b : Beam) (f : BmoBeam → BmoBeam) (c : Chip) : (c.onBmo b f).bob = c.bob := rfl
@[simp] theorem Chip.onBmo_ser (b : Beam) (f : BmoBeam → BmoBeam) (c : Chip) : (c.onBmo b f).ser = c.ser := rfl
@[simp] theorem Chip.onBmo_drn (b : Beam) (f : BmoBeam → BmoBeam) (c : Chip) : (c.onBmo b f).drn = c.drn := rfl
@[simp] theorem Chip.onBmo_ltn (b : Beam) (f : BmoBeam → BmoBeam) (c : Chip) : (c.onBmo b f).ltn = c.ltn := rfl
@[simp] theorem Chip.onBmo_emb (b : Beam) (f : BmoBeam → BmoBeam) (c : Chip) : (c.onBmo b f).emb = c.emb := rfl
@[simp] theorem Chip.onBmo_lcy (b : Beam) (f : BmoBeam → BmoBeam) (c : Chip) : (c.onBmo b f).lcy = c.lcy := rfl
@[simp] theorem Chip.onBmo_dbg (b : Beam) (f : BmoBeam → BmoBeam) (c : Chip) : (c.onBmo b f).dbg = c.dbg := rfl
@[simp] theorem Chip.onBmo_host (b : Beam) (f : BmoBeam → BmoBeam) (c : Chip) : (c.onBmo b f).host = c.host := rfl
@[simp] theorem Chip.onBmo_tirba (b : Beam) (f : BmoBeam → BmoBeam) (c : Chip) : (c.onBmo b f).tirba = c.tirba := rfl
@[simp] theorem Chip.onBmo_rst (b : Beam) (f : BmoBeam → BmoBeam) (c : Chip) : (c.onBmo b f).rst = c.rst := rfl

/-! onBob -/

@[simp] theorem Chip.onBob_regs (n : BobCh) (f : BobSt → BobSt) (c : Chip) : (c.onBob n f).regs = c.regs := rfl
@[simp] theorem Chip.onBob_mem (n : BobCh) (f : BobSt → BobSt) (c : Chip) : (c.onBob n f).mem = c.mem := rfl
@[simp] theorem Chip.onBob_ue (n : BobCh) (f : BobSt → BobSt) (c : Chip) : (c.onBob n f).ue = c.ue := rfl
@[simp] theorem Chip.onBob_time (n : BobCh) (f : BobSt → BobSt) (c : Chip) : (c.onBob n f).time = c.time := rfl
@[simp] theorem Chip.onBob_jrnQ (n : BobCh) (f : BobSt → BobSt) (c : Chip) : (c.onBob n f).jrnQ = c.jrnQ := rfl
@[simp] theorem Chip.onBob_out (n : BobCh) (f : BobSt → BobSt) (c : Chip) : (c.onBob n f).out = c.out := rfl
@[simp] theorem Chip.onBob_freeCount (n : BobCh) (f : BobSt → BobSt) (c : Chip) : (c.onBob n f).freeCount = c.freeCount := rfl
@[simp] theorem Chip.onBob_reqs (n : BobCh) (f : BobSt → BobSt) (c : Chip) : (c.onBob n f).reqs = c.reqs := rfl
@[simp] theorem Chip.onBob_prk (n : BobCh) (f : BobSt → BobSt) (c : Chip) : (c.onBob n f).prk = c.prk := rfl
@[simp] theorem Chip.onBob_fs (n : BobCh) (f : BobSt → BobSt) (c : Chip) : (c.onBob n f).fs = c.fs := rfl
@[simp] theorem Chip.onBob_vlm (n : BobCh) (f : BobSt → BobSt) (c : Chip) : (c.onBob n f).vlm = c.vlm := rfl
@[simp] theorem Chip.onBob_cores (n : BobCh) (f : BobSt → BobSt) (c : Chip) : (c.onBob n f).cores = c.cores := rfl
@[simp] theorem Chip.onBob_planes (n : BobCh) (f : BobSt → BobSt) (c : Chip) : (c.onBob n f).planes = c.planes := rfl
@[simp] theorem Chip.onBob_palLive (n : BobCh) (f : BobSt → BobSt) (c : Chip) : (c.onBob n f).palLive = c.palLive := rfl
@[simp] theorem Chip.onBob_palShadow (n : BobCh) (f : BobSt → BobSt) (c : Chip) : (c.onBob n f).palShadow = c.palShadow := rfl
@[simp] theorem Chip.onBob_palLog (n : BobCh) (f : BobSt → BobSt) (c : Chip) : (c.onBob n f).palLog = c.palLog := rfl
@[simp] theorem Chip.onBob_motifB (n : BobCh) (f : BobSt → BobSt) (c : Chip) : (c.onBob n f).motifB = c.motifB := rfl
@[simp] theorem Chip.onBob_motif (n : BobCh) (f : BobSt → BobSt) (c : Chip) : (c.onBob n f).motif = c.motif := rfl
@[simp] theorem Chip.onBob_apq (n : BobCh) (f : BobSt → BobSt) (c : Chip) : (c.onBob n f).apq = c.apq := rfl
@[simp] theorem Chip.onBob_eye (n : BobCh) (f : BobSt → BobSt) (c : Chip) : (c.onBob n f).eye = c.eye := rfl
@[simp] theorem Chip.onBob_eyeCoef (n : BobCh) (f : BobSt → BobSt) (c : Chip) : (c.onBob n f).eyeCoef = c.eyeCoef := rfl
@[simp] theorem Chip.onBob_pipeFailed (n : BobCh) (f : BobSt → BobSt) (c : Chip) : (c.onBob n f).pipeFailed = c.pipeFailed := rfl
@[simp] theorem Chip.onBob_bmo (n : BobCh) (f : BobSt → BobSt) (c : Chip) : (c.onBob n f).bmo = c.bmo := rfl
@[simp] theorem Chip.onBob_snd (n : BobCh) (f : BobSt → BobSt) (c : Chip) : (c.onBob n f).snd = c.snd := rfl
@[simp] theorem Chip.onBob_tmr (n : BobCh) (f : BobSt → BobSt) (c : Chip) : (c.onBob n f).tmr = c.tmr := rfl
@[simp] theorem Chip.onBob_chk (n : BobCh) (f : BobSt → BobSt) (c : Chip) : (c.onBob n f).chk = c.chk := rfl
@[simp] theorem Chip.onBob_ser (n : BobCh) (f : BobSt → BobSt) (c : Chip) : (c.onBob n f).ser = c.ser := rfl
@[simp] theorem Chip.onBob_drn (n : BobCh) (f : BobSt → BobSt) (c : Chip) : (c.onBob n f).drn = c.drn := rfl
@[simp] theorem Chip.onBob_ltn (n : BobCh) (f : BobSt → BobSt) (c : Chip) : (c.onBob n f).ltn = c.ltn := rfl
@[simp] theorem Chip.onBob_emb (n : BobCh) (f : BobSt → BobSt) (c : Chip) : (c.onBob n f).emb = c.emb := rfl
@[simp] theorem Chip.onBob_lcy (n : BobCh) (f : BobSt → BobSt) (c : Chip) : (c.onBob n f).lcy = c.lcy := rfl
@[simp] theorem Chip.onBob_dbg (n : BobCh) (f : BobSt → BobSt) (c : Chip) : (c.onBob n f).dbg = c.dbg := rfl
@[simp] theorem Chip.onBob_host (n : BobCh) (f : BobSt → BobSt) (c : Chip) : (c.onBob n f).host = c.host := rfl
@[simp] theorem Chip.onBob_tirba (n : BobCh) (f : BobSt → BobSt) (c : Chip) : (c.onBob n f).tirba = c.tirba := rfl
@[simp] theorem Chip.onBob_rst (n : BobCh) (f : BobSt → BobSt) (c : Chip) : (c.onBob n f).rst = c.rst := rfl

/-! onRst -/

@[simp] theorem Chip.onRst_regs (f : RstSt → RstSt) (c : Chip) : (c.onRst f).regs = c.regs := rfl
@[simp] theorem Chip.onRst_mem (f : RstSt → RstSt) (c : Chip) : (c.onRst f).mem = c.mem := rfl
@[simp] theorem Chip.onRst_ue (f : RstSt → RstSt) (c : Chip) : (c.onRst f).ue = c.ue := rfl
@[simp] theorem Chip.onRst_time (f : RstSt → RstSt) (c : Chip) : (c.onRst f).time = c.time := rfl
@[simp] theorem Chip.onRst_jrnQ (f : RstSt → RstSt) (c : Chip) : (c.onRst f).jrnQ = c.jrnQ := rfl
@[simp] theorem Chip.onRst_out (f : RstSt → RstSt) (c : Chip) : (c.onRst f).out = c.out := rfl
@[simp] theorem Chip.onRst_freeCount (f : RstSt → RstSt) (c : Chip) : (c.onRst f).freeCount = c.freeCount := rfl
@[simp] theorem Chip.onRst_reqs (f : RstSt → RstSt) (c : Chip) : (c.onRst f).reqs = c.reqs := rfl
@[simp] theorem Chip.onRst_prk (f : RstSt → RstSt) (c : Chip) : (c.onRst f).prk = c.prk := rfl
@[simp] theorem Chip.onRst_fs (f : RstSt → RstSt) (c : Chip) : (c.onRst f).fs = c.fs := rfl
@[simp] theorem Chip.onRst_vlm (f : RstSt → RstSt) (c : Chip) : (c.onRst f).vlm = c.vlm := rfl
@[simp] theorem Chip.onRst_cores (f : RstSt → RstSt) (c : Chip) : (c.onRst f).cores = c.cores := rfl
@[simp] theorem Chip.onRst_planes (f : RstSt → RstSt) (c : Chip) : (c.onRst f).planes = c.planes := rfl
@[simp] theorem Chip.onRst_palLive (f : RstSt → RstSt) (c : Chip) : (c.onRst f).palLive = c.palLive := rfl
@[simp] theorem Chip.onRst_palShadow (f : RstSt → RstSt) (c : Chip) : (c.onRst f).palShadow = c.palShadow := rfl
@[simp] theorem Chip.onRst_palLog (f : RstSt → RstSt) (c : Chip) : (c.onRst f).palLog = c.palLog := rfl
@[simp] theorem Chip.onRst_motifB (f : RstSt → RstSt) (c : Chip) : (c.onRst f).motifB = c.motifB := rfl
@[simp] theorem Chip.onRst_motif (f : RstSt → RstSt) (c : Chip) : (c.onRst f).motif = c.motif := rfl
@[simp] theorem Chip.onRst_apq (f : RstSt → RstSt) (c : Chip) : (c.onRst f).apq = c.apq := rfl
@[simp] theorem Chip.onRst_eye (f : RstSt → RstSt) (c : Chip) : (c.onRst f).eye = c.eye := rfl
@[simp] theorem Chip.onRst_eyeCoef (f : RstSt → RstSt) (c : Chip) : (c.onRst f).eyeCoef = c.eyeCoef := rfl
@[simp] theorem Chip.onRst_pipeFailed (f : RstSt → RstSt) (c : Chip) : (c.onRst f).pipeFailed = c.pipeFailed := rfl
@[simp] theorem Chip.onRst_bmo (f : RstSt → RstSt) (c : Chip) : (c.onRst f).bmo = c.bmo := rfl
@[simp] theorem Chip.onRst_snd (f : RstSt → RstSt) (c : Chip) : (c.onRst f).snd = c.snd := rfl
@[simp] theorem Chip.onRst_tmr (f : RstSt → RstSt) (c : Chip) : (c.onRst f).tmr = c.tmr := rfl
@[simp] theorem Chip.onRst_chk (f : RstSt → RstSt) (c : Chip) : (c.onRst f).chk = c.chk := rfl
@[simp] theorem Chip.onRst_bob (f : RstSt → RstSt) (c : Chip) : (c.onRst f).bob = c.bob := rfl
@[simp] theorem Chip.onRst_ser (f : RstSt → RstSt) (c : Chip) : (c.onRst f).ser = c.ser := rfl
@[simp] theorem Chip.onRst_drn (f : RstSt → RstSt) (c : Chip) : (c.onRst f).drn = c.drn := rfl
@[simp] theorem Chip.onRst_ltn (f : RstSt → RstSt) (c : Chip) : (c.onRst f).ltn = c.ltn := rfl
@[simp] theorem Chip.onRst_emb (f : RstSt → RstSt) (c : Chip) : (c.onRst f).emb = c.emb := rfl
@[simp] theorem Chip.onRst_lcy (f : RstSt → RstSt) (c : Chip) : (c.onRst f).lcy = c.lcy := rfl
@[simp] theorem Chip.onRst_dbg (f : RstSt → RstSt) (c : Chip) : (c.onRst f).dbg = c.dbg := rfl
@[simp] theorem Chip.onRst_host (f : RstSt → RstSt) (c : Chip) : (c.onRst f).host = c.host := rfl
@[simp] theorem Chip.onRst_tirba (f : RstSt → RstSt) (c : Chip) : (c.onRst f).tirba = c.tirba := rfl

/-! onMotifs -/

@[simp] theorem Chip.onMotifs_regs (f : MotifSt → MotifSt) (c : Chip) : (c.onMotifs f).regs = c.regs := rfl
@[simp] theorem Chip.onMotifs_mem (f : MotifSt → MotifSt) (c : Chip) : (c.onMotifs f).mem = c.mem := rfl
@[simp] theorem Chip.onMotifs_ue (f : MotifSt → MotifSt) (c : Chip) : (c.onMotifs f).ue = c.ue := rfl
@[simp] theorem Chip.onMotifs_time (f : MotifSt → MotifSt) (c : Chip) : (c.onMotifs f).time = c.time := rfl
@[simp] theorem Chip.onMotifs_jrnQ (f : MotifSt → MotifSt) (c : Chip) : (c.onMotifs f).jrnQ = c.jrnQ := rfl
@[simp] theorem Chip.onMotifs_out (f : MotifSt → MotifSt) (c : Chip) : (c.onMotifs f).out = c.out := rfl
@[simp] theorem Chip.onMotifs_freeCount (f : MotifSt → MotifSt) (c : Chip) : (c.onMotifs f).freeCount = c.freeCount := rfl
@[simp] theorem Chip.onMotifs_reqs (f : MotifSt → MotifSt) (c : Chip) : (c.onMotifs f).reqs = c.reqs := rfl
@[simp] theorem Chip.onMotifs_prk (f : MotifSt → MotifSt) (c : Chip) : (c.onMotifs f).prk = c.prk := rfl
@[simp] theorem Chip.onMotifs_fs (f : MotifSt → MotifSt) (c : Chip) : (c.onMotifs f).fs = c.fs := rfl
@[simp] theorem Chip.onMotifs_vlm (f : MotifSt → MotifSt) (c : Chip) : (c.onMotifs f).vlm = c.vlm := rfl
@[simp] theorem Chip.onMotifs_cores (f : MotifSt → MotifSt) (c : Chip) : (c.onMotifs f).cores = c.cores := rfl
@[simp] theorem Chip.onMotifs_planes (f : MotifSt → MotifSt) (c : Chip) : (c.onMotifs f).planes = c.planes := rfl
@[simp] theorem Chip.onMotifs_palLive (f : MotifSt → MotifSt) (c : Chip) : (c.onMotifs f).palLive = c.palLive := rfl
@[simp] theorem Chip.onMotifs_palShadow (f : MotifSt → MotifSt) (c : Chip) : (c.onMotifs f).palShadow = c.palShadow := rfl
@[simp] theorem Chip.onMotifs_palLog (f : MotifSt → MotifSt) (c : Chip) : (c.onMotifs f).palLog = c.palLog := rfl
@[simp] theorem Chip.onMotifs_motifB (f : MotifSt → MotifSt) (c : Chip) : (c.onMotifs f).motifB = c.motifB := rfl
@[simp] theorem Chip.onMotifs_apq (f : MotifSt → MotifSt) (c : Chip) : (c.onMotifs f).apq = c.apq := rfl
@[simp] theorem Chip.onMotifs_eye (f : MotifSt → MotifSt) (c : Chip) : (c.onMotifs f).eye = c.eye := rfl
@[simp] theorem Chip.onMotifs_eyeCoef (f : MotifSt → MotifSt) (c : Chip) : (c.onMotifs f).eyeCoef = c.eyeCoef := rfl
@[simp] theorem Chip.onMotifs_pipeFailed (f : MotifSt → MotifSt) (c : Chip) : (c.onMotifs f).pipeFailed = c.pipeFailed := rfl
@[simp] theorem Chip.onMotifs_bmo (f : MotifSt → MotifSt) (c : Chip) : (c.onMotifs f).bmo = c.bmo := rfl
@[simp] theorem Chip.onMotifs_snd (f : MotifSt → MotifSt) (c : Chip) : (c.onMotifs f).snd = c.snd := rfl
@[simp] theorem Chip.onMotifs_tmr (f : MotifSt → MotifSt) (c : Chip) : (c.onMotifs f).tmr = c.tmr := rfl
@[simp] theorem Chip.onMotifs_chk (f : MotifSt → MotifSt) (c : Chip) : (c.onMotifs f).chk = c.chk := rfl
@[simp] theorem Chip.onMotifs_bob (f : MotifSt → MotifSt) (c : Chip) : (c.onMotifs f).bob = c.bob := rfl
@[simp] theorem Chip.onMotifs_ser (f : MotifSt → MotifSt) (c : Chip) : (c.onMotifs f).ser = c.ser := rfl
@[simp] theorem Chip.onMotifs_drn (f : MotifSt → MotifSt) (c : Chip) : (c.onMotifs f).drn = c.drn := rfl
@[simp] theorem Chip.onMotifs_ltn (f : MotifSt → MotifSt) (c : Chip) : (c.onMotifs f).ltn = c.ltn := rfl
@[simp] theorem Chip.onMotifs_emb (f : MotifSt → MotifSt) (c : Chip) : (c.onMotifs f).emb = c.emb := rfl
@[simp] theorem Chip.onMotifs_lcy (f : MotifSt → MotifSt) (c : Chip) : (c.onMotifs f).lcy = c.lcy := rfl
@[simp] theorem Chip.onMotifs_dbg (f : MotifSt → MotifSt) (c : Chip) : (c.onMotifs f).dbg = c.dbg := rfl
@[simp] theorem Chip.onMotifs_host (f : MotifSt → MotifSt) (c : Chip) : (c.onMotifs f).host = c.host := rfl
@[simp] theorem Chip.onMotifs_tirba (f : MotifSt → MotifSt) (c : Chip) : (c.onMotifs f).tirba = c.tirba := rfl
@[simp] theorem Chip.onMotifs_rst (f : MotifSt → MotifSt) (c : Chip) : (c.onMotifs f).rst = c.rst := rfl

/-! onMotif -/

@[simp] theorem Chip.onMotif_regs (b : Beam) (f : MotifBeam → MotifBeam) (c : Chip) : (c.onMotif b f).regs = c.regs := rfl
@[simp] theorem Chip.onMotif_mem (b : Beam) (f : MotifBeam → MotifBeam) (c : Chip) : (c.onMotif b f).mem = c.mem := rfl
@[simp] theorem Chip.onMotif_ue (b : Beam) (f : MotifBeam → MotifBeam) (c : Chip) : (c.onMotif b f).ue = c.ue := rfl
@[simp] theorem Chip.onMotif_time (b : Beam) (f : MotifBeam → MotifBeam) (c : Chip) : (c.onMotif b f).time = c.time := rfl
@[simp] theorem Chip.onMotif_jrnQ (b : Beam) (f : MotifBeam → MotifBeam) (c : Chip) : (c.onMotif b f).jrnQ = c.jrnQ := rfl
@[simp] theorem Chip.onMotif_out (b : Beam) (f : MotifBeam → MotifBeam) (c : Chip) : (c.onMotif b f).out = c.out := rfl
@[simp] theorem Chip.onMotif_freeCount (b : Beam) (f : MotifBeam → MotifBeam) (c : Chip) : (c.onMotif b f).freeCount = c.freeCount := rfl
@[simp] theorem Chip.onMotif_reqs (b : Beam) (f : MotifBeam → MotifBeam) (c : Chip) : (c.onMotif b f).reqs = c.reqs := rfl
@[simp] theorem Chip.onMotif_prk (b : Beam) (f : MotifBeam → MotifBeam) (c : Chip) : (c.onMotif b f).prk = c.prk := rfl
@[simp] theorem Chip.onMotif_fs (b : Beam) (f : MotifBeam → MotifBeam) (c : Chip) : (c.onMotif b f).fs = c.fs := rfl
@[simp] theorem Chip.onMotif_vlm (b : Beam) (f : MotifBeam → MotifBeam) (c : Chip) : (c.onMotif b f).vlm = c.vlm := rfl
@[simp] theorem Chip.onMotif_cores (b : Beam) (f : MotifBeam → MotifBeam) (c : Chip) : (c.onMotif b f).cores = c.cores := rfl
@[simp] theorem Chip.onMotif_planes (b : Beam) (f : MotifBeam → MotifBeam) (c : Chip) : (c.onMotif b f).planes = c.planes := rfl
@[simp] theorem Chip.onMotif_palLive (b : Beam) (f : MotifBeam → MotifBeam) (c : Chip) : (c.onMotif b f).palLive = c.palLive := rfl
@[simp] theorem Chip.onMotif_palShadow (b : Beam) (f : MotifBeam → MotifBeam) (c : Chip) : (c.onMotif b f).palShadow = c.palShadow := rfl
@[simp] theorem Chip.onMotif_palLog (b : Beam) (f : MotifBeam → MotifBeam) (c : Chip) : (c.onMotif b f).palLog = c.palLog := rfl
@[simp] theorem Chip.onMotif_motif (b : Beam) (f : MotifBeam → MotifBeam) (c : Chip) : (c.onMotif b f).motif = c.motif := rfl
@[simp] theorem Chip.onMotif_apq (b : Beam) (f : MotifBeam → MotifBeam) (c : Chip) : (c.onMotif b f).apq = c.apq := rfl
@[simp] theorem Chip.onMotif_eye (b : Beam) (f : MotifBeam → MotifBeam) (c : Chip) : (c.onMotif b f).eye = c.eye := rfl
@[simp] theorem Chip.onMotif_eyeCoef (b : Beam) (f : MotifBeam → MotifBeam) (c : Chip) : (c.onMotif b f).eyeCoef = c.eyeCoef := rfl
@[simp] theorem Chip.onMotif_pipeFailed (b : Beam) (f : MotifBeam → MotifBeam) (c : Chip) : (c.onMotif b f).pipeFailed = c.pipeFailed := rfl
@[simp] theorem Chip.onMotif_bmo (b : Beam) (f : MotifBeam → MotifBeam) (c : Chip) : (c.onMotif b f).bmo = c.bmo := rfl
@[simp] theorem Chip.onMotif_snd (b : Beam) (f : MotifBeam → MotifBeam) (c : Chip) : (c.onMotif b f).snd = c.snd := rfl
@[simp] theorem Chip.onMotif_tmr (b : Beam) (f : MotifBeam → MotifBeam) (c : Chip) : (c.onMotif b f).tmr = c.tmr := rfl
@[simp] theorem Chip.onMotif_chk (b : Beam) (f : MotifBeam → MotifBeam) (c : Chip) : (c.onMotif b f).chk = c.chk := rfl
@[simp] theorem Chip.onMotif_bob (b : Beam) (f : MotifBeam → MotifBeam) (c : Chip) : (c.onMotif b f).bob = c.bob := rfl
@[simp] theorem Chip.onMotif_ser (b : Beam) (f : MotifBeam → MotifBeam) (c : Chip) : (c.onMotif b f).ser = c.ser := rfl
@[simp] theorem Chip.onMotif_drn (b : Beam) (f : MotifBeam → MotifBeam) (c : Chip) : (c.onMotif b f).drn = c.drn := rfl
@[simp] theorem Chip.onMotif_ltn (b : Beam) (f : MotifBeam → MotifBeam) (c : Chip) : (c.onMotif b f).ltn = c.ltn := rfl
@[simp] theorem Chip.onMotif_emb (b : Beam) (f : MotifBeam → MotifBeam) (c : Chip) : (c.onMotif b f).emb = c.emb := rfl
@[simp] theorem Chip.onMotif_lcy (b : Beam) (f : MotifBeam → MotifBeam) (c : Chip) : (c.onMotif b f).lcy = c.lcy := rfl
@[simp] theorem Chip.onMotif_dbg (b : Beam) (f : MotifBeam → MotifBeam) (c : Chip) : (c.onMotif b f).dbg = c.dbg := rfl
@[simp] theorem Chip.onMotif_host (b : Beam) (f : MotifBeam → MotifBeam) (c : Chip) : (c.onMotif b f).host = c.host := rfl
@[simp] theorem Chip.onMotif_tirba (b : Beam) (f : MotifBeam → MotifBeam) (c : Chip) : (c.onMotif b f).tirba = c.tirba := rfl
@[simp] theorem Chip.onMotif_rst (b : Beam) (f : MotifBeam → MotifBeam) (c : Chip) : (c.onMotif b f).rst = c.rst := rfl

/-! onEmb -/

@[simp] theorem Chip.onEmb_regs (f : EmbSt → EmbSt) (c : Chip) : (c.onEmb f).regs = c.regs := rfl
@[simp] theorem Chip.onEmb_mem (f : EmbSt → EmbSt) (c : Chip) : (c.onEmb f).mem = c.mem := rfl
@[simp] theorem Chip.onEmb_ue (f : EmbSt → EmbSt) (c : Chip) : (c.onEmb f).ue = c.ue := rfl
@[simp] theorem Chip.onEmb_time (f : EmbSt → EmbSt) (c : Chip) : (c.onEmb f).time = c.time := rfl
@[simp] theorem Chip.onEmb_jrnQ (f : EmbSt → EmbSt) (c : Chip) : (c.onEmb f).jrnQ = c.jrnQ := rfl
@[simp] theorem Chip.onEmb_out (f : EmbSt → EmbSt) (c : Chip) : (c.onEmb f).out = c.out := rfl
@[simp] theorem Chip.onEmb_freeCount (f : EmbSt → EmbSt) (c : Chip) : (c.onEmb f).freeCount = c.freeCount := rfl
@[simp] theorem Chip.onEmb_reqs (f : EmbSt → EmbSt) (c : Chip) : (c.onEmb f).reqs = c.reqs := rfl
@[simp] theorem Chip.onEmb_prk (f : EmbSt → EmbSt) (c : Chip) : (c.onEmb f).prk = c.prk := rfl
@[simp] theorem Chip.onEmb_fs (f : EmbSt → EmbSt) (c : Chip) : (c.onEmb f).fs = c.fs := rfl
@[simp] theorem Chip.onEmb_vlm (f : EmbSt → EmbSt) (c : Chip) : (c.onEmb f).vlm = c.vlm := rfl
@[simp] theorem Chip.onEmb_cores (f : EmbSt → EmbSt) (c : Chip) : (c.onEmb f).cores = c.cores := rfl
@[simp] theorem Chip.onEmb_planes (f : EmbSt → EmbSt) (c : Chip) : (c.onEmb f).planes = c.planes := rfl
@[simp] theorem Chip.onEmb_palLive (f : EmbSt → EmbSt) (c : Chip) : (c.onEmb f).palLive = c.palLive := rfl
@[simp] theorem Chip.onEmb_palShadow (f : EmbSt → EmbSt) (c : Chip) : (c.onEmb f).palShadow = c.palShadow := rfl
@[simp] theorem Chip.onEmb_palLog (f : EmbSt → EmbSt) (c : Chip) : (c.onEmb f).palLog = c.palLog := rfl
@[simp] theorem Chip.onEmb_motifB (f : EmbSt → EmbSt) (c : Chip) : (c.onEmb f).motifB = c.motifB := rfl
@[simp] theorem Chip.onEmb_motif (f : EmbSt → EmbSt) (c : Chip) : (c.onEmb f).motif = c.motif := rfl
@[simp] theorem Chip.onEmb_apq (f : EmbSt → EmbSt) (c : Chip) : (c.onEmb f).apq = c.apq := rfl
@[simp] theorem Chip.onEmb_eye (f : EmbSt → EmbSt) (c : Chip) : (c.onEmb f).eye = c.eye := rfl
@[simp] theorem Chip.onEmb_eyeCoef (f : EmbSt → EmbSt) (c : Chip) : (c.onEmb f).eyeCoef = c.eyeCoef := rfl
@[simp] theorem Chip.onEmb_pipeFailed (f : EmbSt → EmbSt) (c : Chip) : (c.onEmb f).pipeFailed = c.pipeFailed := rfl
@[simp] theorem Chip.onEmb_bmo (f : EmbSt → EmbSt) (c : Chip) : (c.onEmb f).bmo = c.bmo := rfl
@[simp] theorem Chip.onEmb_snd (f : EmbSt → EmbSt) (c : Chip) : (c.onEmb f).snd = c.snd := rfl
@[simp] theorem Chip.onEmb_tmr (f : EmbSt → EmbSt) (c : Chip) : (c.onEmb f).tmr = c.tmr := rfl
@[simp] theorem Chip.onEmb_chk (f : EmbSt → EmbSt) (c : Chip) : (c.onEmb f).chk = c.chk := rfl
@[simp] theorem Chip.onEmb_bob (f : EmbSt → EmbSt) (c : Chip) : (c.onEmb f).bob = c.bob := rfl
@[simp] theorem Chip.onEmb_ser (f : EmbSt → EmbSt) (c : Chip) : (c.onEmb f).ser = c.ser := rfl
@[simp] theorem Chip.onEmb_drn (f : EmbSt → EmbSt) (c : Chip) : (c.onEmb f).drn = c.drn := rfl
@[simp] theorem Chip.onEmb_ltn (f : EmbSt → EmbSt) (c : Chip) : (c.onEmb f).ltn = c.ltn := rfl
@[simp] theorem Chip.onEmb_lcy (f : EmbSt → EmbSt) (c : Chip) : (c.onEmb f).lcy = c.lcy := rfl
@[simp] theorem Chip.onEmb_dbg (f : EmbSt → EmbSt) (c : Chip) : (c.onEmb f).dbg = c.dbg := rfl
@[simp] theorem Chip.onEmb_host (f : EmbSt → EmbSt) (c : Chip) : (c.onEmb f).host = c.host := rfl
@[simp] theorem Chip.onEmb_tirba (f : EmbSt → EmbSt) (c : Chip) : (c.onEmb f).tirba = c.tirba := rfl
@[simp] theorem Chip.onEmb_rst (f : EmbSt → EmbSt) (c : Chip) : (c.onEmb f).rst = c.rst := rfl

/-! onEye -/

@[simp] theorem Chip.onEye_regs (n : Port) (f : EyePort → EyePort) (c : Chip) : (c.onEye n f).regs = c.regs := rfl
@[simp] theorem Chip.onEye_mem (n : Port) (f : EyePort → EyePort) (c : Chip) : (c.onEye n f).mem = c.mem := rfl
@[simp] theorem Chip.onEye_ue (n : Port) (f : EyePort → EyePort) (c : Chip) : (c.onEye n f).ue = c.ue := rfl
@[simp] theorem Chip.onEye_time (n : Port) (f : EyePort → EyePort) (c : Chip) : (c.onEye n f).time = c.time := rfl
@[simp] theorem Chip.onEye_jrnQ (n : Port) (f : EyePort → EyePort) (c : Chip) : (c.onEye n f).jrnQ = c.jrnQ := rfl
@[simp] theorem Chip.onEye_out (n : Port) (f : EyePort → EyePort) (c : Chip) : (c.onEye n f).out = c.out := rfl
@[simp] theorem Chip.onEye_freeCount (n : Port) (f : EyePort → EyePort) (c : Chip) : (c.onEye n f).freeCount = c.freeCount := rfl
@[simp] theorem Chip.onEye_reqs (n : Port) (f : EyePort → EyePort) (c : Chip) : (c.onEye n f).reqs = c.reqs := rfl
@[simp] theorem Chip.onEye_prk (n : Port) (f : EyePort → EyePort) (c : Chip) : (c.onEye n f).prk = c.prk := rfl
@[simp] theorem Chip.onEye_fs (n : Port) (f : EyePort → EyePort) (c : Chip) : (c.onEye n f).fs = c.fs := rfl
@[simp] theorem Chip.onEye_vlm (n : Port) (f : EyePort → EyePort) (c : Chip) : (c.onEye n f).vlm = c.vlm := rfl
@[simp] theorem Chip.onEye_cores (n : Port) (f : EyePort → EyePort) (c : Chip) : (c.onEye n f).cores = c.cores := rfl
@[simp] theorem Chip.onEye_planes (n : Port) (f : EyePort → EyePort) (c : Chip) : (c.onEye n f).planes = c.planes := rfl
@[simp] theorem Chip.onEye_palLive (n : Port) (f : EyePort → EyePort) (c : Chip) : (c.onEye n f).palLive = c.palLive := rfl
@[simp] theorem Chip.onEye_palShadow (n : Port) (f : EyePort → EyePort) (c : Chip) : (c.onEye n f).palShadow = c.palShadow := rfl
@[simp] theorem Chip.onEye_palLog (n : Port) (f : EyePort → EyePort) (c : Chip) : (c.onEye n f).palLog = c.palLog := rfl
@[simp] theorem Chip.onEye_motifB (n : Port) (f : EyePort → EyePort) (c : Chip) : (c.onEye n f).motifB = c.motifB := rfl
@[simp] theorem Chip.onEye_motif (n : Port) (f : EyePort → EyePort) (c : Chip) : (c.onEye n f).motif = c.motif := rfl
@[simp] theorem Chip.onEye_apq (n : Port) (f : EyePort → EyePort) (c : Chip) : (c.onEye n f).apq = c.apq := rfl
@[simp] theorem Chip.onEye_eyeCoef (n : Port) (f : EyePort → EyePort) (c : Chip) : (c.onEye n f).eyeCoef = c.eyeCoef := rfl
@[simp] theorem Chip.onEye_pipeFailed (n : Port) (f : EyePort → EyePort) (c : Chip) : (c.onEye n f).pipeFailed = c.pipeFailed := rfl
@[simp] theorem Chip.onEye_bmo (n : Port) (f : EyePort → EyePort) (c : Chip) : (c.onEye n f).bmo = c.bmo := rfl
@[simp] theorem Chip.onEye_snd (n : Port) (f : EyePort → EyePort) (c : Chip) : (c.onEye n f).snd = c.snd := rfl
@[simp] theorem Chip.onEye_tmr (n : Port) (f : EyePort → EyePort) (c : Chip) : (c.onEye n f).tmr = c.tmr := rfl
@[simp] theorem Chip.onEye_chk (n : Port) (f : EyePort → EyePort) (c : Chip) : (c.onEye n f).chk = c.chk := rfl
@[simp] theorem Chip.onEye_bob (n : Port) (f : EyePort → EyePort) (c : Chip) : (c.onEye n f).bob = c.bob := rfl
@[simp] theorem Chip.onEye_ser (n : Port) (f : EyePort → EyePort) (c : Chip) : (c.onEye n f).ser = c.ser := rfl
@[simp] theorem Chip.onEye_drn (n : Port) (f : EyePort → EyePort) (c : Chip) : (c.onEye n f).drn = c.drn := rfl
@[simp] theorem Chip.onEye_ltn (n : Port) (f : EyePort → EyePort) (c : Chip) : (c.onEye n f).ltn = c.ltn := rfl
@[simp] theorem Chip.onEye_emb (n : Port) (f : EyePort → EyePort) (c : Chip) : (c.onEye n f).emb = c.emb := rfl
@[simp] theorem Chip.onEye_lcy (n : Port) (f : EyePort → EyePort) (c : Chip) : (c.onEye n f).lcy = c.lcy := rfl
@[simp] theorem Chip.onEye_dbg (n : Port) (f : EyePort → EyePort) (c : Chip) : (c.onEye n f).dbg = c.dbg := rfl
@[simp] theorem Chip.onEye_host (n : Port) (f : EyePort → EyePort) (c : Chip) : (c.onEye n f).host = c.host := rfl
@[simp] theorem Chip.onEye_tirba (n : Port) (f : EyePort → EyePort) (c : Chip) : (c.onEye n f).tirba = c.tirba := rfl
@[simp] theorem Chip.onEye_rst (n : Port) (f : EyePort → EyePort) (c : Chip) : (c.onEye n f).rst = c.rst := rfl

/-! onHost -/

@[simp] theorem Chip.onHost_regs (f : HostSt → HostSt) (c : Chip) : (c.onHost f).regs = c.regs := rfl
@[simp] theorem Chip.onHost_mem (f : HostSt → HostSt) (c : Chip) : (c.onHost f).mem = c.mem := rfl
@[simp] theorem Chip.onHost_ue (f : HostSt → HostSt) (c : Chip) : (c.onHost f).ue = c.ue := rfl
@[simp] theorem Chip.onHost_time (f : HostSt → HostSt) (c : Chip) : (c.onHost f).time = c.time := rfl
@[simp] theorem Chip.onHost_jrnQ (f : HostSt → HostSt) (c : Chip) : (c.onHost f).jrnQ = c.jrnQ := rfl
@[simp] theorem Chip.onHost_out (f : HostSt → HostSt) (c : Chip) : (c.onHost f).out = c.out := rfl
@[simp] theorem Chip.onHost_freeCount (f : HostSt → HostSt) (c : Chip) : (c.onHost f).freeCount = c.freeCount := rfl
@[simp] theorem Chip.onHost_reqs (f : HostSt → HostSt) (c : Chip) : (c.onHost f).reqs = c.reqs := rfl
@[simp] theorem Chip.onHost_prk (f : HostSt → HostSt) (c : Chip) : (c.onHost f).prk = c.prk := rfl
@[simp] theorem Chip.onHost_fs (f : HostSt → HostSt) (c : Chip) : (c.onHost f).fs = c.fs := rfl
@[simp] theorem Chip.onHost_vlm (f : HostSt → HostSt) (c : Chip) : (c.onHost f).vlm = c.vlm := rfl
@[simp] theorem Chip.onHost_cores (f : HostSt → HostSt) (c : Chip) : (c.onHost f).cores = c.cores := rfl
@[simp] theorem Chip.onHost_planes (f : HostSt → HostSt) (c : Chip) : (c.onHost f).planes = c.planes := rfl
@[simp] theorem Chip.onHost_palLive (f : HostSt → HostSt) (c : Chip) : (c.onHost f).palLive = c.palLive := rfl
@[simp] theorem Chip.onHost_palShadow (f : HostSt → HostSt) (c : Chip) : (c.onHost f).palShadow = c.palShadow := rfl
@[simp] theorem Chip.onHost_palLog (f : HostSt → HostSt) (c : Chip) : (c.onHost f).palLog = c.palLog := rfl
@[simp] theorem Chip.onHost_motifB (f : HostSt → HostSt) (c : Chip) : (c.onHost f).motifB = c.motifB := rfl
@[simp] theorem Chip.onHost_motif (f : HostSt → HostSt) (c : Chip) : (c.onHost f).motif = c.motif := rfl
@[simp] theorem Chip.onHost_apq (f : HostSt → HostSt) (c : Chip) : (c.onHost f).apq = c.apq := rfl
@[simp] theorem Chip.onHost_eye (f : HostSt → HostSt) (c : Chip) : (c.onHost f).eye = c.eye := rfl
@[simp] theorem Chip.onHost_eyeCoef (f : HostSt → HostSt) (c : Chip) : (c.onHost f).eyeCoef = c.eyeCoef := rfl
@[simp] theorem Chip.onHost_pipeFailed (f : HostSt → HostSt) (c : Chip) : (c.onHost f).pipeFailed = c.pipeFailed := rfl
@[simp] theorem Chip.onHost_bmo (f : HostSt → HostSt) (c : Chip) : (c.onHost f).bmo = c.bmo := rfl
@[simp] theorem Chip.onHost_snd (f : HostSt → HostSt) (c : Chip) : (c.onHost f).snd = c.snd := rfl
@[simp] theorem Chip.onHost_tmr (f : HostSt → HostSt) (c : Chip) : (c.onHost f).tmr = c.tmr := rfl
@[simp] theorem Chip.onHost_chk (f : HostSt → HostSt) (c : Chip) : (c.onHost f).chk = c.chk := rfl
@[simp] theorem Chip.onHost_bob (f : HostSt → HostSt) (c : Chip) : (c.onHost f).bob = c.bob := rfl
@[simp] theorem Chip.onHost_ser (f : HostSt → HostSt) (c : Chip) : (c.onHost f).ser = c.ser := rfl
@[simp] theorem Chip.onHost_drn (f : HostSt → HostSt) (c : Chip) : (c.onHost f).drn = c.drn := rfl
@[simp] theorem Chip.onHost_ltn (f : HostSt → HostSt) (c : Chip) : (c.onHost f).ltn = c.ltn := rfl
@[simp] theorem Chip.onHost_emb (f : HostSt → HostSt) (c : Chip) : (c.onHost f).emb = c.emb := rfl
@[simp] theorem Chip.onHost_lcy (f : HostSt → HostSt) (c : Chip) : (c.onHost f).lcy = c.lcy := rfl
@[simp] theorem Chip.onHost_dbg (f : HostSt → HostSt) (c : Chip) : (c.onHost f).dbg = c.dbg := rfl
@[simp] theorem Chip.onHost_tirba (f : HostSt → HostSt) (c : Chip) : (c.onHost f).tirba = c.tirba := rfl
@[simp] theorem Chip.onHost_rst (f : HostSt → HostSt) (c : Chip) : (c.onHost f).rst = c.rst := rfl

/-! onTirba -/

@[simp] theorem Chip.onTirba_regs (f : TirbaSt → TirbaSt) (c : Chip) : (c.onTirba f).regs = c.regs := rfl
@[simp] theorem Chip.onTirba_mem (f : TirbaSt → TirbaSt) (c : Chip) : (c.onTirba f).mem = c.mem := rfl
@[simp] theorem Chip.onTirba_ue (f : TirbaSt → TirbaSt) (c : Chip) : (c.onTirba f).ue = c.ue := rfl
@[simp] theorem Chip.onTirba_time (f : TirbaSt → TirbaSt) (c : Chip) : (c.onTirba f).time = c.time := rfl
@[simp] theorem Chip.onTirba_jrnQ (f : TirbaSt → TirbaSt) (c : Chip) : (c.onTirba f).jrnQ = c.jrnQ := rfl
@[simp] theorem Chip.onTirba_out (f : TirbaSt → TirbaSt) (c : Chip) : (c.onTirba f).out = c.out := rfl
@[simp] theorem Chip.onTirba_freeCount (f : TirbaSt → TirbaSt) (c : Chip) : (c.onTirba f).freeCount = c.freeCount := rfl
@[simp] theorem Chip.onTirba_reqs (f : TirbaSt → TirbaSt) (c : Chip) : (c.onTirba f).reqs = c.reqs := rfl
@[simp] theorem Chip.onTirba_prk (f : TirbaSt → TirbaSt) (c : Chip) : (c.onTirba f).prk = c.prk := rfl
@[simp] theorem Chip.onTirba_fs (f : TirbaSt → TirbaSt) (c : Chip) : (c.onTirba f).fs = c.fs := rfl
@[simp] theorem Chip.onTirba_vlm (f : TirbaSt → TirbaSt) (c : Chip) : (c.onTirba f).vlm = c.vlm := rfl
@[simp] theorem Chip.onTirba_cores (f : TirbaSt → TirbaSt) (c : Chip) : (c.onTirba f).cores = c.cores := rfl
@[simp] theorem Chip.onTirba_planes (f : TirbaSt → TirbaSt) (c : Chip) : (c.onTirba f).planes = c.planes := rfl
@[simp] theorem Chip.onTirba_palLive (f : TirbaSt → TirbaSt) (c : Chip) : (c.onTirba f).palLive = c.palLive := rfl
@[simp] theorem Chip.onTirba_palShadow (f : TirbaSt → TirbaSt) (c : Chip) : (c.onTirba f).palShadow = c.palShadow := rfl
@[simp] theorem Chip.onTirba_palLog (f : TirbaSt → TirbaSt) (c : Chip) : (c.onTirba f).palLog = c.palLog := rfl
@[simp] theorem Chip.onTirba_motifB (f : TirbaSt → TirbaSt) (c : Chip) : (c.onTirba f).motifB = c.motifB := rfl
@[simp] theorem Chip.onTirba_motif (f : TirbaSt → TirbaSt) (c : Chip) : (c.onTirba f).motif = c.motif := rfl
@[simp] theorem Chip.onTirba_apq (f : TirbaSt → TirbaSt) (c : Chip) : (c.onTirba f).apq = c.apq := rfl
@[simp] theorem Chip.onTirba_eye (f : TirbaSt → TirbaSt) (c : Chip) : (c.onTirba f).eye = c.eye := rfl
@[simp] theorem Chip.onTirba_eyeCoef (f : TirbaSt → TirbaSt) (c : Chip) : (c.onTirba f).eyeCoef = c.eyeCoef := rfl
@[simp] theorem Chip.onTirba_pipeFailed (f : TirbaSt → TirbaSt) (c : Chip) : (c.onTirba f).pipeFailed = c.pipeFailed := rfl
@[simp] theorem Chip.onTirba_bmo (f : TirbaSt → TirbaSt) (c : Chip) : (c.onTirba f).bmo = c.bmo := rfl
@[simp] theorem Chip.onTirba_snd (f : TirbaSt → TirbaSt) (c : Chip) : (c.onTirba f).snd = c.snd := rfl
@[simp] theorem Chip.onTirba_tmr (f : TirbaSt → TirbaSt) (c : Chip) : (c.onTirba f).tmr = c.tmr := rfl
@[simp] theorem Chip.onTirba_chk (f : TirbaSt → TirbaSt) (c : Chip) : (c.onTirba f).chk = c.chk := rfl
@[simp] theorem Chip.onTirba_bob (f : TirbaSt → TirbaSt) (c : Chip) : (c.onTirba f).bob = c.bob := rfl
@[simp] theorem Chip.onTirba_ser (f : TirbaSt → TirbaSt) (c : Chip) : (c.onTirba f).ser = c.ser := rfl
@[simp] theorem Chip.onTirba_drn (f : TirbaSt → TirbaSt) (c : Chip) : (c.onTirba f).drn = c.drn := rfl
@[simp] theorem Chip.onTirba_ltn (f : TirbaSt → TirbaSt) (c : Chip) : (c.onTirba f).ltn = c.ltn := rfl
@[simp] theorem Chip.onTirba_emb (f : TirbaSt → TirbaSt) (c : Chip) : (c.onTirba f).emb = c.emb := rfl
@[simp] theorem Chip.onTirba_lcy (f : TirbaSt → TirbaSt) (c : Chip) : (c.onTirba f).lcy = c.lcy := rfl
@[simp] theorem Chip.onTirba_dbg (f : TirbaSt → TirbaSt) (c : Chip) : (c.onTirba f).dbg = c.dbg := rfl
@[simp] theorem Chip.onTirba_host (f : TirbaSt → TirbaSt) (c : Chip) : (c.onTirba f).host = c.host := rfl
@[simp] theorem Chip.onTirba_rst (f : TirbaSt → TirbaSt) (c : Chip) : (c.onTirba f).rst = c.rst := rfl

/-! onRing -/

@[simp] theorem Chip.onRing_regs (n : Ring) (f : RingSt → RingSt) (c : Chip) : (c.onRing n f).regs = c.regs := rfl
@[simp] theorem Chip.onRing_mem (n : Ring) (f : RingSt → RingSt) (c : Chip) : (c.onRing n f).mem = c.mem := rfl
@[simp] theorem Chip.onRing_ue (n : Ring) (f : RingSt → RingSt) (c : Chip) : (c.onRing n f).ue = c.ue := rfl
@[simp] theorem Chip.onRing_time (n : Ring) (f : RingSt → RingSt) (c : Chip) : (c.onRing n f).time = c.time := rfl
@[simp] theorem Chip.onRing_jrnQ (n : Ring) (f : RingSt → RingSt) (c : Chip) : (c.onRing n f).jrnQ = c.jrnQ := rfl
@[simp] theorem Chip.onRing_out (n : Ring) (f : RingSt → RingSt) (c : Chip) : (c.onRing n f).out = c.out := rfl
@[simp] theorem Chip.onRing_freeCount (n : Ring) (f : RingSt → RingSt) (c : Chip) : (c.onRing n f).freeCount = c.freeCount := rfl
@[simp] theorem Chip.onRing_reqs (n : Ring) (f : RingSt → RingSt) (c : Chip) : (c.onRing n f).reqs = c.reqs := rfl
@[simp] theorem Chip.onRing_prk (n : Ring) (f : RingSt → RingSt) (c : Chip) : (c.onRing n f).prk = c.prk := rfl
@[simp] theorem Chip.onRing_fs (n : Ring) (f : RingSt → RingSt) (c : Chip) : (c.onRing n f).fs = c.fs := rfl
@[simp] theorem Chip.onRing_vlm (n : Ring) (f : RingSt → RingSt) (c : Chip) : (c.onRing n f).vlm = c.vlm := rfl
@[simp] theorem Chip.onRing_cores (n : Ring) (f : RingSt → RingSt) (c : Chip) : (c.onRing n f).cores = c.cores := rfl
@[simp] theorem Chip.onRing_planes (n : Ring) (f : RingSt → RingSt) (c : Chip) : (c.onRing n f).planes = c.planes := rfl
@[simp] theorem Chip.onRing_palLive (n : Ring) (f : RingSt → RingSt) (c : Chip) : (c.onRing n f).palLive = c.palLive := rfl
@[simp] theorem Chip.onRing_palShadow (n : Ring) (f : RingSt → RingSt) (c : Chip) : (c.onRing n f).palShadow = c.palShadow := rfl
@[simp] theorem Chip.onRing_palLog (n : Ring) (f : RingSt → RingSt) (c : Chip) : (c.onRing n f).palLog = c.palLog := rfl
@[simp] theorem Chip.onRing_motifB (n : Ring) (f : RingSt → RingSt) (c : Chip) : (c.onRing n f).motifB = c.motifB := rfl
@[simp] theorem Chip.onRing_motif (n : Ring) (f : RingSt → RingSt) (c : Chip) : (c.onRing n f).motif = c.motif := rfl
@[simp] theorem Chip.onRing_apq (n : Ring) (f : RingSt → RingSt) (c : Chip) : (c.onRing n f).apq = c.apq := rfl
@[simp] theorem Chip.onRing_eye (n : Ring) (f : RingSt → RingSt) (c : Chip) : (c.onRing n f).eye = c.eye := rfl
@[simp] theorem Chip.onRing_eyeCoef (n : Ring) (f : RingSt → RingSt) (c : Chip) : (c.onRing n f).eyeCoef = c.eyeCoef := rfl
@[simp] theorem Chip.onRing_pipeFailed (n : Ring) (f : RingSt → RingSt) (c : Chip) : (c.onRing n f).pipeFailed = c.pipeFailed := rfl
@[simp] theorem Chip.onRing_bmo (n : Ring) (f : RingSt → RingSt) (c : Chip) : (c.onRing n f).bmo = c.bmo := rfl
@[simp] theorem Chip.onRing_snd (n : Ring) (f : RingSt → RingSt) (c : Chip) : (c.onRing n f).snd = c.snd := rfl
@[simp] theorem Chip.onRing_tmr (n : Ring) (f : RingSt → RingSt) (c : Chip) : (c.onRing n f).tmr = c.tmr := rfl
@[simp] theorem Chip.onRing_chk (n : Ring) (f : RingSt → RingSt) (c : Chip) : (c.onRing n f).chk = c.chk := rfl
@[simp] theorem Chip.onRing_bob (n : Ring) (f : RingSt → RingSt) (c : Chip) : (c.onRing n f).bob = c.bob := rfl
@[simp] theorem Chip.onRing_ser (n : Ring) (f : RingSt → RingSt) (c : Chip) : (c.onRing n f).ser = c.ser := rfl
@[simp] theorem Chip.onRing_drn (n : Ring) (f : RingSt → RingSt) (c : Chip) : (c.onRing n f).drn = c.drn := rfl
@[simp] theorem Chip.onRing_ltn (n : Ring) (f : RingSt → RingSt) (c : Chip) : (c.onRing n f).ltn = c.ltn := rfl
@[simp] theorem Chip.onRing_emb (n : Ring) (f : RingSt → RingSt) (c : Chip) : (c.onRing n f).emb = c.emb := rfl
@[simp] theorem Chip.onRing_lcy (n : Ring) (f : RingSt → RingSt) (c : Chip) : (c.onRing n f).lcy = c.lcy := rfl
@[simp] theorem Chip.onRing_dbg (n : Ring) (f : RingSt → RingSt) (c : Chip) : (c.onRing n f).dbg = c.dbg := rfl
@[simp] theorem Chip.onRing_host (n : Ring) (f : RingSt → RingSt) (c : Chip) : (c.onRing n f).host = c.host := rfl
@[simp] theorem Chip.onRing_rst (n : Ring) (f : RingSt → RingSt) (c : Chip) : (c.onRing n f).rst = c.rst := rfl

/-! onLtn -/

@[simp] theorem Chip.onLtn_regs (f : LtnSt → LtnSt) (c : Chip) : (c.onLtn f).regs = c.regs := rfl
@[simp] theorem Chip.onLtn_mem (f : LtnSt → LtnSt) (c : Chip) : (c.onLtn f).mem = c.mem := rfl
@[simp] theorem Chip.onLtn_ue (f : LtnSt → LtnSt) (c : Chip) : (c.onLtn f).ue = c.ue := rfl
@[simp] theorem Chip.onLtn_time (f : LtnSt → LtnSt) (c : Chip) : (c.onLtn f).time = c.time := rfl
@[simp] theorem Chip.onLtn_jrnQ (f : LtnSt → LtnSt) (c : Chip) : (c.onLtn f).jrnQ = c.jrnQ := rfl
@[simp] theorem Chip.onLtn_out (f : LtnSt → LtnSt) (c : Chip) : (c.onLtn f).out = c.out := rfl
@[simp] theorem Chip.onLtn_freeCount (f : LtnSt → LtnSt) (c : Chip) : (c.onLtn f).freeCount = c.freeCount := rfl
@[simp] theorem Chip.onLtn_reqs (f : LtnSt → LtnSt) (c : Chip) : (c.onLtn f).reqs = c.reqs := rfl
@[simp] theorem Chip.onLtn_prk (f : LtnSt → LtnSt) (c : Chip) : (c.onLtn f).prk = c.prk := rfl
@[simp] theorem Chip.onLtn_fs (f : LtnSt → LtnSt) (c : Chip) : (c.onLtn f).fs = c.fs := rfl
@[simp] theorem Chip.onLtn_vlm (f : LtnSt → LtnSt) (c : Chip) : (c.onLtn f).vlm = c.vlm := rfl
@[simp] theorem Chip.onLtn_cores (f : LtnSt → LtnSt) (c : Chip) : (c.onLtn f).cores = c.cores := rfl
@[simp] theorem Chip.onLtn_planes (f : LtnSt → LtnSt) (c : Chip) : (c.onLtn f).planes = c.planes := rfl
@[simp] theorem Chip.onLtn_palLive (f : LtnSt → LtnSt) (c : Chip) : (c.onLtn f).palLive = c.palLive := rfl
@[simp] theorem Chip.onLtn_palShadow (f : LtnSt → LtnSt) (c : Chip) : (c.onLtn f).palShadow = c.palShadow := rfl
@[simp] theorem Chip.onLtn_palLog (f : LtnSt → LtnSt) (c : Chip) : (c.onLtn f).palLog = c.palLog := rfl
@[simp] theorem Chip.onLtn_motifB (f : LtnSt → LtnSt) (c : Chip) : (c.onLtn f).motifB = c.motifB := rfl
@[simp] theorem Chip.onLtn_motif (f : LtnSt → LtnSt) (c : Chip) : (c.onLtn f).motif = c.motif := rfl
@[simp] theorem Chip.onLtn_apq (f : LtnSt → LtnSt) (c : Chip) : (c.onLtn f).apq = c.apq := rfl
@[simp] theorem Chip.onLtn_eye (f : LtnSt → LtnSt) (c : Chip) : (c.onLtn f).eye = c.eye := rfl
@[simp] theorem Chip.onLtn_eyeCoef (f : LtnSt → LtnSt) (c : Chip) : (c.onLtn f).eyeCoef = c.eyeCoef := rfl
@[simp] theorem Chip.onLtn_pipeFailed (f : LtnSt → LtnSt) (c : Chip) : (c.onLtn f).pipeFailed = c.pipeFailed := rfl
@[simp] theorem Chip.onLtn_bmo (f : LtnSt → LtnSt) (c : Chip) : (c.onLtn f).bmo = c.bmo := rfl
@[simp] theorem Chip.onLtn_snd (f : LtnSt → LtnSt) (c : Chip) : (c.onLtn f).snd = c.snd := rfl
@[simp] theorem Chip.onLtn_tmr (f : LtnSt → LtnSt) (c : Chip) : (c.onLtn f).tmr = c.tmr := rfl
@[simp] theorem Chip.onLtn_chk (f : LtnSt → LtnSt) (c : Chip) : (c.onLtn f).chk = c.chk := rfl
@[simp] theorem Chip.onLtn_bob (f : LtnSt → LtnSt) (c : Chip) : (c.onLtn f).bob = c.bob := rfl
@[simp] theorem Chip.onLtn_ser (f : LtnSt → LtnSt) (c : Chip) : (c.onLtn f).ser = c.ser := rfl
@[simp] theorem Chip.onLtn_drn (f : LtnSt → LtnSt) (c : Chip) : (c.onLtn f).drn = c.drn := rfl
@[simp] theorem Chip.onLtn_emb (f : LtnSt → LtnSt) (c : Chip) : (c.onLtn f).emb = c.emb := rfl
@[simp] theorem Chip.onLtn_lcy (f : LtnSt → LtnSt) (c : Chip) : (c.onLtn f).lcy = c.lcy := rfl
@[simp] theorem Chip.onLtn_dbg (f : LtnSt → LtnSt) (c : Chip) : (c.onLtn f).dbg = c.dbg := rfl
@[simp] theorem Chip.onLtn_host (f : LtnSt → LtnSt) (c : Chip) : (c.onLtn f).host = c.host := rfl
@[simp] theorem Chip.onLtn_tirba (f : LtnSt → LtnSt) (c : Chip) : (c.onLtn f).tirba = c.tirba := rfl
@[simp] theorem Chip.onLtn_rst (f : LtnSt → LtnSt) (c : Chip) : (c.onLtn f).rst = c.rst := rfl

/-! onLcy -/

@[simp] theorem Chip.onLcy_regs (f : LcySt → LcySt) (c : Chip) : (c.onLcy f).regs = c.regs := rfl
@[simp] theorem Chip.onLcy_mem (f : LcySt → LcySt) (c : Chip) : (c.onLcy f).mem = c.mem := rfl
@[simp] theorem Chip.onLcy_ue (f : LcySt → LcySt) (c : Chip) : (c.onLcy f).ue = c.ue := rfl
@[simp] theorem Chip.onLcy_time (f : LcySt → LcySt) (c : Chip) : (c.onLcy f).time = c.time := rfl
@[simp] theorem Chip.onLcy_jrnQ (f : LcySt → LcySt) (c : Chip) : (c.onLcy f).jrnQ = c.jrnQ := rfl
@[simp] theorem Chip.onLcy_out (f : LcySt → LcySt) (c : Chip) : (c.onLcy f).out = c.out := rfl
@[simp] theorem Chip.onLcy_freeCount (f : LcySt → LcySt) (c : Chip) : (c.onLcy f).freeCount = c.freeCount := rfl
@[simp] theorem Chip.onLcy_reqs (f : LcySt → LcySt) (c : Chip) : (c.onLcy f).reqs = c.reqs := rfl
@[simp] theorem Chip.onLcy_prk (f : LcySt → LcySt) (c : Chip) : (c.onLcy f).prk = c.prk := rfl
@[simp] theorem Chip.onLcy_fs (f : LcySt → LcySt) (c : Chip) : (c.onLcy f).fs = c.fs := rfl
@[simp] theorem Chip.onLcy_vlm (f : LcySt → LcySt) (c : Chip) : (c.onLcy f).vlm = c.vlm := rfl
@[simp] theorem Chip.onLcy_cores (f : LcySt → LcySt) (c : Chip) : (c.onLcy f).cores = c.cores := rfl
@[simp] theorem Chip.onLcy_planes (f : LcySt → LcySt) (c : Chip) : (c.onLcy f).planes = c.planes := rfl
@[simp] theorem Chip.onLcy_palLive (f : LcySt → LcySt) (c : Chip) : (c.onLcy f).palLive = c.palLive := rfl
@[simp] theorem Chip.onLcy_palShadow (f : LcySt → LcySt) (c : Chip) : (c.onLcy f).palShadow = c.palShadow := rfl
@[simp] theorem Chip.onLcy_palLog (f : LcySt → LcySt) (c : Chip) : (c.onLcy f).palLog = c.palLog := rfl
@[simp] theorem Chip.onLcy_motifB (f : LcySt → LcySt) (c : Chip) : (c.onLcy f).motifB = c.motifB := rfl
@[simp] theorem Chip.onLcy_motif (f : LcySt → LcySt) (c : Chip) : (c.onLcy f).motif = c.motif := rfl
@[simp] theorem Chip.onLcy_apq (f : LcySt → LcySt) (c : Chip) : (c.onLcy f).apq = c.apq := rfl
@[simp] theorem Chip.onLcy_eye (f : LcySt → LcySt) (c : Chip) : (c.onLcy f).eye = c.eye := rfl
@[simp] theorem Chip.onLcy_eyeCoef (f : LcySt → LcySt) (c : Chip) : (c.onLcy f).eyeCoef = c.eyeCoef := rfl
@[simp] theorem Chip.onLcy_pipeFailed (f : LcySt → LcySt) (c : Chip) : (c.onLcy f).pipeFailed = c.pipeFailed := rfl
@[simp] theorem Chip.onLcy_bmo (f : LcySt → LcySt) (c : Chip) : (c.onLcy f).bmo = c.bmo := rfl
@[simp] theorem Chip.onLcy_snd (f : LcySt → LcySt) (c : Chip) : (c.onLcy f).snd = c.snd := rfl
@[simp] theorem Chip.onLcy_tmr (f : LcySt → LcySt) (c : Chip) : (c.onLcy f).tmr = c.tmr := rfl
@[simp] theorem Chip.onLcy_chk (f : LcySt → LcySt) (c : Chip) : (c.onLcy f).chk = c.chk := rfl
@[simp] theorem Chip.onLcy_bob (f : LcySt → LcySt) (c : Chip) : (c.onLcy f).bob = c.bob := rfl
@[simp] theorem Chip.onLcy_ser (f : LcySt → LcySt) (c : Chip) : (c.onLcy f).ser = c.ser := rfl
@[simp] theorem Chip.onLcy_drn (f : LcySt → LcySt) (c : Chip) : (c.onLcy f).drn = c.drn := rfl
@[simp] theorem Chip.onLcy_ltn (f : LcySt → LcySt) (c : Chip) : (c.onLcy f).ltn = c.ltn := rfl
@[simp] theorem Chip.onLcy_emb (f : LcySt → LcySt) (c : Chip) : (c.onLcy f).emb = c.emb := rfl
@[simp] theorem Chip.onLcy_dbg (f : LcySt → LcySt) (c : Chip) : (c.onLcy f).dbg = c.dbg := rfl
@[simp] theorem Chip.onLcy_host (f : LcySt → LcySt) (c : Chip) : (c.onLcy f).host = c.host := rfl
@[simp] theorem Chip.onLcy_tirba (f : LcySt → LcySt) (c : Chip) : (c.onLcy f).tirba = c.tirba := rfl
@[simp] theorem Chip.onLcy_rst (f : LcySt → LcySt) (c : Chip) : (c.onLcy f).rst = c.rst := rfl

/-! onDbg -/

@[simp] theorem Chip.onDbg_regs (f : DbgSt → DbgSt) (c : Chip) : (c.onDbg f).regs = c.regs := rfl
@[simp] theorem Chip.onDbg_mem (f : DbgSt → DbgSt) (c : Chip) : (c.onDbg f).mem = c.mem := rfl
@[simp] theorem Chip.onDbg_ue (f : DbgSt → DbgSt) (c : Chip) : (c.onDbg f).ue = c.ue := rfl
@[simp] theorem Chip.onDbg_time (f : DbgSt → DbgSt) (c : Chip) : (c.onDbg f).time = c.time := rfl
@[simp] theorem Chip.onDbg_jrnQ (f : DbgSt → DbgSt) (c : Chip) : (c.onDbg f).jrnQ = c.jrnQ := rfl
@[simp] theorem Chip.onDbg_out (f : DbgSt → DbgSt) (c : Chip) : (c.onDbg f).out = c.out := rfl
@[simp] theorem Chip.onDbg_freeCount (f : DbgSt → DbgSt) (c : Chip) : (c.onDbg f).freeCount = c.freeCount := rfl
@[simp] theorem Chip.onDbg_reqs (f : DbgSt → DbgSt) (c : Chip) : (c.onDbg f).reqs = c.reqs := rfl
@[simp] theorem Chip.onDbg_prk (f : DbgSt → DbgSt) (c : Chip) : (c.onDbg f).prk = c.prk := rfl
@[simp] theorem Chip.onDbg_fs (f : DbgSt → DbgSt) (c : Chip) : (c.onDbg f).fs = c.fs := rfl
@[simp] theorem Chip.onDbg_vlm (f : DbgSt → DbgSt) (c : Chip) : (c.onDbg f).vlm = c.vlm := rfl
@[simp] theorem Chip.onDbg_cores (f : DbgSt → DbgSt) (c : Chip) : (c.onDbg f).cores = c.cores := rfl
@[simp] theorem Chip.onDbg_planes (f : DbgSt → DbgSt) (c : Chip) : (c.onDbg f).planes = c.planes := rfl
@[simp] theorem Chip.onDbg_palLive (f : DbgSt → DbgSt) (c : Chip) : (c.onDbg f).palLive = c.palLive := rfl
@[simp] theorem Chip.onDbg_palShadow (f : DbgSt → DbgSt) (c : Chip) : (c.onDbg f).palShadow = c.palShadow := rfl
@[simp] theorem Chip.onDbg_palLog (f : DbgSt → DbgSt) (c : Chip) : (c.onDbg f).palLog = c.palLog := rfl
@[simp] theorem Chip.onDbg_motifB (f : DbgSt → DbgSt) (c : Chip) : (c.onDbg f).motifB = c.motifB := rfl
@[simp] theorem Chip.onDbg_motif (f : DbgSt → DbgSt) (c : Chip) : (c.onDbg f).motif = c.motif := rfl
@[simp] theorem Chip.onDbg_apq (f : DbgSt → DbgSt) (c : Chip) : (c.onDbg f).apq = c.apq := rfl
@[simp] theorem Chip.onDbg_eye (f : DbgSt → DbgSt) (c : Chip) : (c.onDbg f).eye = c.eye := rfl
@[simp] theorem Chip.onDbg_eyeCoef (f : DbgSt → DbgSt) (c : Chip) : (c.onDbg f).eyeCoef = c.eyeCoef := rfl
@[simp] theorem Chip.onDbg_pipeFailed (f : DbgSt → DbgSt) (c : Chip) : (c.onDbg f).pipeFailed = c.pipeFailed := rfl
@[simp] theorem Chip.onDbg_bmo (f : DbgSt → DbgSt) (c : Chip) : (c.onDbg f).bmo = c.bmo := rfl
@[simp] theorem Chip.onDbg_snd (f : DbgSt → DbgSt) (c : Chip) : (c.onDbg f).snd = c.snd := rfl
@[simp] theorem Chip.onDbg_tmr (f : DbgSt → DbgSt) (c : Chip) : (c.onDbg f).tmr = c.tmr := rfl
@[simp] theorem Chip.onDbg_chk (f : DbgSt → DbgSt) (c : Chip) : (c.onDbg f).chk = c.chk := rfl
@[simp] theorem Chip.onDbg_bob (f : DbgSt → DbgSt) (c : Chip) : (c.onDbg f).bob = c.bob := rfl
@[simp] theorem Chip.onDbg_ser (f : DbgSt → DbgSt) (c : Chip) : (c.onDbg f).ser = c.ser := rfl
@[simp] theorem Chip.onDbg_drn (f : DbgSt → DbgSt) (c : Chip) : (c.onDbg f).drn = c.drn := rfl
@[simp] theorem Chip.onDbg_ltn (f : DbgSt → DbgSt) (c : Chip) : (c.onDbg f).ltn = c.ltn := rfl
@[simp] theorem Chip.onDbg_emb (f : DbgSt → DbgSt) (c : Chip) : (c.onDbg f).emb = c.emb := rfl
@[simp] theorem Chip.onDbg_lcy (f : DbgSt → DbgSt) (c : Chip) : (c.onDbg f).lcy = c.lcy := rfl
@[simp] theorem Chip.onDbg_host (f : DbgSt → DbgSt) (c : Chip) : (c.onDbg f).host = c.host := rfl
@[simp] theorem Chip.onDbg_tirba (f : DbgSt → DbgSt) (c : Chip) : (c.onDbg f).tirba = c.tirba := rfl
@[simp] theorem Chip.onDbg_rst (f : DbgSt → DbgSt) (c : Chip) : (c.onDbg f).rst = c.rst := rfl

/-! onPlane -/

@[simp] theorem Chip.onPlane_regs (p : Plane) (f : PlaneSt → PlaneSt) (c : Chip) : (c.onPlane p f).regs = c.regs := rfl
@[simp] theorem Chip.onPlane_mem (p : Plane) (f : PlaneSt → PlaneSt) (c : Chip) : (c.onPlane p f).mem = c.mem := rfl
@[simp] theorem Chip.onPlane_ue (p : Plane) (f : PlaneSt → PlaneSt) (c : Chip) : (c.onPlane p f).ue = c.ue := rfl
@[simp] theorem Chip.onPlane_time (p : Plane) (f : PlaneSt → PlaneSt) (c : Chip) : (c.onPlane p f).time = c.time := rfl
@[simp] theorem Chip.onPlane_jrnQ (p : Plane) (f : PlaneSt → PlaneSt) (c : Chip) : (c.onPlane p f).jrnQ = c.jrnQ := rfl
@[simp] theorem Chip.onPlane_out (p : Plane) (f : PlaneSt → PlaneSt) (c : Chip) : (c.onPlane p f).out = c.out := rfl
@[simp] theorem Chip.onPlane_freeCount (p : Plane) (f : PlaneSt → PlaneSt) (c : Chip) : (c.onPlane p f).freeCount = c.freeCount := rfl
@[simp] theorem Chip.onPlane_reqs (p : Plane) (f : PlaneSt → PlaneSt) (c : Chip) : (c.onPlane p f).reqs = c.reqs := rfl
@[simp] theorem Chip.onPlane_prk (p : Plane) (f : PlaneSt → PlaneSt) (c : Chip) : (c.onPlane p f).prk = c.prk := rfl
@[simp] theorem Chip.onPlane_fs (p : Plane) (f : PlaneSt → PlaneSt) (c : Chip) : (c.onPlane p f).fs = c.fs := rfl
@[simp] theorem Chip.onPlane_vlm (p : Plane) (f : PlaneSt → PlaneSt) (c : Chip) : (c.onPlane p f).vlm = c.vlm := rfl
@[simp] theorem Chip.onPlane_cores (p : Plane) (f : PlaneSt → PlaneSt) (c : Chip) : (c.onPlane p f).cores = c.cores := rfl
@[simp] theorem Chip.onPlane_palLive (p : Plane) (f : PlaneSt → PlaneSt) (c : Chip) : (c.onPlane p f).palLive = c.palLive := rfl
@[simp] theorem Chip.onPlane_palShadow (p : Plane) (f : PlaneSt → PlaneSt) (c : Chip) : (c.onPlane p f).palShadow = c.palShadow := rfl
@[simp] theorem Chip.onPlane_palLog (p : Plane) (f : PlaneSt → PlaneSt) (c : Chip) : (c.onPlane p f).palLog = c.palLog := rfl
@[simp] theorem Chip.onPlane_motifB (p : Plane) (f : PlaneSt → PlaneSt) (c : Chip) : (c.onPlane p f).motifB = c.motifB := rfl
@[simp] theorem Chip.onPlane_motif (p : Plane) (f : PlaneSt → PlaneSt) (c : Chip) : (c.onPlane p f).motif = c.motif := rfl
@[simp] theorem Chip.onPlane_apq (p : Plane) (f : PlaneSt → PlaneSt) (c : Chip) : (c.onPlane p f).apq = c.apq := rfl
@[simp] theorem Chip.onPlane_eye (p : Plane) (f : PlaneSt → PlaneSt) (c : Chip) : (c.onPlane p f).eye = c.eye := rfl
@[simp] theorem Chip.onPlane_eyeCoef (p : Plane) (f : PlaneSt → PlaneSt) (c : Chip) : (c.onPlane p f).eyeCoef = c.eyeCoef := rfl
@[simp] theorem Chip.onPlane_pipeFailed (p : Plane) (f : PlaneSt → PlaneSt) (c : Chip) : (c.onPlane p f).pipeFailed = c.pipeFailed := rfl
@[simp] theorem Chip.onPlane_bmo (p : Plane) (f : PlaneSt → PlaneSt) (c : Chip) : (c.onPlane p f).bmo = c.bmo := rfl
@[simp] theorem Chip.onPlane_snd (p : Plane) (f : PlaneSt → PlaneSt) (c : Chip) : (c.onPlane p f).snd = c.snd := rfl
@[simp] theorem Chip.onPlane_tmr (p : Plane) (f : PlaneSt → PlaneSt) (c : Chip) : (c.onPlane p f).tmr = c.tmr := rfl
@[simp] theorem Chip.onPlane_chk (p : Plane) (f : PlaneSt → PlaneSt) (c : Chip) : (c.onPlane p f).chk = c.chk := rfl
@[simp] theorem Chip.onPlane_bob (p : Plane) (f : PlaneSt → PlaneSt) (c : Chip) : (c.onPlane p f).bob = c.bob := rfl
@[simp] theorem Chip.onPlane_ser (p : Plane) (f : PlaneSt → PlaneSt) (c : Chip) : (c.onPlane p f).ser = c.ser := rfl
@[simp] theorem Chip.onPlane_drn (p : Plane) (f : PlaneSt → PlaneSt) (c : Chip) : (c.onPlane p f).drn = c.drn := rfl
@[simp] theorem Chip.onPlane_ltn (p : Plane) (f : PlaneSt → PlaneSt) (c : Chip) : (c.onPlane p f).ltn = c.ltn := rfl
@[simp] theorem Chip.onPlane_emb (p : Plane) (f : PlaneSt → PlaneSt) (c : Chip) : (c.onPlane p f).emb = c.emb := rfl
@[simp] theorem Chip.onPlane_lcy (p : Plane) (f : PlaneSt → PlaneSt) (c : Chip) : (c.onPlane p f).lcy = c.lcy := rfl
@[simp] theorem Chip.onPlane_dbg (p : Plane) (f : PlaneSt → PlaneSt) (c : Chip) : (c.onPlane p f).dbg = c.dbg := rfl
@[simp] theorem Chip.onPlane_host (p : Plane) (f : PlaneSt → PlaneSt) (c : Chip) : (c.onPlane p f).host = c.host := rfl
@[simp] theorem Chip.onPlane_tirba (p : Plane) (f : PlaneSt → PlaneSt) (c : Chip) : (c.onPlane p f).tirba = c.tirba := rfl
@[simp] theorem Chip.onPlane_rst (p : Plane) (f : PlaneSt → PlaneSt) (c : Chip) : (c.onPlane p f).rst = c.rst := rfl

/-! onSer -/

@[simp] theorem Chip.onSer_regs (f : SerSt → SerSt) (c : Chip) : (c.onSer f).regs = c.regs := rfl
@[simp] theorem Chip.onSer_mem (f : SerSt → SerSt) (c : Chip) : (c.onSer f).mem = c.mem := rfl
@[simp] theorem Chip.onSer_ue (f : SerSt → SerSt) (c : Chip) : (c.onSer f).ue = c.ue := rfl
@[simp] theorem Chip.onSer_time (f : SerSt → SerSt) (c : Chip) : (c.onSer f).time = c.time := rfl
@[simp] theorem Chip.onSer_jrnQ (f : SerSt → SerSt) (c : Chip) : (c.onSer f).jrnQ = c.jrnQ := rfl
@[simp] theorem Chip.onSer_out (f : SerSt → SerSt) (c : Chip) : (c.onSer f).out = c.out := rfl
@[simp] theorem Chip.onSer_freeCount (f : SerSt → SerSt) (c : Chip) : (c.onSer f).freeCount = c.freeCount := rfl
@[simp] theorem Chip.onSer_reqs (f : SerSt → SerSt) (c : Chip) : (c.onSer f).reqs = c.reqs := rfl
@[simp] theorem Chip.onSer_prk (f : SerSt → SerSt) (c : Chip) : (c.onSer f).prk = c.prk := rfl
@[simp] theorem Chip.onSer_fs (f : SerSt → SerSt) (c : Chip) : (c.onSer f).fs = c.fs := rfl
@[simp] theorem Chip.onSer_vlm (f : SerSt → SerSt) (c : Chip) : (c.onSer f).vlm = c.vlm := rfl
@[simp] theorem Chip.onSer_cores (f : SerSt → SerSt) (c : Chip) : (c.onSer f).cores = c.cores := rfl
@[simp] theorem Chip.onSer_planes (f : SerSt → SerSt) (c : Chip) : (c.onSer f).planes = c.planes := rfl
@[simp] theorem Chip.onSer_palLive (f : SerSt → SerSt) (c : Chip) : (c.onSer f).palLive = c.palLive := rfl
@[simp] theorem Chip.onSer_palShadow (f : SerSt → SerSt) (c : Chip) : (c.onSer f).palShadow = c.palShadow := rfl
@[simp] theorem Chip.onSer_palLog (f : SerSt → SerSt) (c : Chip) : (c.onSer f).palLog = c.palLog := rfl
@[simp] theorem Chip.onSer_motifB (f : SerSt → SerSt) (c : Chip) : (c.onSer f).motifB = c.motifB := rfl
@[simp] theorem Chip.onSer_motif (f : SerSt → SerSt) (c : Chip) : (c.onSer f).motif = c.motif := rfl
@[simp] theorem Chip.onSer_apq (f : SerSt → SerSt) (c : Chip) : (c.onSer f).apq = c.apq := rfl
@[simp] theorem Chip.onSer_eye (f : SerSt → SerSt) (c : Chip) : (c.onSer f).eye = c.eye := rfl
@[simp] theorem Chip.onSer_eyeCoef (f : SerSt → SerSt) (c : Chip) : (c.onSer f).eyeCoef = c.eyeCoef := rfl
@[simp] theorem Chip.onSer_pipeFailed (f : SerSt → SerSt) (c : Chip) : (c.onSer f).pipeFailed = c.pipeFailed := rfl
@[simp] theorem Chip.onSer_bmo (f : SerSt → SerSt) (c : Chip) : (c.onSer f).bmo = c.bmo := rfl
@[simp] theorem Chip.onSer_snd (f : SerSt → SerSt) (c : Chip) : (c.onSer f).snd = c.snd := rfl
@[simp] theorem Chip.onSer_tmr (f : SerSt → SerSt) (c : Chip) : (c.onSer f).tmr = c.tmr := rfl
@[simp] theorem Chip.onSer_chk (f : SerSt → SerSt) (c : Chip) : (c.onSer f).chk = c.chk := rfl
@[simp] theorem Chip.onSer_bob (f : SerSt → SerSt) (c : Chip) : (c.onSer f).bob = c.bob := rfl
@[simp] theorem Chip.onSer_drn (f : SerSt → SerSt) (c : Chip) : (c.onSer f).drn = c.drn := rfl
@[simp] theorem Chip.onSer_ltn (f : SerSt → SerSt) (c : Chip) : (c.onSer f).ltn = c.ltn := rfl
@[simp] theorem Chip.onSer_emb (f : SerSt → SerSt) (c : Chip) : (c.onSer f).emb = c.emb := rfl
@[simp] theorem Chip.onSer_lcy (f : SerSt → SerSt) (c : Chip) : (c.onSer f).lcy = c.lcy := rfl
@[simp] theorem Chip.onSer_dbg (f : SerSt → SerSt) (c : Chip) : (c.onSer f).dbg = c.dbg := rfl
@[simp] theorem Chip.onSer_host (f : SerSt → SerSt) (c : Chip) : (c.onSer f).host = c.host := rfl
@[simp] theorem Chip.onSer_tirba (f : SerSt → SerSt) (c : Chip) : (c.onSer f).tirba = c.tirba := rfl
@[simp] theorem Chip.onSer_rst (f : SerSt → SerSt) (c : Chip) : (c.onSer f).rst = c.rst := rfl

/-! onSnd -/

@[simp] theorem Chip.onSnd_regs (f : SndSt → SndSt) (c : Chip) : (c.onSnd f).regs = c.regs := rfl
@[simp] theorem Chip.onSnd_mem (f : SndSt → SndSt) (c : Chip) : (c.onSnd f).mem = c.mem := rfl
@[simp] theorem Chip.onSnd_ue (f : SndSt → SndSt) (c : Chip) : (c.onSnd f).ue = c.ue := rfl
@[simp] theorem Chip.onSnd_time (f : SndSt → SndSt) (c : Chip) : (c.onSnd f).time = c.time := rfl
@[simp] theorem Chip.onSnd_jrnQ (f : SndSt → SndSt) (c : Chip) : (c.onSnd f).jrnQ = c.jrnQ := rfl
@[simp] theorem Chip.onSnd_out (f : SndSt → SndSt) (c : Chip) : (c.onSnd f).out = c.out := rfl
@[simp] theorem Chip.onSnd_freeCount (f : SndSt → SndSt) (c : Chip) : (c.onSnd f).freeCount = c.freeCount := rfl
@[simp] theorem Chip.onSnd_reqs (f : SndSt → SndSt) (c : Chip) : (c.onSnd f).reqs = c.reqs := rfl
@[simp] theorem Chip.onSnd_prk (f : SndSt → SndSt) (c : Chip) : (c.onSnd f).prk = c.prk := rfl
@[simp] theorem Chip.onSnd_fs (f : SndSt → SndSt) (c : Chip) : (c.onSnd f).fs = c.fs := rfl
@[simp] theorem Chip.onSnd_vlm (f : SndSt → SndSt) (c : Chip) : (c.onSnd f).vlm = c.vlm := rfl
@[simp] theorem Chip.onSnd_cores (f : SndSt → SndSt) (c : Chip) : (c.onSnd f).cores = c.cores := rfl
@[simp] theorem Chip.onSnd_planes (f : SndSt → SndSt) (c : Chip) : (c.onSnd f).planes = c.planes := rfl
@[simp] theorem Chip.onSnd_palLive (f : SndSt → SndSt) (c : Chip) : (c.onSnd f).palLive = c.palLive := rfl
@[simp] theorem Chip.onSnd_palShadow (f : SndSt → SndSt) (c : Chip) : (c.onSnd f).palShadow = c.palShadow := rfl
@[simp] theorem Chip.onSnd_palLog (f : SndSt → SndSt) (c : Chip) : (c.onSnd f).palLog = c.palLog := rfl
@[simp] theorem Chip.onSnd_motifB (f : SndSt → SndSt) (c : Chip) : (c.onSnd f).motifB = c.motifB := rfl
@[simp] theorem Chip.onSnd_motif (f : SndSt → SndSt) (c : Chip) : (c.onSnd f).motif = c.motif := rfl
@[simp] theorem Chip.onSnd_apq (f : SndSt → SndSt) (c : Chip) : (c.onSnd f).apq = c.apq := rfl
@[simp] theorem Chip.onSnd_eye (f : SndSt → SndSt) (c : Chip) : (c.onSnd f).eye = c.eye := rfl
@[simp] theorem Chip.onSnd_eyeCoef (f : SndSt → SndSt) (c : Chip) : (c.onSnd f).eyeCoef = c.eyeCoef := rfl
@[simp] theorem Chip.onSnd_pipeFailed (f : SndSt → SndSt) (c : Chip) : (c.onSnd f).pipeFailed = c.pipeFailed := rfl
@[simp] theorem Chip.onSnd_bmo (f : SndSt → SndSt) (c : Chip) : (c.onSnd f).bmo = c.bmo := rfl
@[simp] theorem Chip.onSnd_tmr (f : SndSt → SndSt) (c : Chip) : (c.onSnd f).tmr = c.tmr := rfl
@[simp] theorem Chip.onSnd_chk (f : SndSt → SndSt) (c : Chip) : (c.onSnd f).chk = c.chk := rfl
@[simp] theorem Chip.onSnd_bob (f : SndSt → SndSt) (c : Chip) : (c.onSnd f).bob = c.bob := rfl
@[simp] theorem Chip.onSnd_ser (f : SndSt → SndSt) (c : Chip) : (c.onSnd f).ser = c.ser := rfl
@[simp] theorem Chip.onSnd_drn (f : SndSt → SndSt) (c : Chip) : (c.onSnd f).drn = c.drn := rfl
@[simp] theorem Chip.onSnd_ltn (f : SndSt → SndSt) (c : Chip) : (c.onSnd f).ltn = c.ltn := rfl
@[simp] theorem Chip.onSnd_emb (f : SndSt → SndSt) (c : Chip) : (c.onSnd f).emb = c.emb := rfl
@[simp] theorem Chip.onSnd_lcy (f : SndSt → SndSt) (c : Chip) : (c.onSnd f).lcy = c.lcy := rfl
@[simp] theorem Chip.onSnd_dbg (f : SndSt → SndSt) (c : Chip) : (c.onSnd f).dbg = c.dbg := rfl
@[simp] theorem Chip.onSnd_host (f : SndSt → SndSt) (c : Chip) : (c.onSnd f).host = c.host := rfl
@[simp] theorem Chip.onSnd_tirba (f : SndSt → SndSt) (c : Chip) : (c.onSnd f).tirba = c.tirba := rfl
@[simp] theorem Chip.onSnd_rst (f : SndSt → SndSt) (c : Chip) : (c.onSnd f).rst = c.rst := rfl

/-! onTmr -/

@[simp] theorem Chip.onTmr_regs (f : TmrSt → TmrSt) (c : Chip) : (c.onTmr f).regs = c.regs := rfl
@[simp] theorem Chip.onTmr_mem (f : TmrSt → TmrSt) (c : Chip) : (c.onTmr f).mem = c.mem := rfl
@[simp] theorem Chip.onTmr_ue (f : TmrSt → TmrSt) (c : Chip) : (c.onTmr f).ue = c.ue := rfl
@[simp] theorem Chip.onTmr_time (f : TmrSt → TmrSt) (c : Chip) : (c.onTmr f).time = c.time := rfl
@[simp] theorem Chip.onTmr_jrnQ (f : TmrSt → TmrSt) (c : Chip) : (c.onTmr f).jrnQ = c.jrnQ := rfl
@[simp] theorem Chip.onTmr_out (f : TmrSt → TmrSt) (c : Chip) : (c.onTmr f).out = c.out := rfl
@[simp] theorem Chip.onTmr_freeCount (f : TmrSt → TmrSt) (c : Chip) : (c.onTmr f).freeCount = c.freeCount := rfl
@[simp] theorem Chip.onTmr_reqs (f : TmrSt → TmrSt) (c : Chip) : (c.onTmr f).reqs = c.reqs := rfl
@[simp] theorem Chip.onTmr_prk (f : TmrSt → TmrSt) (c : Chip) : (c.onTmr f).prk = c.prk := rfl
@[simp] theorem Chip.onTmr_fs (f : TmrSt → TmrSt) (c : Chip) : (c.onTmr f).fs = c.fs := rfl
@[simp] theorem Chip.onTmr_vlm (f : TmrSt → TmrSt) (c : Chip) : (c.onTmr f).vlm = c.vlm := rfl
@[simp] theorem Chip.onTmr_cores (f : TmrSt → TmrSt) (c : Chip) : (c.onTmr f).cores = c.cores := rfl
@[simp] theorem Chip.onTmr_planes (f : TmrSt → TmrSt) (c : Chip) : (c.onTmr f).planes = c.planes := rfl
@[simp] theorem Chip.onTmr_palLive (f : TmrSt → TmrSt) (c : Chip) : (c.onTmr f).palLive = c.palLive := rfl
@[simp] theorem Chip.onTmr_palShadow (f : TmrSt → TmrSt) (c : Chip) : (c.onTmr f).palShadow = c.palShadow := rfl
@[simp] theorem Chip.onTmr_palLog (f : TmrSt → TmrSt) (c : Chip) : (c.onTmr f).palLog = c.palLog := rfl
@[simp] theorem Chip.onTmr_motifB (f : TmrSt → TmrSt) (c : Chip) : (c.onTmr f).motifB = c.motifB := rfl
@[simp] theorem Chip.onTmr_motif (f : TmrSt → TmrSt) (c : Chip) : (c.onTmr f).motif = c.motif := rfl
@[simp] theorem Chip.onTmr_apq (f : TmrSt → TmrSt) (c : Chip) : (c.onTmr f).apq = c.apq := rfl
@[simp] theorem Chip.onTmr_eye (f : TmrSt → TmrSt) (c : Chip) : (c.onTmr f).eye = c.eye := rfl
@[simp] theorem Chip.onTmr_eyeCoef (f : TmrSt → TmrSt) (c : Chip) : (c.onTmr f).eyeCoef = c.eyeCoef := rfl
@[simp] theorem Chip.onTmr_pipeFailed (f : TmrSt → TmrSt) (c : Chip) : (c.onTmr f).pipeFailed = c.pipeFailed := rfl
@[simp] theorem Chip.onTmr_bmo (f : TmrSt → TmrSt) (c : Chip) : (c.onTmr f).bmo = c.bmo := rfl
@[simp] theorem Chip.onTmr_snd (f : TmrSt → TmrSt) (c : Chip) : (c.onTmr f).snd = c.snd := rfl
@[simp] theorem Chip.onTmr_chk (f : TmrSt → TmrSt) (c : Chip) : (c.onTmr f).chk = c.chk := rfl
@[simp] theorem Chip.onTmr_bob (f : TmrSt → TmrSt) (c : Chip) : (c.onTmr f).bob = c.bob := rfl
@[simp] theorem Chip.onTmr_ser (f : TmrSt → TmrSt) (c : Chip) : (c.onTmr f).ser = c.ser := rfl
@[simp] theorem Chip.onTmr_drn (f : TmrSt → TmrSt) (c : Chip) : (c.onTmr f).drn = c.drn := rfl
@[simp] theorem Chip.onTmr_ltn (f : TmrSt → TmrSt) (c : Chip) : (c.onTmr f).ltn = c.ltn := rfl
@[simp] theorem Chip.onTmr_emb (f : TmrSt → TmrSt) (c : Chip) : (c.onTmr f).emb = c.emb := rfl
@[simp] theorem Chip.onTmr_lcy (f : TmrSt → TmrSt) (c : Chip) : (c.onTmr f).lcy = c.lcy := rfl
@[simp] theorem Chip.onTmr_dbg (f : TmrSt → TmrSt) (c : Chip) : (c.onTmr f).dbg = c.dbg := rfl
@[simp] theorem Chip.onTmr_host (f : TmrSt → TmrSt) (c : Chip) : (c.onTmr f).host = c.host := rfl
@[simp] theorem Chip.onTmr_tirba (f : TmrSt → TmrSt) (c : Chip) : (c.onTmr f).tirba = c.tirba := rfl
@[simp] theorem Chip.onTmr_rst (f : TmrSt → TmrSt) (c : Chip) : (c.onTmr f).rst = c.rst := rfl

/-! onDrn -/

@[simp] theorem Chip.onDrn_regs (f : DrnSt → DrnSt) (c : Chip) : (c.onDrn f).regs = c.regs := rfl
@[simp] theorem Chip.onDrn_mem (f : DrnSt → DrnSt) (c : Chip) : (c.onDrn f).mem = c.mem := rfl
@[simp] theorem Chip.onDrn_ue (f : DrnSt → DrnSt) (c : Chip) : (c.onDrn f).ue = c.ue := rfl
@[simp] theorem Chip.onDrn_time (f : DrnSt → DrnSt) (c : Chip) : (c.onDrn f).time = c.time := rfl
@[simp] theorem Chip.onDrn_jrnQ (f : DrnSt → DrnSt) (c : Chip) : (c.onDrn f).jrnQ = c.jrnQ := rfl
@[simp] theorem Chip.onDrn_out (f : DrnSt → DrnSt) (c : Chip) : (c.onDrn f).out = c.out := rfl
@[simp] theorem Chip.onDrn_freeCount (f : DrnSt → DrnSt) (c : Chip) : (c.onDrn f).freeCount = c.freeCount := rfl
@[simp] theorem Chip.onDrn_reqs (f : DrnSt → DrnSt) (c : Chip) : (c.onDrn f).reqs = c.reqs := rfl
@[simp] theorem Chip.onDrn_prk (f : DrnSt → DrnSt) (c : Chip) : (c.onDrn f).prk = c.prk := rfl
@[simp] theorem Chip.onDrn_fs (f : DrnSt → DrnSt) (c : Chip) : (c.onDrn f).fs = c.fs := rfl
@[simp] theorem Chip.onDrn_vlm (f : DrnSt → DrnSt) (c : Chip) : (c.onDrn f).vlm = c.vlm := rfl
@[simp] theorem Chip.onDrn_cores (f : DrnSt → DrnSt) (c : Chip) : (c.onDrn f).cores = c.cores := rfl
@[simp] theorem Chip.onDrn_planes (f : DrnSt → DrnSt) (c : Chip) : (c.onDrn f).planes = c.planes := rfl
@[simp] theorem Chip.onDrn_palLive (f : DrnSt → DrnSt) (c : Chip) : (c.onDrn f).palLive = c.palLive := rfl
@[simp] theorem Chip.onDrn_palShadow (f : DrnSt → DrnSt) (c : Chip) : (c.onDrn f).palShadow = c.palShadow := rfl
@[simp] theorem Chip.onDrn_palLog (f : DrnSt → DrnSt) (c : Chip) : (c.onDrn f).palLog = c.palLog := rfl
@[simp] theorem Chip.onDrn_motifB (f : DrnSt → DrnSt) (c : Chip) : (c.onDrn f).motifB = c.motifB := rfl
@[simp] theorem Chip.onDrn_motif (f : DrnSt → DrnSt) (c : Chip) : (c.onDrn f).motif = c.motif := rfl
@[simp] theorem Chip.onDrn_apq (f : DrnSt → DrnSt) (c : Chip) : (c.onDrn f).apq = c.apq := rfl
@[simp] theorem Chip.onDrn_eye (f : DrnSt → DrnSt) (c : Chip) : (c.onDrn f).eye = c.eye := rfl
@[simp] theorem Chip.onDrn_eyeCoef (f : DrnSt → DrnSt) (c : Chip) : (c.onDrn f).eyeCoef = c.eyeCoef := rfl
@[simp] theorem Chip.onDrn_pipeFailed (f : DrnSt → DrnSt) (c : Chip) : (c.onDrn f).pipeFailed = c.pipeFailed := rfl
@[simp] theorem Chip.onDrn_bmo (f : DrnSt → DrnSt) (c : Chip) : (c.onDrn f).bmo = c.bmo := rfl
@[simp] theorem Chip.onDrn_snd (f : DrnSt → DrnSt) (c : Chip) : (c.onDrn f).snd = c.snd := rfl
@[simp] theorem Chip.onDrn_tmr (f : DrnSt → DrnSt) (c : Chip) : (c.onDrn f).tmr = c.tmr := rfl
@[simp] theorem Chip.onDrn_chk (f : DrnSt → DrnSt) (c : Chip) : (c.onDrn f).chk = c.chk := rfl
@[simp] theorem Chip.onDrn_bob (f : DrnSt → DrnSt) (c : Chip) : (c.onDrn f).bob = c.bob := rfl
@[simp] theorem Chip.onDrn_ser (f : DrnSt → DrnSt) (c : Chip) : (c.onDrn f).ser = c.ser := rfl
@[simp] theorem Chip.onDrn_ltn (f : DrnSt → DrnSt) (c : Chip) : (c.onDrn f).ltn = c.ltn := rfl
@[simp] theorem Chip.onDrn_emb (f : DrnSt → DrnSt) (c : Chip) : (c.onDrn f).emb = c.emb := rfl
@[simp] theorem Chip.onDrn_lcy (f : DrnSt → DrnSt) (c : Chip) : (c.onDrn f).lcy = c.lcy := rfl
@[simp] theorem Chip.onDrn_dbg (f : DrnSt → DrnSt) (c : Chip) : (c.onDrn f).dbg = c.dbg := rfl
@[simp] theorem Chip.onDrn_host (f : DrnSt → DrnSt) (c : Chip) : (c.onDrn f).host = c.host := rfl
@[simp] theorem Chip.onDrn_tirba (f : DrnSt → DrnSt) (c : Chip) : (c.onDrn f).tirba = c.tirba := rfl
@[simp] theorem Chip.onDrn_rst (f : DrnSt → DrnSt) (c : Chip) : (c.onDrn f).rst = c.rst := rfl

/-! setReqs -/

@[simp] theorem Chip.setReqs_regs (l : List VReq) (c : Chip) : (c.setReqs l).regs = c.regs := rfl
@[simp] theorem Chip.setReqs_mem (l : List VReq) (c : Chip) : (c.setReqs l).mem = c.mem := rfl
@[simp] theorem Chip.setReqs_ue (l : List VReq) (c : Chip) : (c.setReqs l).ue = c.ue := rfl
@[simp] theorem Chip.setReqs_time (l : List VReq) (c : Chip) : (c.setReqs l).time = c.time := rfl
@[simp] theorem Chip.setReqs_jrnQ (l : List VReq) (c : Chip) : (c.setReqs l).jrnQ = c.jrnQ := rfl
@[simp] theorem Chip.setReqs_out (l : List VReq) (c : Chip) : (c.setReqs l).out = c.out := rfl
@[simp] theorem Chip.setReqs_freeCount (l : List VReq) (c : Chip) : (c.setReqs l).freeCount = c.freeCount := rfl
@[simp] theorem Chip.setReqs_reqs (l : List VReq) (c : Chip) : (c.setReqs l).reqs = c.reqs := rfl
@[simp] theorem Chip.setReqs_prk (l : List VReq) (c : Chip) : (c.setReqs l).prk = c.prk := rfl
@[simp] theorem Chip.setReqs_fs (l : List VReq) (c : Chip) : (c.setReqs l).fs = c.fs := rfl
@[simp] theorem Chip.setReqs_cores (l : List VReq) (c : Chip) : (c.setReqs l).cores = c.cores := rfl
@[simp] theorem Chip.setReqs_planes (l : List VReq) (c : Chip) : (c.setReqs l).planes = c.planes := rfl
@[simp] theorem Chip.setReqs_palLive (l : List VReq) (c : Chip) : (c.setReqs l).palLive = c.palLive := rfl
@[simp] theorem Chip.setReqs_palShadow (l : List VReq) (c : Chip) : (c.setReqs l).palShadow = c.palShadow := rfl
@[simp] theorem Chip.setReqs_palLog (l : List VReq) (c : Chip) : (c.setReqs l).palLog = c.palLog := rfl
@[simp] theorem Chip.setReqs_motifB (l : List VReq) (c : Chip) : (c.setReqs l).motifB = c.motifB := rfl
@[simp] theorem Chip.setReqs_motif (l : List VReq) (c : Chip) : (c.setReqs l).motif = c.motif := rfl
@[simp] theorem Chip.setReqs_apq (l : List VReq) (c : Chip) : (c.setReqs l).apq = c.apq := rfl
@[simp] theorem Chip.setReqs_eye (l : List VReq) (c : Chip) : (c.setReqs l).eye = c.eye := rfl
@[simp] theorem Chip.setReqs_eyeCoef (l : List VReq) (c : Chip) : (c.setReqs l).eyeCoef = c.eyeCoef := rfl
@[simp] theorem Chip.setReqs_pipeFailed (l : List VReq) (c : Chip) : (c.setReqs l).pipeFailed = c.pipeFailed := rfl
@[simp] theorem Chip.setReqs_bmo (l : List VReq) (c : Chip) : (c.setReqs l).bmo = c.bmo := rfl
@[simp] theorem Chip.setReqs_snd (l : List VReq) (c : Chip) : (c.setReqs l).snd = c.snd := rfl
@[simp] theorem Chip.setReqs_tmr (l : List VReq) (c : Chip) : (c.setReqs l).tmr = c.tmr := rfl
@[simp] theorem Chip.setReqs_chk (l : List VReq) (c : Chip) : (c.setReqs l).chk = c.chk := rfl
@[simp] theorem Chip.setReqs_bob (l : List VReq) (c : Chip) : (c.setReqs l).bob = c.bob := rfl
@[simp] theorem Chip.setReqs_ser (l : List VReq) (c : Chip) : (c.setReqs l).ser = c.ser := rfl
@[simp] theorem Chip.setReqs_drn (l : List VReq) (c : Chip) : (c.setReqs l).drn = c.drn := rfl
@[simp] theorem Chip.setReqs_ltn (l : List VReq) (c : Chip) : (c.setReqs l).ltn = c.ltn := rfl
@[simp] theorem Chip.setReqs_emb (l : List VReq) (c : Chip) : (c.setReqs l).emb = c.emb := rfl
@[simp] theorem Chip.setReqs_lcy (l : List VReq) (c : Chip) : (c.setReqs l).lcy = c.lcy := rfl
@[simp] theorem Chip.setReqs_dbg (l : List VReq) (c : Chip) : (c.setReqs l).dbg = c.dbg := rfl
@[simp] theorem Chip.setReqs_host (l : List VReq) (c : Chip) : (c.setReqs l).host = c.host := rfl
@[simp] theorem Chip.setReqs_tirba (l : List VReq) (c : Chip) : (c.setReqs l).tirba = c.tirba := rfl
@[simp] theorem Chip.setReqs_rst (l : List VReq) (c : Chip) : (c.setReqs l).rst = c.rst := rfl

/-! Fields that an update changes -/

@[simp] theorem Chip.onTirba_tirba (f : TirbaSt → TirbaSt) (c : Chip) : (c.onTirba f).tirba = f c.tirba := rfl
@[simp] theorem Chip.onHost_host (f : HostSt → HostSt) (c : Chip) : (c.onHost f).host = f c.host := rfl
@[simp] theorem Chip.onEmb_emb (f : EmbSt → EmbSt) (c : Chip) : (c.onEmb f).emb = f c.emb := rfl
@[simp] theorem Chip.onLtn_ltn (f : LtnSt → LtnSt) (c : Chip) : (c.onLtn f).ltn = f c.ltn := rfl
@[simp] theorem Chip.onLcy_lcy (f : LcySt → LcySt) (c : Chip) : (c.onLcy f).lcy = f c.lcy := rfl
@[simp] theorem Chip.onDbg_dbg (f : DbgSt → DbgSt) (c : Chip) : (c.onDbg f).dbg = f c.dbg := rfl
@[simp] theorem Chip.onRst_rst (f : RstSt → RstSt) (c : Chip) : (c.onRst f).rst = f c.rst := rfl
@[simp] theorem Chip.onSer_ser (f : SerSt → SerSt) (c : Chip) : (c.onSer f).ser = f c.ser := rfl
@[simp] theorem Chip.onSnd_snd (f : SndSt → SndSt) (c : Chip) : (c.onSnd f).snd = f c.snd := rfl
@[simp] theorem Chip.onTmr_tmr (f : TmrSt → TmrSt) (c : Chip) : (c.onTmr f).tmr = f c.tmr := rfl
@[simp] theorem Chip.onDrn_drn (f : DrnSt → DrnSt) (c : Chip) : (c.onDrn f).drn = f c.drn := rfl
@[simp] theorem Chip.onMotifs_motif (f : MotifSt → MotifSt) (c : Chip) : (c.onMotifs f).motif = f c.motif := rfl
@[simp] theorem Chip.emit_out (o : Output) (c : Chip) : (c.emit o).out = c.out ++ [o] := rfl

/-- The element changed, and the others. -/
@[simp] theorem upd_same {α : Type} {n : Nat} (v : Vector α n) (i : Fin n) (f : α → α) : (upd v i f)[i] = f v[i] := by
  simp [upd]

/-- See upd_same. -/
theorem upd_ne {α : Type} {n : Nat} (v : Vector α n) (i j : Fin n) (f : α → α) (h : i ≠ j) : (upd v i f)[j] = v[j] := by
  have : i.val ≠ j.val := fun e => h (Fin.ext e)
  simp [upd, this]

/-- The unit changed. -/
@[simp] theorem Chip.core_onCore (n : Core) (f : CoreSt → CoreSt) (c : Chip) : (c.onCore n f).core n = f (c.core n) := upd_same _ _ _
/-- See core_onCore. -/
theorem Chip.core_onCore_ne (n m : Core) (f : CoreSt → CoreSt) (c : Chip) (h : n ≠ m) : (c.onCore n f).core m = c.core m := upd_ne _ _ _ _ h
/-- See core_onCore. -/
@[simp] theorem Chip.beam_onBeam (b : Beam) (f : PrkBeam → PrkBeam) (c : Chip) : (c.onBeam b f).beam b = f (c.beam b) := upd_same _ _ _
/-- See core_onCore. -/
@[simp] theorem Chip.ring_onRing (n : Ring) (f : RingSt → RingSt) (c : Chip) : (c.onRing n f).ring n = f (c.ring n) := upd_same _ _ _
/-- See core_onCore. -/
theorem Chip.ring_onRing_ne (n m : Ring) (f : RingSt → RingSt) (c : Chip) (h : n ≠ m) : (c.onRing n f).ring m = c.ring m := upd_ne _ _ _ _ h

end Sys2Proof.Machine
end

