-- ==== Sys2Proof/Laws/Ops.lean ====
section
/-! SUPPORT. The laws of the named operations: a register or a byte read after a write, and the canonical forms of the register
file and of memory, which every operation of Ops keeps. -/

namespace Sys2Proof.Machine

/-! ### Registers -/

/-- A register read after a register write. -/
theorem Chip.rd_wr (c : Chip) (a b : Nat) (v : Word) : (c.wr a v).rd b = if b = a then v else c.rd b :=
  Sparse.get_set regReset c.regs a b v

/-- A register written reads what was written. -/
@[simp] theorem Chip.rd_wr_same (c : Chip) (a : Nat) (v : Word) : (c.wr a v).rd a = v := by simp [Chip.rd_wr]

/-- A write leaves every other register as it was. -/
theorem Chip.rd_wr_ne (c : Chip) (a b : Nat) (v : Word) (hb : b ≠ a) : (c.wr a v).rd b = c.rd b := by simp [Chip.rd_wr, hb]

/-- A write keeps the register file's canonical form. -/
theorem Chip.regsWf_wr (c : Chip) (a : Nat) (v : Word) (h : c.regsWf = true) : (c.wr a v).regsWf = true :=
  Sparse.wf_set regReset c.regs a v h

/-- See regsWf_wr. -/
theorem Chip.regsWf_wf (c : Chip) (a hi lo v : Nat) (h : c.regsWf = true) : (c.wf a hi lo v).regsWf = true := c.regsWf_wr _ _ h
/-- See regsWf_wr. -/
theorem Chip.regsWf_wb (c : Chip) (a i : Nat) (b : Bool) (h : c.regsWf = true) : (c.wb a i b).regsWf = true := c.regsWf_wr _ _ h
/-- See regsWf_wr. -/
theorem Chip.regsWf_sb (c : Chip) (a i : Nat) (h : c.regsWf = true) : (c.sb a i).regsWf = true := c.regsWf_wr _ _ h
/-- See regsWf_wr. -/
theorem Chip.regsWf_store (c : Chip) (a : Nat) (v : Word) (h : c.regsWf = true) : (c.store a v).regsWf = true := by
  unfold Chip.store
  split
  · exact c.regsWf_wr _ _ h
  · exact h

/-- A store writes no memory. -/
@[simp] theorem Chip.store_mem (c : Chip) (a : Nat) (v : Word) : (c.store a v).mem = c.mem := by
  unfold Chip.store; split <;> rfl

/-- Reading another register after a bit of one is written. -/
theorem Chip.rd_wb_ne (c : Chip) (a b i : Nat) (v : Bool) (hb : b ≠ a) : (c.wb a i v).rd b = c.rd b := c.rd_wr_ne _ _ _ hb
/-- Reading another register after a bit of one is set. -/
theorem Chip.rd_sb_ne (c : Chip) (a b i : Nat) (hb : b ≠ a) : (c.sb a i).rd b = c.rd b := c.rd_wr_ne _ _ _ hb
/-- Reading another register after a field of one is written. -/
theorem Chip.rd_wf_ne (c : Chip) (a b hi lo v : Nat) (hb : b ≠ a) : (c.wf a hi lo v).rd b = c.rd b := c.rd_wr_ne _ _ _ hb
/-- A register with a bit written. -/
@[simp] theorem Chip.rd_wb_same (c : Chip) (a i : Nat) (v : Bool) : (c.wb a i v).rd a = setBit (c.rd a) i v := c.rd_wr_same _ _
/-- A register with a bit set. -/
@[simp] theorem Chip.rd_sb_same (c : Chip) (a i : Nat) : (c.sb a i).rd a = setBit (c.rd a) i true := c.rd_wr_same _ _
/-- A register with a field written. -/
@[simp] theorem Chip.rd_wf_same (c : Chip) (a hi lo v : Nat) : (c.wf a hi lo v).rd a = setFld (c.rd a) hi lo v := c.rd_wr_same _ _
/-- What a register reads rests on the register file alone. -/
theorem Chip.rd_congr {c d : Chip} (h : d.regs = c.regs) (a : Nat) : d.rd a = c.rd a := by simp [Chip.rd, h]
/-- What a byte of memory reads rests on memory alone. -/
theorem Chip.byte_congr {c d : Chip} (h : d.mem = c.mem) (a : Nat) : d.byte a = c.byte a := by simp [Chip.byte, h]

/-! ### Cores and Beams -/
/-- A core changed leaves the registers. -/
@[simp] theorem Chip.rd_onCore (c : Chip) (n : Core) (f : CoreSt → CoreSt) (a : Nat) : (c.onCore n f).rd a = c.rd a := rfl
/-- A core changed leaves memory. -/
@[simp] theorem Chip.byte_onCore (c : Chip) (n : Core) (f : CoreSt → CoreSt) (a : Nat) : (c.onCore n f).byte a = c.byte a := rfl
/-- A register written leaves the cores. -/
@[simp] theorem Chip.core_wr (c : Chip) (a : Nat) (v : Word) (n : Core) : (c.wr a v).core n = c.core n := rfl
/-- A register written leaves memory. -/
@[simp] theorem Chip.byte_wr (c : Chip) (a : Nat) (v : Word) (x : Nat) : (c.wr a v).byte x = c.byte x := rfl

/-! ### Memory -/

/-- A byte read after a byte write. -/
theorem Chip.byte_setByte (c : Chip) (a x : Nat) (b : Byte) : (c.setByte a b).byte x = if x = a then b else c.byte x :=
  Sparse.get_set (fun _ => memDefault) c.mem a x b

/-- A byte write keeps memory's canonical form. -/
theorem Chip.memWf_setByte (c : Chip) (a : Nat) (b : Byte) (h : c.memWf = true) : (c.setByte a b).memWf = true :=
  Sparse.wf_set (fun _ => memDefault) c.mem a b h

/-- A write of bytes keeps memory's canonical form. -/
theorem Chip.memWf_setBytes : ∀ (bs : List Byte) (c : Chip) (a : Nat), c.memWf = true → (c.setBytes a bs).memWf = true
  | [], _, _, h => h
  | b :: t, c, a, h => Chip.memWf_setBytes t (c.setByte a b) (a + 1) (c.memWf_setByte a b h)

/-- Bytes outside those written are as they were. -/
theorem Chip.byte_setBytes_ne : ∀ (bs : List Byte) (c : Chip) (a x : Nat), (x < a ∨ a + bs.length ≤ x) →
    (c.setBytes a bs).byte x = c.byte x
  | [], _, _, _, _ => rfl
  | b :: t, c, a, x, hx => by
    have hx' : x < a + 1 ∨ a + 1 + t.length ≤ x := by
      rcases hx with hx | hx
      · exact Or.inl (by omega)
      · right; simp only [List.length_cons] at hx; omega
    have hne : x ≠ a := by
      rcases hx with hx | hx
      · omega
      · simp only [List.length_cons] at hx; omega
    have ih := Chip.byte_setBytes_ne t (c.setByte a b) (a + 1) x hx'
    exact ih.trans (by simp [Chip.byte_setByte, hne])

/-- As many bytes are read as are asked for. -/
@[simp] theorem Chip.bytes_length (c : Chip) : ∀ (n a : Nat), (c.bytes a n).length = n
  | 0, _ => rfl
  | n + 1, a => by simp [Chip.bytes, Chip.bytes_length c n (a + 1)]

/-- Bytes written read back. -/
theorem Chip.bytes_setBytes : ∀ (bs : List Byte) (c : Chip) (a : Nat), (c.setBytes a bs).bytes a bs.length = bs
  | [], _, _ => rfl
  | b :: t, c, a => by
    show (Chip.setBytes (a + 1) t (c.setByte a b)).byte a :: (Chip.setBytes (a + 1) t (c.setByte a b)).bytes (a + 1) t.length = b :: t
    rw [Chip.byte_setBytes_ne t (c.setByte a b) (a + 1) a (Or.inl (Nat.lt_succ_self a)), Chip.byte_setByte,
      Chip.bytes_setBytes t (c.setByte a b) (a + 1)]
    simp

/-- A requester's write keeps memory's canonical form. -/
theorem Chip.memWf_memWrite (c : Chip) (a : Nat) (bs : List Byte) (h : c.memWf = true) : (c.memWrite a bs).memWf = true :=
  c.memWf_setBytes bs a h

/-- See memWf_memWrite. -/
theorem Chip.memWf_vWrite (c : Chip) (off : Nat) (bs : List Byte) (h : c.memWf = true) : (c.vWrite off bs).memWf = true :=
  c.memWf_memWrite _ _ h

/-- A write with byte enables keeps memory's canonical form (R101). -/
theorem memWf_storeEnabled : ∀ (bs : List (Option Byte)) (c : Chip) (a : Nat), c.memWf = true → (storeEnabled a bs c).memWf = true
  | [], _, _, h => h
  | none :: t, c, a, h => memWf_storeEnabled t c (a + 1) h
  | some b :: t, c, a, h => memWf_storeEnabled t (c.setByte a b) (a + 1) (c.memWf_setByte a b h)

/-- A write request keeps memory's canonical form. -/
theorem Chip.memWf_applyWrite (c : Chip) (r : VReq) (h : c.memWf = true) : (c.applyWrite r).memWf = true :=
  memWf_storeEnabled r.bytes c _ h

/-- A write request leaves the registers as they were. -/
theorem storeEnabled_regs : ∀ (bs : List (Option Byte)) (c : Chip) (a : Nat), (storeEnabled a bs c).regs = c.regs
  | [], _, _ => rfl
  | none :: t, c, a => storeEnabled_regs t c (a + 1)
  | some b :: t, c, a => storeEnabled_regs t (c.setByte a b) (a + 1)

/-- A host write to Vellum keeps memory's canonical form. -/
theorem Chip.memWf_hostVWrite (c : Chip) (off : Nat) (bs : List (Option Byte)) (h : c.memWf = true) : (c.hostVWrite off bs).memWf = true :=
  memWf_storeEnabled bs c _ h

/-- Memory writes leave the registers as they were. -/
@[simp] theorem Chip.setBytes_regs : ∀ (bs : List Byte) (c : Chip) (a : Nat), (c.setBytes a bs).regs = c.regs
  | [], _, _ => rfl
  | b :: t, c, a => Chip.setBytes_regs t (c.setByte a b) (a + 1)

/-- See setBytes_regs. -/
@[simp] theorem Chip.memWrite_regs (c : Chip) (a : Nat) (bs : List Byte) : (c.memWrite a bs).regs = c.regs := c.setBytes_regs bs a
/-- See setBytes_regs. -/
@[simp] theorem Chip.vWrite_regs (c : Chip) (off : Nat) (bs : List Byte) : (c.vWrite off bs).regs = c.regs := c.memWrite_regs _ _

/-! ### Loops -/

/-- A property that the body of a loop keeps is kept by the loop. -/
theorem forEach_keeps {α σ : Type} (P : σ → Prop) (f : α → σ → σ) : ∀ (l : List α) (s : σ), (∀ a s, P s → P (f a s)) → P s → P (forEach l f s)
  | [], _, _, hs => hs
  | a :: t, s, hf, hs => forEach_keeps P f t (f a s) hf (hf a s hs)

/-- What the body of a loop leaves as it was, the loop leaves so. -/
theorem forEach_same {α β σ : Type} (g : σ → β) (f : α → σ → σ) (l : List α) (s : σ) (hf : ∀ a s, g (f a s) = g s) :
    g (forEach l f s) = g s :=
  forEach_keeps (fun x => g x = g s) f l s (fun a x hx => (hf a x).trans hx) rfl

/-- An operation applied on a condition leaves what it leaves. -/
theorem Chip.when_same {β : Type} (g : Chip → β) (b : Bool) (f : Chip → Chip) (c : Chip) (h : g (f c) = g c) : g (c.when b f) = g c := by
  unfold Chip.when; split <;> simp [h]

end Sys2Proof.Machine
end

