-- ==== Sys2Proof/Laws/Boot.lean ====
section
/-! SUPPORT. What the boot ROM's commands come to at each of its steps. -/

namespace Sys2Proof.Machine

/-- The ROM from its start (R228). -/
theorem Chip.romBoot_start {c : Chip} {bad : List Fuse} {a b : FlashSlot} (h1 : c.coresUp = true) (h2 : c.romLocked = false)
    (h3 : c.rst.rom = 1) : c.romBoot bad a b =
      if (c.romStart bad).rst.rom = 2 ∧ (c.romStart bad).vioC = true then (c.romStart bad).romSlots a b else c.romStart bad := by
  unfold Chip.romBoot
  rw [if_neg (by simp [h1, h2])]
  simp only [h3, if_true]

/-- The ROM that waits for VIO_C reads the slots once it is good (R228, R733). -/
theorem Chip.romBoot_slots {c : Chip} {bad : List Fuse} {a b : FlashSlot} (h1 : c.coresUp = true) (h2 : c.romLocked = false)
    (h3 : c.rst.rom = 2) (h4 : c.vioC = true) : c.romBoot bad a b = c.romSlots a b := by
  unfold Chip.romBoot
  rw [if_neg (by simp [h1, h2])]
  simp only [show ¬(c.rst.rom = 1) by omega, if_false]
  rw [if_pos ⟨h3, h4⟩]

/-- ROM_LOCK by a core that is not in the handover code (R233). -/
theorem Chip.romLock_other {c : Chip} {n : Core} (h : (c.core n).pc ≠ 0x7FE0) : c.romLock n = c.sb R.SYS_BOOT_CTRL 0 := by
  unfold Chip.romLock
  exact if_neg fun g => h g.2

end Sys2Proof.Machine
end

