-- ==== Sys2Proof/Laws/Canon.lean ====
section
/-! SUPPORT. The canonical form of the register file and of memory is kept by every operation of the block: one lemma for each
operation that answers a chip. -/

open Sys2Proof Sys2Proof.Machine

namespace Sys2Proof.Machine

/-- A register file in canonical form. -/
def RegsOk (l : List (Nat × Word)) : Prop := Sparse.wf regReset l = true

/-- A memory in canonical form. -/
def MemOk (l : List (Nat × Byte)) : Prop := Sparse.wf (fun _ => memDefault) l = true

theorem canon_mk {regs mem ue time jrnQ out freeCount reqs prk fs vlm cores planes palLive palShadow palLog motifB motif apq eye eyeCoef pipeFailed bmo snd tmr chk bob ser drn ltn emb lcy dbg host tirba rst} (hr : RegsOk regs) (hm : MemOk mem) : Chip.canon ⟨regs, mem, ue, time, jrnQ, out, freeCount, reqs, prk, fs, vlm, cores, planes, palLive, palShadow, palLog, motifB, motif, apq, eye, eyeCoef, pipeFailed, bmo, snd, tmr, chk, bob, ser, drn, ltn, emb, lcy, dbg, host, tirba, rst⟩ := ⟨hr, hm⟩

theorem regsOk {c : Chip} (h : c.canon) : RegsOk c.regs := h.1

theorem memOk {c : Chip} (h : c.canon) : MemOk c.mem := h.2

theorem snd_of {α : Type} {x : α × Chip} {a : α} {c : Chip} (e : x = (a, c)) (h : x.2.canon) : c.canon := by rw [e] at h; exact h

theorem thd_of {α β : Type} {x : α × β × Chip} {a : α} {b : β} {c : Chip} (e : x = (a, b, c))
    (h : x.2.2.canon) : c.canon := by rw [e] at h; exact h

theorem forEach_canon {α : Type} {f : α → Chip → Chip} {l : List α} {c : Chip} (hf : ∀ a s, s.canon → (f a s).canon)
    (h : c.canon) : (forEach l f c).canon :=
  forEach_keeps Chip.canon f l c hf h

theorem ite_canon {p : Prop} [Decidable p] {x y : Chip} (hx : x.canon) (hy : y.canon) : (if p then x else y).canon := by
  split
  · exact hx
  · exact hy

theorem ite_canon2 {α : Type} {p : Prop} [Decidable p] {x y : α × Chip} (hx : x.2.canon) (hy : y.2.canon) :
    (if p then x else y).2.canon := by
  split
  · exact hx
  · exact hy

theorem ite_canon3 {α β : Type} {p : Prop} [Decidable p] {x y : α × β × Chip} (hx : x.2.2.canon) (hy : y.2.2.canon) :
    (if p then x else y).2.2.canon := by
  split
  · exact hx
  · exact hy

theorem Chip.wr_canon (a0 : Nat) (a1 : Word) (a2 : Chip) (h2 : a2.canon) : (Chip.wr a0 a1 a2).canon := by
  exact ⟨a2.regsWf_wr _ _ h2.1, h2.2⟩

theorem Chip.wf_canon (a0 : Nat) (a1 : Nat) (a2 : Nat) (a3 : Nat) (a4 : Chip) (h4 : a4.canon) :
    (Chip.wf a0 a1 a2 a3 a4).canon := by
  unfold Chip.wf; with_reducible repeat' (first | assumption | apply Chip.wr_canon)

theorem Chip.wb_canon (a0 : Nat) (a1 : Nat) (a2 : Bool) (a3 : Chip) (h3 : a3.canon) : (Chip.wb a0 a1 a2 a3).canon := by
  unfold Chip.wb; with_reducible repeat' (first | assumption | apply Chip.wr_canon)

theorem Chip.sb_canon (a0 : Nat) (a1 : Nat) (a2 : Chip) (h2 : a2.canon) : (Chip.sb a0 a1 a2).canon := by
  unfold Chip.sb; with_reducible repeat' (first | assumption | apply Chip.wb_canon)

theorem Chip.sbIf_canon (a0 : Bool) (a1 : Nat) (a2 : Nat) (a3 : Chip) (h3 : a3.canon) : (Chip.sbIf a0 a1 a2 a3).canon := by
  unfold Chip.sbIf; with_reducible repeat' (first | assumption | apply Chip.sb_canon | apply ite_canon)

theorem Chip.incSat_canon (a0 : Nat) (a1 : Chip) (h1 : a1.canon) : (Chip.incSat a0 a1).canon := by
  unfold Chip.incSat; with_reducible repeat' (first | assumption | apply Chip.wr_canon)

theorem Chip.incWrap_canon (a0 : Nat) (a1 : Chip) (h1 : a1.canon) : (Chip.incWrap a0 a1).canon := by
  unfold Chip.incWrap; with_reducible repeat' (first | assumption | apply Chip.wr_canon)

theorem Chip.when_canon (a0 : Bool) (a1 : Chip → Chip) (a2 : Chip) (h1 : ∀ x0, x0.canon → (a1 x0).canon) (h2 : a2.canon) :
    (Chip.when a0 a1 a2).canon := by
  unfold Chip.when; with_reducible repeat' (first | assumption | apply h1 | apply ite_canon)

theorem Chip.store_canon (a0 : Nat) (a1 : Word) (a2 : Chip) (h2 : a2.canon) : (Chip.store a0 a1 a2).canon := by
  unfold Chip.store; with_reducible repeat' (first
    | assumption | apply Chip.wr_canon | refine snd_of (by assumption) ?_ | refine thd_of (by assumption) ?_ | split)

theorem Chip.setByte_canon (a0 : Nat) (a1 : Byte) (a2 : Chip) (h2 : a2.canon) : (Chip.setByte a0 a1 a2).canon := by
  exact ⟨h2.1, a2.memWf_setByte _ _ h2.2⟩

theorem Chip.setBytes_canon (a0 : Nat) (a1 : List Byte) (a2 : Chip) (h2 : a2.canon) : (Chip.setBytes a0 a1 a2).canon := by
  fun_induction Chip.setBytes a0 a1 a2 <;> with_reducible repeat' (first
    | assumption | apply_assumption | apply Chip.setByte_canon)

theorem Chip.memWrite_canon (a0 : Nat) (a1 : List Byte) (a2 : Chip) (h2 : a2.canon) : (Chip.memWrite a0 a1 a2).canon := by
  unfold Chip.memWrite; with_reducible repeat' (first
    | assumption | apply Chip.setBytes_canon | apply canon_mk | (apply regsOk; first | assumption | apply Chip.setBytes_canon)
    | (apply memOk; first | assumption | apply Chip.setBytes_canon))

theorem Chip.vWrite_canon (a0 : Nat) (a1 : List Byte) (a2 : Chip) (h2 : a2.canon) : (Chip.vWrite a0 a1 a2).canon := by
  unfold Chip.vWrite; with_reducible repeat' (first | assumption | apply Chip.memWrite_canon)

theorem Chip.emit_canon (a0 : Output) (a1 : Chip) (h1 : a1.canon) : (Chip.emit a0 a1).canon := by
  unfold Chip.emit; with_reducible repeat' (first
    | assumption | apply canon_mk | (apply regsOk; first | assumption) | (apply memOk; first | assumption))

theorem Chip.fresh_canon (a0 : Chip) (h0 : a0.canon) : (Chip.fresh a0).2.canon := by
  unfold Chip.fresh; with_reducible repeat' (first
    | assumption | apply canon_mk | (apply regsOk; first | assumption) | (apply memOk; first | assumption))

theorem Chip.journal_canon (a0 : Nat) (a1 : Nat) (a2 : Nat) (a3 : Word) (a4 : Word) (a5 : Word) (a6 : Chip) (h6 : a6.canon) :
    (Chip.journal a0 a1 a2 a3 a4 a5 a6).canon := by
  unfold Chip.journal; with_reducible repeat' (first
    | assumption | apply canon_mk | (apply regsOk; first | assumption) | (apply memOk; first | assumption))

theorem Chip.accLog_canon (a0 : Nat) (a1 : Nat) (a2 : Word) (a3 : Chip) (h3 : a3.canon) : (Chip.accLog a0 a1 a2 a3).canon := by
  unfold Chip.accLog; with_reducible repeat' (first
    | assumption | apply Chip.sb_canon | apply Chip.wr_canon | apply Chip.wf_canon | apply ite_canon)

theorem Chip.merge_canon (a0 : Bool) (a1 : Nat) (a2 : Chip) (h2 : a2.canon) : (Chip.merge a0 a1 a2).canon := by
  unfold Chip.merge; with_reducible repeat' (first | assumption | apply Chip.sbIf_canon)

theorem Chip.request_canon (a0 : Nat) (a1 : Nat) (a2 : Bool) (a3 : Option Nat) (a4 : Chip) (h4 : a4.canon) : (Chip.request a0
  a1 a2 a3 a4).canon := by
  unfold Chip.request; with_reducible repeat' (first
    | assumption | intro _ | apply Chip.merge_canon | apply ite_canon | apply ite_canon2 | apply ite_canon3 |
      refine snd_of (by assumption) ?_ | refine thd_of (by assumption) ?_ | split | apply canon_mk
    | (apply regsOk; first | assumption | apply Chip.merge_canon | apply ite_canon)
    | (apply memOk; first | assumption | apply Chip.merge_canon | apply ite_canon)
    | dsimp only)

theorem Chip.ack_canon (a0 : EvReq) (a1 : Chip) (h1 : a1.canon) : (Chip.ack a0 a1).canon := by
  unfold Chip.ack; with_reducible repeat' (first
    | assumption | intro _ | apply ite_canon | apply ite_canon2 | apply ite_canon3 | refine snd_of (by assumption) ?_ |
      refine thd_of (by assumption) ?_ | split | apply canon_mk
    | (apply regsOk; first | assumption | apply ite_canon)
    | (apply memOk; first | assumption | apply ite_canon)
    | dsimp only)

theorem Chip.onCore_canon (a0 : Core) (a1 : CoreSt → CoreSt) (a2 : Chip) (h2 : a2.canon) : (Chip.onCore a0 a1 a2).canon := by
  unfold Chip.onCore; with_reducible repeat' (first
    | assumption | apply canon_mk | (apply regsOk; first | assumption) | (apply memOk; first | assumption))

theorem Chip.onBeam_canon (a0 : Beam) (a1 : PrkBeam → PrkBeam) (a2 : Chip) (h2 : a2.canon) : (Chip.onBeam a0 a1 a2).canon := by
  unfold Chip.onBeam; with_reducible repeat' (first
    | assumption | apply canon_mk | (apply regsOk; first | assumption) | (apply memOk; first | assumption))

theorem Chip.setPos_canon (a0 : Beam) (a1 : Nat) (a2 : Nat) (a3 : Chip) (h3 : a3.canon) : (Chip.setPos a0 a1 a2 a3).canon := by
  unfold Chip.setPos; with_reducible repeat' (first | assumption | apply Chip.wr_canon)

theorem Chip.hold_canon (a0 : Beam) (a1 : HeldWrite) (a2 : Chip) (h2 : a2.canon) : (Chip.hold a0 a1 a2).canon := by
  unfold Chip.hold; with_reducible repeat' (first
    | assumption | intro _ | apply Chip.sb_canon | apply canon_mk | (apply regsOk; first | assumption)
    | (apply memOk; first | assumption))

theorem Chip.onBank_canon (a0 : Nat) (a1 : BankSt → BankSt) (a2 : Chip) (h2 : a2.canon) : (Chip.onBank a0 a1 a2).canon := by
  unfold Chip.onBank; with_reducible repeat' (first
    | assumption | apply canon_mk | (apply regsOk; first | assumption) | (apply memOk; first | assumption))

theorem Chip.freeStart_canon (a0 : Chip) (h0 : a0.canon) : (Chip.freeStart a0).canon := by
  unfold Chip.freeStart; with_reducible repeat' (first
    | assumption | intro _ | apply ite_canon | apply ite_canon2 | apply ite_canon3 | refine snd_of (by assumption) ?_ |
      refine thd_of (by assumption) ?_ | split | apply canon_mk
    | (apply regsOk; first | assumption | apply ite_canon)
    | (apply memOk; first | assumption | apply ite_canon)
    | dsimp only)

theorem Chip.wantDarn_canon (a0 : Nat) (a1 : Nat) (a2 : Chip) (h2 : a2.canon) : (Chip.wantDarn a0 a1 a2).canon := by
  unfold Chip.wantDarn; with_reducible repeat' (first
    | assumption | intro _ | apply ite_canon | apply ite_canon2 | apply ite_canon3 | refine snd_of (by assumption) ?_ |
      refine thd_of (by assumption) ?_ | split | apply canon_mk
    | (apply regsOk; first | assumption | apply ite_canon)
    | (apply memOk; first | assumption | apply ite_canon)
    | dsimp only)

theorem Chip.suspect_canon (a0 : Nat) (a1 : Chip) (h1 : a1.canon) : (Chip.suspect a0 a1).canon := by
  unfold Chip.suspect; with_reducible repeat' (first
    | assumption | intro _ | apply Chip.sb_canon | apply Chip.journal_canon | apply Chip.wantDarn_canon | apply ite_canon |
      apply ite_canon2 | apply ite_canon3 | refine snd_of (by assumption) ?_ | refine thd_of (by assumption) ?_ | split |
      dsimp only)

theorem Chip.errRecord_canon (a0 : Bool) (a1 : Byte) (a2 : Nat) (a3 : VClass) (a4 : Nat) (a5 : Nat) (a6 : Chip)
    (h6 : a6.canon) : (Chip.errRecord a0 a1 a2 a3 a4 a5 a6).canon := by
  unfold Chip.errRecord; with_reducible repeat' (first | assumption | apply Chip.wr_canon | apply ite_canon)

theorem Chip.vCe_canon (a0 : Nat) (a1 : VClass) (a2 : Nat) (a3 : Nat) (a4 : Byte) (a5 : Chip) (h5 : a5.canon) :
    (Chip.vCe a0 a1 a2 a3 a4 a5).canon := by
  unfold Chip.vCe; with_reducible repeat' (first
    | assumption | intro _ | apply Chip.errRecord_canon | apply Chip.sb_canon | apply Chip.incSat_canon
    | apply Chip.onBank_canon | apply Chip.when_canon | apply Chip.suspect_canon)

theorem Chip.vUe_canon (a0 : Nat) (a1 : VClass) (a2 : Nat) (a3 : Nat) (a4 : Byte) (a5 : Chip) (h5 : a5.canon) :
    (Chip.vUe a0 a1 a2 a3 a4 a5).canon := by
  unfold Chip.vUe; with_reducible repeat' (first
    | assumption | intro _ | apply Chip.errRecord_canon | apply Chip.sb_canon | apply Chip.incSat_canon
    | apply Chip.suspect_canon | apply Chip.onBank_canon)

theorem Chip.markUe_canon (a0 : Nat) (a1 : Byte) (a2 : Chip) (h2 : a2.canon) : (Chip.markUe a0 a1 a2).canon := by
  unfold Chip.markUe; with_reducible repeat' (first
    | assumption | intro _ | apply ite_canon | apply ite_canon2 | apply ite_canon3 | refine snd_of (by assumption) ?_ |
      refine thd_of (by assumption) ?_ | split | apply canon_mk
    | (apply regsOk; first | assumption | apply ite_canon)
    | (apply memOk; first | assumption | apply ite_canon)
    | dsimp only)

theorem Chip.vFindIn_canon (a0 : Bool) (a1 : VClass) (a2 : Nat) (a3 : Nat) (a4 : Option Ecc) (a5 : Chip) (h5 : a5.canon) :
  (Chip.vFindIn a0 a1 a2 a3 a4 a5).canon := by
  unfold Chip.vFindIn; with_reducible repeat' (first
    | assumption | intro _ | apply Chip.vUe_canon | apply Chip.vCe_canon | apply Chip.markUe_canon | apply ite_canon |
      apply ite_canon2 | apply ite_canon3 | refine snd_of (by assumption) ?_ | refine thd_of (by assumption) ?_ | split |
      dsimp only)

theorem Chip.vFind_canon (a0 : VClass) (a1 : Nat) (a2 : Nat) (a3 : Option Ecc) (a4 : Chip) (h4 : a4.canon) : (Chip.vFind a0
  a1 a2 a3 a4).canon := by
  unfold Chip.vFind; with_reducible repeat' (first
    | assumption | intro _ | apply Chip.vFindIn_canon | apply ite_canon | apply ite_canon2 | apply ite_canon3 |
      refine snd_of (by assumption) ?_ | refine thd_of (by assumption) ?_ | split | dsimp only)

theorem Chip.tokPeak_canon (a0 : Chip) (h0 : a0.canon) : (Chip.tokPeak a0).canon := by
  unfold Chip.tokPeak; with_reducible repeat' (first | assumption | apply Chip.wf_canon | apply ite_canon)

theorem Chip.tokTouch_canon (a0 : VClass) (a1 : Chip) (h1 : a1.canon) : (Chip.tokTouch a0 a1).canon := by
  unfold Chip.tokTouch; with_reducible repeat' (first
    | assumption | intro _ | apply Chip.wf_canon | apply ite_canon | apply ite_canon2 | apply ite_canon3 |
      refine snd_of (by assumption) ?_ | refine thd_of (by assumption) ?_ | split | dsimp only)

theorem Chip.vReadEcc_canon (a0 : VClass) (a1 : Nat) (a2 : Nat) (a3 : Nat) (a4 : List (Option Ecc)) (a5 : Chip) (h5 :
  a5.canon) : (Chip.vReadEcc a0 a1 a2 a3 a4 a5).2.2.canon := by
  unfold Chip.vReadEcc; with_reducible repeat' (first
    | assumption | intro _ | apply Chip.vFind_canon | apply Chip.when_canon | apply Chip.tokTouch_canon |
      refine forEach_canon ?_ ?_ | apply ite_canon | apply ite_canon2 | apply ite_canon3 | refine snd_of (by assumption) ?_ |
      refine thd_of (by assumption) ?_ | split | dsimp only)

theorem Chip.vRead_canon (a0 : VClass) (a1 : Nat) (a2 : Nat) (a3 : Nat) (a4 : Chip) (h4 : a4.canon) : (Chip.vRead a0 a1 a2 a3
  a4).2.2.canon := by
  unfold Chip.vRead; with_reducible repeat' (first
    | assumption | intro _ | apply Chip.vReadEcc_canon | apply ite_canon | apply ite_canon2 | apply ite_canon3 |
      refine snd_of (by assumption) ?_ | refine thd_of (by assumption) ?_ | split | dsimp only)

theorem Chip.setReqs_canon (a0 : List VReq) (a1 : Chip) (h1 : a1.canon) : (Chip.setReqs a0 a1).canon := by
  unfold Chip.setReqs; with_reducible repeat' (first
    | assumption | apply canon_mk | (apply regsOk; first | assumption) | (apply memOk; first | assumption))

theorem Chip.issueRead_canon (a0 : VClass) (a1 : Nat) (a2 : Nat) (a3 : Nat) (a4 : Chip) (h4 : a4.canon) :
    (Chip.issueRead a0 a1 a2 a3 a4).canon := by
  unfold Chip.issueRead; with_reducible repeat' (first
    | assumption | intro _ | apply Chip.tokPeak_canon | apply Chip.setReqs_canon)

theorem Chip.issueWrite_canon (a0 : VClass) (a1 : Nat) (a2 : Nat) (a3 : Nat) (a4 : List (Option Byte)) (a5 : Chip)
    (h5 : a5.canon) : (Chip.issueWrite a0 a1 a2 a3 a4 a5).canon := by
  unfold Chip.issueWrite; with_reducible repeat' (first | assumption | intro _ | apply Chip.setReqs_canon)

theorem Chip.acquire_canon (a0 : Chip) (h0 : a0.canon) : (Chip.acquire a0).canon := by
  unfold Chip.acquire; with_reducible repeat' (first
    | assumption | intro _ | apply Chip.tokPeak_canon | apply Chip.setReqs_canon | refine snd_of (by assumption) ?_
    | refine thd_of (by assumption) ?_ | split | apply canon_mk | (apply regsOk; first | assumption | apply Chip.tokPeak_canon)
    | (apply memOk; first | assumption | apply Chip.tokPeak_canon))

theorem Chip.acceptWrite_canon (a0 : Nat) (a1 : Chip) (h1 : a1.canon) : (Chip.acceptWrite a0 a1).canon := by
  unfold Chip.acceptWrite; with_reducible repeat' (first | assumption | intro _ | apply Chip.setReqs_canon | apply ite_canon)

theorem storeEnabled_canon (a0 : Nat) (a1 : List (Option Byte)) (a2 : Chip) (h2 : a2.canon) : (storeEnabled a0 a1 a2).canon := by
  fun_induction storeEnabled a0 a1 a2 <;> with_reducible repeat' (first
    | assumption | apply_assumption | apply Chip.setByte_canon)

theorem Chip.applyWrite_canon (a0 : VReq) (a1 : Chip) (h1 : a1.canon) : (Chip.applyWrite a0 a1).canon := by
  unfold Chip.applyWrite; with_reducible repeat' (first
    | assumption | apply storeEnabled_canon | apply canon_mk | (apply regsOk; first | assumption | apply storeEnabled_canon)
    | (apply memOk; first | assumption | apply storeEnabled_canon))

theorem Chip.grant_canon (a0 : Nat) (a1 : Chip) (h1 : a1.canon) : (Chip.grant a0 a1).canon := by
  unfold Chip.grant; with_reducible repeat' (first
    | assumption | intro _ | apply Chip.onBank_canon | apply Chip.tokTouch_canon | apply Chip.setReqs_canon |
      apply Chip.applyWrite_canon | apply ite_canon | apply ite_canon2 | apply ite_canon3 | refine snd_of (by assumption) ?_
      | refine thd_of (by assumption) ?_ | split | dsimp only)

theorem Chip.readDone_canon (a0 : VClass) (a1 : Nat) (a2 : List (Option Ecc)) (a3 : Chip) (h3 : a3.canon) : (Chip.readDone a0
  a1 a2 a3).canon := by
  unfold Chip.readDone; with_reducible repeat' (first
    | assumption | intro _ | apply Chip.vFindIn_canon | refine forEach_canon ?_ ?_ | apply ite_canon | apply ite_canon2 |
      apply ite_canon3 | refine snd_of (by assumption) ?_ | refine thd_of (by assumption) ?_ | split | apply canon_mk
    | (apply regsOk; first | assumption | apply Chip.vFindIn_canon | refine forEach_canon ?_ ?_ | apply ite_canon)
    | (apply memOk; first | assumption | apply Chip.vFindIn_canon | refine forEach_canon ?_ ?_ | apply ite_canon)
    | dsimp only)

theorem Chip.slotClose_canon (a0 : Chip) (h0 : a0.canon) : (Chip.slotClose a0).canon := by
  unfold Chip.slotClose; with_reducible repeat' (first
    | assumption | intro _ | apply canon_mk | (apply regsOk; first | assumption) | (apply memOk; first | assumption))

theorem Chip.bankMiss_canon (a0 : Nat) (a1 : Chip) (h1 : a1.canon) : (Chip.bankMiss a0 a1).canon := by
  unfold Chip.bankMiss; with_reducible repeat' (first
    | assumption | intro _ | apply Chip.onBank_canon | apply Chip.sb_canon | apply ite_canon)

theorem Chip.slotOpen_canon (a0 : Chip) (h0 : a0.canon) : (Chip.slotOpen a0).canon := by
  unfold Chip.slotOpen; with_reducible repeat' (first
    | assumption | intro _ | apply Chip.slotClose_canon | apply Chip.onBank_canon | apply Chip.bankMiss_canon |
      refine forEach_canon ?_ ?_ | apply ite_canon | apply ite_canon2 | apply ite_canon3 | refine snd_of (by assumption) ?_ |
      refine thd_of (by assumption) ?_ | split | apply canon_mk
    | (apply regsOk; first
      | assumption | apply Chip.slotClose_canon | apply Chip.onBank_canon | apply Chip.bankMiss_canon |
        refine forEach_canon ?_ ?_ | apply ite_canon)
    | (apply memOk; first
      | assumption | apply Chip.slotClose_canon | apply Chip.onBank_canon | apply Chip.bankMiss_canon |
        refine forEach_canon ?_ ?_ | apply ite_canon)
    | dsimp only)

theorem Chip.slotShed_canon (a0 : Chip) (h0 : a0.canon) : (Chip.slotShed a0).canon := by
  unfold Chip.slotShed; with_reducible repeat' (first
    | assumption | intro _ | apply Chip.slotClose_canon | apply Chip.bankMiss_canon | apply forEach_canon | apply ite_canon)

theorem Chip.slotPromote_canon (a0 : Chip) (h0 : a0.canon) : (Chip.slotPromote a0).canon := by
  unfold Chip.slotPromote; with_reducible repeat' (first
    | assumption | intro _ | apply Chip.onBank_canon | apply forEach_canon | apply ite_canon)

theorem Chip.scrubWord_canon (a0 : Nat) (a1 : Nat) (a2 : Option Ecc) (a3 : Chip) (h3 : a3.canon) : (Chip.scrubWord a0 a1 a2
  a3).canon := by
  unfold Chip.scrubWord; with_reducible repeat' (first
    | assumption | intro _ | apply Chip.vFind_canon | apply Chip.vUe_canon | apply Chip.vCe_canon | apply ite_canon |
      apply ite_canon2 | apply ite_canon3 | refine snd_of (by assumption) ?_ | refine thd_of (by assumption) ?_ | split |
      apply canon_mk
    | (apply regsOk; first
      | assumption | apply Chip.vFind_canon | apply Chip.vUe_canon | apply Chip.vCe_canon | apply ite_canon)
    | (apply memOk; first
      | assumption | apply Chip.vFind_canon | apply Chip.vUe_canon | apply Chip.vCe_canon | apply ite_canon)
    | dsimp only)

theorem Chip.passEnd_canon (a0 : Chip) (h0 : a0.canon) : (Chip.passEnd a0).canon := by
  unfold Chip.passEnd; with_reducible repeat' (first
    | assumption | intro _ | apply Chip.onBank_canon | apply Chip.incWrap_canon | apply forEach_canon | apply ite_canon)

theorem Chip.slotDone_canon (a0 : Nat) (a1 : List (Nat × Ecc)) (a2 : Chip) (h2 : a2.canon) : (Chip.slotDone a0 a1 a2).canon := by
  unfold Chip.slotDone; with_reducible repeat' (first
    | assumption | intro _ | apply Chip.scrubWord_canon | apply Chip.passEnd_canon | apply Chip.slotClose_canon
    | apply Chip.onBank_canon | apply forEach_canon | apply ite_canon)

theorem Chip.scrubOff_canon (a0 : Chip) (h0 : a0.canon) : (Chip.scrubOff a0).canon := by
  unfold Chip.scrubOff; with_reducible repeat' (first
    | assumption | intro _ | apply Chip.slotClose_canon | apply Chip.onBank_canon | apply forEach_canon)

theorem Chip.setRecEntry_canon (a0 : Nat) (a1 : Nat) (a2 : Chip) (h2 : a2.canon) : (Chip.setRecEntry a0 a1 a2).canon := by
  unfold Chip.setRecEntry; with_reducible repeat' (first | assumption | apply Chip.wf_canon)

theorem Chip.recordAdd_canon (a0 : Nat) (a1 : Nat) (a2 : Nat) (a3 : Chip) (h3 : a3.canon) :
    (Chip.recordAdd a0 a1 a2 a3).canon := by
  unfold Chip.recordAdd; with_reducible repeat' (first
    | assumption | intro _ | apply Chip.setRecEntry_canon | apply ite_canon | refine snd_of (by assumption) ?_
    | refine thd_of (by assumption) ?_ | split)

theorem Chip.darned_canon (a0 : Nat) (a1 : Nat) (a2 : Nat) (a3 : Chip) (h3 : a3.canon) : (Chip.darned a0 a1 a2 a3).canon := by
  unfold Chip.darned; with_reducible repeat' (first
    | assumption | intro _ | apply Chip.when_canon | apply Chip.recordAdd_canon | apply canon_mk
    | (apply regsOk; first | assumption | apply Chip.when_canon) | (apply memOk; first | assumption | apply Chip.when_canon))

theorem Chip.copyAbort_canon (a0 : Chip) (h0 : a0.canon) : (Chip.copyAbort a0).canon := by
  unfold Chip.copyAbort; with_reducible repeat' (first
    | assumption | apply Chip.sb_canon | apply Chip.wb_canon | apply Chip.journal_canon | apply ite_canon)

theorem Chip.mapSwitch_canon (a0 : Nat) (a1 : Nat) (a2 : Chip) (h2 : a2.canon) : (Chip.mapSwitch a0 a1 a2).canon := by
  unfold Chip.mapSwitch; with_reducible repeat' (first
    | assumption | apply canon_mk | (apply regsOk; first | assumption) | (apply memOk; first | assumption))

theorem Chip.spareMarks_canon (a0 : Nat) (a1 : Nat) (a2 : Chip) (h2 : a2.canon) : (Chip.spareMarks a0 a1 a2).canon := by
  unfold Chip.spareMarks; with_reducible repeat' (first
    | assumption | intro _ | refine forEach_canon ?_ ?_ | apply ite_canon | apply ite_canon2 | apply ite_canon3 |
      refine snd_of (by assumption) ?_ | refine thd_of (by assumption) ?_ | split | apply canon_mk
    | (apply regsOk; first | assumption | refine forEach_canon ?_ ?_ | apply ite_canon)
    | (apply memOk; first | assumption | refine forEach_canon ?_ ?_ | apply ite_canon)
    | dsimp only)

theorem Chip.undefBank_canon (a0 : Nat) (a1 : Chip) (h1 : a1.canon) : (Chip.undefBank a0 a1).canon := by
  unfold Chip.undefBank; with_reducible repeat' (first
    | assumption | intro _ | apply Chip.fresh_canon | apply Chip.memWrite_canon | apply forEach_canon)

theorem Chip.copyNoCopy_canon (a0 : Nat) (a1 : Nat) (a2 : Chip) (h2 : a2.canon) : (Chip.copyNoCopy a0 a1 a2).canon := by
  unfold Chip.copyNoCopy; with_reducible repeat' (first
    | assumption | intro _ | apply Chip.mapSwitch_canon | apply Chip.spareMarks_canon | apply Chip.undefBank_canon |
      apply ite_canon | apply ite_canon2 | apply ite_canon3 | refine snd_of (by assumption) ?_ |
      refine thd_of (by assumption) ?_ | split | dsimp only)

theorem Chip.copyGo_canon (a0 : Nat) (a1 : Nat) (a2 : Chip) (h2 : a2.canon) : (Chip.copyGo a0 a1 a2).canon := by
  unfold Chip.copyGo; with_reducible repeat' (first
    | assumption | intro _ | apply Chip.slotClose_canon | apply Chip.bankMiss_canon | apply Chip.journal_canon |
      apply Chip.wr_canon | refine forEach_canon ?_ ?_ | apply ite_canon | apply ite_canon2 | apply ite_canon3 |
      refine snd_of (by assumption) ?_ | refine thd_of (by assumption) ?_ | split | apply canon_mk
    | (apply regsOk; first
      | assumption | apply Chip.slotClose_canon | apply Chip.bankMiss_canon | apply Chip.journal_canon | apply Chip.wr_canon
        | refine forEach_canon ?_ ?_ | apply ite_canon)
    | (apply memOk; first
      | assumption | apply Chip.slotClose_canon | apply Chip.bankMiss_canon | apply Chip.journal_canon | apply Chip.wr_canon
        | refine forEach_canon ?_ ?_ | apply ite_canon)
    | dsimp only)

theorem Chip.storeDrnCopy_canon (a0 : Word) (a1 : Chip) (h1 : a1.canon) : (Chip.storeDrnCopy a0 a1).canon := by
  unfold Chip.storeDrnCopy; with_reducible repeat' (first
    | assumption | apply Chip.copyAbort_canon | apply Chip.store_canon | apply Chip.copyNoCopy_canon | apply Chip.copyGo_canon
    | apply ite_canon)

theorem Chip.copyRelease_canon (a0 : Chip) (h0 : a0.canon) : (Chip.copyRelease a0).canon := by
  unfold Chip.copyRelease; with_reducible repeat' (first
    | assumption | intro _ | apply ite_canon | apply ite_canon2 | apply ite_canon3 | refine snd_of (by assumption) ?_ |
      refine thd_of (by assumption) ?_ | split | apply canon_mk
    | (apply regsOk; first | assumption | apply ite_canon)
    | (apply memOk; first | assumption | apply ite_canon)
    | dsimp only)

theorem Chip.copyGranule_canon (a0 : List (Option Ecc)) (a1 : Chip) (h1 : a1.canon) : (Chip.copyGranule a0 a1).canon := by
  unfold Chip.copyGranule; with_reducible repeat' (first
    | assumption | intro _ | apply Chip.tokTouch_canon | apply Chip.vFind_canon | apply Chip.wf_canon | apply Chip.sb_canon |
      apply Chip.wb_canon | apply Chip.mapSwitch_canon | apply Chip.darned_canon | apply Chip.journal_canon |
      refine forEach_canon ?_ ?_ | apply ite_canon | apply ite_canon2 | apply ite_canon3 | refine snd_of (by assumption) ?_ |
      refine thd_of (by assumption) ?_ | split | apply canon_mk
    | (apply regsOk; first
      | assumption | apply Chip.tokTouch_canon | apply Chip.vFind_canon | apply Chip.wf_canon | apply Chip.sb_canon |
        apply Chip.wb_canon | apply Chip.mapSwitch_canon | apply Chip.darned_canon | apply Chip.journal_canon |
        refine forEach_canon ?_ ?_ | apply ite_canon)
    | (apply memOk; first
      | assumption | apply Chip.tokTouch_canon | apply Chip.vFind_canon | apply Chip.wf_canon | apply Chip.sb_canon |
        apply Chip.wb_canon | apply Chip.mapSwitch_canon | apply Chip.darned_canon | apply Chip.journal_canon |
        refine forEach_canon ?_ ?_ | apply ite_canon)
    | dsimp only)

theorem Chip.cntClr_canon (a0 : Chip) (h0 : a0.canon) : (Chip.cntClr a0).canon := by
  unfold Chip.cntClr; with_reducible repeat' (first
    | assumption | intro _ | apply Chip.onBank_canon | apply Chip.wr_canon | apply forEach_canon)

theorem Chip.slotCount_canon (a0 : Chip) (h0 : a0.canon) : (Chip.slotCount a0).canon := by
  unfold Chip.slotCount; with_reducible repeat' (first
    | assumption | intro _ | apply ite_canon | apply ite_canon2 | apply ite_canon3 | refine snd_of (by assumption) ?_ |
      refine thd_of (by assumption) ?_ | split | apply canon_mk
    | (apply regsOk; first | assumption | apply ite_canon)
    | (apply memOk; first | assumption | apply ite_canon)
    | dsimp only)

theorem Chip.synClamp_canon (a0 : Beam) (a1 : Chip) (h1 : a1.canon) : (Chip.synClamp a0 a1).canon := by
  unfold Chip.synClamp; extract_lets x p y q; clear_value x y q; with_reducible repeat' (first
    | assumption | apply Chip.sb_canon | apply Chip.wf_canon | apply ite_canon)

theorem Chip.runSet_canon (a0 : Beam) (a1 : Chip) (h1 : a1.canon) : (Chip.runSet a0 a1).canon := by
  unfold Chip.runSet; with_reducible repeat' (first
    | assumption | intro _ | apply Chip.sb_canon | apply Chip.onBeam_canon | apply Chip.synClamp_canon | apply ite_canon)

theorem Chip.runClr_canon (a0 : Beam) (a1 : Chip) (h1 : a1.canon) : (Chip.runClr a0 a1).canon := by
  unfold Chip.runClr; with_reducible repeat' (first
    | assumption | intro _ | apply Chip.wb_canon | apply Chip.onBeam_canon | apply ite_canon)

theorem Chip.takeTiming_canon (a0 : Beam) (a1 : Chip) (h1 : a1.canon) : (Chip.takeTiming a0 a1).canon := by
  unfold Chip.takeTiming; with_reducible repeat' (first
    | assumption | intro _ | apply Chip.wf_canon | apply Chip.sbIf_canon | apply Chip.onBeam_canon)

theorem Chip.takeCommitLine_canon (a0 : Beam) (a1 : Chip) (h1 : a1.canon) : (Chip.takeCommitLine a0 a1).canon := by
  unfold Chip.takeCommitLine; with_reducible repeat' (first
    | assumption | intro _ | apply Chip.onBeam_canon | apply Chip.sbIf_canon)

theorem Chip.raiseEv_canon (a0 : Beam) (a1 : Nat) (a2 : Bool) (a3 : Chip) (h3 : a3.canon) : (Chip.raiseEv a0 a1 a2 a3).canon
  := by
  unfold Chip.raiseEv; with_reducible repeat' (first
    | assumption | intro _ | apply Chip.request_canon | apply Chip.sb_canon | apply Chip.merge_canon | apply ite_canon |
      apply ite_canon2 | apply ite_canon3 | refine snd_of (by assumption) ?_ | refine thd_of (by assumption) ?_ | split |
      dsimp only)

theorem Chip.lineDone_canon (a0 : Beam) (a1 : Nat) (a2 : Chip) (h2 : a2.canon) : (Chip.lineDone a0 a1 a2).canon := by
  unfold Chip.lineDone; with_reducible repeat' (first | assumption | intro _ | apply Chip.onBeam_canon | apply Chip.wf_canon)

theorem Chip.frameMin_canon (a0 : Beam) (a1 : Chip) (h1 : a1.canon) : (Chip.frameMin a0 a1).canon := by
  unfold Chip.frameMin; with_reducible repeat' (first | assumption | intro _ | apply Chip.onBeam_canon | apply Chip.wf_canon)

theorem Chip.rateAtVb0_canon (a0 : Beam) (a1 : Chip) (h1 : a1.canon) : (Chip.rateAtVb0 a0 a1).canon := by
  unfold Chip.rateAtVb0; with_reducible repeat' (first | assumption | intro _ | apply Chip.onBeam_canon | apply Chip.wf_canon)

theorem Chip.glkEdge_canon (a0 : Beam) (a1 : Nat) (a2 : Chip) (h2 : a2.canon) : (Chip.glkEdge a0 a1 a2).canon := by
  unfold Chip.glkEdge; with_reducible repeat' (first
    | assumption | intro _ | apply Chip.wf_canon | apply Chip.onBeam_canon | apply Chip.sb_canon | apply Chip.wb_canon
    | apply Chip.sbIf_canon | apply ite_canon)

theorem Chip.glkLoss_canon (a0 : Beam) (a1 : Chip) (h1 : a1.canon) : (Chip.glkLoss a0 a1).canon := by
  unfold Chip.glkLoss; with_reducible repeat' (first
    | assumption | intro _ | apply Chip.onBeam_canon | apply Chip.wb_canon | apply Chip.sb_canon)

theorem Chip.fsEmit_canon (a0 : Port) (a1 : Chip) (h1 : a1.canon) : (Chip.fsEmit a0 a1).canon := by
  unfold Chip.fsEmit; with_reducible repeat' (first | assumption | apply Chip.emit_canon)

theorem Chip.fsTake_canon (a0 : Port) (a1 : List (Beam × Bool × Word)) (a2 : List (Beam × Bool × Word)) (a3 : Chip) (h3 :
  a3.canon) : (Chip.fsTake a0 a1 a2 a3).canon := by
  unfold Chip.fsTake; with_reducible repeat' (first
    | assumption | intro _ | apply Chip.sbIf_canon | apply Chip.wr_canon | apply Chip.fsEmit_canon | apply ite_canon |
      apply ite_canon2 | apply ite_canon3 | refine snd_of (by assumption) ?_ | refine thd_of (by assumption) ?_ | split |
      apply canon_mk
    | (apply regsOk; first
      | assumption | apply Chip.sbIf_canon | apply Chip.wr_canon | apply Chip.fsEmit_canon | apply ite_canon)
    | (apply memOk; first
      | assumption | apply Chip.sbIf_canon | apply Chip.wr_canon | apply Chip.fsEmit_canon | apply ite_canon)
    | dsimp only)

theorem Chip.fsTakeAll_canon (a0 : Beam) (a1 : Chip) (h1 : a1.canon) : (Chip.fsTakeAll a0 a1).canon := by
  unfold Chip.fsTakeAll; with_reducible repeat' (first
    | assumption | intro _ | apply Chip.fsTake_canon | apply forEach_canon | apply ite_canon)

theorem Chip.fsLanded_canon (a0 : Port) (a1 : Bool) (a2 : Nat) (a3 : Word) (a4 : Chip) (h4 : a4.canon) : (Chip.fsLanded a0 a1
  a2 a3 a4).canon := by
  unfold Chip.fsLanded; with_reducible repeat' (first
    | assumption | intro _ | apply Chip.store_canon | apply Chip.fsTake_canon | apply ite_canon | apply ite_canon2 |
      apply ite_canon3 | refine snd_of (by assumption) ?_ | refine thd_of (by assumption) ?_ | split | apply canon_mk
    | (apply regsOk; first | assumption | apply Chip.store_canon | apply Chip.fsTake_canon | apply ite_canon)
    | (apply memOk; first | assumption | apply Chip.store_canon | apply Chip.fsTake_canon | apply ite_canon)
    | dsimp only)

theorem Chip.fsStop_canon (a0 : Beam) (a1 : Chip) (h1 : a1.canon) : (Chip.fsStop a0 a1).canon := by
  unfold Chip.fsStop; with_reducible repeat' (first
    | assumption | intro _ | apply Chip.fsEmit_canon | apply forEach_canon | apply ite_canon | refine snd_of (by assumption) ?_
    | refine thd_of (by assumption) ?_ | split | apply canon_mk | (apply regsOk; first | assumption)
    | (apply memOk; first | assumption))

theorem Chip.fsStart_canon (a0 : Port) (a1 : Chip) (h1 : a1.canon) : (Chip.fsStart a0 a1).canon := by
  unfold Chip.fsStart; with_reducible repeat' (first
    | assumption | intro _ | apply Chip.setPos_canon | apply Chip.fsEmit_canon | apply ite_canon | apply canon_mk
    | (apply regsOk; first | assumption | apply Chip.setPos_canon) | (apply memOk; first | assumption | apply Chip.setPos_canon))

theorem Chip.fsEnd_canon (a0 : Port) (a1 : Chip) (h1 : a1.canon) : (Chip.fsEnd a0 a1).canon := by
  unfold Chip.fsEnd; with_reducible repeat' (first
    | assumption | intro _ | apply Chip.fsEmit_canon | apply ite_canon | apply canon_mk | (apply regsOk; first | assumption)
    | (apply memOk; first | assumption))

theorem Chip.fsCapture_canon (a0 : Port) (a1 : Nat) (a2 : Chip) (h2 : a2.canon) : (Chip.fsCapture a0 a1 a2).canon := by
  unfold Chip.fsCapture; with_reducible repeat' (first | assumption | apply Chip.wr_canon)

theorem Chip.storePrk_canon (a0 : Beam) (a1 : Nat) (a2 : Word) (a3 : Chip) (h3 : a3.canon) : (Chip.storePrk a0 a1 a2
  a3).canon := by
  unfold Chip.storePrk; with_reducible repeat' (first
    | assumption | intro _ | apply Chip.runSet_canon | apply Chip.runClr_canon | apply Chip.onBeam_canon |
      apply Chip.wb_canon | apply Chip.fsLanded_canon | apply Chip.store_canon | apply ite_canon | apply ite_canon2 |
      apply ite_canon3 | refine snd_of (by assumption) ?_ | refine thd_of (by assumption) ?_ | split | dsimp only)

theorem Chip.onPlane_canon (a0 : Plane) (a1 : PlaneSt → PlaneSt) (a2 : Chip) (h2 : a2.canon) : (Chip.onPlane a0 a1 a2).canon := by
  unfold Chip.onPlane; with_reducible repeat' (first
    | assumption | apply canon_mk | (apply regsOk; first | assumption) | (apply memOk; first | assumption))

theorem Chip.palWrite_canon (a0 : Beam) (a1 : Nat) (a2 : Nat) (a3 : Word) (a4 : Chip) (h4 : a4.canon) : (Chip.palWrite a0 a1
  a2 a3 a4).canon := by
  unfold Chip.palWrite; with_reducible repeat' (first
    | assumption | intro _ | apply ite_canon | apply ite_canon2 | apply ite_canon3 | refine snd_of (by assumption) ?_ |
      refine thd_of (by assumption) ?_ | split | apply canon_mk
    | (apply regsOk; first | assumption | apply ite_canon)
    | (apply memOk; first | assumption | apply ite_canon)
    | dsimp only)

theorem Chip.palPrune_canon (a0 : Beam) (a1 : Chip) (h1 : a1.canon) : (Chip.palPrune a0 a1).canon := by
  unfold Chip.palPrune; with_reducible repeat' (first
    | assumption | intro _ | apply canon_mk | (apply regsOk; first | assumption) | (apply memOk; first | assumption))

theorem Chip.spalWrite_canon (a0 : Beam) (a1 : Nat) (a2 : Word) (a3 : Chip) (h3 : a3.canon) :
    (Chip.spalWrite a0 a1 a2 a3).canon := by
  unfold Chip.spalWrite; with_reducible repeat' (first
    | assumption | apply canon_mk | (apply regsOk; first | assumption) | (apply memOk; first | assumption))

theorem Chip.palTransfer_canon (a0 : Beam) (a1 : Chip) (h1 : a1.canon) : (Chip.palTransfer a0 a1).canon := by
  unfold Chip.palTransfer; with_reducible repeat' (first
    | assumption | intro _ | apply ite_canon | apply canon_mk | (apply regsOk; first | assumption)
    | (apply memOk; first | assumption))

theorem Chip.setPort_canon (a0 : Core) (a1 : Nat) (a2 : Word) (a3 : Chip) (h3 : a3.canon) : (Chip.setPort a0 a1 a2 a3).canon := by
  unfold Chip.setPort; with_reducible repeat' (first | assumption | intro _ | apply Chip.onCore_canon)

theorem Chip.portInc_canon (a0 : Core) (a1 : Nat) (a2 : Nat) (a3 : Chip) (h3 : a3.canon) : (Chip.portInc a0 a1 a2 a3).canon := by
  unfold Chip.portInc; with_reducible repeat' (first | assumption | apply Chip.setPort_canon | apply ite_canon)

theorem Chip.livePalData_canon (a0 : Core) (a1 : Beam) (a2 : Nat) (a3 : Word) (a4 : Chip) (h4 : a4.canon) : (Chip.livePalData
  a0 a1 a2 a3 a4).canon := by
  unfold Chip.livePalData; with_reducible repeat' (first
    | assumption | intro _ | apply Chip.portInc_canon | apply Chip.palWrite_canon | apply ite_canon | apply ite_canon2 |
      apply ite_canon3 | refine snd_of (by assumption) ?_ | refine thd_of (by assumption) ?_ | split | dsimp only)

theorem Chip.livePalStore_canon (a0 : Core) (a1 : Beam) (a2 : Word) (a3 : Chip) (h3 : a3.canon) : (Chip.livePalStore a0 a1 a2
  a3).canon := by
  unfold Chip.livePalStore; with_reducible repeat' (first
    | assumption | intro _ | apply Chip.fresh_canon | apply Chip.livePalData_canon | apply ite_canon | apply ite_canon2 |
      apply ite_canon3 | refine snd_of (by assumption) ?_ | refine thd_of (by assumption) ?_ | split | dsimp only)

theorem Chip.shadowPalData_canon (a0 : Core) (a1 : Beam) (a2 : Word) (a3 : Chip) (h3 : a3.canon) :
    (Chip.shadowPalData a0 a1 a2 a3).canon := by
  unfold Chip.shadowPalData; with_reducible repeat' (first
    | assumption | apply Chip.portInc_canon | apply Chip.hold_canon | apply Chip.spalWrite_canon | apply ite_canon)

theorem Chip.planeCapture_canon (a0 : Beam) (a1 : Nat) (a2 : Plane) (a3 : Chip) (h3 : a3.canon) :
    (Chip.planeCapture a0 a1 a2 a3).canon := by
  unfold Chip.planeCapture; with_reducible repeat' (first
    | assumption | intro _ | apply Chip.sbIf_canon | apply Chip.sb_canon | apply Chip.when_canon | apply Chip.vRead_canon
    | apply Chip.onPlane_canon | apply ite_canon)

theorem Chip.cacheRead_canon (a0 : Beam) (a1 : Plane) (a2 : Nat) (a3 : Chip) (h3 : a3.canon) :
    (Chip.cacheRead a0 a1 a2 a3).2.2.canon := by
  unfold Chip.cacheRead; with_reducible repeat' (first
    | assumption | intro _ | apply Chip.onPlane_canon | apply Chip.vRead_canon | refine snd_of (by assumption) ?_
    | refine thd_of (by assumption) ?_ | split | apply canon_mk
    | (apply regsOk; first | assumption | apply Chip.onPlane_canon | apply Chip.vRead_canon)
    | (apply memOk; first | assumption | apply Chip.onPlane_canon | apply Chip.vRead_canon) | dsimp only)

theorem Chip.planePixel_canon (a0 : Plane) (a1 : PlaneSnap) (a2 : Nat) (a3 : Chip) (h3 : a3.canon) :
    (Chip.planePixel a0 a1 a2 a3).2.canon := by
  unfold Chip.planePixel; with_reducible repeat' (first
    | assumption | apply Chip.sb_canon | apply Chip.cacheRead_canon | apply ite_canon | apply ite_canon2)

theorem Chip.planePixels_canon (a0 : Plane) (a1 : PlaneSnap) (a2 : List Nat) (a3 : Chip) (h3 : a3.canon) :
    (Chip.planePixels a0 a1 a2 a3).2.canon := by
  fun_induction Chip.planePixels a0 a1 a2 a3 <;> with_reducible repeat' (first
    | assumption | apply_assumption | apply Chip.planePixel_canon | refine snd_of (by assumption) ?_)

theorem Chip.fetchTo_canon (a0 : Plane) (a1 : PlaneSnap) (a2 : Nat) (a3 : Chip) (h3 : a3.canon) : (Chip.fetchTo a0 a1 a2
  a3).2.canon := by
  unfold Chip.fetchTo; with_reducible repeat' (first
    | assumption | intro _ | apply Chip.planePixels_canon | apply ite_canon | apply ite_canon2 | apply ite_canon3 |
      refine snd_of (by assumption) ?_ | refine thd_of (by assumption) ?_ | split | dsimp only)

theorem Chip.fetchLine_canon (a0 : Plane) (a1 : PlaneSnap) (a2 : Chip) (h2 : a2.canon) : (Chip.fetchLine a0 a1 a2).2.canon :=
  by
  unfold Chip.fetchLine; with_reducible repeat' (first
    | assumption | intro _ | apply Chip.vRead_canon | apply Chip.fetchTo_canon | refine forEach_canon ?_ ?_ | apply ite_canon
      | apply ite_canon2 | apply ite_canon3 | refine snd_of (by assumption) ?_ | refine thd_of (by assumption) ?_ | split |
      dsimp only)

theorem Chip.reportSlack_canon (a0 : Beam) (a1 : Nat) (a2 : Bool) (a3 : ℤ) (a4 : Chip) (h4 : a4.canon) : (Chip.reportSlack a0
  a1 a2 a3 a4).canon := by
  unfold Chip.reportSlack; with_reducible repeat' (first
    | assumption | intro _ | apply Chip.onBeam_canon | apply Chip.wf_canon | apply ite_canon | apply ite_canon2 |
      apply ite_canon3 | refine snd_of (by assumption) ?_ | refine thd_of (by assumption) ?_ | split | dsimp only)

theorem Chip.planeFetch_canon (a0 : Plane) (a1 : Beam) (a2 : Nat) (a3 : ℤ) (a4 : Chip) (h4 : a4.canon) : (Chip.planeFetch a0
  a1 a2 a3 a4).canon := by
  unfold Chip.planeFetch; with_reducible repeat' (first
    | assumption | intro _ | apply Chip.fetchLine_canon | apply Chip.onPlane_canon | apply Chip.reportSlack_canon |
      apply ite_canon | apply ite_canon2 | apply ite_canon3 | refine snd_of (by assumption) ?_ |
      refine thd_of (by assumption) ?_ | split | dsimp only)

theorem Chip.keepRead_canon (a0 : Plane) (a1 : List PlaneSnap) (a2 : Chip) (h2 : a2.canon) : (Chip.keepRead a0 a1 a2).2.canon
  := by
  fun_induction Chip.keepRead a0 a1 a2 <;> with_reducible repeat' (first
    | assumption | intro _ | apply_assumption | apply Chip.fresh_canon | apply Chip.fetchTo_canon | apply ite_canon |
      apply ite_canon2 | apply ite_canon3 | refine snd_of (by assumption) ?_ | refine thd_of (by assumption) ?_ | split |
      dsimp only)

theorem Chip.planeFlush_canon (a0 : Plane) (a1 : Chip) (h1 : a1.canon) : (Chip.planeFlush a0 a1).canon := by
  unfold Chip.planeFlush; with_reducible repeat' (first
    | assumption | intro _ | apply Chip.keepRead_canon | apply Chip.onPlane_canon | apply ite_canon | apply ite_canon2 |
      apply ite_canon3 | refine snd_of (by assumption) ?_ | refine thd_of (by assumption) ?_ | split | dsimp only)

theorem Chip.tileInval_canon (a0 : Nat) (a1 : Chip) (h1 : a1.canon) : (Chip.tileInval a0 a1).canon := by
  unfold Chip.tileInval; with_reducible repeat' (first
    | assumption | intro _ | apply Chip.planeFlush_canon | refine forEach_canon ?_ ?_ | apply ite_canon | apply ite_canon2 |
      apply ite_canon3 | refine snd_of (by assumption) ?_ | refine thd_of (by assumption) ?_ | split | dsimp only)

theorem Chip.cacheFlush_canon (a0 : Beam) (a1 : Chip) (h1 : a1.canon) : (Chip.cacheFlush a0 a1).canon := by
  unfold Chip.cacheFlush; with_reducible repeat' (first
    | assumption | intro _ | apply Chip.planeFlush_canon | refine forEach_canon ?_ ?_ | apply ite_canon | apply ite_canon2 |
      apply ite_canon3 | refine snd_of (by assumption) ?_ | refine thd_of (by assumption) ?_ | split | dsimp only)

theorem Chip.planeTransfer_canon (a0 : Beam) (a1 : Chip) (h1 : a1.canon) : (Chip.planeTransfer a0 a1).canon := by
  unfold Chip.planeTransfer; with_reducible repeat' (first
    | assumption | intro _ | apply Chip.wr_canon | apply Chip.sbIf_canon | apply forEach_canon | apply ite_canon)

theorem Chip.storeGnd_canon (a0 : Core) (a1 : Nat) (a2 : Word) (a3 : Chip) (h3 : a3.canon) : (Chip.storeGnd a0 a1 a2
  a3).canon := by
  unfold Chip.storeGnd; with_reducible repeat' (first
    | assumption | intro _ | apply Chip.tileInval_canon | apply Chip.setPort_canon | apply Chip.livePalStore_canon |
      apply Chip.shadowPalData_canon | apply Chip.hold_canon | apply Chip.store_canon | apply ite_canon | apply ite_canon2 |
      apply ite_canon3 | refine snd_of (by assumption) ?_ | refine thd_of (by assumption) ?_ | split | dsimp only)

theorem Chip.readGnd_canon (a0 : Core) (a1 : Nat) (a2 : Chip) (h2 : a2.canon) : (Chip.readGnd a0 a1 a2).2.canon := by
  unfold Chip.readGnd; with_reducible repeat' (first | assumption | apply Chip.portInc_canon | apply ite_canon | apply ite_canon2)

theorem Chip.onEye_canon (a0 : Port) (a1 : EyePort → EyePort) (a2 : Chip) (h2 : a2.canon) : (Chip.onEye a0 a1 a2).canon := by
  unfold Chip.onEye; with_reducible repeat' (first
    | assumption | apply canon_mk | (apply regsOk; first | assumption) | (apply memOk; first | assumption))

theorem Chip.eyeClampBits_canon (a0 : Port) (a1 : EyeGeom) (a2 : Chip) (h2 : a2.canon) : (Chip.eyeClampBits a0 a1 a2).canon := by
  unfold Chip.eyeClampBits; with_reducible repeat' (first | assumption | apply Chip.sbIf_canon)

theorem Chip.eyeRaise_canon (a0 : Port) (a1 : Nat) (a2 : Chip) (h2 : a2.canon) : (Chip.eyeRaise a0 a1 a2).canon := by
  unfold Chip.eyeRaise; with_reducible repeat' (first
    | assumption | apply Chip.incSat_canon | apply Chip.sb_canon | apply Chip.journal_canon | apply ite_canon)

theorem Chip.eyeClear_canon (a0 : Port) (a1 : Nat) (a2 : Chip) (h2 : a2.canon) : (Chip.eyeClear a0 a1 a2).canon := by
  unfold Chip.eyeClear; with_reducible repeat' (first | assumption | apply Chip.wb_canon)

theorem Chip.eyeCommit_canon (a0 : Beam) (a1 : Chip) (h1 : a1.canon) : (Chip.eyeCommit a0 a1).canon := by
  unfold Chip.eyeCommit; with_reducible repeat' (first
    | assumption | intro _ | apply Chip.wf_canon | apply Chip.onEye_canon | apply Chip.sb_canon | apply forEach_canon
    | apply ite_canon | refine snd_of (by assumption) ?_ | refine thd_of (by assumption) ?_ | split)

theorem Chip.hdrErr_canon (a0 : Port) (a1 : Chip) (h1 : a1.canon) : (Chip.hdrErr a0 a1).canon := by
  unfold Chip.hdrErr; with_reducible repeat' (first | assumption | apply Chip.sb_canon | apply Chip.incSat_canon)

theorem Chip.frameOver_canon (a0 : Port) (a1 : EyeFrame) (a2 : Chip) (h2 : a2.canon) : (Chip.frameOver a0 a1 a2).canon := by
  unfold Chip.frameOver; with_reducible repeat' (first
    | assumption | intro _ | apply Chip.wr_canon | apply Chip.wf_canon | apply Chip.sbIf_canon | apply Chip.onEye_canon |
      apply ite_canon | apply ite_canon2 | apply ite_canon3 | refine snd_of (by assumption) ?_ |
      refine thd_of (by assumption) ?_ | split | dsimp only)

theorem Chip.eyeStopped_canon (a0 : Port) (a1 : Chip) (h1 : a1.canon) : (Chip.eyeStopped a0 a1).canon := by
  unfold Chip.eyeStopped; with_reducible repeat' (first | assumption | apply Chip.wb_canon)

theorem Chip.policyTake_canon (a0 : Port) (a1 : Chip) (h1 : a1.canon) : (Chip.policyTake a0 a1).canon := by
  unfold Chip.policyTake; with_reducible repeat' (first
    | assumption | intro _ | apply Chip.onEye_canon | apply Chip.store_canon | refine snd_of (by assumption) ?_
    | refine thd_of (by assumption) ?_ | split)

theorem Chip.frameStart_canon (a0 : Port) (a1 : Half) (a2 : Nat) (a3 : Chip) (h3 : a3.canon) :
    (Chip.frameStart a0 a1 a2 a3).canon := by
  revert a0 a1 a2 a3; intro n fnum pixel c h
  unfold Chip.frameStart; extract_lets c1 c2 c3 c4 c5 g c6 pipe p shown bufs buf c7 taps c8
  have h1 : c1.canon := Chip.fsCapture_canon _ _ _ (Chip.policyTake_canon _ _ h)
  have h2 : c2.canon := by unfold c2; split; exact Chip.sb_canon _ _ _ (Chip.frameOver_canon _ _ _ h1); exact h1
  have h3 : c3.canon := Chip.eyeClear_canon _ _ _ h2
  have h4 : c4.canon := by unfold c4; split; exact Chip.sb_canon _ _ _ h3; split; exact Chip.eyeRaise_canon _ _ _ h3; exact Chip.eyeClear_canon _ _ _ h3
  have h5 : c5.canon := Chip.wr_canon _ _ _ h4
  have h6 : c6.canon := Chip.eyeClampBits_canon _ _ _ h5
  have h7 : c7.canon := by
    unfold c7; split; exact h6; apply Chip.wf_canon; split; exact Chip.incSat_canon _ _ h6; exact h6
  have h8 : c8.canon := Chip.wb_canon _ _ _ _ (Chip.wf_canon _ _ _ _ _ h7)
  exact Chip.onEye_canon _ _ _ h8

theorem Chip.inputRow_canon (a0 : Port) (a1 : EyeFrame) (a2 : List Byte) (a3 : List Nat) (a4 : Chip) (h4 : a4.canon) :
    (Chip.inputRow a0 a1 a2 a3 a4).canon := by
  unfold Chip.inputRow; with_reducible repeat' (first
    | assumption | intro _ | apply Chip.sb_canon | apply Chip.sbIf_canon | apply Chip.onEye_canon | apply ite_canon)

theorem Chip.longPacket_canon (a0 : Port) (a1 : Nat) (a2 : List Byte) (a3 : Bool) (a4 : List Nat) (a5 : Chip)
    (h5 : a5.canon) : (Chip.longPacket a0 a1 a2 a3 a4 a5).canon := by
  unfold Chip.longPacket; with_reducible repeat' (first
    | assumption | apply Chip.sb_canon | apply Chip.incSat_canon | apply Chip.inputRow_canon | apply ite_canon
    | refine snd_of (by assumption) ?_ | refine thd_of (by assumption) ?_ | split | dsimp only)

theorem Chip.freezeCheck_canon (a0 : Port) (a1 : Word) (a2 : Chip) (h2 : a2.canon) : (Chip.freezeCheck a0 a1 a2).canon := by
  unfold Chip.freezeCheck; with_reducible repeat' (first
    | assumption | intro _ | apply Chip.onEye_canon | apply Chip.eyeClear_canon | apply Chip.eyeRaise_canon | apply ite_canon)

theorem Chip.frameEnd_canon (a0 : Port) (a1 : Chip) (h1 : a1.canon) : (Chip.frameEnd a0 a1).canon := by
  unfold Chip.frameEnd; with_reducible repeat' (first
    | assumption | intro _ | apply Chip.frameOver_canon | apply Chip.wr_canon | apply Chip.sb_canon
    | apply Chip.freezeCheck_canon | apply Chip.incSat_canon | apply Chip.onEye_canon | apply Chip.eyeStopped_canon
    | apply ite_canon | refine snd_of (by assumption) ?_ | refine thd_of (by assumption) ?_ | split)

theorem Chip.deskew_canon (a0 : Port) (a1 : Chip) (h1 : a1.canon) : (Chip.deskew a0 a1).canon := by
  unfold Chip.deskew; with_reducible repeat' (first
    | assumption | intro _ | apply Chip.sb_canon | apply Chip.onEye_canon | apply ite_canon)

theorem Chip.pipeFail_canon (a0 : Port) (a1 : Nat) (a2 : Chip) (h2 : a2.canon) : (Chip.pipeFail a0 a1 a2).canon := by
  unfold Chip.pipeFail; with_reducible repeat' (first
    | assumption | intro _ | apply Chip.journal_canon | apply Chip.sb_canon | apply Chip.wantDarn_canon |
      apply Chip.onEye_canon | apply ite_canon | apply ite_canon2 | apply ite_canon3 | refine snd_of (by assumption) ?_ |
      refine thd_of (by assumption) ?_ | split | apply canon_mk
    | (apply regsOk; first
      | assumption | apply Chip.journal_canon | apply Chip.sb_canon | apply Chip.wantDarn_canon | apply Chip.onEye_canon |
        apply ite_canon)
    | (apply memOk; first
      | assumption | apply Chip.journal_canon | apply Chip.sb_canon | apply Chip.wantDarn_canon | apply Chip.onEye_canon |
        apply ite_canon)
    | dsimp only)

theorem Chip.ringTag_canon (a0 : Port) (a1 : EyeFrame) (a2 : Nat) (a3 : Chip) (h3 : a3.canon) :
    (Chip.ringTag a0 a1 a2 a3).canon := by
  unfold Chip.ringTag; with_reducible repeat' (first
    | assumption | intro _ | apply Chip.sb_canon | apply Chip.wf_canon | apply Chip.onEye_canon | apply ite_canon)

theorem Chip.rowLand_canon (a0 : Port) (a1 : Bool) (a2 : Chip) (h2 : a2.canon) : (Chip.rowLand a0 a1 a2).canon := by
  unfold Chip.rowLand; with_reducible repeat' (first
    | assumption | intro _ | apply Chip.pipeFail_canon | apply Chip.vWrite_canon | apply Chip.ringTag_canon
    | apply Chip.wb_canon | apply Chip.wf_canon | apply Chip.onEye_canon | apply ite_canon | refine snd_of (by assumption) ?_
    | refine thd_of (by assumption) ?_ | split)

theorem Chip.eyePrune_canon (a0 : Port) (a1 : Chip) (h1 : a1.canon) : (Chip.eyePrune a0 a1).canon := by
  unfold Chip.eyePrune; with_reducible repeat' (first | assumption | intro _ | apply Chip.onEye_canon)

theorem Chip.eyeStart_canon (a0 : Port) (a1 : Chip) (h1 : a1.canon) : (Chip.eyeStart a0 a1).canon := by
  unfold Chip.eyeStart; with_reducible repeat' (first
    | assumption | intro _ | apply Chip.policyTake_canon | apply Chip.sb_canon | apply Chip.wr_canon | apply Chip.eyeClear_canon
    | apply Chip.wf_canon | apply Chip.wb_canon | apply Chip.onEye_canon)

theorem Chip.eyeRun_canon (a0 : Port) (a1 : Chip) (h1 : a1.canon) : (Chip.eyeRun a0 a1).canon := by
  unfold Chip.eyeRun; with_reducible repeat' (first
    | assumption | apply Chip.sb_canon | apply Chip.eyeStart_canon | apply ite_canon)

theorem Chip.eyeHalt_canon (a0 : Port) (a1 : Chip) (h1 : a1.canon) : (Chip.eyeHalt a0 a1).canon := by
  unfold Chip.eyeHalt; with_reducible repeat' (first
    | assumption | apply Chip.wb_canon | apply Chip.eyeStopped_canon | apply ite_canon)

theorem Chip.eyeAbort_canon (a0 : Port) (a1 : Chip) (h1 : a1.canon) : (Chip.eyeAbort a0 a1).canon := by
  unfold Chip.eyeAbort; with_reducible repeat' (first
    | assumption | intro _ | apply Chip.sb_canon | apply Chip.frameOver_canon | apply Chip.eyeStopped_canon
    | apply Chip.onEye_canon | apply ite_canon | refine snd_of (by assumption) ?_ | refine thd_of (by assumption) ?_ | split)

theorem Chip.eyeDim_canon (a0 : Chip) (h0 : a0.canon) : (Chip.eyeDim a0).canon := by
  unfold Chip.eyeDim; with_reducible repeat' (first | assumption | intro _ | apply Chip.eyeAbort_canon | apply forEach_canon)

theorem Chip.eyeResume_canon (a0 : Chip) (h0 : a0.canon) : (Chip.eyeResume a0).canon := by
  unfold Chip.eyeResume; with_reducible repeat' (first
    | assumption | intro _ | apply Chip.eyeStart_canon | apply forEach_canon | apply ite_canon)

theorem Chip.winRead_canon (a0 : Beam) (a1 : EyeGeom) (a2 : Nat) (a3 : Nat) (a4 : Chip) (h4 : a4.canon) :
    (Chip.winRead a0 a1 a2 a3 a4).2.canon := by
  unfold Chip.winRead; with_reducible repeat' (first | assumption | intro _ | apply Chip.vRead_canon)

theorem Chip.raceLine_canon (a0 : Port) (a1 : Beam) (a2 : EyeGeom) (a3 : Nat) (a4 : Nat) (a5 : Chip) (h5 : a5.canon) :
    (Chip.raceLine a0 a1 a2 a3 a4 a5).2.2.canon := by
  unfold Chip.raceLine; with_reducible repeat' (first
    | assumption | intro _ | apply Chip.onEye_canon | apply Chip.winRead_canon | apply Chip.sb_canon | apply Chip.wf_canon
    | apply ite_canon | apply ite_canon2 | apply ite_canon3 | refine snd_of (by assumption) ?_
    | refine thd_of (by assumption) ?_ | split | apply canon_mk
    | (apply regsOk; first
      | assumption | apply Chip.onEye_canon | apply Chip.winRead_canon | apply Chip.sb_canon | apply Chip.wf_canon
      | apply ite_canon)
    | (apply memOk; first
      | assumption | apply Chip.onEye_canon | apply Chip.winRead_canon | apply Chip.sb_canon | apply Chip.wf_canon
      | apply ite_canon)
    | dsimp only)

theorem Chip.winCapture_canon (a0 : Beam) (a1 : Nat) (a2 : Port) (a3 : Chip) (h3 : a3.canon) :
    (Chip.winCapture a0 a1 a2 a3).canon := by
  revert a0 a1 a2 a3; intro b l n c h
  unfold Chip.winCapture; extract_lets ctrl k g wx wy w hh c1 j race
  have h1 : c1.canon := Chip.sbIf_canon _ _ _ _ h
  clear_value c1 hh w wx wy g
  split
  · exact h
  split
  · exact h1
  have hx : (if c1.eyeAction n = 2 ∨ c1.eyeAction n = 1 ∧ race = true then
      (List.map (fun i => c1.hatchPix i j) (List.range w), false, c1)
    else if race = true then Chip.raceLine n b g j w c1
    else if c1.rb (R.EYE_STAT n) 12 = true then
        match c1.winRead b g (g.base + c1.rf (R.EYE_STAT n) 9 8 * g.stride * g.outH + j * g.stride) w with | (px, c) => (px, false, c)
      else ([], false, c1)).2.2.canon := by
    with_reducible repeat' (first
      | assumption | intro _ | apply Chip.raceLine_canon | apply Chip.winRead_canon | apply ite_canon | apply ite_canon2
      | apply ite_canon3)
  generalize (if c1.eyeAction n = 2 ∨ c1.eyeAction n = 1 ∧ race = true then
      (List.map (fun i => c1.hatchPix i j) (List.range w), false, c1)
    else if race = true then Chip.raceLine n b g j w c1
    else if c1.rb (R.EYE_STAT n) 12 = true then
        match c1.winRead b g (g.base + c1.rf (R.EYE_STAT n) 9 8 * g.stride * g.outH + j * g.stride) w with | (px, c) => (px, false, c)
      else ([], false, c1)) = x at hx ⊢
  obtain ⟨x, y, z⟩ := x
  clear_value race j
  with_reducible repeat' (first
    | assumption | intro _ | apply Chip.onEye_canon | apply ite_canon | apply ite_canon2 | apply ite_canon3
    | refine snd_of (by assumption) ?_ | refine thd_of (by assumption) ?_ | split | apply canon_mk
    | (apply regsOk; first | assumption) | (apply memOk; first | assumption))

theorem Chip.winTransfer_canon (a0 : Beam) (a1 : Chip) (h1 : a1.canon) : (Chip.winTransfer a0 a1).canon := by
  unfold Chip.winTransfer; with_reducible repeat' (first
    | assumption | intro _ | apply Chip.wr_canon | apply forEach_canon | apply ite_canon)

theorem Chip.coefInc_canon (a0 : Chip) (h0 : a0.canon) : (Chip.coefInc a0).canon := by
  unfold Chip.coefInc; with_reducible repeat' (first | assumption | apply Chip.wf_canon | apply ite_canon)

theorem Chip.coefWrite_canon (a0 : Word) (a1 : Chip) (h1 : a1.canon) : (Chip.coefWrite a0 a1).canon := by
  unfold Chip.coefWrite; with_reducible repeat' (first
    | assumption | apply Chip.coefInc_canon | apply canon_mk | (apply regsOk; first | assumption)
    | (apply memOk; first | assumption))

theorem Chip.eyeCtrlRun_canon (a0 : Port) (a1 : Word) (a2 : Chip) (h2 : a2.canon) : (Chip.eyeCtrlRun a0 a1 a2).canon := by
  unfold Chip.eyeCtrlRun; with_reducible repeat' (first
    | assumption | intro _ | apply Chip.eyeHalt_canon | apply Chip.onEye_canon | apply Chip.store_canon |
      apply Chip.eyeRun_canon | apply ite_canon | apply ite_canon2 | apply ite_canon3 | refine snd_of (by assumption) ?_ |
      refine thd_of (by assumption) ?_ | split | dsimp only)

theorem Chip.eyeCtrl_canon (a0 : Port) (a1 : Word) (a2 : Chip) (h2 : a2.canon) : (Chip.eyeCtrl a0 a1 a2).canon := by
  unfold Chip.eyeCtrl; with_reducible repeat' (first
    | assumption | intro _ | apply Chip.eyeCtrlRun_canon | apply Chip.wb_canon | apply Chip.eyeAbort_canon | apply ite_canon
      | apply ite_canon2 | apply ite_canon3 | refine snd_of (by assumption) ?_ | refine thd_of (by assumption) ?_ | split |
      dsimp only)

theorem Chip.storeEye_canon (a0 : Nat) (a1 : Word) (a2 : Chip) (h2 : a2.canon) : (Chip.storeEye a0 a1 a2).canon := by
  unfold Chip.storeEye; extract_lets off n o c
  have h_c : c.canon := by
    unfold c
    with_reducible repeat' (first
      | assumption | intro _ | apply Chip.coefWrite_canon | apply Chip.eyeCtrl_canon | apply Chip.store_canon)
  clear_value c
  clear_value off n o; with_reducible repeat' (first
    | assumption | intro _ | apply Chip.coefWrite_canon | apply Chip.eyeCtrl_canon | apply Chip.store_canon
    | apply Chip.onEye_canon | apply Chip.hold_canon | apply forEach_canon | apply ite_canon | apply ite_canon2
    | apply ite_canon3 | refine snd_of (by assumption) ?_ | refine thd_of (by assumption) ?_ | split)

theorem Chip.readEye_canon (a0 : Nat) (a1 : Chip) (h1 : a1.canon) : (Chip.readEye a0 a1).2.canon := by
  unfold Chip.readEye; with_reducible repeat' (first | assumption | apply Chip.coefInc_canon | apply ite_canon | apply ite_canon2)

theorem Chip.onMotif_canon (a0 : Beam) (a1 : MotifBeam → MotifBeam) (a2 : Chip) (h2 : a2.canon) :
    (Chip.onMotif a0 a1 a2).canon := by
  unfold Chip.onMotif; with_reducible repeat' (first
    | assumption | apply canon_mk | (apply regsOk; first | assumption) | (apply memOk; first | assumption))

theorem Chip.setAttr_canon (a0 : Beam) (a1 : Nat) (a2 : Nat) (a3 : Word) (a4 : Chip) (h4 : a4.canon) :
    (Chip.setAttr a0 a1 a2 a3 a4).canon := by
  unfold Chip.setAttr; with_reducible repeat' (first | assumption | intro _ | apply Chip.onMotif_canon)

theorem Chip.loadEntry_canon (a0 : Beam) (a1 : Nat) (a2 : Chip) (h2 : a2.canon) : (Chip.loadEntry a0 a1 a2).canon := by
  unfold Chip.loadEntry; with_reducible repeat' (first
    | assumption | intro _ | apply Chip.setAttr_canon | apply Chip.vRead_canon | apply Chip.sbIf_canon | apply forEach_canon
    | apply ite_canon)

theorem Chip.motifLoad_canon (a0 : Beam) (a1 : Chip) (h1 : a1.canon) : (Chip.motifLoad a0 a1).canon := by
  unfold Chip.motifLoad; with_reducible repeat' (first
    | assumption | intro _ | apply Chip.onMotif_canon | apply Chip.loadEntry_canon | apply forEach_canon | apply ite_canon)

theorem Chip.reload_canon (a0 : Nat) (a1 : Nat) (a2 : Nat) (a3 : Chip) (h3 : a3.canon) : (Chip.reload a0 a1 a2 a3).canon := by
  unfold Chip.reload; with_reducible repeat' (first
    | assumption | intro _ | apply Chip.loadEntry_canon | apply forEach_canon | apply ite_canon)

theorem Chip.mtfInval_canon (a0 : Word) (a1 : Chip) (h1 : a1.canon) : (Chip.mtfInval a0 a1).canon := by
  unfold Chip.mtfInval; with_reducible repeat' (first
    | assumption | intro _ | apply Chip.sb_canon | apply Chip.reload_canon | apply ite_canon | apply ite_canon2 |
      apply ite_canon3 | refine snd_of (by assumption) ?_ | refine thd_of (by assumption) ?_ | split | apply canon_mk
    | (apply regsOk; first | assumption | apply Chip.sb_canon | apply Chip.reload_canon | apply ite_canon)
    | (apply memOk; first | assumption | apply Chip.sb_canon | apply Chip.reload_canon | apply ite_canon)
    | dsimp only)

theorem Chip.reloadNext_canon (a0 : Beam) (a1 : Chip) (h1 : a1.canon) : (Chip.reloadNext a0 a1).canon := by
  unfold Chip.reloadNext; with_reducible repeat' (first
    | assumption | intro _ | apply Chip.reload_canon | apply ite_canon | apply ite_canon2 | apply ite_canon3 |
      refine snd_of (by assumption) ?_ | refine thd_of (by assumption) ?_ | split | apply canon_mk
    | (apply regsOk; first | assumption | apply Chip.reload_canon | apply ite_canon)
    | (apply memOk; first | assumption | apply Chip.reload_canon | apply ite_canon)
    | dsimp only)

theorem Chip.motifReloadEnd_canon (a0 : Chip) (h0 : a0.canon) : (Chip.motifReloadEnd a0).canon := by
  unfold Chip.motifReloadEnd; with_reducible repeat' (first
    | assumption | intro _ | apply Chip.wb_canon | apply ite_canon | apply ite_canon2 | apply ite_canon3 |
      refine snd_of (by assumption) ?_ | refine thd_of (by assumption) ?_ | split | dsimp only)

theorem Chip.motifEval_canon (a0 : Beam) (a1 : Nat) (a2 : Chip) (h2 : a2.canon) : (Chip.motifEval a0 a1 a2).canon := by
  unfold Chip.motifEval; with_reducible repeat' (first
    | assumption | intro _ | apply Chip.sbIf_canon | apply Chip.wf_canon | apply Chip.incSat_canon | apply Chip.sb_canon
    | apply Chip.onMotif_canon | apply ite_canon)

theorem Chip.motifNone_canon (a0 : Beam) (a1 : Nat) (a2 : Chip) (h2 : a2.canon) : (Chip.motifNone a0 a1 a2).canon := by
  unfold Chip.motifNone; with_reducible repeat' (first
    | assumption | intro _ | apply Chip.onMotif_canon | apply ite_canon | apply ite_canon2 | apply ite_canon3 |
      refine snd_of (by assumption) ?_ | refine thd_of (by assumption) ?_ | split | dsimp only)

theorem Chip.motifLoadEnd_canon (a0 : Beam) (a1 : Chip) (h1 : a1.canon) : (Chip.motifLoadEnd a0 a1).canon := by
  unfold Chip.motifLoadEnd; with_reducible repeat' (first
    | assumption | intro _ | apply Chip.onMotif_canon | apply Chip.reloadNext_canon | apply Chip.motifEval_canon |
      apply ite_canon | apply ite_canon2 | apply ite_canon3 | refine snd_of (by assumption) ?_ |
      refine thd_of (by assumption) ?_ | split | dsimp only)

theorem Chip.motifRow_canon (a0 : Beam) (a1 : Nat) (a2 : MotifSel) (a3 : Chip) (h3 : a3.canon) :
    (Chip.motifRow a0 a1 a2 a3).2.canon := by
  unfold Chip.motifRow; with_reducible repeat' (first
    | assumption | intro _ | apply Chip.vRead_canon | apply ite_canon | apply ite_canon2)

theorem Chip.motifRows_canon (a0 : Beam) (a1 : Nat) (a2 : List MotifSel) (a3 : Chip) (h3 : a3.canon) :
    (Chip.motifRows a0 a1 a2 a3).2.canon := by
  fun_induction Chip.motifRows a0 a1 a2 a3 <;> with_reducible repeat' (first
    | assumption | apply_assumption | apply Chip.motifRow_canon | refine snd_of (by assumption) ?_)

theorem Chip.motifLine_canon (a0 : Beam) (a1 : Nat) (a2 : ℤ) (a3 : Chip) (h3 : a3.canon) : (Chip.motifLine a0 a1 a2 a3).canon
  := by
  unfold Chip.motifLine; with_reducible repeat' (first
    | assumption | intro _ | apply Chip.motifRows_canon | apply Chip.reportSlack_canon | apply Chip.onMotif_canon |
      apply ite_canon | apply ite_canon2 | apply ite_canon3 | refine snd_of (by assumption) ?_ |
      refine thd_of (by assumption) ?_ | split | dsimp only)

theorem Chip.liveAttr_canon (a0 : Core) (a1 : Beam) (a2 : Word) (a3 : Chip) (h3 : a3.canon) :
    (Chip.liveAttr a0 a1 a2 a3).canon := by
  unfold Chip.liveAttr; with_reducible repeat' (first | assumption | apply Chip.portInc_canon | apply Chip.setAttr_canon)

theorem Chip.storeMtf_canon (a0 : Core) (a1 : Nat) (a2 : Word) (a3 : Chip) (h3 : a3.canon) :
    (Chip.storeMtf a0 a1 a2 a3).canon := by
  unfold Chip.storeMtf; with_reducible repeat' (first
    | assumption | apply Chip.mtfInval_canon | apply Chip.setPort_canon | apply Chip.liveAttr_canon | apply Chip.hold_canon
    | apply Chip.store_canon | apply ite_canon | refine snd_of (by assumption) ?_ | refine thd_of (by assumption) ?_ | split)

theorem Chip.readMtf_canon (a0 : Core) (a1 : Nat) (a2 : Chip) (h2 : a2.canon) : (Chip.readMtf a0 a1 a2).2.canon := by
  unfold Chip.readMtf; with_reducible repeat' (first
    | assumption | apply Chip.portInc_canon | apply Chip.wr_canon | apply ite_canon | apply ite_canon2)

theorem Chip.motifStart_canon (a0 : Beam) (a1 : Chip) (h1 : a1.canon) : (Chip.motifStart a0 a1).canon := by
  unfold Chip.motifStart; with_reducible repeat' (first
    | assumption | intro _ | apply Chip.setPos_canon | apply Chip.motifNone_canon | apply Chip.onMotif_canon |
      apply Chip.sb_canon | apply Chip.motifEval_canon | apply ite_canon | apply ite_canon2 | apply ite_canon3 |
      refine snd_of (by assumption) ?_ | refine thd_of (by assumption) ?_ | split | dsimp only)

theorem Chip.onApq_canon (a0 : Beam) (a1 : ApqBeam → ApqBeam) (a2 : Chip) (h2 : a2.canon) : (Chip.onApq a0 a1 a2).canon := by
  unfold Chip.onApq; with_reducible repeat' (first
    | assumption | apply canon_mk | (apply regsOk; first | assumption) | (apply memOk; first | assumption))

theorem Chip.apqCapture_canon (a0 : Beam) (a1 : Nat) (a2 : Chip) (h2 : a2.canon) : (Chip.apqCapture a0 a1 a2).canon := by
  unfold Chip.apqCapture; with_reducible repeat' (first | assumption | intro _ | apply Chip.sbIf_canon | apply Chip.onApq_canon)

theorem Chip.uncertain_canon (a0 : Beam) (a1 : Nat) (a2 : Chip) (h2 : a2.canon) : (Chip.uncertain a0 a1 a2).canon := by
  unfold Chip.uncertain; with_reducible repeat' (first | assumption | intro _ | apply Chip.onApq_canon)

theorem Chip.compositeStart_canon (a0 : Beam) (a1 : Option ℤ) (a2 : Chip) (h2 : a2.canon) : (Chip.compositeStart a0 a1
  a2).canon := by
  unfold Chip.compositeStart; with_reducible repeat' (first
    | assumption | intro _ | apply Chip.reportSlack_canon | apply Chip.onApq_canon | apply ite_canon | apply ite_canon2 |
      apply ite_canon3 | refine snd_of (by assumption) ?_ | refine thd_of (by assumption) ?_ | split | dsimp only)

theorem Chip.lineSent_canon (a0 : Beam) (a1 : Nat) (a2 : Chip) (h2 : a2.canon) : (Chip.lineSent a0 a1 a2).canon := by
  unfold Chip.lineSent; with_reducible repeat' (first
    | assumption | intro _ | apply Chip.onPlane_canon | apply Chip.onEye_canon | apply Chip.onMotif_canon
    | apply Chip.onApq_canon | apply Chip.store_canon | apply forEach_canon)

theorem Chip.spanSend_canon (a0 : Beam) (a1 : Nat) (a2 : Nat) (a3 : Bool) (a4 : Chip) (h4 : a4.canon) :
    (Chip.spanSend a0 a1 a2 a3 a4).canon := by
  unfold Chip.spanSend; with_reducible repeat' (first
    | assumption | intro _ | apply Chip.sbIf_canon | apply Chip.uncertain_canon | apply Chip.sb_canon | apply Chip.incWrap_canon
    | apply Chip.onApq_canon | apply Chip.store_canon | apply ite_canon)

theorem Chip.spanDue_canon (a0 : Beam) (a1 : Bool) (a2 : Chip) (h2 : a2.canon) : (Chip.spanDue a0 a1 a2).canon := by
  unfold Chip.spanDue; with_reducible repeat' (first
    | assumption | intro _ | apply Chip.setPos_canon | apply Chip.onApq_canon | apply Chip.uncertain_canon
    | apply Chip.spanSend_canon | apply Chip.lineSent_canon | apply ite_canon)

theorem Chip.frayVb0_canon (a0 : Beam) (a1 : Chip) (h1 : a1.canon) : (Chip.frayVb0 a0 a1).canon := by
  unfold Chip.frayVb0; with_reducible repeat' (first
    | assumption | intro _ | apply Chip.onApq_canon | apply Chip.wr_canon | refine snd_of (by assumption) ?_
    | refine thd_of (by assumption) ?_ | split)

theorem Chip.apqFrame_canon (a0 : Beam) (a1 : Chip) (h1 : a1.canon) : (Chip.apqFrame a0 a1).canon := by
  unfold Chip.apqFrame; with_reducible repeat' (first | assumption | intro _ | apply Chip.onApq_canon)

theorem Chip.apqClear_canon (a0 : Beam) (a1 : Chip) (h1 : a1.canon) : (Chip.apqClear a0 a1).canon := by
  unfold Chip.apqClear; with_reducible repeat' (first
    | assumption | intro _ | apply Chip.onPlane_canon | apply Chip.onEye_canon | apply Chip.onMotif_canon
    | apply Chip.onApq_canon | apply Chip.store_canon | apply forEach_canon)

theorem Chip.regionCapture_canon (a0 : Beam) (a1 : Chip) (h1 : a1.canon) : (Chip.regionCapture a0 a1).canon := by
  unfold Chip.regionCapture; with_reducible repeat' (first
    | assumption | intro _ | apply Chip.sbIf_canon | apply Chip.onApq_canon)

theorem Chip.publish_canon (a0 : Beam) (a1 : Chip) (h1 : a1.canon) : (Chip.publish a0 a1).canon := by
  unfold Chip.publish; with_reducible repeat' (first
    | assumption | intro _ | apply Chip.wr_canon | apply Chip.sb_canon | apply Chip.uncertain_canon | apply forEach_canon)

theorem Chip.commitState_canon (a0 : Beam) (a1 : Nat) (a2 : Chip) (h2 : a2.canon) : (Chip.commitState a0 a1 a2).canon := by
  unfold Chip.commitState; with_reducible repeat' (first | assumption | apply Chip.wf_canon)

theorem Chip.transfer_canon (a0 : Beam) (a1 : Chip) (h1 : a1.canon) : (Chip.transfer a0 a1).canon := by
  unfold Chip.transfer; with_reducible repeat' (first
    | assumption | intro _ | apply Chip.palTransfer_canon | apply Chip.planeTransfer_canon | apply Chip.commitState_canon
    | apply Chip.winTransfer_canon | apply Chip.wr_canon | apply forEach_canon)

theorem Chip.commitReq_canon (a0 : Beam) (a1 : Chip) (h1 : a1.canon) : (Chip.commitReq a0 a1).canon := by
  unfold Chip.commitReq; with_reducible repeat' (first
    | assumption | intro _ | apply Chip.sb_canon | apply Chip.onApq_canon | apply Chip.transfer_canon
    | apply Chip.commitState_canon | apply ite_canon)

theorem Chip.transferEnd_canon (a0 : Beam) (a1 : Chip) (h1 : a1.canon) : (Chip.transferEnd a0 a1).canon := by
  unfold Chip.transferEnd; with_reducible repeat' (first
    | assumption | intro _ | apply Chip.wr_canon | apply Chip.wb_canon | apply Chip.commitState_canon | apply Chip.onApq_canon
    | apply Chip.hold_canon | apply Chip.store_canon | apply Chip.transfer_canon | apply forEach_canon | apply ite_canon
    | refine snd_of (by assumption) ?_ | refine thd_of (by assumption) ?_ | split | apply canon_mk
    | (apply regsOk; first | assumption) | (apply memOk; first | assumption))

theorem Chip.commitPoint_canon (a0 : Beam) (a1 : Chip) (h1 : a1.canon) : (Chip.commitPoint a0 a1).canon := by
  unfold Chip.commitPoint; with_reducible repeat' (first
    | assumption | apply Chip.transfer_canon | apply Chip.eyeCommit_canon | apply Chip.motifLoad_canon | apply ite_canon)

theorem Chip.commitAtStop_canon (a0 : Beam) (a1 : Chip) (h1 : a1.canon) : (Chip.commitAtStop a0 a1).canon := by
  unfold Chip.commitAtStop; with_reducible repeat' (first | assumption | apply Chip.transfer_canon | apply ite_canon)

theorem Chip.storeApq_canon (a0 : Beam) (a1 : Nat) (a2 : Word) (a3 : Chip) (h3 : a3.canon) :
    (Chip.storeApq a0 a1 a2 a3).canon := by
  unfold Chip.storeApq; with_reducible repeat' (first
    | assumption | apply Chip.commitReq_canon | apply Chip.hold_canon | apply Chip.store_canon | apply ite_canon
    | refine snd_of (by assumption) ?_ | refine thd_of (by assumption) ?_ | split)

theorem Chip.onBmo_canon (a0 : Beam) (a1 : BmoBeam → BmoBeam) (a2 : Chip) (h2 : a2.canon) : (Chip.onBmo a0 a1 a2).canon := by
  unfold Chip.onBmo; with_reducible repeat' (first
    | assumption | apply canon_mk | (apply regsOk; first | assumption) | (apply memOk; first | assumption))

theorem Chip.setHold_canon (a0 : Beam) (a1 : Nat) (a2 : Chip) (h2 : a2.canon) : (Chip.setHold a0 a1 a2).canon := by
  unfold Chip.setHold; with_reducible repeat' (first | assumption | apply Chip.wf_canon)

theorem Chip.onLinks_canon (a0 : Beam) (a1 : Fin 4 → Output) (a2 : Chip) (h2 : a2.canon) : (Chip.onLinks a0 a1 a2).canon :=
  by
  unfold Chip.onLinks; with_reducible repeat' (first
    | assumption | intro _ | apply Chip.emit_canon | refine forEach_canon ?_ ?_ | apply ite_canon | apply ite_canon2 |
      apply ite_canon3 | refine snd_of (by assumption) ?_ | refine thd_of (by assumption) ?_ | split | dsimp only)

theorem Chip.secondLanes_canon (a0 : Beam) (a1 : Chip) (h1 : a1.canon) : (Chip.secondLanes a0 a1).canon := by
  unfold Chip.secondLanes; with_reducible repeat' (first
    | assumption | intro _ | apply Chip.emit_canon | apply ite_canon | apply ite_canon2 | apply ite_canon3 |
      refine snd_of (by assumption) ?_ | refine thd_of (by assumption) ?_ | split | dsimp only)

theorem Chip.setLink_canon (a0 : Beam) (a1 : Nat) (a2 : Chip) (h2 : a2.canon) : (Chip.setLink a0 a1 a2).canon := by
  unfold Chip.setLink; with_reducible repeat' (first
    | assumption | intro _ | apply Chip.secondLanes_canon | apply Chip.emit_canon | apply Chip.wf_canon | apply ite_canon |
      apply ite_canon2 | apply ite_canon3 | refine snd_of (by assumption) ?_ | refine thd_of (by assumption) ?_ | split |
      dsimp only)

theorem Chip.deskewLinks_canon (a0 : Beam) (a1 : Chip) (h1 : a1.canon) : (Chip.deskewLinks a0 a1).canon := by
  unfold Chip.deskewLinks; with_reducible repeat' (first
    | assumption | intro _ | apply Chip.onLinks_canon | apply ite_canon | apply ite_canon2 | apply ite_canon3 |
      refine snd_of (by assumption) ?_ | refine thd_of (by assumption) ?_ | split | dsimp only)

theorem Chip.cmdWord_canon (a0 : Beam) (a1 : Word) (a2 : Chip) (h2 : a2.canon) : (Chip.cmdWord a0 a1 a2).canon := by
  unfold Chip.cmdWord; with_reducible repeat' (first
    | assumption | intro _ | apply Chip.sb_canon | apply Chip.onBmo_canon | apply ite_canon)

theorem Chip.cmdSend_canon (a0 : Beam) (a1 : Chip) (h1 : a1.canon) : (Chip.cmdSend a0 a1).canon := by
  unfold Chip.cmdSend; with_reducible repeat' (first | assumption | intro _ | apply Chip.onBmo_canon | apply Chip.sbIf_canon)

theorem Chip.holdList_canon (a0 : Beam) (a1 : Nat) (a2 : Nat) (a3 : Chip) (h3 : a3.canon) :
    (Chip.holdList a0 a1 a2 a3).2.canon := by
  unfold Chip.holdList; with_reducible repeat' (first
    | assumption | intro _ | apply Chip.vRead_canon | apply ite_canon | apply ite_canon2)

theorem Chip.holdEnter_canon (a0 : Beam) (a1 : Chip) (h1 : a1.canon) : (Chip.holdEnter a0 a1).canon := by
  unfold Chip.holdEnter; with_reducible repeat' (first
    | assumption | intro _ | apply Chip.sb_canon | apply Chip.holdList_canon | apply Chip.onBmo_canon | apply Chip.setHold_canon
    | apply ite_canon | apply ite_canon2 | apply ite_canon3 | refine snd_of (by assumption) ?_
    | refine thd_of (by assumption) ?_ | split)

theorem Chip.holdRelease_canon (a0 : Beam) (a1 : Chip) (h1 : a1.canon) : (Chip.holdRelease a0 a1).canon := by
  unfold Chip.holdRelease; with_reducible repeat' (first
    | assumption | intro _ | apply Chip.sb_canon | apply Chip.onBmo_canon | apply Chip.setLink_canon | apply Chip.wb_canon
    | apply Chip.setHold_canon | apply ite_canon)

theorem Chip.releaseStep3_canon (a0 : Beam) (a1 : Chip) (h1 : a1.canon) : (Chip.releaseStep3 a0 a1).canon := by
  unfold Chip.releaseStep3; with_reducible repeat' (first | assumption | apply Chip.setHold_canon | apply ite_canon)

theorem Chip.markEnd_canon (a0 : Beam) (a1 : Chip) (h1 : a1.canon) : (Chip.markEnd a0 a1).canon := by
  unfold Chip.markEnd; with_reducible repeat' (first
    | assumption | intro _ | apply Chip.deskewLinks_canon | apply Chip.setLink_canon | apply Chip.onBmo_canon |
      apply Chip.holdList_canon | apply Chip.setHold_canon | apply Chip.sb_canon | apply Chip.releaseStep3_canon |
      apply ite_canon | apply ite_canon2 | apply ite_canon3 | refine snd_of (by assumption) ?_ |
      refine thd_of (by assumption) ?_ | split | dsimp only)

theorem Chip.hsStart_canon (a0 : Beam) (a1 : Chip) (h1 : a1.canon) : (Chip.hsStart a0 a1).canon := by
  unfold Chip.hsStart; with_reducible repeat' (first
    | assumption | intro _ | apply Chip.emit_canon | apply Chip.deskewLinks_canon | apply ite_canon | apply ite_canon2 |
      apply ite_canon3 | refine snd_of (by assumption) ?_ | refine thd_of (by assumption) ?_ | split | dsimp only)

theorem Chip.linkStart_canon (a0 : Beam) (a1 : Chip) (h1 : a1.canon) : (Chip.linkStart a0 a1).canon := by
  unfold Chip.linkStart; with_reducible repeat' (first
    | assumption | intro _ | apply Chip.releaseStep3_canon | apply Chip.sbIf_canon | apply Chip.wr_canon |
      apply Chip.setLink_canon | apply Chip.setHold_canon | apply Chip.onBmo_canon | apply Chip.hsStart_canon |
      apply ite_canon | apply ite_canon2 | apply ite_canon3 | refine snd_of (by assumption) ?_ |
      refine thd_of (by assumption) ?_ | split | dsimp only)

theorem Chip.synStop_canon (a0 : Beam) (a1 : Chip) (h1 : a1.canon) : (Chip.synStop a0 a1).canon := by
  unfold Chip.synStop; with_reducible repeat' (first
    | assumption | intro _ | apply Chip.onBeam_canon | apply Chip.wb_canon | apply ite_canon)

theorem Chip.hsEnd_canon (a0 : Beam) (a1 : Chip) (h1 : a1.canon) : (Chip.hsEnd a0 a1).canon := by
  unfold Chip.hsEnd; with_reducible repeat' (first
    | assumption | intro _ | apply Chip.onLinks_canon | apply ite_canon | apply ite_canon2 | apply ite_canon3 |
      refine snd_of (by assumption) ?_ | refine thd_of (by assumption) ?_ | split | dsimp only)

theorem Chip.bllp_canon (a0 : Beam) (a1 : Chip) (h1 : a1.canon) : (Chip.bllp a0 a1).canon := by
  unfold Chip.bllp; with_reducible repeat' (first
    | assumption | intro _ | apply Chip.onLinks_canon | apply Chip.hsEnd_canon | apply ite_canon | apply ite_canon2 |
      apply ite_canon3 | refine snd_of (by assumption) ?_ | refine thd_of (by assumption) ?_ | split | dsimp only)

theorem Chip.linkLp_canon (a0 : Beam) (a1 : Chip) (h1 : a1.canon) : (Chip.linkLp a0 a1).canon := by
  unfold Chip.linkLp; with_reducible repeat' (first
    | assumption | intro _ | apply Chip.when_canon | apply Chip.hsEnd_canon | apply Chip.synStop_canon |
      apply Chip.onBmo_canon | apply Chip.setLink_canon | apply ite_canon | apply ite_canon2 | apply ite_canon3 |
      refine snd_of (by assumption) ?_ | refine thd_of (by assumption) ?_ | split | dsimp only)

theorem Chip.holdCancel_canon (a0 : Beam) (a1 : Chip) (h1 : a1.canon) : (Chip.holdCancel a0 a1).canon := by
  unfold Chip.holdCancel; with_reducible repeat' (first
    | assumption | intro _ | apply Chip.onBmo_canon | apply Chip.setHold_canon | apply ite_canon)

theorem Chip.linkUnlock_canon (a0 : Beam) (a1 : Chip) (h1 : a1.canon) : (Chip.linkUnlock a0 a1).canon := by
  unfold Chip.linkUnlock; with_reducible repeat' (first
    | assumption | apply Chip.holdCancel_canon | apply Chip.sb_canon | apply Chip.linkLp_canon | apply ite_canon)

theorem Chip.linkBeamStop_canon (a0 : Beam) (a1 : Chip) (h1 : a1.canon) : (Chip.linkBeamStop a0 a1).canon := by
  unfold Chip.linkBeamStop; with_reducible repeat' (first
    | assumption | intro _ | apply Chip.holdCancel_canon | apply Chip.onBmo_canon | apply Chip.linkLp_canon | apply ite_canon)

theorem Chip.linkStop_canon (a0 : Beam) (a1 : Chip) (h1 : a1.canon) : (Chip.linkStop a0 a1).canon := by
  unfold Chip.linkStop; with_reducible repeat' (first | assumption | apply Chip.linkLp_canon | apply ite_canon)

theorem Chip.syncPacket_canon (a0 : Beam) (a1 : Bool) (a2 : Chip) (h2 : a2.canon) : (Chip.syncPacket a0 a1 a2).canon := by
  unfold Chip.syncPacket; with_reducible repeat' (first
    | assumption | intro _ | apply Chip.setPos_canon | apply Chip.bllp_canon | apply Chip.onLinks_canon | apply ite_canon |
      apply ite_canon2 | apply ite_canon3 | refine snd_of (by assumption) ?_ | refine thd_of (by assumption) ?_ | split |
      dsimp only)

theorem Chip.sendLine_canon (a0 : Beam) (a1 : Nat) (a2 : List Rgb) (a3 : Chip) (h3 : a3.canon) : (Chip.sendLine a0 a1 a2
  a3).canon := by
  unfold Chip.sendLine; with_reducible repeat' (first
    | assumption | intro _ | apply Chip.emit_canon | apply Chip.bllp_canon | apply Chip.when_canon | apply Chip.onLinks_canon
      | refine forEach_canon ?_ ?_ | apply ite_canon | apply ite_canon2 | apply ite_canon3 | refine snd_of (by assumption) ?_
      | refine thd_of (by assumption) ?_ | split | dsimp only)

theorem Chip.linkFrameEnd_canon (a0 : Beam) (a1 : Chip) (h1 : a1.canon) : (Chip.linkFrameEnd a0 a1).canon := by
  unfold Chip.linkFrameEnd; with_reducible repeat' (first
    | assumption | intro _ | apply Chip.synStop_canon | apply Chip.onBmo_canon | apply Chip.wr_canon |
      apply Chip.setHold_canon | apply Chip.setLink_canon | apply Chip.linkLp_canon | apply ite_canon | apply ite_canon2 |
      apply ite_canon3 | refine snd_of (by assumption) ?_ | refine thd_of (by assumption) ?_ | split | dsimp only)

theorem Chip.pixelPacket_canon (a0 : Beam) (a1 : Chip) (h1 : a1.canon) : (Chip.pixelPacket a0 a1).canon := by
  unfold Chip.pixelPacket; with_reducible repeat' (first
    | assumption | intro _ | apply Chip.onBmo_canon | apply Chip.setHold_canon | apply Chip.sendLine_canon
    | apply Chip.linkFrameEnd_canon | apply Chip.store_canon | apply ite_canon)

theorem Chip.packetOut_canon (a0 : Beam) (a1 : List Word) (a2 : Chip) (h2 : a2.canon) : (Chip.packetOut a0 a1 a2).canon := by
  unfold Chip.packetOut; with_reducible repeat' (first
    | assumption | intro _ | apply Chip.onLinks_canon | apply Chip.bllp_canon | apply Chip.onBmo_canon | apply ite_canon |
      apply ite_canon2 | apply ite_canon3 | refine snd_of (by assumption) ?_ | refine thd_of (by assumption) ?_ | split |
      dsimp only)

theorem Chip.commandSend_canon (a0 : Beam) (a1 : Chip) (h1 : a1.canon) : (Chip.commandSend a0 a1).canon := by
  unfold Chip.commandSend; with_reducible repeat' (first
    | assumption | intro _ | apply Chip.releaseStep3_canon | apply Chip.onBmo_canon | apply Chip.packetOut_canon |
      apply ite_canon | apply ite_canon2 | apply ite_canon3 | refine snd_of (by assumption) ?_ |
      refine thd_of (by assumption) ?_ | split | dsimp only)

theorem Chip.ulpsWrite_canon (a0 : Beam) (a1 : Bool) (a2 : Chip) (h2 : a2.canon) : (Chip.ulpsWrite a0 a1 a2).canon := by
  unfold Chip.ulpsWrite; with_reducible repeat' (first
    | assumption | apply Chip.wb_canon | apply Chip.setLink_canon | apply ite_canon)

theorem Chip.bmoDim_canon (a0 : Chip) (h0 : a0.canon) : (Chip.bmoDim a0).canon := by
  unfold Chip.bmoDim; with_reducible repeat' (first
    | assumption | intro _ | apply Chip.holdCancel_canon | apply Chip.setLink_canon | apply Chip.linkLp_canon
    | apply forEach_canon | apply ite_canon)

theorem Chip.bmoResume_canon (a0 : Chip) (h0 : a0.canon) : (Chip.bmoResume a0).canon := by
  unfold Chip.bmoResume; with_reducible repeat' (first
    | assumption | intro _ | apply Chip.setLink_canon | apply forEach_canon | apply ite_canon)

theorem Chip.enWrite_canon (a0 : Beam) (a1 : Bool) (a2 : Chip) (h2 : a2.canon) : (Chip.enWrite a0 a1 a2).canon := by
  unfold Chip.enWrite; with_reducible repeat' (first
    | assumption | intro _ | apply Chip.wb_canon | apply Chip.setLink_canon | apply Chip.onBmo_canon | apply ite_canon)

theorem Chip.bmoCtrl_canon (a0 : Beam) (a1 : Word) (a2 : Chip) (h2 : a2.canon) : (Chip.bmoCtrl a0 a1 a2).canon := by
  unfold Chip.bmoCtrl; with_reducible repeat' (first
    | assumption | intro _ | apply Chip.wb_canon | apply Chip.wr_canon | apply Chip.secondLanes_canon |
      apply Chip.ulpsWrite_canon | apply Chip.enWrite_canon | apply ite_canon | apply ite_canon2 | apply ite_canon3 |
      refine snd_of (by assumption) ?_ | refine thd_of (by assumption) ?_ | split | dsimp only)

theorem Chip.bmoHold_canon (a0 : Beam) (a1 : Word) (a2 : Chip) (h2 : a2.canon) : (Chip.bmoHold a0 a1 a2).canon := by
  unfold Chip.bmoHold; with_reducible repeat' (first
    | assumption | apply Chip.wb_canon | apply Chip.holdEnter_canon | apply Chip.holdRelease_canon | apply ite_canon)

theorem Chip.storeBmo_canon (a0 : Nat) (a1 : Word) (a2 : Chip) (h2 : a2.canon) : (Chip.storeBmo a0 a1 a2).canon := by
  unfold Chip.storeBmo; with_reducible repeat' (first
    | assumption | apply Chip.bmoCtrl_canon | apply Chip.store_canon | apply Chip.bmoHold_canon | apply Chip.cmdWord_canon
    | apply Chip.cmdSend_canon | apply ite_canon)

theorem Chip.teEdge_canon (a0 : Beam) (a1 : Nat) (a2 : Chip) (h2 : a2.canon) : (Chip.teEdge a0 a1 a2).canon := by
  unfold Chip.teEdge; with_reducible repeat' (first
    | assumption | apply Chip.wr_canon | apply Chip.glkEdge_canon | apply ite_canon)

theorem Chip.teMiss_canon (a0 : Beam) (a1 : Chip) (h1 : a1.canon) : (Chip.teMiss a0 a1).canon := by
  unfold Chip.teMiss; with_reducible repeat' (first
    | assumption | apply Chip.sb_canon | apply Chip.glkLoss_canon | apply ite_canon)

theorem Chip.bankReset_canon (a0 : Core) (a1 : Chip) (h1 : a1.canon) : (Chip.bankReset a0 a1).canon := by
  unfold Chip.bankReset; with_reducible repeat' (first | assumption | intro _ | apply Chip.wr_canon | apply forEach_canon)

theorem Chip.coreHold_canon (a0 : Core) (a1 : Chip) (h1 : a1.canon) : (Chip.coreHold a0 a1).canon := by
  unfold Chip.coreHold; with_reducible repeat' (first | assumption | intro _ | apply Chip.onCore_canon | apply Chip.sb_canon)

theorem Chip.coreRelease_canon (a0 : Core) (a1 : Chip) (h1 : a1.canon) : (Chip.coreRelease a0 a1).canon := by
  unfold Chip.coreRelease; with_reducible repeat' (first
    | assumption | intro _ | apply Chip.wb_canon | apply Chip.wr_canon | apply Chip.onCore_canon | apply Chip.bankReset_canon
    | apply forEach_canon)

theorem Chip.coreRestart_canon (a0 : Core) (a1 : Chip) (h1 : a1.canon) : (Chip.coreRestart a0 a1).canon := by
  unfold Chip.coreRestart; with_reducible repeat' (first | assumption | apply Chip.coreRelease_canon | apply Chip.coreHold_canon)

theorem Chip.enterS_canon (a0 : Core) (a1 : Bool) (a2 : Chip) (h2 : a2.canon) : (Chip.enterS a0 a1 a2).canon := by
  unfold Chip.enterS; with_reducible repeat' (first | assumption | intro _ | apply Chip.onCore_canon | apply Chip.wr_canon)

theorem Chip.onRaster_canon (a0 : Core) (a1 : RasterSt → RasterSt) (a2 : Chip) (h2 : a2.canon) :
    (Chip.onRaster a0 a1 a2).canon := by
  unfold Chip.onRaster; with_reducible repeat' (first
    | assumption | apply canon_mk | (apply regsOk; first | assumption) | (apply memOk; first | assumption))

theorem Chip.rasterTrap_canon (a0 : Core) (a1 : Bool) (a2 : Chip) (h2 : a2.canon) : (Chip.rasterTrap a0 a1 a2).canon := by
  unfold Chip.rasterTrap; with_reducible repeat' (first
    | assumption | intro _ | apply Chip.onRaster_canon | apply ite_canon | refine snd_of (by assumption) ?_
    | refine thd_of (by assumption) ?_ | split)

theorem Chip.rasterHeld_canon (a0 : Core) (a1 : Nat) (a2 : Chip) (h2 : a2.canon) : (Chip.rasterHeld a0 a1 a2).canon := by
  unfold Chip.rasterHeld; with_reducible repeat' (first
    | assumption | intro _ | apply Chip.onRaster_canon | apply ite_canon | refine snd_of (by assumption) ?_
    | refine thd_of (by assumption) ?_ | split)

theorem Chip.doubleFault_canon (a0 : Core) (a1 : Chip) (h1 : a1.canon) : (Chip.doubleFault a0 a1).canon := by
  unfold Chip.doubleFault; with_reducible repeat' (first
    | assumption | apply Chip.sb_canon | apply Chip.journal_canon | apply Chip.rasterHeld_canon | apply Chip.coreHold_canon)

theorem Chip.trap_canon (a0 : Core) (a1 : Cause) (a2 : Option Word) (a3 : Chip) (h3 : a3.canon) :
    (Chip.trap a0 a1 a2 a3).canon := by
  unfold Chip.trap; with_reducible repeat' (first
    | assumption | intro _ | apply Chip.doubleFault_canon | apply Chip.wr_canon | apply Chip.enterS_canon
    | apply Chip.rasterTrap_canon | apply Chip.onCore_canon | apply ite_canon | refine snd_of (by assumption) ?_
    | refine thd_of (by assumption) ?_ | split)

theorem Chip.eret_canon (a0 : Core) (a1 : Chip) (h1 : a1.canon) : (Chip.eret a0 a1).canon := by
  unfold Chip.eret; with_reducible repeat' (first | assumption | intro _ | apply Chip.onCore_canon | apply Chip.wr_canon)

theorem Chip.wdgKick_canon (a0 : Core) (a1 : Word) (a2 : Chip) (h2 : a2.canon) : (Chip.wdgKick a0 a1 a2).canon := by
  unfold Chip.wdgKick; with_reducible repeat' (first
    | assumption | intro _ | apply Chip.onCore_canon | apply Chip.wr_canon | apply ite_canon)

theorem Chip.wdgStage1_canon (a0 : Core) (a1 : Chip) (h1 : a1.canon) : (Chip.wdgStage1 a0 a1).canon := by
  unfold Chip.wdgStage1; with_reducible repeat' (first
    | assumption | intro _ | apply Chip.onCore_canon | apply Chip.wr_canon | apply Chip.sb_canon | apply ite_canon)

theorem Chip.wdgStage2_canon (a0 : Core) (a1 : Chip) (h1 : a1.canon) : (Chip.wdgStage2 a0 a1).canon := by
  unfold Chip.wdgStage2; with_reducible repeat' (first
    | assumption | apply Chip.sb_canon | apply Chip.rasterHeld_canon | apply Chip.coreHold_canon | apply Chip.journal_canon
    | apply ite_canon)

theorem Chip.wdgExpire_canon (a0 : Core) (a1 : Chip) (h1 : a1.canon) : (Chip.wdgExpire a0 a1).canon := by
  unfold Chip.wdgExpire; with_reducible repeat' (first
    | assumption | intro _ | apply Chip.wdgStage2_canon | apply Chip.wdgStage1_canon | apply ite_canon | apply ite_canon2 |
      apply ite_canon3 | refine snd_of (by assumption) ?_ | refine thd_of (by assumption) ?_ | split | dsimp only)

theorem Chip.wdgTick_canon (a0 : Chip) (h0 : a0.canon) : (Chip.wdgTick a0).canon := by
  unfold Chip.wdgTick; with_reducible repeat' (first
    | assumption | intro _ | apply Chip.wdgExpire_canon | apply Chip.wr_canon | refine forEach_canon ?_ ?_ | apply ite_canon
      | apply ite_canon2 | apply ite_canon3 | refine snd_of (by assumption) ?_ | refine thd_of (by assumption) ?_ | split |
      dsimp only)

theorem Chip.lmCe_canon (a0 : Nat) (a1 : Chip) (h1 : a1.canon) : (Chip.lmCe a0 a1).canon := by
  unfold Chip.lmCe; with_reducible repeat' (first | assumption | apply Chip.wf_canon)

theorem Chip.lmUe_canon (a0 : Nat) (a1 : Nat) (a2 : Chip) (h2 : a2.canon) : (Chip.lmUe a0 a1 a2).canon := by
  unfold Chip.lmUe; with_reducible repeat' (first | assumption | apply Chip.wf_canon)

theorem Chip.lmFinds_canon (a0 : Nat) (a1 : Nat) (a2 : Option Ecc) (a3 : Chip) (h3 : a3.canon) : (Chip.lmFinds a0 a1 a2
  a3).canon := by
  unfold Chip.lmFinds; with_reducible repeat' (first
    | assumption | intro _ | apply Chip.lmCe_canon | apply ite_canon | apply ite_canon2 | apply ite_canon3 |
      refine snd_of (by assumption) ?_ | refine thd_of (by assumption) ?_ | split | apply canon_mk
    | (apply regsOk; first | assumption | apply Chip.lmCe_canon | apply ite_canon)
    | (apply memOk; first | assumption | apply Chip.lmCe_canon | apply ite_canon)
    | dsimp only)

theorem Chip.lmScrub_canon (a0 : Core) (a1 : Option Ecc) (a2 : Chip) (h2 : a2.canon) : (Chip.lmScrub a0 a1 a2).canon := by
  unfold Chip.lmScrub; with_reducible repeat' (first
    | assumption | intro _ | apply Chip.lmUe_canon | apply Chip.lmCe_canon | apply Chip.onCore_canon | apply ite_canon
    | refine snd_of (by assumption) ?_ | refine thd_of (by assumption) ?_ | split | apply canon_mk
    | (apply regsOk; first | assumption) | (apply memOk; first | assumption))

theorem Chip.storeYlx_canon (a0 : Core) (a1 : Nat) (a2 : Word) (a3 : Chip) (h3 : a3.canon) :
    (Chip.storeYlx a0 a1 a2 a3).canon := by
  unfold Chip.storeYlx; with_reducible repeat' (first
    | assumption | apply Chip.coreRestart_canon | apply Chip.coreHold_canon | apply Chip.coreRelease_canon
    | apply Chip.store_canon | apply Chip.wdgKick_canon | apply Chip.wr_canon | apply ite_canon)

theorem Chip.onSer_canon (a0 : SerSt → SerSt) (a1 : Chip) (h1 : a1.canon) : (Chip.onSer a0 a1).canon := by
  unfold Chip.onSer; with_reducible repeat' (first
    | assumption | apply canon_mk | (apply regsOk; first | assumption) | (apply memOk; first | assumption))

theorem Chip.onUart_canon (a0 : Fin 2) (a1 : UartSt → UartSt) (a2 : Chip) (h2 : a2.canon) : (Chip.onUart a0 a1 a2).canon := by
  unfold Chip.onUart; with_reducible repeat' (first | assumption | intro _ | apply Chip.onSer_canon)

theorem Chip.unitReq_canon (a0 : Nat) (a1 : Chip) (h1 : a1.canon) : (Chip.unitReq a0 a1).canon := by
  unfold Chip.unitReq; with_reducible repeat' (first
    | assumption | intro _ | apply Chip.request_canon | apply Chip.emit_canon | apply ite_canon | apply ite_canon2 |
      apply ite_canon3 | refine snd_of (by assumption) ?_ | refine thd_of (by assumption) ?_ | split | dsimp only)

theorem Chip.uartNext_canon (a0 : Fin 2) (a1 : Chip) (h1 : a1.canon) : (Chip.uartNext a0 a1).canon := by
  unfold Chip.uartNext; with_reducible repeat' (first | assumption | intro _ | apply Chip.onUart_canon | apply ite_canon)

theorem Chip.uartWrite_canon (a0 : Fin 2) (a1 : Byte) (a2 : Chip) (h2 : a2.canon) : (Chip.uartWrite a0 a1 a2).canon := by
  unfold Chip.uartWrite; with_reducible repeat' (first
    | assumption | intro _ | apply Chip.sb_canon | apply Chip.uartNext_canon | apply Chip.onUart_canon | apply ite_canon)

theorem Chip.uartSent_canon (a0 : Fin 2) (a1 : Chip) (h1 : a1.canon) : (Chip.uartSent a0 a1).canon := by
  unfold Chip.uartSent; with_reducible repeat' (first
    | assumption | intro _ | apply Chip.onUart_canon | apply Chip.emit_canon | apply Chip.unitReq_canon
    | apply Chip.uartNext_canon | apply ite_canon | refine snd_of (by assumption) ?_ | refine thd_of (by assumption) ?_ | split)

theorem Chip.uartRead_canon (a0 : Fin 2) (a1 : Chip) (h1 : a1.canon) : (Chip.uartRead a0 a1).2.canon := by
  unfold Chip.uartRead; with_reducible repeat' (first
    | assumption | intro _ | apply Chip.onUart_canon | refine snd_of (by assumption) ?_ | refine thd_of (by assumption) ?_
    | split)

theorem Chip.uartReceived_canon (a0 : Fin 2) (a1 : Bool) (a2 : List (BitVec 3)) (a3 : Chip) (h3 : a3.canon) :
    (Chip.uartReceived a0 a1 a2 a3).canon := by
  unfold Chip.uartReceived; with_reducible repeat' (first
    | assumption | intro _ | apply Chip.sbIf_canon | apply Chip.onUart_canon | apply Chip.sb_canon | apply Chip.unitReq_canon
    | apply ite_canon | refine snd_of (by assumption) ?_ | refine thd_of (by assumption) ?_ | split | apply canon_mk
    | (apply regsOk; first
      | assumption | apply Chip.sbIf_canon | apply Chip.onUart_canon | apply Chip.sb_canon | apply Chip.unitReq_canon
      | apply ite_canon)
    | (apply memOk; first
      | assumption | apply Chip.sbIf_canon | apply Chip.onUart_canon | apply Chip.sb_canon | apply Chip.unitReq_canon
      | apply ite_canon))

theorem Chip.uartTimeout_canon (a0 : Fin 2) (a1 : Chip) (h1 : a1.canon) : (Chip.uartTimeout a0 a1).canon := by
  unfold Chip.uartTimeout; with_reducible repeat' (first
    | assumption | intro _ | apply Chip.onUart_canon | apply Chip.unitReq_canon | apply ite_canon)

theorem Chip.setRegBytes_canon (a0 : Nat) (a1 : List Byte) (a2 : Chip) (h2 : a2.canon) : (Chip.setRegBytes a0 a1 a2).canon := by
  unfold Chip.setRegBytes; with_reducible repeat' (first | assumption | intro _ | apply Chip.wf_canon | apply forEach_canon)

theorem Chip.qspiGo_canon (a0 : Word) (a1 : Chip) (h1 : a1.canon) : (Chip.qspiGo a0 a1).canon := by
  unfold Chip.qspiGo; with_reducible repeat' (first
    | assumption | apply Chip.sb_canon | apply Chip.store_canon | apply Chip.emit_canon | apply ite_canon)

theorem Chip.qspiDone_canon (a0 : List Byte) (a1 : Chip) (h1 : a1.canon) : (Chip.qspiDone a0 a1).canon := by
  unfold Chip.qspiDone; with_reducible repeat' (first
    | assumption | apply Chip.setRegBytes_canon | apply Chip.sb_canon | apply Chip.wb_canon | apply ite_canon)

theorem Chip.setI2c_canon (a0 : Fin 4) (a1 : Option I2cTx) (a2 : Chip) (h2 : a2.canon) : (Chip.setI2c a0 a1 a2).canon := by
  unfold Chip.setI2c; with_reducible repeat' (first | assumption | intro _ | apply Chip.onSer_canon)

theorem Chip.i2cDrive_canon (a0 : Fin 4) (a1 : I2cTx) (a2 : Chip) (h2 : a2.canon) : (Chip.i2cDrive a0 a1 a2).canon := by
  unfold Chip.i2cDrive; with_reducible repeat' (first
    | assumption | intro _ | apply Chip.emit_canon | apply ite_canon | apply ite_canon2 | apply ite_canon3 |
      refine snd_of (by assumption) ?_ | refine thd_of (by assumption) ?_ | split | dsimp only)

theorem Chip.i2cGo_canon (a0 : Fin 4) (a1 : Word) (a2 : Chip) (h2 : a2.canon) : (Chip.i2cGo a0 a1 a2).canon := by
  unfold Chip.i2cGo; with_reducible repeat' (first
    | assumption | intro _ | apply Chip.store_canon | apply Chip.sb_canon | apply Chip.i2cDrive_canon |
      apply Chip.setI2c_canon | apply ite_canon | apply ite_canon2 | apply ite_canon3 | refine snd_of (by assumption) ?_ |
      refine thd_of (by assumption) ?_ | split | dsimp only)

theorem Chip.i2cEnd_canon (a0 : Fin 4) (a1 : Nat) (a2 : Chip) (h2 : a2.canon) : (Chip.i2cEnd a0 a1 a2).canon := by
  unfold Chip.i2cEnd; with_reducible repeat' (first
    | assumption | apply Chip.sb_canon | apply Chip.setI2c_canon | apply Chip.wb_canon)

theorem Chip.i2cDone_canon (a0 : Fin 4) (a1 : I2cEnd) (a2 : Chip) (h2 : a2.canon) : (Chip.i2cDone a0 a1 a2).canon := by
  unfold Chip.i2cDone; with_reducible repeat' (first
    | assumption | apply Chip.i2cEnd_canon | apply Chip.setRegBytes_canon | apply Chip.wf_canon | apply Chip.sb_canon
    | refine snd_of (by assumption) ?_ | refine thd_of (by assumption) ?_ | split)

theorem Chip.i2cTimeout_canon (a0 : Fin 4) (a1 : Chip) (h1 : a1.canon) : (Chip.i2cTimeout a0 a1).canon := by
  unfold Chip.i2cTimeout; with_reducible repeat' (first | assumption | apply Chip.i2cEnd_canon | apply ite_canon)

theorem Chip.adcBegin_canon (a0 : Chip) (h0 : a0.canon) : (Chip.adcBegin a0).canon := by
  unfold Chip.adcBegin; with_reducible repeat' (first | assumption | intro _ | apply Chip.onSer_canon)

theorem Chip.adcTrigger_canon (a0 : Chip) (h0 : a0.canon) : (Chip.adcTrigger a0).canon := by
  unfold Chip.adcTrigger; with_reducible repeat' (first
    | assumption | apply Chip.adcBegin_canon | apply Chip.wf_canon | apply Chip.sb_canon | apply Chip.incSat_canon
    | apply ite_canon)

theorem Chip.adcNext_canon (a0 : Chip) (h0 : a0.canon) : (Chip.adcNext a0).canon := by
  unfold Chip.adcNext; with_reducible repeat' (first
    | assumption | apply Chip.adcBegin_canon | apply Chip.wf_canon | apply ite_canon)

theorem Chip.adcResults_canon (a0 : List Nat) (a1 : List (BitVec 12)) (a2 : Chip) (h2 : a2.canon) :
    (Chip.adcResults a0 a1 a2).canon := by
  unfold Chip.adcResults; with_reducible repeat' (first | assumption | intro _ | apply Chip.wr_canon | apply forEach_canon)

theorem Chip.adcEnd_canon (a0 : List (BitVec 12)) (a1 : Chip) (h1 : a1.canon) : (Chip.adcEnd a0 a1).canon := by
  unfold Chip.adcEnd; with_reducible repeat' (first
    | assumption | intro _ | apply Chip.onSer_canon | apply Chip.adcResults_canon | apply Chip.adcNext_canon
    | apply Chip.unitReq_canon | apply Chip.sb_canon | refine snd_of (by assumption) ?_ | refine thd_of (by assumption) ?_
    | split)

theorem Chip.adcCal_canon (a0 : Chip) (h0 : a0.canon) : (Chip.adcCal a0).canon := by
  unfold Chip.adcCal; with_reducible repeat' (first | assumption | apply Chip.sb_canon)

theorem Chip.serResume_canon (a0 : Chip) (h0 : a0.canon) : (Chip.serResume a0).canon := by
  unfold Chip.serResume; with_reducible repeat' (first | assumption | apply Chip.adcNext_canon | apply Chip.uartNext_canon)

theorem Chip.gpioSet_canon (a0 : Fin 2) (a1 : Word) (a2 : Chip) (h2 : a2.canon) : (Chip.gpioSet a0 a1 a2).canon := by
  unfold Chip.gpioSet; with_reducible repeat' (first | assumption | apply Chip.wr_canon)

theorem Chip.gpioClr_canon (a0 : Fin 2) (a1 : Word) (a2 : Chip) (h2 : a2.canon) : (Chip.gpioClr a0 a1 a2).canon := by
  unfold Chip.gpioClr; with_reducible repeat' (first | assumption | apply Chip.wr_canon)

theorem Chip.gpioInput_canon (a0 : Fin 48) (a1 : Bool) (a2 : Nat) (a3 : Chip) (h3 : a3.canon) :
    (Chip.gpioInput a0 a1 a2 a3).canon := by
  unfold Chip.gpioInput; with_reducible repeat' (first
    | assumption | intro _ | apply Chip.onSer_canon | apply Chip.sbIf_canon | apply ite_canon)

theorem Chip.storeSer_canon (a0 : Nat) (a1 : Word) (a2 : Chip) (h2 : a2.canon) : (Chip.storeSer a0 a1 a2).canon := by
  unfold Chip.storeSer; with_reducible repeat' (first
    | assumption | intro _ | apply Chip.uartNext_canon | apply Chip.store_canon | apply Chip.onUart_canon |
      apply Chip.uartWrite_canon | apply Chip.onSer_canon | apply Chip.sb_canon | apply Chip.qspiGo_canon |
      apply Chip.i2cGo_canon | apply ite_canon | apply ite_canon2 | apply ite_canon3 | refine snd_of (by assumption) ?_ |
      refine thd_of (by assumption) ?_ | split | dsimp only)

theorem Chip.readSer_canon (a0 : Nat) (a1 : Chip) (h1 : a1.canon) : (Chip.readSer a0 a1).2.canon := by
  unfold Chip.readSer; with_reducible repeat' (first
    | assumption | apply Chip.uartRead_canon | apply ite_canon | apply ite_canon2)

theorem Chip.storeAdc_canon (a0 : Nat) (a1 : Word) (a2 : Chip) (h2 : a2.canon) : (Chip.storeAdc a0 a1 a2).canon := by
  unfold Chip.storeAdc; with_reducible repeat' (first
    | assumption | intro _ | apply Chip.store_canon | apply Chip.when_canon | apply Chip.adcCal_canon
    | apply Chip.adcTrigger_canon | apply ite_canon)

theorem Chip.storeGpio_canon (a0 : Nat) (a1 : Word) (a2 : Chip) (h2 : a2.canon) : (Chip.storeGpio a0 a1 a2).canon := by
  unfold Chip.storeGpio; with_reducible repeat' (first
    | assumption | apply Chip.store_canon | apply Chip.gpioSet_canon | apply Chip.gpioClr_canon | apply ite_canon)

theorem Chip.onSnd_canon (a0 : SndSt → SndSt) (a1 : Chip) (h1 : a1.canon) : (Chip.onSnd a0 a1).canon := by
  unfold Chip.onSnd; with_reducible repeat' (first
    | assumption | apply canon_mk | (apply regsOk; first | assumption) | (apply memOk; first | assumption))

theorem Chip.setVoice_canon (a0 : Nat) (a1 : VoiceSt) (a2 : Chip) (h2 : a2.canon) : (Chip.setVoice a0 a1 a2).canon := by
  unfold Chip.setVoice; with_reducible repeat' (first | assumption | intro _ | apply Chip.onSnd_canon)

theorem Chip.onBus_canon (a0 : Bus) (a1 : BusSt → BusSt) (a2 : Chip) (h2 : a2.canon) : (Chip.onBus a0 a1 a2).canon := by
  unfold Chip.onBus; with_reducible repeat' (first | assumption | intro _ | apply Chip.onSnd_canon)

theorem Chip.onAud_canon (a0 : Fin 3) (a1 : AudPort → AudPort) (a2 : Chip) (h2 : a2.canon) : (Chip.onAud a0 a1 a2).canon := by
  unfold Chip.onAud; with_reducible repeat' (first | assumption | intro _ | apply Chip.onSnd_canon)

theorem Chip.setVState_canon (a0 : Nat) (a1 : Nat) (a2 : Chip) (h2 : a2.canon) : (Chip.setVState a0 a1 a2).canon := by
  unfold Chip.setVState; with_reducible repeat' (first | assumption | apply Chip.wf_canon)

theorem Chip.voiceIdle_canon (a0 : Nat) (a1 : Chip) (h1 : a1.canon) : (Chip.voiceIdle a0 a1).canon := by
  unfold Chip.voiceIdle; with_reducible repeat' (first
    | assumption | apply Chip.sb_canon | apply Chip.setVState_canon | apply Chip.wb_canon | apply Chip.setVoice_canon)

theorem Chip.voiceArm_canon (a0 : Nat) (a1 : Chip) (h1 : a1.canon) : (Chip.voiceArm a0 a1).canon := by
  unfold Chip.voiceArm; with_reducible repeat' (first
    | assumption | apply Chip.sb_canon | apply Chip.wf_canon | apply Chip.setVState_canon | apply Chip.setVoice_canon
    | apply ite_canon)

theorem Chip.voiceRelease_canon (a0 : Nat) (a1 : Chip) (h1 : a1.canon) : (Chip.voiceRelease a0 a1).canon := by
  unfold Chip.voiceRelease; with_reducible repeat' (first
    | assumption | apply Chip.voiceIdle_canon | apply Chip.setVState_canon | apply Chip.setVoice_canon | apply ite_canon
    | refine snd_of (by assumption) ?_ | refine thd_of (by assumption) ?_ | split)

theorem Chip.voiceStop_canon (a0 : Nat) (a1 : Chip) (h1 : a1.canon) : (Chip.voiceStop a0 a1).canon := by
  unfold Chip.voiceStop; with_reducible repeat' (first | assumption | apply Chip.voiceIdle_canon | apply ite_canon)

theorem Chip.voiceGain_canon (a0 : Nat) (a1 : Word) (a2 : Chip) (h2 : a2.canon) : (Chip.voiceGain a0 a1 a2).canon := by
  unfold Chip.voiceGain; with_reducible repeat' (first
    | assumption | apply Chip.store_canon | apply Chip.sb_canon | apply Chip.setVoice_canon | apply ite_canon)

theorem Chip.voiceCtrl_canon (a0 : Nat) (a1 : Word) (a2 : Chip) (h2 : a2.canon) : (Chip.voiceCtrl a0 a1 a2).canon := by
  unfold Chip.voiceCtrl; with_reducible repeat' (first
    | assumption | apply Chip.store_canon | apply Chip.voiceArm_canon | apply Chip.voiceRelease_canon
    | apply Chip.voiceStop_canon | refine snd_of (by assumption) ?_ | refine thd_of (by assumption) ?_ | split)

theorem Chip.busGain_canon (a0 : Bus) (a1 : Word) (a2 : Chip) (h2 : a2.canon) : (Chip.busGain a0 a1 a2).canon := by
  unfold Chip.busGain; with_reducible repeat' (first
    | assumption | intro _ | apply Chip.store_canon | apply Chip.sb_canon | apply Chip.onBus_canon | apply Chip.wb_canon
    | apply ite_canon)

theorem Chip.efxLoad_canon (a0 : Bus) (a1 : Chip) (h1 : a1.canon) : (Chip.efxLoad a0 a1).canon := by
  unfold Chip.efxLoad; with_reducible repeat' (first | assumption | intro _ | apply Chip.onBus_canon)

theorem Chip.efxDone_canon (a0 : Bus) (a1 : Chip) (h1 : a1.canon) : (Chip.efxDone a0 a1).canon := by
  unfold Chip.efxDone; with_reducible repeat' (first
    | assumption | intro _ | apply Chip.onBus_canon | apply Chip.sb_canon | apply Chip.vRead_canon | apply Chip.sbIf_canon
    | apply ite_canon | apply ite_canon2 | apply ite_canon3 | refine snd_of (by assumption) ?_
    | refine thd_of (by assumption) ?_ | split)

theorem Chip.sampleAt_canon (a0 : VoiceSt) (a1 : Nat) (a2 : Chip) (h2 : a2.canon) : (Chip.sampleAt a0 a1 a2).2.2.canon := by
  unfold Chip.sampleAt; with_reducible repeat' (first
    | assumption | intro _ | apply Chip.vRead_canon | apply ite_canon | apply ite_canon2 | apply ite_canon3 |
      refine snd_of (by assumption) ?_ | refine thd_of (by assumption) ?_ | split | dsimp only)

theorem Chip.voiceStart_canon (a0 : Nat) (a1 : Chip) (h1 : a1.canon) : (Chip.voiceStart a0 a1).canon := by
  unfold Chip.voiceStart; with_reducible repeat' (first
    | assumption | apply Chip.setVState_canon | apply Chip.setVoice_canon | apply ite_canon)

theorem Chip.voiceFade_canon (a0 : Nat) (a1 : Chip) (h1 : a1.canon) : (Chip.voiceFade a0 a1).canon := by
  unfold Chip.voiceFade; with_reducible repeat' (first | assumption | apply Chip.wb_canon | apply Chip.setVoice_canon)

theorem Chip.voiceRun_canon (a0 : Nat) (a1 : Bool) (a2 : Chip) (h2 : a2.canon) : (Chip.voiceRun a0 a1 a2).2.canon := by
  unfold Chip.voiceRun; with_reducible repeat' (first
    | assumption | intro _ | apply Chip.voiceIdle_canon | apply Chip.sampleAt_canon | apply Chip.sb_canon |
      apply Chip.sbIf_canon | apply Chip.wb_canon | apply Chip.setVoice_canon | apply ite_canon | apply ite_canon2 |
      apply ite_canon3 | refine snd_of (by assumption) ?_ | refine thd_of (by assumption) ?_ | split | dsimp only)

theorem Chip.voiceFrame_canon (a0 : List Voice) (a1 : Nat) (a2 : Chip) (h2 : a2.canon) : (Chip.voiceFrame a0 a1 a2).2.canon := by
  unfold Chip.voiceFrame; with_reducible repeat' (first
    | assumption | intro _ | apply Chip.voiceFade_canon | apply Chip.voiceStart_canon | apply Chip.voiceRun_canon
    | apply Chip.wb_canon | apply Chip.setVoice_canon | apply ite_canon | apply ite_canon2)

theorem Chip.voiceFrames_canon (a0 : List Voice) (a1 : List Nat) (a2 : Chip) (h2 : a2.canon) :
    (Chip.voiceFrames a0 a1 a2).2.canon := by
  fun_induction Chip.voiceFrames a0 a1 a2 <;> with_reducible repeat' (first
    | assumption | apply_assumption | apply Chip.voiceFrame_canon | refine snd_of (by assumption) ?_)

theorem Chip.busDelay_canon (a0 : Bus) (a1 : ℤ) (a2 : ℤ) (a3 : Chip) (h3 : a3.canon) : (Chip.busDelay a0 a1 a2 a3).2.canon :=
  by
  unfold Chip.busDelay; with_reducible repeat' (first
    | assumption | intro _ | apply Chip.vRead_canon | apply Chip.sbIf_canon | apply Chip.vWrite_canon |
      apply Chip.onBus_canon | apply ite_canon | apply ite_canon2 | apply ite_canon3 | refine snd_of (by assumption) ?_ |
      refine thd_of (by assumption) ?_ | split | dsimp only)

theorem Chip.busFrame_canon (a0 : Bus) (a1 : List (ℤ × ℤ × Bool)) (a2 : Chip) (h2 : a2.canon) : (Chip.busFrame a0 a1
  a2).2.canon := by
  unfold Chip.busFrame; with_reducible repeat' (first
    | assumption | intro _ | apply Chip.onBus_canon | apply Chip.busDelay_canon | apply Chip.wb_canon | apply Chip.wf_canon |
      apply Chip.sbIf_canon | apply ite_canon | apply ite_canon2 | apply ite_canon3 | refine snd_of (by assumption) ?_ |
      refine thd_of (by assumption) ?_ | split | dsimp only)

theorem Chip.busFrames_canon (a0 : List (Nat × ℤ × ℤ × Bool)) (a1 : List Bus) (a2 : Chip) (h2 : a2.canon) : (Chip.busFrames
  a0 a1 a2).2.canon := by
  fun_induction Chip.busFrames a0 a1 a2 <;> with_reducible repeat' (first
    | assumption | intro _ | apply_assumption | apply Chip.busFrame_canon | apply ite_canon | apply ite_canon2 |
      apply ite_canon3 | refine snd_of (by assumption) ?_ | refine thd_of (by assumption) ?_ | split | dsimp only)

theorem Chip.slip_canon (a0 : Nat) (a1 : Chip) (h1 : a1.canon) : (Chip.slip a0 a1).canon := by
  unfold Chip.slip; with_reducible repeat' (first | assumption | apply Chip.wf_canon)

theorem Chip.audPush_canon (a0 : Fin 3) (a1 : List ℤ) (a2 : Chip) (h2 : a2.canon) : (Chip.audPush a0 a1 a2).canon := by
  unfold Chip.audPush; with_reducible repeat' (first
    | assumption | intro _ | apply Chip.slip_canon | apply Chip.onAud_canon | apply ite_canon | apply ite_canon2 |
      apply ite_canon3 | refine snd_of (by assumption) ?_ | refine thd_of (by assumption) ?_ | split | dsimp only)

theorem Chip.audPop_canon (a0 : Fin 3) (a1 : Chip) (h1 : a1.canon) : (Chip.audPop a0 a1).2.canon := by
  unfold Chip.audPop; with_reducible repeat' (first
    | assumption | intro _ | apply Chip.onAud_canon | apply Chip.slip_canon | refine snd_of (by assumption) ?_
    | refine thd_of (by assumption) ?_ | split)

theorem Chip.audSend_canon (a0 : Fin 3) (a1 : List ℤ) (a2 : Chip) (h2 : a2.canon) : (Chip.audSend a0 a1 a2).canon := by
  unfold Chip.audSend; with_reducible repeat' (first
    | assumption | intro _ | apply Chip.emit_canon | apply ite_canon | apply ite_canon2 | apply ite_canon3 |
      refine snd_of (by assumption) ?_ | refine thd_of (by assumption) ?_ | split | dsimp only)

theorem Chip.audOut_canon (a0 : Fin 3) (a1 : List ℤ) (a2 : Chip) (h2 : a2.canon) : (Chip.audOut a0 a1 a2).canon := by
  unfold Chip.audOut; with_reducible repeat' (first
    | assumption | intro _ | apply Chip.audSend_canon | apply Chip.audPush_canon | apply ite_canon | apply ite_canon2 |
      apply ite_canon3 | refine snd_of (by assumption) ?_ | refine thd_of (by assumption) ?_ | split | dsimp only)

theorem Chip.capture_canon (a0 : List ℤ) (a1 : Chip) (h1 : a1.canon) : (Chip.capture a0 a1).canon := by
  unfold Chip.capture; with_reducible repeat' (first
    | assumption | intro _ | apply Chip.sb_canon | apply Chip.incSat_canon | apply Chip.unitReq_canon | apply Chip.wf_canon |
      apply Chip.vWrite_canon | apply ite_canon | apply ite_canon2 | apply ite_canon3 | refine snd_of (by assumption) ?_ |
      refine thd_of (by assumption) ?_ | split | dsimp only)

theorem Chip.voiceCheck_canon (a0 : Bool) (a1 : Chip) (h1 : a1.canon) : (Chip.voiceCheck a0 a1).canon := by
  unfold Chip.voiceCheck; with_reducible repeat' (first
    | assumption | intro _ | apply Chip.onSnd_canon | apply Chip.sb_canon | apply Chip.when_canon | apply Chip.wantDarn_canon
      | apply Chip.journal_canon | apply ite_canon | apply ite_canon2 | apply ite_canon3 | refine snd_of (by assumption) ?_ |
      refine thd_of (by assumption) ?_ | split | dsimp only)

theorem Chip.computeFrame_canon (a0 : List Voice) (a1 : List ℤ) (a2 : Chip) (h2 : a2.canon) : (Chip.computeFrame a0 a1
  a2).canon := by
  unfold Chip.computeFrame; with_reducible repeat' (first
    | assumption | intro _ | apply Chip.voiceFrames_canon | apply Chip.busFrames_canon | apply Chip.sbIf_canon |
      apply Chip.onSnd_canon | apply ite_canon | apply ite_canon2 | apply ite_canon3 | refine snd_of (by assumption) ?_ |
      refine thd_of (by assumption) ?_ | split | dsimp only)

theorem Chip.fsEdge_canon (a0 : Bool) (a1 : List Voice) (a2 : List Word) (a3 : Bool) (a4 : Chip) (h4 : a4.canon) :
    (Chip.fsEdge a0 a1 a2 a3 a4).canon := by
  revert a0 a1 a2 a3 a4; intro late under rx bad c h
  unfold Chip.fsEdge; extract_lets c1 c2 m c3 c4
  split
  · exact h
  have h1 : c1.canon := Chip.incWrap_canon _ _ (Chip.wr_canon _ _ _ h)
  have h2 : c2.canon := by unfold c2; split; exact Chip.incSat_canon _ _ (Chip.sb_canon _ _ _ h1); exact Chip.onSnd_canon _ _ h1
  have h3 : c3.canon := Chip.audOut_canon _ _ _ h2
  have h4 : c4.canon := Chip.audOut_canon _ _ _ h3
  clear_value c4
  clear_value c3
  split
  rename_i fr c5 e
  have h5 : c5.canon := by
    refine snd_of e ?_
    split; exact h4; split; exact h4; exact Chip.audPop_canon _ _ h4
  clear e
  extract_lets c6 c7
  have h6 : c6.canon := by unfold c6; split; exact Chip.capture_canon _ _ h5; exact h5
  have h7 : c7.canon := Chip.computeFrame_canon _ _ _ h6
  clear_value c7
  split; exact Chip.voiceCheck_canon _ _ h7; exact h7

theorem Chip.audGo_canon (a0 : Fin 3) (a1 : Chip) (h1 : a1.canon) : (Chip.audGo a0 a1).canon := by
  unfold Chip.audGo; with_reducible repeat' (first
    | assumption | intro _ | apply Chip.emit_canon | apply Chip.sb_canon | apply ite_canon | apply ite_canon2 |
      apply ite_canon3 | refine snd_of (by assumption) ?_ | refine thd_of (by assumption) ?_ | split | dsimp only)

theorem Chip.audStart_canon (a0 : Fin 3) (a1 : Chip) (h1 : a1.canon) : (Chip.audStart a0 a1).canon := by
  unfold Chip.audStart; with_reducible repeat' (first
    | assumption | intro _ | apply Chip.sb_canon | apply Chip.audGo_canon | apply Chip.onAud_canon | apply ite_canon |
      apply ite_canon2 | apply ite_canon3 | refine snd_of (by assumption) ?_ | refine thd_of (by assumption) ?_ | split |
      dsimp only)

theorem Chip.audEnable_canon (a0 : Fin 3) (a1 : Bool) (a2 : Chip) (h2 : a2.canon) : (Chip.audEnable a0 a1 a2).canon := by
  unfold Chip.audEnable; with_reducible repeat' (first
    | assumption | intro _ | apply Chip.audStart_canon | apply Chip.sb_canon | apply Chip.emit_canon | apply Chip.wb_canon |
      apply Chip.onSnd_canon | apply ite_canon | apply ite_canon2 | apply ite_canon3 | refine snd_of (by assumption) ?_ |
      refine thd_of (by assumption) ?_ | split | dsimp only)

theorem Chip.audLock_canon (a0 : Chip) (h0 : a0.canon) : (Chip.audLock a0).canon := by
  unfold Chip.audLock; with_reducible repeat' (first
    | assumption | intro _ | apply Chip.audGo_canon | apply Chip.sb_canon | refine forEach_canon ?_ ?_ | apply ite_canon |
      apply ite_canon2 | apply ite_canon3 | refine snd_of (by assumption) ?_ | refine thd_of (by assumption) ?_ | split |
      dsimp only)

theorem Chip.slaveLock_canon (a0 : Nat) (a1 : Chip) (h1 : a1.canon) : (Chip.slaveLock a0 a1).canon := by
  unfold Chip.slaveLock; with_reducible repeat' (first
    | assumption | intro _ | apply Chip.onSnd_canon | apply Chip.sb_canon | apply Chip.wb_canon | apply ite_canon)

theorem Chip.slaveEdge_canon (a0 : Fin 3) (a1 : Nat) (a2 : Nat) (a3 : List Word) (a4 : Chip) (h4 : a4.canon) :
    (Chip.slaveEdge a0 a1 a2 a3 a4).canon := by
  unfold Chip.slaveEdge; with_reducible repeat' (first
    | assumption | apply Chip.sbIf_canon | apply Chip.slaveLock_canon | apply Chip.audPush_canon | apply Chip.audPop_canon
    | apply Chip.audSend_canon | apply ite_canon)

theorem Chip.sndDim_canon (a0 : Chip) (h0 : a0.canon) : (Chip.sndDim a0).canon := by
  unfold Chip.sndDim; with_reducible repeat' (first
    | assumption | intro _ | apply Chip.when_canon | apply Chip.emit_canon | apply Chip.wb_canon | refine forEach_canon ?_ ?_
      | apply ite_canon | apply ite_canon2 | apply ite_canon3 | refine snd_of (by assumption) ?_ |
      refine thd_of (by assumption) ?_ | split | dsimp only)

theorem Chip.sndResume_canon (a0 : Chip) (h0 : a0.canon) : (Chip.sndResume a0).canon := by
  unfold Chip.sndResume; with_reducible repeat' (first
    | assumption | intro _ | apply Chip.audStart_canon | apply forEach_canon | apply ite_canon)

theorem Chip.busCtrl_canon (a0 : Bus) (a1 : Word) (a2 : Chip) (h2 : a2.canon) : (Chip.busCtrl a0 a1 a2).canon := by
  unfold Chip.busCtrl; with_reducible repeat' (first
    | assumption | intro _ | apply Chip.store_canon | apply Chip.wr_canon | apply Chip.onBus_canon | apply Chip.efxLoad_canon
    | apply ite_canon)

theorem Chip.storeSnd_canon (a0 : Core) (a1 : Nat) (a2 : Word) (a3 : Chip) (h3 : a3.canon) :
    (Chip.storeSnd a0 a1 a2 a3).canon := by
  unfold Chip.storeSnd; with_reducible repeat' (first
    | assumption | apply Chip.setPort_canon | apply Chip.voiceCtrl_canon | apply Chip.voiceGain_canon | apply Chip.store_canon
    | apply Chip.busCtrl_canon | apply Chip.busGain_canon | apply ite_canon | refine snd_of (by assumption) ?_
    | refine thd_of (by assumption) ?_ | split)

theorem Chip.readSnd_canon (a0 : Core) (a1 : Nat) (a2 : Chip) (h2 : a2.canon) : (Chip.readSnd a0 a1 a2).2.canon := by
  unfold Chip.readSnd; with_reducible repeat' (first
    | assumption | intro _ | apply Chip.wr_canon | apply ite_canon | apply ite_canon2 | apply ite_canon3
    | refine snd_of (by assumption) ?_ | refine thd_of (by assumption) ?_ | split)

theorem Chip.storeAud_canon (a0 : Nat) (a1 : Word) (a2 : Chip) (h2 : a2.canon) : (Chip.storeAud a0 a1 a2).canon := by
  unfold Chip.storeAud; with_reducible repeat' (first
    | assumption | apply Chip.store_canon | apply Chip.wr_canon | apply Chip.audEnable_canon | apply ite_canon)

theorem Chip.onMotifs_canon (a0 : MotifSt → MotifSt) (a1 : Chip) (h1 : a1.canon) : (Chip.onMotifs a0 a1).canon := by
  unfold Chip.onMotifs; with_reducible repeat' (first
    | assumption | apply canon_mk | (apply regsOk; first | assumption) | (apply memOk; first | assumption))

theorem Chip.sliceMark_canon (a0 : Nat) (a1 : Chip) (h1 : a1.canon) : (Chip.sliceMark a0 a1).canon := by
  unfold Chip.sliceMark; with_reducible repeat' (first | assumption | intro _ | apply Chip.onMotifs_canon)

theorem Chip.sliceServe_canon (a0 : Nat) (a1 : Chip) (h1 : a1.canon) : (Chip.sliceServe a0 a1).canon := by
  unfold Chip.sliceServe; with_reducible repeat' (first | assumption | intro _ | apply Chip.onMotifs_canon | apply ite_canon)

theorem Chip.sliceAssign_canon (a0 : Nat) (a1 : Chip) (h1 : a1.canon) : (Chip.sliceAssign a0 a1).canon := by
  unfold Chip.sliceAssign; with_reducible repeat' (first
    | assumption | apply Chip.darned_canon | apply Chip.journal_canon | apply Chip.sliceServe_canon | apply ite_canon)

theorem Chip.sliceVisit_canon (a0 : Bool) (a1 : Chip) (h1 : a1.canon) : (Chip.sliceVisit a0 a1).canon := by
  unfold Chip.sliceVisit; with_reducible repeat' (first
    | assumption | intro _ | apply Chip.wr_canon | apply Chip.onMotifs_canon | apply Chip.sb_canon |
      apply Chip.sliceMark_canon | apply Chip.wantDarn_canon | apply Chip.journal_canon | apply ite_canon | apply ite_canon2
      | apply ite_canon3 | refine snd_of (by assumption) ?_ | refine thd_of (by assumption) ?_ | split | dsimp only)

theorem Chip.storeSlice_canon (a0 : Word) (a1 : Chip) (h1 : a1.canon) : (Chip.storeSlice a0 a1).canon := by
  unfold Chip.storeSlice; with_reducible repeat' (first
    | assumption | intro _ | apply Chip.when_canon | apply Chip.sliceAssign_canon | apply Chip.sliceMark_canon
    | apply Chip.store_canon)

theorem Chip.voiceMark_canon (a0 : Fin 4) (a1 : Word) (a2 : Chip) (h2 : a2.canon) : (Chip.voiceMark a0 a1 a2).canon := by
  unfold Chip.voiceMark; with_reducible repeat' (first | assumption | apply Chip.store_canon)

theorem Chip.voiceDarned_canon (a0 : Nat) (a1 : Nat) (a2 : Chip) (h2 : a2.canon) : (Chip.voiceDarned a0 a1 a2).canon := by
  unfold Chip.voiceDarned; with_reducible repeat' (first
    | assumption | apply Chip.darned_canon | apply Chip.journal_canon | apply ite_canon)

theorem Chip.pipesDarned_canon (a0 : Word) (a1 : Chip) (h1 : a1.canon) : (Chip.pipesDarned a0 a1).canon := by
  unfold Chip.pipesDarned; with_reducible repeat' (first
    | assumption | intro _ | apply Chip.darned_canon | apply Chip.journal_canon | apply forEach_canon | apply ite_canon)

theorem Chip.mirror_canon (a0 : List Byte) (a1 : Chip) (h1 : a1.canon) : (Chip.mirror a0 a1).canon := by
  unfold Chip.mirror; with_reducible repeat' (first
    | assumption | apply canon_mk | (apply regsOk; first | assumption) | (apply memOk; first | assumption))

theorem Chip.jrnWrite_canon (a0 : Chip) (h0 : a0.canon) : (Chip.jrnWrite a0).canon := by
  unfold Chip.jrnWrite; with_reducible repeat' (first
    | assumption | apply Chip.sb_canon | apply Chip.incSat_canon | apply Chip.vWrite_canon | apply Chip.mirror_canon
    | apply Chip.incWrap_canon | apply ite_canon | refine snd_of (by assumption) ?_ | refine thd_of (by assumption) ?_ | split
    | apply canon_mk | (apply regsOk; first | assumption) | (apply memOk; first | assumption))

theorem Chip.jrnDrain_canon (a0 : Chip) (h0 : a0.canon) : (Chip.jrnDrain a0).canon := by
  unfold Chip.jrnDrain; with_reducible repeat' (first
    | assumption | intro _ | apply Chip.jrnWrite_canon | refine forEach_canon ?_ ?_ | apply ite_canon | apply ite_canon2 |
      apply ite_canon3 | refine snd_of (by assumption) ?_ | refine thd_of (by assumption) ?_ | split | dsimp only)

theorem Chip.jrnPost_canon (a0 : Word) (a1 : Chip) (h1 : a1.canon) : (Chip.jrnPost a0 a1).canon := by
  unfold Chip.jrnPost; with_reducible repeat' (first | assumption | apply Chip.journal_canon)

theorem Chip.storeVlm_canon (a0 : Nat) (a1 : Word) (a2 : Chip) (h2 : a2.canon) : (Chip.storeVlm a0 a1 a2).canon := by
  unfold Chip.storeVlm; with_reducible repeat' (first
    | assumption | intro _ | apply Chip.store_canon | apply Chip.when_canon | apply Chip.freeStart_canon |
      apply Chip.scrubOff_canon | apply Chip.cntClr_canon | apply Chip.storeDrnCopy_canon | apply Chip.storeSlice_canon |
      apply Chip.voiceMark_canon | apply Chip.jrnPost_canon | apply ite_canon | apply ite_canon2 | apply ite_canon3 |
      refine snd_of (by assumption) ?_ | refine thd_of (by assumption) ?_ | split | dsimp only)

theorem Chip.onLtn_canon (a0 : LtnSt → LtnSt) (a1 : Chip) (h1 : a1.canon) : (Chip.onLtn a0 a1).canon := by
  unfold Chip.onLtn; with_reducible repeat' (first
    | assumption | apply canon_mk | (apply regsOk; first | assumption) | (apply memOk; first | assumption))

theorem Chip.setVcode_canon (a0 : Nat) (a1 : Chip) (h1 : a1.canon) : (Chip.setVcode a0 a1).canon := by
  unfold Chip.setVcode; with_reducible repeat' (first | assumption | apply Chip.wf_canon)

theorem Chip.vsetStep_canon (a0 : Chip) (h0 : a0.canon) : (Chip.vsetStep a0).canon := by
  unfold Chip.vsetStep; with_reducible repeat' (first | assumption | apply Chip.setVcode_canon | apply ite_canon)

theorem Chip.setPhase_canon (a0 : Nat) (a1 : Nat) (a2 : Chip) (h2 : a2.canon) : (Chip.setPhase a0 a1 a2).canon := by
  unfold Chip.setPhase; with_reducible repeat' (first | assumption | apply Chip.wf_canon)

theorem Chip.limitNote_canon (a0 : Chip) (h0 : a0.canon) : (Chip.limitNote a0).canon := by
  unfold Chip.limitNote; with_reducible repeat' (first
    | assumption | intro _ | apply Chip.onLtn_canon | apply ite_canon | apply ite_canon2 | apply ite_canon3 |
      refine snd_of (by assumption) ?_ | refine thd_of (by assumption) ?_ | split | dsimp only)

theorem Chip.engage_canon (a0 : Nat) (a1 : Chip) (h1 : a1.canon) : (Chip.engage a0 a1).canon := by
  unfold Chip.engage; with_reducible repeat' (first
    | assumption | intro _ | apply Chip.onLtn_canon | apply Chip.setPhase_canon | apply Chip.journal_canon | apply Chip.sb_canon
    | apply ite_canon | refine snd_of (by assumption) ?_ | refine thd_of (by assumption) ?_ | split)

theorem Chip.phaseFail_canon (a0 : Nat) (a1 : Nat) (a2 : Chip) (h2 : a2.canon) : (Chip.phaseFail a0 a1 a2).canon := by
  unfold Chip.phaseFail; with_reducible repeat' (first
    | assumption | intro _ | apply Chip.sb_canon | apply Chip.setPhase_canon | apply Chip.onLtn_canon |
      apply Chip.journal_canon | apply Chip.limitNote_canon | apply Chip.engage_canon | apply ite_canon | apply ite_canon2 |
      apply ite_canon3 | refine snd_of (by assumption) ?_ | refine thd_of (by assumption) ?_ | split | dsimp only)

theorem Chip.phaseFault_canon (a0 : Nat) (a1 : Nat) (a2 : Chip) (h2 : a2.canon) : (Chip.phaseFault a0 a1 a2).canon := by
  unfold Chip.phaseFault; with_reducible repeat' (first | assumption | apply Chip.phaseFail_canon | apply ite_canon)

theorem Chip.spareCarries_canon (a0 : Nat) (a1 : Chip) (h1 : a1.canon) : (Chip.spareCarries a0 a1).canon := by
  unfold Chip.spareCarries; with_reducible repeat' (first
    | assumption | intro _ | apply Chip.sb_canon | apply Chip.onLtn_canon | apply Chip.setPhase_canon | apply Chip.darned_canon
    | apply Chip.journal_canon | apply ite_canon | refine snd_of (by assumption) ?_ | refine thd_of (by assumption) ?_ | split)

theorem Chip.blindDetect_canon (a0 : Nat) (a1 : Nat) (a2 : Nat) (a3 : List (Half × BitVec 10)) (a4 : Chip) (h4 : a4.canon) :
    (Chip.blindDetect a0 a1 a2 a3 a4).canon := by
  unfold Chip.blindDetect; with_reducible repeat' (first
    | assumption | intro _ | apply Chip.sb_canon | apply Chip.setPhase_canon | apply Chip.engage_canon
    | apply Chip.journal_canon | apply Chip.sbIf_canon | apply forEach_canon | apply ite_canon)

theorem Chip.phaseTest_canon (a0 : BitVec 14) (a1 : Chip) (h1 : a1.canon) : (Chip.phaseTest a0 a1).canon := by
  unfold Chip.phaseTest; with_reducible repeat' (first
    | assumption | intro _ | apply Chip.setPhase_canon | apply Chip.sb_canon | apply forEach_canon | apply ite_canon
    | refine snd_of (by assumption) ?_ | refine thd_of (by assumption) ?_ | split)

theorem Chip.shedChange_canon (a0 : Chip → Chip) (a1 : Chip) (h0 : ∀ x0, x0.canon → (a0 x0).canon) (h1 : a1.canon) :
  (Chip.shedChange a0 a1).canon := by
  unfold Chip.shedChange; with_reducible repeat' (first
    | assumption | intro _ | apply h0 | apply Chip.when_canon | apply Chip.copyRelease_canon | apply Chip.slotShed_canon |
      apply ite_canon | apply ite_canon2 | apply ite_canon3 | refine snd_of (by assumption) ?_ |
      refine thd_of (by assumption) ?_ | split | dsimp only)

theorem Chip.shedAdvance_canon (a0 : Chip) (h0 : a0.canon) : (Chip.shedAdvance a0).canon := by
  unfold Chip.shedAdvance; with_reducible repeat' (first
    | assumption | intro _ | apply Chip.shedChange_canon | apply Chip.wf_canon | apply Chip.sb_canon | apply Chip.journal_canon
    | apply ite_canon | refine snd_of (by assumption) ?_ | refine thd_of (by assumption) ?_ | split)

theorem Chip.shedRetreat_canon (a0 : Chip) (h0 : a0.canon) : (Chip.shedRetreat a0).canon := by
  unfold Chip.shedRetreat; with_reducible repeat' (first
    | assumption | intro _ | apply Chip.shedChange_canon | apply Chip.wf_canon)

theorem Chip.shedDecide_canon (a0 : Chip) (h0 : a0.canon) : (Chip.shedDecide a0).canon := by
  unfold Chip.shedDecide; with_reducible repeat' (first
    | assumption | intro _ | apply Chip.onLtn_canon | apply Chip.sb_canon | apply Chip.shedAdvance_canon
    | apply Chip.shedRetreat_canon | apply ite_canon)

theorem Chip.paceChoose_canon (a0 : Chip) (h0 : a0.canon) : (Chip.paceChoose a0).canon := by
  unfold Chip.paceChoose; with_reducible repeat' (first | assumption | intro _ | apply Chip.onLtn_canon | apply Chip.wf_canon)

theorem Chip.ltnPixel_canon (a0 : Beam) (a1 : Chip) (h1 : a1.canon) : (Chip.ltnPixel a0 a1).canon := by
  unfold Chip.ltnPixel; with_reducible repeat' (first
    | assumption | intro _ | apply Chip.onLtn_canon | apply ite_canon | apply ite_canon2 | apply ite_canon3 |
      refine snd_of (by assumption) ?_ | refine thd_of (by assumption) ?_ | split | dsimp only)

theorem Chip.ltnLine_canon (a0 : Beam) (a1 : Option ℤ) (a2 : Chip) (h2 : a2.canon) : (Chip.ltnLine a0 a1 a2).canon := by
  unfold Chip.ltnLine; with_reducible repeat' (first
    | assumption | intro _ | apply Chip.onLtn_canon | apply ite_canon | apply ite_canon2 | apply ite_canon3 |
      refine snd_of (by assumption) ?_ | refine thd_of (by assumption) ?_ | split | dsimp only)

theorem Chip.ltnFrame_canon (a0 : Beam) (a1 : Chip) (h1 : a1.canon) : (Chip.ltnFrame a0 a1).canon := by
  unfold Chip.ltnFrame; with_reducible repeat' (first | assumption | intro _ | apply Chip.onLtn_canon | apply ite_canon)

theorem Chip.stepUp_canon (a0 : Chip) (h0 : a0.canon) : (Chip.stepUp a0).canon := by
  unfold Chip.stepUp; with_reducible repeat' (first
    | assumption | apply Chip.sb_canon | apply Chip.wf_canon | apply Chip.setVcode_canon | apply ite_canon)

theorem Chip.stepDown_canon (a0 : Chip) (h0 : a0.canon) : (Chip.stepDown a0).canon := by
  unfold Chip.stepDown; with_reducible repeat' (first
    | assumption | intro _ | apply Chip.onLtn_canon | apply Chip.wf_canon | apply Chip.setVcode_canon | apply ite_canon)

theorem Chip.track_canon (a0 : Chip) (h0 : a0.canon) : (Chip.track a0).canon := by
  unfold Chip.track; with_reducible repeat' (first
    | assumption | intro _ | apply Chip.stepUp_canon | apply Chip.stepDown_canon | apply ite_canon)

theorem Chip.takeSense_canon (a0 : List (Half × BitVec 10)) (a1 : Chip) (h1 : a1.canon) : (Chip.takeSense a0 a1).canon := by
  unfold Chip.takeSense; with_reducible repeat' (first | assumption | intro _ | apply Chip.onLtn_canon)

theorem Chip.decision_canon (a0 : Half) (a1 : List (Half × BitVec 10)) (a2 : Chip) (h2 : a2.canon) : (Chip.decision a0 a1
  a2).canon := by
  unfold Chip.decision; with_reducible repeat' (first
    | assumption | intro _ | apply Chip.wf_canon | apply Chip.limitNote_canon | apply Chip.takeSense_canon |
      apply Chip.shedDecide_canon | apply Chip.when_canon | apply Chip.track_canon | apply Chip.onLtn_canon | apply ite_canon
      | apply ite_canon2 | apply ite_canon3 | refine snd_of (by assumption) ?_ | refine thd_of (by assumption) ?_ | split |
      dsimp only)

theorem Chip.ltnIsolate_canon (a0 : Word) (a1 : Chip) (h1 : a1.canon) : (Chip.ltnIsolate a0 a1).canon := by
  unfold Chip.ltnIsolate; with_reducible repeat' (first
    | assumption | apply Chip.store_canon | apply Chip.phaseFault_canon | apply ite_canon)

theorem Chip.storeLtn_canon (a0 : Nat) (a1 : Word) (a2 : Chip) (h2 : a2.canon) : (Chip.storeLtn a0 a1 a2).canon := by
  unfold Chip.storeLtn; with_reducible repeat' (first
    | assumption | apply Chip.store_canon | apply Chip.setVcode_canon | apply Chip.shedChange_canon
    | apply Chip.ltnIsolate_canon | apply ite_canon)

theorem Chip.keepSigs_canon (a0 : Beam) (a1 : Chip) (h1 : a1.canon) : (Chip.keepSigs a0 a1).canon := by
  unfold Chip.keepSigs; with_reducible repeat' (first
    | assumption | intro _ | apply Chip.uncertain_canon | apply canon_mk | (apply regsOk; first | assumption)
    | (apply memOk; first | assumption))

theorem Chip.commitEv_canon (a0 : Beam) (a1 : Bool) (a2 : Chip) (h2 : a2.canon) : (Chip.commitEv a0 a1 a2).canon := by
  unfold Chip.commitEv; with_reducible repeat' (first | assumption | apply Chip.commitPoint_canon | apply Chip.raiseEv_canon)

theorem Chip.counterStart_canon (a0 : Beam) (a1 : Bool) (a2 : Bool) (a3 : Chip) (h3 : a3.canon) : (Chip.counterStart a0 a1 a2
  a3).canon := by
  unfold Chip.counterStart; with_reducible repeat' (first
    | assumption | intro _ | apply Chip.onBeam_canon | apply Chip.takeCommitLine_canon | apply Chip.takeTiming_canon |
      apply Chip.fsTakeAll_canon | apply Chip.setPos_canon | apply Chip.sb_canon | apply Chip.onApq_canon |
      apply Chip.apqClear_canon | apply Chip.onLtn_canon | apply Chip.ltnPixel_canon | apply Chip.paceChoose_canon |
      apply Chip.linkStart_canon | apply Chip.rateAtVb0_canon | apply Chip.raiseEv_canon | apply Chip.commitEv_canon |
      apply ite_canon | apply ite_canon2 | apply ite_canon3 | refine snd_of (by assumption) ?_ |
      refine thd_of (by assumption) ?_ | split | dsimp only)

theorem Chip.startLocked_canon (a0 : Beam) (a1 : Bool) (a2 : Bool) (a3 : Chip) (h3 : a3.canon) :
    (Chip.startLocked a0 a1 a2 a3).canon := by
  unfold Chip.startLocked; with_reducible repeat' (first | assumption | apply Chip.counterStart_canon | apply ite_canon)

theorem Chip.counterStop_canon (a0 : Beam) (a1 : Chip) (h1 : a1.canon) : (Chip.counterStop a0 a1).canon := by
  unfold Chip.counterStop; with_reducible repeat' (first
    | assumption | intro _ | apply Chip.onBeam_canon | apply Chip.wb_canon | apply Chip.when_canon |
      apply Chip.freeStart_canon | apply Chip.paceChoose_canon | apply Chip.commitAtStop_canon | apply Chip.fsStop_canon |
      apply ite_canon | apply ite_canon2 | apply ite_canon3 | refine snd_of (by assumption) ?_ |
      refine thd_of (by assumption) ?_ | split | dsimp only)

theorem Chip.vb0_canon (a0 : Beam) (a1 : Bool) (a2 : Chip) (h2 : a2.canon) : (Chip.vb0 a0 a1 a2).canon := by
  unfold Chip.vb0; with_reducible repeat' (first
    | assumption | intro _ | apply Chip.onLtn_canon | apply Chip.rateAtVb0_canon | apply Chip.raiseEv_canon
    | apply Chip.linkStart_canon | apply Chip.frayVb0_canon | apply Chip.keepSigs_canon | apply Chip.publish_canon
    | apply Chip.frameMin_canon)

theorem Chip.apqStopped_canon (a0 : Beam) (a1 : Chip) (h1 : a1.canon) : (Chip.apqStopped a0 a1).canon := by
  unfold Chip.apqStopped; with_reducible repeat' (first
    | assumption | intro _ | apply Chip.onApq_canon | apply Chip.apqClear_canon)

theorem Chip.beamStop_canon (a0 : Beam) (a1 : Bool) (a2 : Bool) (a3 : Chip) (h3 : a3.canon) :
    (Chip.beamStop a0 a1 a2 a3).canon := by
  unfold Chip.beamStop; with_reducible repeat' (first
    | assumption | apply Chip.vb0_canon | apply Chip.commitEv_canon | apply Chip.synStop_canon | apply Chip.apqStopped_canon
    | apply Chip.counterStop_canon | apply Chip.linkBeamStop_canon | apply ite_canon)

theorem Chip.synUnlock_canon (a0 : Beam) (a1 : Nat) (a2 : Chip) (h2 : a2.canon) : (Chip.synUnlock a0 a1 a2).canon := by
  unfold Chip.synUnlock; with_reducible repeat' (first
    | assumption | intro _ | apply Chip.wb_canon | apply Chip.sb_canon | apply Chip.counterStop_canon |
      apply Chip.setPos_canon | apply Chip.linkUnlock_canon | apply Chip.onBeam_canon | apply Chip.journal_canon |
      apply ite_canon | apply ite_canon2 | apply ite_canon3 | refine snd_of (by assumption) ?_ |
      refine thd_of (by assumption) ?_ | split | dsimp only)

theorem Chip.lockReturn_canon (a0 : Beam) (a1 : Bool) (a2 : Bool) (a3 : Chip) (h3 : a3.canon) :
    (Chip.lockReturn a0 a1 a2 a3).canon := by
  unfold Chip.lockReturn; with_reducible repeat' (first
    | assumption | intro _ | apply Chip.counterStart_canon | apply Chip.sb_canon | apply Chip.onBeam_canon | apply ite_canon)

theorem Chip.lineStart_canon (a0 : Beam) (a1 : Chip) (h1 : a1.canon) : (Chip.lineStart a0 a1).canon := by
  unfold Chip.lineStart; with_reducible repeat' (first
    | assumption | intro _ | apply Chip.lineDone_canon | apply Chip.ltnPixel_canon | apply Chip.ltnLine_canon |
      apply Chip.onBeam_canon | apply Chip.setPos_canon | apply Chip.palPrune_canon | apply Chip.apqCapture_canon |
      apply Chip.planeCapture_canon | apply Chip.winCapture_canon | refine forEach_canon ?_ ?_ | apply ite_canon |
      apply ite_canon2 | apply ite_canon3 | refine snd_of (by assumption) ?_ | refine thd_of (by assumption) ?_ | split |
      dsimp only)

theorem Chip.frameAdvance_canon (a0 : Beam) (a1 : Chip) (h1 : a1.canon) : (Chip.frameAdvance a0 a1).canon := by
  unfold Chip.frameAdvance; with_reducible repeat' (first
    | assumption | intro _ | apply Chip.onBeam_canon | apply Chip.takeCommitLine_canon | apply Chip.incWrap_canon
    | apply Chip.ltnFrame_canon | apply Chip.apqFrame_canon | apply Chip.fsTakeAll_canon | apply ite_canon)

theorem Chip.pfs_canon (a0 : Beam) (a1 : Bool) (a2 : Chip) (h2 : a2.canon) : (Chip.pfs a0 a1 a2).canon := by
  unfold Chip.pfs; with_reducible repeat' (first
    | assumption | apply Chip.regionCapture_canon | apply Chip.cacheFlush_canon | apply Chip.raiseEv_canon | apply ite_canon)

theorem Chip.onBob_canon (a0 : BobCh) (a1 : BobSt → BobSt) (a2 : Chip) (h2 : a2.canon) : (Chip.onBob a0 a1 a2).canon := by
  unfold Chip.onBob; with_reducible repeat' (first
    | assumption | apply canon_mk | (apply regsOk; first | assumption) | (apply memOk; first | assumption))

theorem Chip.bobPhase_canon (a0 : BobCh) (a1 : BobPhase) (a2 : Chip) (h2 : a2.canon) : (Chip.bobPhase a0 a1 a2).canon := by
  unfold Chip.bobPhase; with_reducible repeat' (first | assumption | intro _ | apply Chip.onBob_canon)

theorem Chip.bobStopped_canon (a0 : BobCh) (a1 : Chip) (h1 : a1.canon) : (Chip.bobStopped a0 a1).canon := by
  unfold Chip.bobStopped; with_reducible repeat' (first
    | assumption | intro _ | apply Chip.onBob_canon | apply Chip.wb_canon | apply canon_mk | (apply regsOk; first | assumption)
    | (apply memOk; first | assumption))

theorem Chip.bobErr_canon (a0 : BobCh) (a1 : Nat) (a2 : Nat) (a3 : Chip) (h3 : a3.canon) : (Chip.bobErr a0 a1 a2 a3).canon := by
  unfold Chip.bobErr; with_reducible repeat' (first
    | assumption | apply Chip.wf_canon | apply Chip.sb_canon | apply Chip.bobStopped_canon | apply Chip.journal_canon
    | apply ite_canon)

theorem Chip.bobEnd_canon (a0 : BobCh) (a1 : BobDesc) (a2 : Chip) (h2 : a2.canon) : (Chip.bobEnd a0 a1 a2).canon := by
  unfold Chip.bobEnd; with_reducible repeat' (first
    | assumption | intro _ | apply Chip.sbIf_canon | apply Chip.sb_canon | apply Chip.bobStopped_canon | apply Chip.onBob_canon
    | apply Chip.wr_canon | apply ite_canon)

theorem Chip.bobTrigger_canon (a0 : BobCh) (a1 : Chip) (h1 : a1.canon) : (Chip.bobTrigger a0 a1).canon := by
  unfold Chip.bobTrigger; with_reducible repeat' (first
    | assumption | apply Chip.bobPhase_canon | apply Chip.wb_canon | apply Chip.sb_canon | apply Chip.wf_canon | apply ite_canon)

theorem Chip.bobRowStart_canon (a0 : BobCh) (a1 : Bool) (a2 : Chip) (h2 : a2.canon) : (Chip.bobRowStart a0 a1 a2).canon := by
  unfold Chip.bobRowStart; with_reducible repeat' (first
    | assumption | apply Chip.bobPhase_canon | apply Chip.sb_canon | apply Chip.wf_canon | apply ite_canon)

theorem Chip.bobStart_canon (a0 : BobCh) (a1 : Chip) (h1 : a1.canon) : (Chip.bobStart a0 a1).canon := by
  unfold Chip.bobStart; with_reducible repeat' (first
    | assumption | intro _ | apply Chip.wr_canon | apply Chip.sb_canon | apply Chip.onBob_canon | apply ite_canon)

theorem Chip.bobStop_canon (a0 : BobCh) (a1 : Chip) (h1 : a1.canon) : (Chip.bobStop a0 a1).canon := by
  unfold Chip.bobStop; with_reducible repeat' (first
    | assumption | apply Chip.wb_canon | apply Chip.sb_canon | apply Chip.bobStopped_canon | apply ite_canon)

theorem Chip.bobAbort_canon (a0 : BobCh) (a1 : Chip) (h1 : a1.canon) : (Chip.bobAbort a0 a1).canon := by
  unfold Chip.bobAbort; with_reducible repeat' (first
    | assumption | intro _ | apply Chip.bobPhase_canon | apply Chip.sb_canon | apply Chip.bobErr_canon | apply ite_canon |
      apply ite_canon2 | apply ite_canon3 | refine snd_of (by assumption) ?_ | refine thd_of (by assumption) ?_ | split |
      dsimp only)

theorem Chip.bobRead_canon (a0 : BobCh) (a1 : Nat) (a2 : Nat) (a3 : Chip) (h3 : a3.canon) : (Chip.bobRead a0 a1 a2 a3).canon := by
  unfold Chip.bobRead; with_reducible repeat' (first
    | assumption | apply Chip.vRead_canon | apply Chip.lmUe_canon | apply ite_canon | refine snd_of (by assumption) ?_
    | refine thd_of (by assumption) ?_ | split)

theorem Chip.bobFetch_canon (a0 : BobCh) (a1 : Chip) (h1 : a1.canon) : (Chip.bobFetch a0 a1).canon := by
  unfold Chip.bobFetch; with_reducible repeat' (first
    | assumption | intro _ | apply Chip.wr_canon | apply Chip.bobErr_canon | apply Chip.bobRead_canon |
      apply Chip.bobEnd_canon | apply Chip.bobRowStart_canon | apply Chip.onBob_canon | apply ite_canon | apply ite_canon2 |
      apply ite_canon3 | refine snd_of (by assumption) ?_ | refine thd_of (by assumption) ?_ | split | dsimp only)

theorem Chip.storeBob_canon (a0 : Nat) (a1 : Word) (a2 : Chip) (h2 : a2.canon) : (Chip.storeBob a0 a1 a2).canon := by
  unfold Chip.storeBob; with_reducible repeat' (first
    | assumption | intro _ | apply Chip.wb_canon | apply Chip.store_canon | apply Chip.bobStart_canon |
      apply Chip.bobStop_canon | apply Chip.bobAbort_canon | apply ite_canon | apply ite_canon2 | apply ite_canon3 |
      refine snd_of (by assumption) ?_ | refine thd_of (by assumption) ?_ | split | dsimp only)

theorem Chip.chkInit_canon (a0 : ChkCh) (a1 : Chip) (h1 : a1.canon) : (Chip.chkInit a0 a1).canon := by
  unfold Chip.chkInit; with_reducible repeat' (first
    | assumption | intro _ | apply Chip.wr_canon | apply canon_mk | (apply regsOk; first | assumption)
    | (apply memOk; first | assumption))

theorem Chip.chkCheck_canon (a0 : ChkCh) (a1 : Chip) (h1 : a1.canon) : (Chip.chkCheck a0 a1).canon := by
  unfold Chip.chkCheck; with_reducible repeat' (first | assumption | apply Chip.sbIf_canon | apply Chip.sb_canon)

theorem Chip.chkFeed_canon (a0 : ChkCh) (a1 : List Byte) (a2 : Chip) (h2 : a2.canon) : (Chip.chkFeed a0 a1 a2).canon := by
  unfold Chip.chkFeed; with_reducible repeat' (first | assumption | apply Chip.wr_canon)

theorem Chip.chkState_canon (a0 : ChkCh) (a1 : Word) (a2 : Chip) (h2 : a2.canon) : (Chip.chkState a0 a1 a2).canon := by
  unfold Chip.chkState; with_reducible repeat' (first | assumption | apply Chip.wr_canon)

theorem Chip.storeChk_canon (a0 : Nat) (a1 : Word) (a2 : Chip) (h2 : a2.canon) : (Chip.storeChk a0 a1 a2).canon := by
  unfold Chip.storeChk; with_reducible repeat' (first
    | assumption | apply Chip.store_canon | apply Chip.chkInit_canon | apply Chip.chkCheck_canon | apply Chip.chkFeed_canon
    | apply Chip.chkState_canon | apply ite_canon)

theorem Chip.onHost_canon (a0 : HostSt → HostSt) (a1 : Chip) (h1 : a1.canon) : (Chip.onHost a0 a1).canon := by
  unfold Chip.onHost; with_reducible repeat' (first
    | assumption | apply canon_mk | (apply regsOk; first | assumption) | (apply memOk; first | assumption))

theorem Chip.onTirba_canon (a0 : TirbaSt → TirbaSt) (a1 : Chip) (h1 : a1.canon) : (Chip.onTirba a0 a1).canon := by
  unfold Chip.onTirba; with_reducible repeat' (first
    | assumption | apply canon_mk | (apply regsOk; first | assumption) | (apply memOk; first | assumption))

theorem Chip.onRing_canon (a0 : Ring) (a1 : RingSt → RingSt) (a2 : Chip) (h2 : a2.canon) : (Chip.onRing a0 a1 a2).canon := by
  unfold Chip.onRing; with_reducible repeat' (first | assumption | intro _ | apply Chip.onTirba_canon)

theorem Chip.pulse_canon (a0 : Nat) (a1 : Chip) (h1 : a1.canon) : (Chip.pulse a0 a1).canon := by
  unfold Chip.pulse; with_reducible repeat' (first | assumption | intro _ | apply Chip.onCore_canon | apply forEach_canon)

theorem Chip.ringN_canon (a0 : Ring) (a1 : Chip) (h1 : a1.canon) : (Chip.ringN a0 a1).2.canon := by
  unfold Chip.ringN; with_reducible repeat' (first
    | assumption | intro _ | apply Chip.vRead_canon | apply ite_canon | apply ite_canon2 | apply ite_canon3 |
      refine snd_of (by assumption) ?_ | refine thd_of (by assumption) ?_ | split | dsimp only)

theorem Chip.setRingBit_canon (a0 : Nat → Nat) (a1 : Ring) (a2 : Bool) (a3 : Chip) (h3 : a3.canon) :
    (Chip.setRingBit a0 a1 a2 a3).canon := by
  unfold Chip.setRingBit; with_reducible repeat' (first | assumption | apply Chip.wb_canon)

theorem Chip.mbxErr_canon (a0 : Nat) (a1 : Ring) (a2 : Chip) (h2 : a2.canon) : (Chip.mbxErr a0 a1 a2).canon := by
  unfold Chip.mbxErr; with_reducible repeat' (first | assumption | apply Chip.wr_canon | apply ite_canon)

theorem Chip.fray_canon (a0 : Ring) (a1 : Chip) (h1 : a1.canon) : (Chip.fray a0 a1).canon := by
  unfold Chip.fray; with_reducible repeat' (first | assumption | apply Chip.setRingBit_canon)

theorem Chip.reply_canon (a0 : Ring) (a1 : Reply) (a2 : Chip) (h2 : a2.canon) : (Chip.reply a0 a1 a2).canon := by
  unfold Chip.reply; with_reducible repeat' (first | assumption | intro _ | apply Chip.onRing_canon)

theorem Chip.ringCheck_canon (a0 : Ring) (a1 : Chip) (h1 : a1.canon) : (Chip.ringCheck a0 a1).canon := by
  unfold Chip.ringCheck; with_reducible repeat' (first
    | assumption | intro _ | apply Chip.vRead_canon | apply Chip.onRing_canon | apply Chip.mbxErr_canon |
      apply Chip.fray_canon | apply ite_canon | apply ite_canon2 | apply ite_canon3 | refine snd_of (by assumption) ?_ |
      refine thd_of (by assumption) ?_ | split | dsimp only)

theorem Chip.bell_canon (a0 : Ring) (a1 : Word) (a2 : Chip) (h2 : a2.canon) : (Chip.bell a0 a1 a2).canon := by
  unfold Chip.bell; with_reducible repeat' (first
    | assumption | intro _ | apply Chip.when_canon | apply Chip.ringCheck_canon | apply Chip.pulse_canon |
      apply Chip.wf_canon | apply Chip.mbxErr_canon | apply Chip.ringN_canon | apply Chip.reply_canon | apply ite_canon |
      apply ite_canon2 | apply ite_canon3 | refine snd_of (by assumption) ?_ | refine thd_of (by assumption) ?_ | split |
      dsimp only)

theorem Chip.doorbell_canon (a0 : Ring) (a1 : Word) (a2 : Chip) (h2 : a2.canon) : (Chip.doorbell a0 a1 a2).canon := by
  unfold Chip.doorbell; with_reducible repeat' (first
    | assumption | intro _ | apply Chip.bell_canon | apply Chip.onHost_canon | apply ite_canon | apply ite_canon2 |
      apply ite_canon3 | refine snd_of (by assumption) ?_ | refine thd_of (by assumption) ?_ | split | dsimp only)

theorem Chip.bellsDue_canon (a0 : Chip) (h0 : a0.canon) : (Chip.bellsDue a0).canon := by
  unfold Chip.bellsDue; with_reducible repeat' (first
    | assumption | intro _ | apply Chip.bell_canon | apply Chip.onHost_canon | refine forEach_canon ?_ ?_ | apply ite_canon |
      apply ite_canon2 | apply ite_canon3 | refine snd_of (by assumption) ?_ | refine thd_of (by assumption) ?_ | split |
      dsimp only)

theorem Chip.bellsAfter_canon (a0 : Chip) (a1 : Chip) (h0 : a0.canon) (h1 : a1.canon) : (Chip.bellsAfter a0 a1).canon := by
  unfold Chip.bellsAfter; with_reducible repeat' (first
    | assumption | intro _ | apply Chip.bellsDue_canon | apply Chip.onHost_canon | apply ite_canon | apply ite_canon2 |
      apply ite_canon3 | refine snd_of (by assumption) ?_ | refine thd_of (by assumption) ?_ | split | dsimp only)

theorem Chip.bankGrant_canon (a0 : Nat) (a1 : Chip) (h1 : a1.canon) : (Chip.bankGrant a0 a1).canon := by
  unfold Chip.bankGrant; with_reducible repeat' (first
    | assumption | intro _ | apply Chip.bellsAfter_canon | apply Chip.grant_canon | apply ite_canon | apply ite_canon2 |
      apply ite_canon3 | refine snd_of (by assumption) ?_ | refine thd_of (by assumption) ?_ | split | dsimp only)

theorem Chip.fetchStop_canon (a0 : Ring) (a1 : Chip) (h1 : a1.canon) : (Chip.fetchStop a0 a1).canon := by
  unfold Chip.fetchStop; with_reducible repeat' (first
    | assumption | intro _ | apply Chip.onTirba_canon | apply Chip.onRing_canon | apply ite_canon | apply ite_canon2 |
      apply ite_canon3 | refine snd_of (by assumption) ?_ | refine thd_of (by assumption) ?_ | split | dsimp only)

theorem Chip.ringEnable_canon (a0 : Fin 2) (a1 : Word) (a2 : Chip) (h2 : a2.canon) : (Chip.ringEnable a0 a1 a2).canon := by
  unfold Chip.ringEnable; with_reducible repeat' (first
    | assumption | intro _ | apply Chip.wr_canon | apply Chip.fetchStop_canon | apply Chip.onRing_canon |
      refine forEach_canon ?_ ?_ | apply ite_canon | apply ite_canon2 | apply ite_canon3 | refine snd_of (by assumption) ?_ |
      refine thd_of (by assumption) ?_ | split | dsimp only)

theorem Chip.countFlight_canon (a0 : Chip) (h0 : a0.canon) : (Chip.countFlight a0).canon := by
  unfold Chip.countFlight; with_reducible repeat' (first | assumption | apply Chip.wf_canon)

theorem Chip.resetDone_canon (a0 : Ring) (a1 : Chip) (h1 : a1.canon) : (Chip.resetDone a0 a1).canon := by
  unfold Chip.resetDone; with_reducible repeat' (first
    | assumption | intro _ | apply Chip.setRingBit_canon | apply Chip.when_canon | apply Chip.wb_canon | apply ite_canon |
      apply ite_canon2 | apply ite_canon3 | refine snd_of (by assumption) ?_ | refine thd_of (by assumption) ?_ | split |
      dsimp only)

theorem Chip.ringReset_canon (a0 : Ring) (a1 : Chip) (h1 : a1.canon) : (Chip.ringReset a0 a1).canon := by
  unfold Chip.ringReset; with_reducible repeat' (first
    | assumption | intro _ | apply Chip.setRingBit_canon | apply Chip.countFlight_canon | apply Chip.fetchStop_canon |
      apply Chip.onRing_canon | apply Chip.resetDone_canon | apply ite_canon | apply ite_canon2 | apply ite_canon3 |
      refine snd_of (by assumption) ?_ | refine thd_of (by assumption) ?_ | split | dsimp only)

theorem Chip.ringResets_canon (a0 : Fin 2) (a1 : Word) (a2 : Chip) (h2 : a2.canon) : (Chip.ringResets a0 a1 a2).canon := by
  unfold Chip.ringResets; with_reducible repeat' (first | assumption | intro _ | apply Chip.ringReset_canon | apply forEach_canon)

theorem Chip.resetAll_canon (a0 : Chip) (h0 : a0.canon) : (Chip.resetAll a0).canon := by
  unfold Chip.resetAll; with_reducible repeat' (first
    | assumption | intro _ | apply Chip.ringReset_canon | apply Chip.wb_canon | refine forEach_canon ?_ ?_ | apply ite_canon
      | apply ite_canon2 | apply ite_canon3 | refine snd_of (by assumption) ?_ | refine thd_of (by assumption) ?_ | split |
      dsimp only)

theorem Chip.mbxWrite_canon (a0 : Bool) (a1 : Nat) (a2 : Word) (a3 : Chip) (h3 : a3.canon) :
    (Chip.mbxWrite a0 a1 a2 a3).canon := by
  unfold Chip.mbxWrite; extract_lets a k w1c w1s d n
  have hc : ∀ m, (w1c m).canon := fun m => Chip.wr_canon _ _ _ h3
  have hs : ∀ m, (w1s m).canon := fun m => Chip.wr_canon _ _ _ h3
  have hd : d.canon := hc _
  clear_value d; clear_value w1c w1s; clear_value a k n
  with_reducible repeat' (first
    | assumption | intro _ | apply hc | apply hs | apply Chip.when_canon | apply Chip.resetAll_canon | apply Chip.wb_canon
    | apply Chip.store_canon | apply Chip.ringEnable_canon | apply Chip.ringResets_canon | apply Chip.wr_canon
    | apply Chip.doorbell_canon | apply Chip.wf_canon | apply ite_canon)

theorem Chip.bar0Write_canon (a0 : Nat) (a1 : Word) (a2 : Chip) (h2 : a2.canon) : (Chip.bar0Write a0 a1 a2).canon := by
  unfold Chip.bar0Write; with_reducible repeat' (first | assumption | apply Chip.mbxWrite_canon | apply ite_canon)

theorem Chip.unsupported_canon (a0 : Chip) (h0 : a0.canon) : (Chip.unsupported a0).canon := by
  unfold Chip.unsupported; with_reducible repeat' (first
    | assumption | intro _ | apply Chip.emit_canon | apply Chip.onHost_canon | apply ite_canon | apply ite_canon2 |
      apply ite_canon3 | refine snd_of (by assumption) ?_ | refine thd_of (by assumption) ?_ | split | dsimp only)

theorem Chip.bar0Request_canon (a0 : Bool) (a1 : Nat) (a2 : BitVec 4) (a3 : Nat) (a4 : Word) (a5 : Chip) (h5 : a5.canon) :
  (Chip.bar0Request a0 a1 a2 a3 a4 a5).canon := by
  unfold Chip.bar0Request; with_reducible repeat' (first
    | assumption | intro _ | apply Chip.unsupported_canon | apply Chip.sb_canon | apply Chip.sbIf_canon |
      apply Chip.bar0Write_canon | apply Chip.emit_canon | apply ite_canon | apply ite_canon2 | apply ite_canon3 |
      refine snd_of (by assumption) ?_ | refine thd_of (by assumption) ?_ | split | dsimp only)

theorem Chip.hostVWrite_canon (a0 : Nat) (a1 : List (Option Byte)) (a2 : Chip) (h2 : a2.canon) :
    (Chip.hostVWrite a0 a1 a2).canon := by
  unfold Chip.hostVWrite; with_reducible repeat' (first
    | assumption | apply storeEnabled_canon | apply canon_mk | (apply regsOk; first | assumption | apply storeEnabled_canon)
    | (apply memOk; first | assumption | apply storeEnabled_canon))

theorem Chip.bar2Access_canon (a0 : Bool) (a1 : Nat) (a2 : List (Option Byte)) (a3 : Chip) (h3 : a3.canon) : (Chip.bar2Access
  a0 a1 a2 a3).canon := by
  unfold Chip.bar2Access; with_reducible repeat' (first
    | assumption | intro _ | apply Chip.unsupported_canon | apply Chip.sbIf_canon | apply Chip.hostVWrite_canon |
      apply Chip.vRead_canon | apply Chip.emit_canon | refine forEach_canon ?_ ?_ | apply ite_canon | apply ite_canon2 |
      apply ite_canon3 | refine snd_of (by assumption) ?_ | refine thd_of (by assumption) ?_ | split | dsimp only)

theorem Chip.linkReset_canon (a0 : Chip) (h0 : a0.canon) : (Chip.linkReset a0).canon := by
  unfold Chip.linkReset; with_reducible repeat' (first
    | assumption | intro _ | apply Chip.onHost_canon | apply Chip.sb_canon | apply Chip.wr_canon | apply Chip.when_canon |
      apply Chip.onRing_canon | apply Chip.fetchStop_canon | apply Chip.onTirba_canon | apply Chip.countFlight_canon |
      refine forEach_canon ?_ ?_ | apply ite_canon | apply ite_canon2 | apply ite_canon3 | refine snd_of (by assumption) ?_ |
      refine thd_of (by assumption) ?_ | split | dsimp only)

theorem Chip.cfgWrite_canon (a0 : Nat) (a1 : Word) (a2 : Chip) (h2 : a2.canon) : (Chip.cfgWrite a0 a1 a2).canon := by
  unfold Chip.cfgWrite; with_reducible repeat' (first | assumption | intro _ | apply Chip.onHost_canon)

theorem Chip.cfgRequest_canon (a0 : Bool) (a1 : Nat) (a2 : BitVec 4) (a3 : Word) (a4 : Chip) (h4 : a4.canon) :
  (Chip.cfgRequest a0 a1 a2 a3 a4).canon := by
  unfold Chip.cfgRequest; with_reducible repeat' (first
    | assumption | intro _ | apply Chip.cfgWrite_canon | apply Chip.emit_canon | apply ite_canon | apply ite_canon2 |
      apply ite_canon3 | refine snd_of (by assumption) ?_ | refine thd_of (by assumption) ?_ | split | dsimp only)

theorem Chip.msiSend_canon (a0 : Nat) (a1 : Chip) (h1 : a1.canon) : (Chip.msiSend a0 a1).canon := by
  unfold Chip.msiSend; with_reducible repeat' (first | assumption | apply Chip.emit_canon | apply Chip.wb_canon | apply ite_canon)

theorem Chip.bmStart_canon (a0 : BmOwner) (a1 : Nat) (a2 : Nat) (a3 : Chip) (h3 : a3.canon) :
    (Chip.bmStart a0 a1 a2 a3).canon := by
  unfold Chip.bmStart; with_reducible repeat' (first | assumption | intro _ | apply Chip.emit_canon | apply Chip.onTirba_canon)

theorem Chip.bmWrite_canon (a0 : Nat) (a1 : List Byte) (a2 : Chip) (h2 : a2.canon) : (Chip.bmWrite a0 a1 a2).canon := by
  unfold Chip.bmWrite; with_reducible repeat' (first
    | assumption | intro _ | apply Chip.emit_canon | refine forEach_canon ?_ ?_ | apply ite_canon | apply ite_canon2 |
      apply ite_canon3 | refine snd_of (by assumption) ?_ | refine thd_of (by assumption) ?_ | split | dsimp only)

theorem Chip.qspiEnd_canon (a0 : Nat) (a1 : Chip) (h1 : a1.canon) : (Chip.qspiEnd a0 a1).canon := by
  unfold Chip.qspiEnd; with_reducible repeat' (first | assumption | intro _ | apply Chip.onHost_canon)

theorem Chip.frameReply_canon (a0 : List Byte) (a1 : Nat) (a2 : Chip) (h2 : a2.canon) : (Chip.frameReply a0 a1 a2).canon :=
  by
  unfold Chip.frameReply; with_reducible repeat' (first
    | assumption | intro _ | apply Chip.fresh_canon | apply Chip.emit_canon | apply ite_canon | apply ite_canon2 |
      apply ite_canon3 | refine snd_of (by assumption) ?_ | refine thd_of (by assumption) ?_ | split | dsimp only)

theorem Chip.frame_canon (a0 : Bool) (a1 : Chip → Chip) (a2 : Chip) (h1 : ∀ x0, x0.canon → (a1 x0).canon) (h2 : a2.canon) :
    (Chip.frame a0 a1 a2).canon := by
  unfold Chip.frame; with_reducible repeat' (first | assumption | intro _ | apply h1 | apply Chip.onHost_canon | apply ite_canon)

theorem Chip.bar0Hole_canon (a0 : Nat) (a1 : Chip) (h1 : a1.canon) : (Chip.bar0Hole a0 a1).canon := by
  unfold Chip.bar0Hole; with_reducible repeat' (first | assumption | apply Chip.sbIf_canon)

theorem Chip.irqTake_canon (a0 : Core) (a1 : Chip) (h1 : a1.canon) : (Chip.irqTake a0 a1).canon := by
  unfold Chip.irqTake; with_reducible repeat' (first
    | assumption | intro _ | apply Chip.onCore_canon | apply Chip.wb_canon | apply Chip.enterS_canon | apply Chip.wr_canon
    | apply Chip.pulse_canon | refine snd_of (by assumption) ?_ | refine thd_of (by assumption) ?_ | split)

theorem Chip.irqEoi_canon (a0 : Core) (a1 : Word) (a2 : Chip) (h2 : a2.canon) : (Chip.irqEoi a0 a1 a2).canon := by
  unfold Chip.irqEoi; with_reducible repeat' (first
    | assumption | intro _ | apply Chip.sb_canon | apply Chip.onCore_canon | apply Chip.wb_canon | apply Chip.sbIf_canon
    | refine snd_of (by assumption) ?_ | refine thd_of (by assumption) ?_ | split)

theorem Chip.storeBank_canon (a0 : Bool) (a1 : Core) (a2 : Nat) (a3 : Word) (a4 : Chip) (h4 : a4.canon) :
    (Chip.storeBank a0 a1 a2 a3 a4).canon := by
  unfold Chip.storeBank; with_reducible repeat' (first
    | assumption | intro _ | apply Chip.irqEoi_canon | apply Chip.onCore_canon | apply Chip.store_canon | apply Chip.pulse_canon
    | apply ite_canon)

theorem Chip.swSet_canon (a0 : Word) (a1 : Chip) (h1 : a1.canon) : (Chip.swSet a0 a1).canon := by
  unfold Chip.swSet; with_reducible repeat' (first | assumption | intro _ | apply Chip.pulse_canon | apply forEach_canon)

theorem Chip.msiSet_canon (a0 : Word) (a1 : Chip) (h1 : a1.canon) : (Chip.msiSet a0 a1).canon := by
  unfold Chip.msiSet; with_reducible repeat' (first | assumption | apply Chip.wr_canon)

theorem Chip.storeIrq_canon (a0 : Core) (a1 : Nat) (a2 : Word) (a3 : Chip) (h3 : a3.canon) :
    (Chip.storeIrq a0 a1 a2 a3).canon := by
  unfold Chip.storeIrq; with_reducible repeat' (first
    | assumption | intro _ | apply Chip.storeBank_canon | apply Chip.onCore_canon | apply Chip.swSet_canon
    | apply Chip.msiSet_canon | apply ite_canon)

theorem Chip.onLcy_canon (a0 : LcySt → LcySt) (a1 : Chip) (h1 : a1.canon) : (Chip.onLcy a0 a1).canon := by
  unfold Chip.onLcy; with_reducible repeat' (first
    | assumption | apply canon_mk | (apply regsOk; first | assumption) | (apply memOk; first | assumption))

theorem Chip.onDbg_canon (a0 : DbgSt → DbgSt) (a1 : Chip) (h1 : a1.canon) : (Chip.onDbg a0 a1).canon := by
  unfold Chip.onDbg; with_reducible repeat' (first
    | assumption | apply canon_mk | (apply regsOk; first | assumption) | (apply memOk; first | assumption))

theorem Chip.blowFuse_canon (a0 : Fuse) (a1 : Chip) (h1 : a1.canon) : (Chip.blowFuse a0 a1).canon := by
  unfold Chip.blowFuse; with_reducible repeat' (first
    | assumption | intro _ | apply Chip.onLcy_canon | apply forEach_canon | apply ite_canon | apply ite_canon2
    | apply ite_canon3 | refine snd_of (by assumption) ?_ | refine thd_of (by assumption) ?_ | split)

theorem Chip.setLcJournal_canon (a0 : List Byte) (a1 : Chip) (h1 : a1.canon) : (Chip.setLcJournal a0 a1).canon := by
  unfold Chip.setLcJournal; with_reducible repeat' (first | assumption | intro _ | apply Chip.wr_canon | apply forEach_canon)

theorem Chip.lcyGo_canon (a0 : Word) (a1 : Bool) (a2 : Chip) (h2 : a2.canon) : (Chip.lcyGo a0 a1 a2).canon := by
  unfold Chip.lcyGo; with_reducible repeat' (first
    | assumption | intro _ | apply Chip.store_canon | apply Chip.wf_canon | apply Chip.fresh_canon |
      apply Chip.setLcJournal_canon | apply Chip.onLcy_canon | apply ite_canon | apply ite_canon2 | apply ite_canon3 |
      refine snd_of (by assumption) ?_ | refine thd_of (by assumption) ?_ | split | dsimp only)

theorem Chip.blowGroups_canon (a0 : List Fuse) (a1 : List Nat) (a2 : Chip) (h2 : a2.canon) :
    (Chip.blowGroups a0 a1 a2).2.canon := by
  induction a1 generalizing a2 with | nil => exact h2 | cons g t ih =>
    unfold Chip.blowGroups; extract_lets d
    have h_d : d.canon := by
      unfold d
      with_reducible repeat' (first
        | assumption | intro _ | apply Chip.blowFuse_canon | apply Chip.sbIf_canon | apply forEach_canon)
    clear_value d
    exact ite_canon2 h_d (ih _ (Chip.sbIf_canon _ _ _ _ h_d))

theorem Chip.grantEnd_canon (a0 : Chip) (h0 : a0.canon) : (Chip.grantEnd a0).canon := by
  unfold Chip.grantEnd; with_reducible repeat' (first
    | assumption | intro _ | apply Chip.sb_canon | apply Chip.onDbg_canon | apply Chip.onCore_canon | apply forEach_canon
    | apply ite_canon)

theorem Chip.lcyEnd_canon (a0 : List Fuse) (a1 : Chip) (h1 : a1.canon) : (Chip.lcyEnd a0 a1).canon := by
  unfold Chip.lcyEnd; with_reducible repeat' (first
    | assumption | intro _ | apply Chip.blowFuse_canon | apply Chip.blowGroups_canon | apply Chip.onLcy_canon
    | apply Chip.sb_canon | apply Chip.wf_canon | apply Chip.setLcJournal_canon | apply Chip.grantEnd_canon
    | apply forEach_canon | apply ite_canon | apply ite_canon2 | apply ite_canon3 | refine snd_of (by assumption) ?_
    | refine thd_of (by assumption) ?_ | split)

theorem Chip.lcyStop_canon (a0 : Chip) (h0 : a0.canon) : (Chip.lcyStop a0).canon := by
  unfold Chip.lcyStop; with_reducible repeat' (first
    | assumption | intro _ | apply Chip.fresh_canon | apply Chip.onLcy_canon | apply Chip.blowFuse_canon | apply forEach_canon
    | refine snd_of (by assumption) ?_ | refine thd_of (by assumption) ?_ | split)

theorem Chip.complete_canon (a0 : List Fuse) (a1 : Nat) (a2 : Chip) (h2 : a2.canon) : (Chip.complete a0 a1 a2).2.canon := by
  unfold Chip.complete; with_reducible repeat' (first
    | assumption | intro _ | apply Chip.sb_canon | apply Chip.blowFuse_canon | apply forEach_canon | apply ite_canon
    | apply ite_canon2)

theorem Chip.completeAll_canon (a0 : List Fuse) (a1 : List Nat) (a2 : Chip) (h2 : a2.canon) :
    (Chip.completeAll a0 a1 a2).2.canon := by
  fun_induction Chip.completeAll a0 a1 a2 <;> with_reducible repeat' (first
    | assumption | apply_assumption | apply Chip.complete_canon | refine snd_of (by assumption) ?_)

theorem Chip.lcyBoot_canon (a0 : List Fuse) (a1 : Chip) (h1 : a1.canon) : (Chip.lcyBoot a0 a1).2.canon := by
  unfold Chip.lcyBoot; with_reducible repeat' (first
    | assumption | intro _ | apply Chip.completeAll_canon | apply Chip.sbIf_canon | apply Chip.setLcJournal_canon
    | apply ite_canon | apply ite_canon2)

theorem Chip.newChallenge_canon (a0 : Chip) (h0 : a0.canon) : (Chip.newChallenge a0).canon := by
  unfold Chip.newChallenge; with_reducible repeat' (first
    | assumption | intro _ | apply Chip.fresh_canon | apply Chip.emit_canon | apply Chip.onDbg_canon)

theorem Chip.response_canon (a0 : List Byte) (a1 : Chip) (h1 : a1.canon) : (Chip.response a0 a1).canon := by
  unfold Chip.response; with_reducible repeat' (first | assumption | intro _ | apply Chip.onDbg_canon | apply ite_canon)

theorem Chip.responseEnd_canon (a0 : Chip) (h0 : a0.canon) : (Chip.responseEnd a0).canon := by
  unfold Chip.responseEnd; with_reducible repeat' (first
    | assumption | intro _ | apply Chip.onDbg_canon | apply Chip.sb_canon | apply ite_canon | refine snd_of (by assumption) ?_
    | refine thd_of (by assumption) ?_ | split)

theorem Chip.setIr_canon (a0 : BitVec 5) (a1 : Chip) (h1 : a1.canon) : (Chip.setIr a0 a1).canon := by
  unfold Chip.setIr; with_reducible repeat' (first | assumption | intro _ | apply Chip.onDbg_canon)

theorem Chip.boundaryScan_canon (a0 : BitVec 258) (a1 : BitVec 258) (a2 : Chip) (h2 : a2.canon) : (Chip.boundaryScan a0 a1
  a2).canon := by
  unfold Chip.boundaryScan; with_reducible repeat' (first
    | assumption | intro _ | apply Chip.emit_canon | apply Chip.onDbg_canon | apply ite_canon | apply ite_canon2 |
      apply ite_canon3 | refine snd_of (by assumption) ?_ | refine thd_of (by assumption) ?_ | split | dsimp only)

theorem Chip.extest_canon (a0 : Option (BitVec 258 × BitVec 258)) (a1 : Chip) (h1 : a1.canon) : (Chip.extest a0 a1).canon :=
  by
  unfold Chip.extest; with_reducible repeat' (first
    | assumption | intro _ | apply Chip.setIr_canon | apply Chip.boundaryScan_canon | apply ite_canon | apply ite_canon2 |
      apply ite_canon3 | refine snd_of (by assumption) ?_ | refine thd_of (by assumption) ?_ | split | dsimp only)

theorem Chip.storeLcy_canon (a0 : Nat) (a1 : Word) (a2 : Chip) (h2 : a2.canon) : (Chip.storeLcy a0 a1 a2).canon := by
  unfold Chip.storeLcy; with_reducible repeat' (first
    | assumption | apply Chip.lcyGo_canon | apply Chip.store_canon | apply ite_canon)

theorem Chip.storeDbg_canon (a0 : Nat) (a1 : Word) (a2 : Chip) (h2 : a2.canon) : (Chip.storeDbg a0 a1 a2).canon := by
  unfold Chip.storeDbg; with_reducible repeat' (first
    | assumption | intro _ | apply Chip.when_canon | apply Chip.grantEnd_canon | apply Chip.store_canon | apply ite_canon)

theorem Chip.onRst_canon (a0 : RstSt → RstSt) (a1 : Chip) (h1 : a1.canon) : (Chip.onRst a0 a1).canon := by
  unfold Chip.onRst; with_reducible repeat' (first
    | assumption | apply canon_mk | (apply regsOk; first | assumption) | (apply memOk; first | assumption))

theorem Chip.romScratch_canon (a0 : Core) (a1 : Chip) (h1 : a1.canon) : (Chip.romScratch a0 a1).canon := by
  unfold Chip.romScratch; with_reducible repeat' (first | assumption | intro _ | apply Chip.fresh_canon | apply Chip.onCore_canon)

theorem Chip.workArea_canon (a0 : Chip) (h0 : a0.canon) : (Chip.workArea a0).canon := by
  unfold Chip.workArea; with_reducible repeat' (first | assumption | intro _ | apply Chip.fresh_canon | apply Chip.memWrite_canon)

theorem Chip.copyIn_canon (a0 : Nat) (a1 : List Byte) (a2 : Chip) (h2 : a2.canon) : (Chip.copyIn a0 a1 a2).2.canon := by
  unfold Chip.copyIn; with_reducible repeat' (first
    | assumption | intro _ | apply Chip.memWrite_canon | apply ite_canon | apply ite_canon2 | apply ite_canon3 |
      refine snd_of (by assumption) ?_ | refine thd_of (by assumption) ?_ | split | dsimp only)

theorem Chip.loadBody_canon (a0 : List Byte) (a1 : List Byte) (a2 : Chip) (h2 : a2.canon) : (Chip.loadBody a0 a1 a2).2.canon
  := by
  unfold Chip.loadBody; with_reducible repeat' (first
    | assumption | intro _ | apply Chip.copyIn_canon | apply ite_canon | apply ite_canon2 | apply ite_canon3 |
      refine snd_of (by assumption) ?_ | refine thd_of (by assumption) ?_ | split | dsimp only)

theorem Chip.bufferBody_canon (a0 : Nat) (a1 : List Byte) (a2 : Chip) (h2 : a2.canon) :
    (Chip.bufferBody a0 a1 a2).2.canon := by
  induction a0 generalizing a1 a2 with | zero => exact h2 | succ f ih =>
    unfold Chip.bufferBody
    split
    · exact h2
    · exact ih _ _ (Chip.copyIn_canon _ _ _ h2)

theorem Chip.bankStart_canon (a0 : Core) (a1 : Chip) (h1 : a1.canon) : (Chip.bankStart a0 a1).canon := by
  unfold Chip.bankStart; with_reducible repeat' (first
    | assumption | intro _ | apply Chip.onCore_canon | apply Chip.bankReset_canon | apply ite_canon | apply ite_canon2 |
      apply ite_canon3 | refine snd_of (by assumption) ?_ | refine thd_of (by assumption) ?_ | split | dsimp only)

theorem Chip.handover_canon (a0 : Nat) (a1 : List Byte) (a2 : Chip) (h2 : a2.canon) : (Chip.handover a0 a1 a2).canon := by
  unfold Chip.handover; with_reducible repeat' (first
    | assumption | intro _ | apply Chip.wr_canon | apply Chip.bankStart_canon | apply Chip.romScratch_canon |
      apply Chip.workArea_canon | apply Chip.onCore_canon | apply Chip.onTirba_canon | apply Chip.onRst_canon |
      apply ite_canon | apply ite_canon2 | apply ite_canon3 | refine snd_of (by assumption) ?_ |
      refine thd_of (by assumption) ?_ | split | dsimp only)

theorem Chip.slotStatus_canon (a0 : Nat) (a1 : Nat) (a2 : Chip) (h2 : a2.canon) : (Chip.slotStatus a0 a1 a2).canon := by
  unfold Chip.slotStatus; with_reducible repeat' (first | assumption | apply Chip.wf_canon)

theorem Chip.flashHeader_canon (a0 : Nat) (a1 : FlashSlot) (a2 : Chip) (h2 : a2.canon) : (Chip.flashHeader a0 a1 a2).2.canon
  := by
  unfold Chip.flashHeader; with_reducible repeat' (first
    | assumption | intro _ | apply Chip.copyIn_canon | apply Chip.emit_canon | apply ite_canon | apply ite_canon2 |
      apply ite_canon3 | refine snd_of (by assumption) ?_ | refine thd_of (by assumption) ?_ | split | dsimp only)

theorem Chip.hashSlot_canon (a0 : Nat) (a1 : FlashSlot) (a2 : Chip) (h2 : a2.canon) : (Chip.hashSlot a0 a1 a2).canon := by
  unfold Chip.hashSlot; with_reducible repeat' (first
    | assumption | intro _ | apply Chip.emit_canon | apply Chip.bufferBody_canon | apply Chip.slotStatus_canon |
      apply ite_canon | apply ite_canon2 | apply ite_canon3 | refine snd_of (by assumption) ?_ |
      refine thd_of (by assumption) ?_ | split | dsimp only)

theorem Chip.loadRanked_canon (a0 : List (Nat × FlashSlot)) (a1 : Chip) (h1 : a1.canon) : (Chip.loadRanked a0 a1).2.canon := by
  induction a0 generalizing a1 with | nil => exact h1 | cons e t ih =>
    obtain ⟨i, f⟩ := e
    unfold Chip.loadRanked
    have h : (Chip.loadBody f.header f.body (Chip.emit (.flashRead (slotAddr i + 0x100) (hdrLength f.header)) a1)).2.canon :=
      Chip.loadBody_canon _ _ _ (Chip.emit_canon _ _ h1)
    generalize Chip.loadBody f.header f.body (Chip.emit (.flashRead (slotAddr i + 0x100) (hdrLength f.header)) a1) = x at h
    exact ite_canon2 (forEach_canon (fun a s hs => Chip.hashSlot_canon _ _ _ hs) (Chip.slotStatus_canon _ _ _ h))
      (ih _ (Chip.slotStatus_canon _ _ _ h))

theorem Chip.noImage_canon (a0 : Nat) (a1 : Chip) (h1 : a1.canon) : (Chip.noImage a0 a1).canon := by
  unfold Chip.noImage; with_reducible repeat' (first
    | assumption | intro _ | apply Chip.onRst_canon | apply Chip.workArea_canon | apply Chip.wf_canon | apply ite_canon |
      apply ite_canon2 | apply ite_canon3 | refine snd_of (by assumption) ?_ | refine thd_of (by assumption) ?_ | split |
      dsimp only)

theorem Chip.romSlots_canon (a0 : FlashSlot) (a1 : FlashSlot) (a2 : Chip) (h2 : a2.canon) : (Chip.romSlots a0 a1 a2).canon :=
  by
  unfold Chip.romSlots; with_reducible repeat' (first
    | assumption | intro _ | apply Chip.onRst_canon | apply Chip.wf_canon | apply Chip.emit_canon |
      apply Chip.flashHeader_canon | apply Chip.slotStatus_canon | apply Chip.wr_canon | apply Chip.when_canon |
      apply Chip.sb_canon | apply Chip.loadRanked_canon | apply Chip.handover_canon | apply Chip.noImage_canon |
      apply ite_canon | apply ite_canon2 | apply ite_canon3 | refine snd_of (by assumption) ?_ |
      refine thd_of (by assumption) ?_ | split | apply canon_mk
    | (apply regsOk; first
      | assumption | apply Chip.onRst_canon | apply Chip.wf_canon | apply Chip.emit_canon | apply Chip.flashHeader_canon |
        apply Chip.slotStatus_canon | apply Chip.wr_canon | apply Chip.when_canon | apply Chip.sb_canon |
        apply Chip.loadRanked_canon | apply Chip.handover_canon | apply Chip.noImage_canon | apply ite_canon)
    | (apply memOk; first
      | assumption | apply Chip.onRst_canon | apply Chip.wf_canon | apply Chip.emit_canon | apply Chip.flashHeader_canon |
        apply Chip.slotStatus_canon | apply Chip.wr_canon | apply Chip.when_canon | apply Chip.sb_canon |
        apply Chip.loadRanked_canon | apply Chip.handover_canon | apply Chip.noImage_canon | apply ite_canon)
    | dsimp only)

theorem Chip.romStart_canon (a0 : List Fuse) (a1 : Chip) (h1 : a1.canon) : (Chip.romStart a0 a1).canon := by
  unfold Chip.romStart; with_reducible repeat' (first
    | assumption | intro _ | apply Chip.onCore_canon | apply Chip.romScratch_canon | apply Chip.lcyBoot_canon
    | apply Chip.onRst_canon | apply Chip.wf_canon | apply Chip.onHost_canon | apply forEach_canon | apply ite_canon)

theorem Chip.romBoot_canon (a0 : List Fuse) (a1 : FlashSlot) (a2 : FlashSlot) (a3 : Chip) (h3 : a3.canon) :
    (Chip.romBoot a0 a1 a2 a3).canon := by
  unfold Chip.romBoot; with_reducible repeat' (first
    | assumption | apply Chip.romStart_canon | apply Chip.romSlots_canon | apply ite_canon)

theorem Chip.vioCTimeout_canon (a0 : Chip) (h0 : a0.canon) : (Chip.vioCTimeout a0).canon := by
  unfold Chip.vioCTimeout; with_reducible repeat' (first
    | assumption | intro _ | apply Chip.onRst_canon | apply Chip.wf_canon | apply ite_canon)

theorem Chip.recover_canon (a0 : Bool) (a1 : Bool) (a2 : Chip) (h2 : a2.canon) : (Chip.recover a0 a1 a2).canon := by
  unfold Chip.recover; with_reducible repeat' (first
    | assumption | intro _ | apply Chip.vRead_canon | apply Chip.copyIn_canon | apply Chip.when_canon | apply Chip.sb_canon |
      apply Chip.noImage_canon | apply Chip.slotStatus_canon | apply Chip.loadBody_canon | apply Chip.handover_canon |
      apply Chip.wf_canon | apply ite_canon | apply ite_canon2 | apply ite_canon3 | refine snd_of (by assumption) ?_ |
      refine thd_of (by assumption) ?_ | split | dsimp only)

theorem Chip.romLock_canon (a0 : Core) (a1 : Chip) (h1 : a1.canon) : (Chip.romLock a0 a1).canon := by
  unfold Chip.romLock; with_reducible repeat' (first
    | assumption | intro _ | apply Chip.sb_canon | apply Chip.onCore_canon | apply Chip.when_canon |
      apply Chip.bankStart_canon | apply Chip.romScratch_canon | apply ite_canon | apply ite_canon2 | apply ite_canon3 |
      refine snd_of (by assumption) ?_ | refine thd_of (by assumption) ?_ | split | dsimp only)

theorem Chip.onTmr_canon (a0 : TmrSt → TmrSt) (a1 : Chip) (h1 : a1.canon) : (Chip.onTmr a0 a1).canon := by
  unfold Chip.onTmr; with_reducible repeat' (first
    | assumption | apply canon_mk | (apply regsOk; first | assumption) | (apply memOk; first | assumption))

theorem Chip.setPre_canon (a0 : TmrCh) (a1 : Nat) (a2 : Chip) (h2 : a2.canon) : (Chip.setPre a0 a1 a2).canon := by
  unfold Chip.setPre; with_reducible repeat' (first | assumption | intro _ | apply Chip.onTmr_canon)

theorem Chip.chTick_canon (a0 : TmrCh) (a1 : Chip) (h1 : a1.canon) : (Chip.chTick a0 a1).2.canon := by
  unfold Chip.chTick; with_reducible repeat' (first
    | assumption | apply Chip.sbIf_canon | apply Chip.wr_canon | apply Chip.wb_canon | apply ite_canon)

theorem Chip.chStart_canon (a0 : TmrCh) (a1 : Chip) (h1 : a1.canon) : (Chip.chStart a0 a1).canon := by
  unfold Chip.chStart; with_reducible repeat' (first
    | assumption | apply Chip.setPre_canon | apply Chip.sb_canon | apply Chip.wb_canon)

theorem Chip.chEnable_canon (a0 : TmrCh) (a1 : Chip) (h1 : a1.canon) : (Chip.chEnable a0 a1).canon := by
  unfold Chip.chEnable; with_reducible repeat' (first
    | assumption | apply Chip.sb_canon | apply Chip.chStart_canon | apply ite_canon)

theorem Chip.chDisable_canon (a0 : TmrCh) (a1 : Chip) (h1 : a1.canon) : (Chip.chDisable a0 a1).canon := by
  unfold Chip.chDisable; with_reducible repeat' (first | assumption | apply Chip.wb_canon)

theorem Chip.chEvent_canon (a0 : TmrCh) (a1 : Nat) (a2 : Chip) (h2 : a2.canon) : (Chip.chEvent a0 a1 a2).2.canon := by
  unfold Chip.chEvent; with_reducible repeat' (first
    | assumption | apply Chip.chStart_canon | apply Chip.chTick_canon | apply ite_canon | apply ite_canon2)

theorem Chip.cascade_canon (a0 : List TmrCh) (a1 : List Nat) (a2 : Chip) (h2 : a2.canon) : (Chip.cascade a0 a1 a2).2.canon := by
  fun_induction Chip.cascade a0 a1 a2 <;> with_reducible repeat' (first
    | assumption | intro _ | apply_assumption | apply Chip.chEvent_canon | refine snd_of (by assumption) ?_)

theorem Chip.tmrRequests_canon (a0 : List Nat) (a1 : Chip) (h1 : a1.canon) : (Chip.tmrRequests a0 a1).canon := by
  unfold Chip.tmrRequests; with_reducible repeat' (first
    | assumption | intro _ | apply Chip.request_canon | refine forEach_canon ?_ ?_ | apply ite_canon | apply ite_canon2 |
      apply ite_canon3 | refine snd_of (by assumption) ?_ | refine thd_of (by assumption) ?_ | split | dsimp only)

theorem Chip.raiseTmr_canon (a0 : ℤ) (a1 : List Nat) (a2 : Chip) (h2 : a2.canon) : (Chip.raiseTmr a0 a1 a2).canon := by
  unfold Chip.raiseTmr; with_reducible repeat' (first
    | assumption | intro _ | apply Chip.cascade_canon | apply Chip.tmrRequests_canon | apply Chip.onTmr_canon |
      apply ite_canon | apply ite_canon2 | apply ite_canon3 | refine snd_of (by assumption) ?_ |
      refine thd_of (by assumption) ?_ | split | dsimp only)

theorem Chip.lateEvent_canon (a0 : Nat) (a1 : Nat) (a2 : Chip) (h2 : a2.canon) : (Chip.lateEvent a0 a1 a2).canon := by
  unfold Chip.lateEvent; with_reducible repeat' (first | assumption | apply Chip.chEvent_canon | apply Chip.raiseTmr_canon)

theorem Chip.lateEvents_canon (a0 : Chip) (h0 : a0.canon) : (Chip.lateEvents a0).canon := by
  unfold Chip.lateEvents; with_reducible repeat' (first
    | assumption | intro _ | apply Chip.lateEvent_canon | apply Chip.onTmr_canon | apply forEach_canon)

theorem Chip.channelTick_canon (a0 : TmrCh) (a1 : Chip) (h1 : a1.canon) : (Chip.channelTick a0 a1).canon := by
  unfold Chip.channelTick; with_reducible repeat' (first
    | assumption | intro _ | apply Chip.lateEvent_canon | apply Chip.onTmr_canon | apply Chip.chTick_canon
    | apply Chip.setPre_canon | apply Chip.raiseTmr_canon | apply ite_canon | apply ite_canon2 | apply ite_canon3
    | refine snd_of (by assumption) ?_ | refine thd_of (by assumption) ?_ | split)

theorem Chip.compareNow_canon (a0 : Chip) (h0 : a0.canon) : (Chip.compareNow a0).canon := by
  unfold Chip.compareNow; with_reducible repeat' (first
    | assumption | intro _ | apply Chip.raiseTmr_canon | apply Chip.onTmr_canon | apply Chip.sb_canon | apply ite_canon)

theorem Chip.tcmpWrite_canon (a0 : Word) (a1 : Chip) (h1 : a1.canon) : (Chip.tcmpWrite a0 a1).canon := by
  unfold Chip.tcmpWrite; with_reducible repeat' (first
    | assumption | intro _ | apply Chip.compareNow_canon | apply Chip.onTmr_canon)

theorem Chip.chLpStep_canon (a0 : TmrCh) (a1 : Nat) (a2 : Chip) (h2 : a2.canon) : (Chip.chLpStep a0 a1 a2).2.canon := by
  unfold Chip.chLpStep; with_reducible repeat' (first
    | assumption | apply Chip.sbIf_canon | apply Chip.wr_canon | apply Chip.setPre_canon | apply Chip.wb_canon | apply ite_canon
    | apply ite_canon2)

theorem Chip.lpChannels_canon (a0 : Nat) (a1 : List TmrCh) (a2 : List Nat) (a3 : Chip) (h3 : a3.canon) :
    (Chip.lpChannels a0 a1 a2 a3).2.canon := by
  fun_induction Chip.lpChannels a0 a1 a2 a3 <;> with_reducible repeat' (first
    | assumption | intro _ | apply_assumption | apply Chip.chEvent_canon | apply Chip.chLpStep_canon
    | refine snd_of (by assumption) ?_ | refine thd_of (by assumption) ?_ | split)

theorem Chip.lpStep_canon (a0 : Chip) (h0 : a0.canon) : (Chip.lpStep a0).canon := by
  unfold Chip.lpStep; with_reducible repeat' (first
    | assumption | intro _ | apply Chip.onTmr_canon | apply Chip.lateEvents_canon | apply Chip.sb_canon |
      apply Chip.lpChannels_canon | apply Chip.tmrRequests_canon | apply ite_canon | apply ite_canon2 | apply ite_canon3 |
      refine snd_of (by assumption) ?_ | refine thd_of (by assumption) ?_ | split | apply canon_mk
    | (apply regsOk; first
      | assumption | apply Chip.onTmr_canon | apply Chip.lateEvents_canon | apply Chip.sb_canon | apply Chip.lpChannels_canon
        | apply Chip.tmrRequests_canon | apply ite_canon)
    | (apply memOk; first
      | assumption | apply Chip.onTmr_canon | apply Chip.lateEvents_canon | apply Chip.sb_canon | apply Chip.lpChannels_canon
        | apply Chip.tmrRequests_canon | apply ite_canon)
    | dsimp only)

theorem Chip.timerTick_canon (a0 : Chip) (h0 : a0.canon) : (Chip.timerTick a0).canon := by
  unfold Chip.timerTick; with_reducible repeat' (first
    | assumption | intro _ | apply Chip.lateEvents_canon | apply Chip.wb_canon | apply Chip.onTmr_canon
    | apply Chip.setPre_canon | apply forEach_canon | apply ite_canon | apply canon_mk
    | (apply regsOk; first | assumption | apply Chip.lateEvents_canon)
    | (apply memOk; first | assumption | apply Chip.lateEvents_canon))

theorem Chip.cntWrite_canon (a0 : TmrCh) (a1 : Word) (a2 : Chip) (h2 : a2.canon) : (Chip.cntWrite a0 a1 a2).canon := by
  unfold Chip.cntWrite; with_reducible repeat' (first | assumption | apply Chip.setPre_canon | apply Chip.wr_canon)

theorem Chip.storeTmr_canon (a0 : Nat) (a1 : Word) (a2 : Chip) (h2 : a2.canon) : (Chip.storeTmr a0 a1 a2).canon := by
  unfold Chip.storeTmr; with_reducible repeat' (first
    | assumption | intro _ | apply Chip.onTmr_canon | apply Chip.tcmpWrite_canon | apply Chip.store_canon
    | apply Chip.compareNow_canon | apply Chip.chEnable_canon | apply Chip.chDisable_canon | apply Chip.cntWrite_canon
    | apply ite_canon)

theorem Chip.tmrWake_canon (a0 : Chip) (h0 : a0.canon) : (Chip.tmrWake a0).canon := by
  unfold Chip.tmrWake; with_reducible repeat' (first
    | assumption | intro _ | apply Chip.setPre_canon | apply Chip.wr_canon | apply forEach_canon | apply ite_canon)

theorem Chip.onEmb_canon (a0 : EmbSt → EmbSt) (a1 : Chip) (h1 : a1.canon) : (Chip.onEmb a0 a1).canon := by
  unfold Chip.onEmb; with_reducible repeat' (first
    | assumption | apply canon_mk | (apply regsOk; first | assumption) | (apply memOk; first | assumption))

theorem Chip.setCharge_canon (a0 : Nat) (a1 : Chip) (h1 : a1.canon) : (Chip.setCharge a0 a1).canon := by
  unfold Chip.setCharge; with_reducible repeat' (first | assumption | intro _ | apply Chip.wf_canon | apply Chip.onEmb_canon)

theorem Chip.chargerStep_canon (a0 : Nat) (a1 : Chip) (h1 : a1.canon) : (Chip.chargerStep a0 a1).canon := by
  unfold Chip.chargerStep; with_reducible repeat' (first
    | assumption | intro _ | apply Chip.onEmb_canon | apply Chip.wb_canon | apply ite_canon)

theorem Chip.tempSample_canon (a0 : List ℤ) (a1 : Chip) (h1 : a1.canon) : (Chip.tempSample a0 a1).canon := by
  unfold Chip.tempSample; with_reducible repeat' (first
    | assumption | intro _ | apply Chip.onEmb_canon | apply Chip.sb_canon | apply Chip.wb_canon | apply ite_canon |
      apply ite_canon2 | apply ite_canon3 | refine snd_of (by assumption) ?_ | refine thd_of (by assumption) ?_ | split |
      dsimp only)

theorem Chip.probeEnd_canon (a0 : Nat) (a1 : Chip) (h1 : a1.canon) : (Chip.probeEnd a0 a1).canon := by
  unfold Chip.probeEnd; with_reducible repeat' (first
    | assumption | intro _ | apply Chip.onEmb_canon | apply Chip.sb_canon | apply Chip.setCharge_canon | apply ite_canon)

theorem Chip.embCtrl_canon (a0 : Word) (a1 : Chip) (h1 : a1.canon) : (Chip.embCtrl a0 a1).canon := by
  unfold Chip.embCtrl; with_reducible repeat' (first
    | assumption | apply Chip.store_canon | apply Chip.setCharge_canon | apply ite_canon)

theorem Chip.embHold_canon (a0 : Chip) (h0 : a0.canon) : (Chip.embHold a0).canon := by
  unfold Chip.embHold; with_reducible repeat' (first | assumption | apply Chip.setCharge_canon)

theorem Chip.embWake_canon (a0 : Chip) (h0 : a0.canon) : (Chip.embWake a0).canon := by
  unfold Chip.embWake; with_reducible repeat' (first | assumption | apply Chip.setCharge_canon | apply ite_canon)

theorem Chip.dimLeave_canon (a0 : Chip) (h0 : a0.canon) : (Chip.dimLeave a0).canon := by
  unfold Chip.dimLeave; with_reducible repeat' (first
    | assumption | apply Chip.serResume_canon | apply Chip.sndResume_canon | apply Chip.bmoResume_canon
    | apply Chip.eyeResume_canon | apply Chip.wb_canon | apply Chip.wf_canon)

theorem Chip.pwrCancel_canon (a0 : Chip) (h0 : a0.canon) : (Chip.pwrCancel a0).canon := by
  unfold Chip.pwrCancel; with_reducible repeat' (first
    | assumption | apply Chip.sb_canon | apply Chip.wb_canon | apply Chip.wf_canon)

theorem Chip.wakeEvent_canon (a0 : Nat) (a1 : Chip) (h1 : a1.canon) : (Chip.wakeEvent a0 a1).canon := by
  unfold Chip.wakeEvent; with_reducible repeat' (first
    | assumption | intro _ | apply Chip.sb_canon | apply Chip.when_canon | apply Chip.pwrCancel_canon |
      apply Chip.onCore_canon | apply Chip.dimLeave_canon | apply Chip.onEmb_canon | apply ite_canon | apply ite_canon2 |
      apply ite_canon3 | refine snd_of (by assumption) ?_ | refine thd_of (by assumption) ?_ | split | dsimp only)

theorem Chip.pwrRequest_canon (a0 : Word) (a1 : Chip) (h1 : a1.canon) : (Chip.pwrRequest a0 a1).canon := by
  unfold Chip.pwrRequest; with_reducible repeat' (first
    | assumption | intro _ | apply Chip.dimLeave_canon | apply Chip.wb_canon | apply Chip.wf_canon | apply Chip.sb_canon |
      apply Chip.when_canon | apply Chip.wakeEvent_canon | apply ite_canon | apply ite_canon2 | apply ite_canon3 |
      refine snd_of (by assumption) ?_ | refine thd_of (by assumption) ?_ | split | dsimp only)

theorem Chip.wakeInput_canon (a0 : Fin 2) (a1 : Bool) (a2 : Bool) (a3 : Nat) (a4 : Chip) (h4 : a4.canon) :
    (Chip.wakeInput a0 a1 a2 a3 a4).canon := by
  unfold Chip.wakeInput; with_reducible repeat' (first
    | assumption | intro _ | apply Chip.onEmb_canon | apply Chip.sbIf_canon | apply Chip.wakeEvent_canon | apply ite_canon)

theorem Chip.vinChange_canon (a0 : Nat) (a1 : Chip) (h1 : a1.canon) : (Chip.vinChange a0 a1).canon := by
  unfold Chip.vinChange; with_reducible repeat' (first
    | assumption | intro _ | apply Chip.onEmb_canon | apply Chip.sb_canon | apply Chip.wb_canon | apply Chip.wakeEvent_canon
    | apply ite_canon)

theorem Chip.alarmCheck_canon (a0 : Chip) (h0 : a0.canon) : (Chip.alarmCheck a0).canon := by
  unfold Chip.alarmCheck; with_reducible repeat' (first
    | assumption | apply Chip.wakeEvent_canon | apply Chip.sb_canon | apply ite_canon)

theorem Chip.rtcTick_canon (a0 : Chip) (h0 : a0.canon) : (Chip.rtcTick a0).canon := by
  unfold Chip.rtcTick; with_reducible repeat' (first
    | assumption | intro _ | apply Chip.onEmb_canon | apply Chip.wr_canon | apply ite_canon | apply ite_canon2 |
      apply ite_canon3 | refine snd_of (by assumption) ?_ | refine thd_of (by assumption) ?_ | split | dsimp only)

theorem Chip.rtcSecond_canon (a0 : Chip) (h0 : a0.canon) : (Chip.rtcSecond a0).canon := by
  unfold Chip.rtcSecond; with_reducible repeat' (first
    | assumption | apply Chip.alarmCheck_canon | apply Chip.incWrap_canon | apply Chip.wr_canon)

theorem Chip.rtcCal_canon (a0 : Chip) (h0 : a0.canon) : (Chip.rtcCal a0).canon := by
  unfold Chip.rtcCal; with_reducible repeat' (first
    | assumption | apply Chip.wr_canon | apply Chip.alarmCheck_canon | apply Chip.incWrap_canon | apply ite_canon)

theorem Chip.rtcSet_canon (a0 : Word) (a1 : Chip) (h1 : a1.canon) : (Chip.rtcSet a0 a1).canon := by
  unfold Chip.rtcSet; with_reducible repeat' (first | assumption | apply Chip.wr_canon)

theorem Chip.resetRegs_canon (a0 : List Nat) (a1 : Chip) (h1 : a1.canon) : (Chip.resetRegs a0 a1).canon := by
  unfold Chip.resetRegs; with_reducible repeat' (first | assumption | intro _ | apply Chip.wr_canon | apply forEach_canon)

theorem Chip.aonPor_canon (a0 : Chip) (h0 : a0.canon) : (Chip.aonPor a0).canon := by
  unfold Chip.aonPor; with_reducible repeat' (first
    | assumption | intro _ | apply Chip.resetRegs_canon | apply Chip.onTmr_canon | apply Chip.setPre_canon | apply Chip.wr_canon
    | apply Chip.sb_canon | apply forEach_canon | apply ite_canon | apply canon_mk
    | (apply regsOk; first | assumption | apply Chip.resetRegs_canon)
    | (apply memOk; first | assumption | apply Chip.resetRegs_canon))

theorem Chip.storeEmb_canon (a0 : Nat) (a1 : Word) (a2 : Chip) (h2 : a2.canon) : (Chip.storeEmb a0 a1 a2).canon := by
  unfold Chip.storeEmb; with_reducible repeat' (first
    | assumption | apply Chip.embCtrl_canon | apply Chip.pwrRequest_canon | apply Chip.rtcSet_canon | apply Chip.store_canon
    | apply ite_canon)

theorem Chip.resetTo_canon (a0 : Nat → Bool) (a1 : Chip) (h1 : a1.canon) : (Chip.resetTo a0 a1).canon := by
  unfold Chip.resetTo; apply Chip.wr_canon; exact ⟨Sparse.wf_filter _ _ _ h1.1, rfl⟩

theorem Chip.powerRun_canon (a0 : Chip) (h0 : a0.canon) : (Chip.powerRun a0).canon := by
  unfold Chip.powerRun; with_reducible repeat' (first | assumption | apply Chip.wb_canon | apply Chip.wf_canon)

theorem Chip.coldReset_canon (a0 : RstCause) (a1 : Option Bool) (a2 : Chip) (h2 : a2.canon) : (Chip.coldReset a0 a1 a2).canon
  := by
  unfold Chip.coldReset; with_reducible repeat' (first
    | assumption | intro _ | apply Chip.lcyStop_canon | apply Chip.resetTo_canon | apply Chip.wb_canon |
      apply Chip.fresh_canon | apply Chip.emit_canon | apply Chip.sb_canon | apply Chip.powerRun_canon | apply ite_canon |
      apply ite_canon2 | apply ite_canon3 | refine snd_of (by assumption) ?_ | refine thd_of (by assumption) ?_ | split |
      apply canon_mk
    | (apply regsOk; first
      | assumption | apply Chip.lcyStop_canon | apply Chip.resetTo_canon | apply Chip.wb_canon | apply Chip.fresh_canon |
        apply Chip.emit_canon | apply Chip.sb_canon | apply Chip.powerRun_canon | apply ite_canon)
    | (apply memOk; first
      | assumption | apply Chip.lcyStop_canon | apply Chip.resetTo_canon | apply Chip.wb_canon | apply Chip.fresh_canon |
        apply Chip.emit_canon | apply Chip.sb_canon | apply Chip.powerRun_canon | apply ite_canon)
    | dsimp only)

theorem Chip.warmReset_canon (a0 : Option Bool) (a1 : Chip) (h1 : a1.canon) : (Chip.warmReset a0 a1).canon := by
  unfold Chip.warmReset; with_reducible repeat' (first
    | assumption | intro _ | apply Chip.coldReset_canon | apply Chip.resetTo_canon | apply Chip.coreRelease_canon |
      apply Chip.onCore_canon | apply Chip.emit_canon | apply Chip.sb_canon | refine forEach_canon ?_ ?_ | apply ite_canon |
      apply ite_canon2 | apply ite_canon3 | refine snd_of (by assumption) ?_ | refine thd_of (by assumption) ?_ | split |
      apply canon_mk
    | (apply regsOk; first
      | assumption | apply Chip.coldReset_canon | apply Chip.resetTo_canon | apply Chip.coreRelease_canon |
        apply Chip.onCore_canon | apply Chip.emit_canon | apply Chip.sb_canon | refine forEach_canon ?_ ?_ | apply ite_canon)
    | (apply memOk; first
      | assumption | apply Chip.coldReset_canon | apply Chip.resetTo_canon | apply Chip.coreRelease_canon |
        apply Chip.onCore_canon | apply Chip.emit_canon | apply Chip.sb_canon | refine forEach_canon ?_ ?_ | apply ite_canon)
    | dsimp only)

theorem Chip.startSequence_canon (a0 : BitVec 14) (a1 : Chip) (h1 : a1.canon) : (Chip.startSequence a0 a1).canon := by
  unfold Chip.startSequence; with_reducible repeat' (first
    | assumption | intro _ | apply Chip.onRst_canon | apply Chip.phaseTest_canon | apply ite_canon)

theorem Chip.coldCause_canon (a0 : RstCause) (a1 : Bool) (a2 : Chip) (h2 : a2.canon) : (Chip.coldCause a0 a1 a2).canon := by
  unfold Chip.coldCause; with_reducible repeat' (first | assumption | apply Chip.coldReset_canon | apply ite_canon)

theorem Chip.coldAnyway_canon (a0 : RstCause) (a1 : Bool) (a2 : Chip) (h2 : a2.canon) : (Chip.coldAnyway a0 a1 a2).canon := by
  unfold Chip.coldAnyway; with_reducible repeat' (first | assumption | apply Chip.sbIf_canon | apply Chip.coldReset_canon)

theorem Chip.fatalFault_canon (a0 : Bool) (a1 : Bool) (a2 : Chip) (h2 : a2.canon) : (Chip.fatalFault a0 a1 a2).canon := by
  unfold Chip.fatalFault; with_reducible repeat' (first
    | assumption | intro _ | apply Chip.coldCause_canon | apply Chip.onRst_canon | apply ite_canon)

theorem Chip.sysReset_canon (a0 : Nat) (a1 : Bool) (a2 : Word) (a3 : Option Bool) (a4 : Chip) (h4 : a4.canon) :
    (Chip.sysReset a0 a1 a2 a3 a4).canon := by
  unfold Chip.sysReset; with_reducible repeat' (first
    | assumption | apply Chip.accLog_canon | apply Chip.warmReset_canon | apply Chip.coldReset_canon | apply ite_canon)

theorem Chip.dueReset_canon (a0 : Chip) (h0 : a0.canon) : (Chip.dueReset a0).canon := by
  unfold Chip.dueReset; with_reducible repeat' (first
    | assumption | apply Chip.coldReset_canon | apply Chip.warmReset_canon | apply ite_canon | refine snd_of (by assumption) ?_
    | refine thd_of (by assumption) ?_ | split)

theorem Chip.gpioDark_canon (a0 : Chip) (h0 : a0.canon) : (Chip.gpioDark a0).canon := by
  unfold Chip.gpioDark; with_reducible repeat' (first
    | assumption | intro _ | apply Chip.gpioInput_canon | refine forEach_canon ?_ ?_ | apply ite_canon | apply ite_canon2 |
      apply ite_canon3 | refine snd_of (by assumption) ?_ | refine thd_of (by assumption) ?_ | split | dsimp only)

theorem Chip.vioChange_canon (a0 : Fin 3) (a1 : Nat) (a2 : Chip) (h2 : a2.canon) : (Chip.vioChange a0 a1 a2).canon := by
  unfold Chip.vioChange; with_reducible repeat' (first
    | assumption | intro _ | apply Chip.wb_canon | apply Chip.sb_canon | apply Chip.when_canon | apply Chip.gpioDark_canon |
      apply Chip.sbIf_canon | apply ite_canon | apply ite_canon2 | apply ite_canon3 | refine snd_of (by assumption) ?_ |
      refine thd_of (by assumption) ?_ | split | dsimp only)

theorem Chip.sleepReset_canon (a0 : Bool) (a1 : Chip) (h1 : a1.canon) : (Chip.sleepReset a0 a1).canon := by
  unfold Chip.sleepReset; extract_lets d e
  have h_d : d.canon := by
    unfold d
    with_reducible repeat' (first
      | assumption | intro _ | apply Chip.undefBank_canon | apply Chip.resetTo_canon | apply Chip.hold_canon
      | apply forEach_canon | apply ite_canon)
  clear_value d
  have he : e.canon := Chip.resetTo_canon _ _ h_d
  clear_value e
  refine ⟨he.1, ?_⟩
  show Sparse.wf _ (if a0 then _ else _) = true
  split
  · exact Sparse.wf_filter _ _ _ h_d.2
  · rfl

theorem Chip.powerEntry_canon (a0 : Chip) (h0 : a0.canon) : (Chip.powerEntry a0).canon := by
  unfold Chip.powerEntry; with_reducible repeat' (first
    | assumption | intro _ | apply Chip.sndDim_canon | apply Chip.bmoDim_canon | apply Chip.eyeDim_canon |
      apply Chip.wf_canon | apply Chip.wb_canon | apply Chip.embHold_canon | apply Chip.jrnDrain_canon |
      apply Chip.copyAbort_canon | apply Chip.sleepReset_canon | apply Chip.onEmb_canon | apply Chip.emit_canon |
      apply Chip.onTmr_canon | apply ite_canon | apply ite_canon2 | apply ite_canon3 | refine snd_of (by assumption) ?_ |
      refine thd_of (by assumption) ?_ | split | dsimp only)

theorem Chip.wakeStart_canon (a0 : Chip) (h0 : a0.canon) : (Chip.wakeStart a0).canon := by
  unfold Chip.wakeStart; with_reducible repeat' (first
    | assumption | intro _ | apply Chip.powerRun_canon | apply Chip.sleepReset_canon | apply Chip.onEmb_canon
    | apply Chip.onRst_canon | apply Chip.embWake_canon | apply Chip.sb_canon | apply ite_canon)

theorem Chip.storeSys_canon (a0 : Core) (a1 : Bool) (a2 : Nat) (a3 : Word) (a4 : Chip) (h4 : a4.canon) :
    (Chip.storeSys a0 a1 a2 a3 a4).canon := by
  unfold Chip.storeSys; with_reducible repeat' (first
    | assumption | apply Chip.store_canon | apply Chip.sysReset_canon | apply ite_canon)

theorem Chip.storeEmbFrom_canon (a0 : Bool) (a1 : Nat) (a2 : Word) (a3 : Chip) (h3 : a3.canon) :
    (Chip.storeEmbFrom a0 a1 a2 a3).canon := by
  unfold Chip.storeEmbFrom; with_reducible repeat' (first | assumption | apply Chip.storeEmb_canon | apply ite_canon)

theorem Chip.storeEyePage_canon (a0 : Nat) (a1 : Word) (a2 : Chip) (h2 : a2.canon) : (Chip.storeEyePage a0 a1 a2).canon := by
  unfold Chip.storeEyePage; with_reducible repeat' (first
    | assumption | apply Chip.pipesDarned_canon | apply Chip.storeEye_canon | apply ite_canon)

theorem Chip.storeSndPage_canon (a0 : Core) (a1 : Nat) (a2 : Word) (a3 : Chip) (h3 : a3.canon) :
    (Chip.storeSndPage a0 a1 a2 a3).canon := by
  unfold Chip.storeSndPage; with_reducible repeat' (first
    | assumption | apply Chip.voiceDarned_canon | apply Chip.storeSnd_canon | apply ite_canon)

theorem Chip.storeReg_canon (a0 : Core) (a1 : Bool) (a2 : Nat) (a3 : Word) (a4 : Chip) (h4 : a4.canon) :
    (Chip.storeReg a0 a1 a2 a3 a4).canon := by
  unfold Chip.storeReg; with_reducible repeat' (first
    | assumption | apply Chip.storeSys_canon | apply Chip.storeLcy_canon | apply Chip.storeIrq_canon | apply Chip.storeTmr_canon
    | apply Chip.storeChk_canon | apply Chip.storeBob_canon | apply Chip.mbxWrite_canon | apply Chip.storePrk_canon
    | apply Chip.storeGnd_canon | apply Chip.storeMtf_canon | apply Chip.storeEyePage_canon | apply Chip.storeApq_canon
    | apply Chip.storeBmo_canon | apply Chip.storeSndPage_canon | apply Chip.storeAud_canon | apply Chip.storeLtn_canon
    | apply Chip.storeEmbFrom_canon | apply Chip.storeAdc_canon | apply Chip.storeVlm_canon | apply Chip.storeSer_canon
    | apply Chip.storeGpio_canon | apply Chip.storeDbg_canon | refine snd_of (by assumption) ?_
    | refine thd_of (by assumption) ?_ | split)

theorem Chip.readPage_canon (a0 : Core) (a1 : Nat) (a2 : Chip) (h2 : a2.canon) : (Chip.readPage a0 a1 a2).2.canon := by
  unfold Chip.readPage; with_reducible repeat' (first
    | assumption | apply Chip.readGnd_canon | apply Chip.readMtf_canon | apply Chip.readEye_canon | apply Chip.readSnd_canon
    | apply Chip.readSer_canon | refine snd_of (by assumption) ?_ | refine thd_of (by assumption) ?_ | split)

theorem Chip.readClear_canon (a0 : Nat) (a1 : Chip) (h1 : a1.canon) : (Chip.readClear a0 a1).canon := by
  unfold Chip.readClear; with_reducible repeat' (first
    | assumption | apply Chip.wr_canon | apply ite_canon | refine snd_of (by assumption) ?_ | refine thd_of (by assumption) ?_
    | split)

theorem Chip.readReg_canon (a0 : Core) (a1 : Nat) (a2 : Chip) (h2 : a2.canon) : (Chip.readReg a0 a1 a2).2.canon := by
  unfold Chip.readReg; with_reducible repeat' (first
    | assumption | intro _ | apply Chip.readPage_canon | apply Chip.when_canon | apply Chip.tokPeak_canon |
      apply Chip.readClear_canon | apply ite_canon | apply ite_canon2 | apply ite_canon3 | refine snd_of (by assumption) ?_ |
      refine thd_of (by assumption) ?_ | split | dsimp only)

theorem Chip.land_canon (a0 : Core) (a1 : Chip) (h1 : a1.canon) : (Chip.land a0 a1).canon := by
  unfold Chip.land; with_reducible repeat' (first
    | assumption | intro _ | apply Chip.storeReg_canon | apply Chip.onCore_canon | refine snd_of (by assumption) ?_
    | refine thd_of (by assumption) ?_ | split)

theorem Chip.landAll_canon (a0 : Core) (a1 : Chip) (h1 : a1.canon) : (Chip.landAll a0 a1).canon := by
  unfold Chip.landAll; with_reducible repeat' (first | assumption | intro _ | apply Chip.land_canon | apply forEach_canon)

theorem Chip.bobAdvance_canon (a0 : BobCh) (a1 : Nat) (a2 : Chip) (h2 : a2.canon) : (Chip.bobAdvance a0 a1 a2).canon := by
  unfold Chip.bobAdvance; with_reducible repeat' (first | assumption | apply Chip.wr_canon)

theorem Chip.bobRegs_canon (a0 : Bool) (a1 : Nat) (a2 : List Byte) (a3 : Chip) (h3 : a3.canon) :
    (Chip.bobRegs a0 a1 a2 a3).canon := by
  fun_induction Chip.bobRegs a0 a1 a2 a3 <;> with_reducible repeat' (first
    | assumption | apply_assumption | apply Chip.storeReg_canon)

theorem Chip.bobPut_canon (a0 : BobCh) (a1 : BobDesc) (a2 : Nat) (a3 : List Byte) (a4 : Chip) (h4 : a4.canon) : (Chip.bobPut
  a0 a1 a2 a3 a4).canon := by
  unfold Chip.bobPut; with_reducible repeat' (first
    | assumption | intro _ | apply Chip.bmWrite_canon | apply Chip.bobRegs_canon | apply Chip.memWrite_canon |
      apply Chip.bobAdvance_canon | apply ite_canon | apply ite_canon2 | apply ite_canon3 | refine snd_of (by assumption) ?_
      | refine thd_of (by assumption) ?_ | split | dsimp only)

theorem Chip.bobRegRead_canon (a0 : Bool) (a1 : Nat) (a2 : Nat) (a3 : Chip) (h3 : a3.canon) :
    (Chip.bobRegRead a0 a1 a2 a3).2.canon := by
  fun_induction Chip.bobRegRead a0 a1 a2 a3 <;> with_reducible repeat' (first
    | assumption | apply_assumption | apply Chip.readReg_canon | apply ite_canon | apply ite_canon2 | apply ite_canon3
    | refine snd_of (by assumption) ?_)

theorem Chip.bobRow_canon (a0 : BobCh) (a1 : BobDesc) (a2 : Nat) (a3 : Chip) (h3 : a3.canon) :
    (Chip.bobRow a0 a1 a2 a3).2.canon := by
  unfold Chip.bobRow; with_reducible repeat' (first
    | assumption | intro _ | apply Chip.bobRegRead_canon | apply Chip.bobPut_canon | apply Chip.bobRead_canon
    | apply Chip.fresh_canon | apply ite_canon | apply ite_canon2)

theorem Chip.bobAsk_canon (a0 : BobCh) (a1 : BobDesc) (a2 : Nat) (a3 : Chip) (h3 : a3.canon) : (Chip.bobAsk a0 a1 a2
  a3).canon := by
  unfold Chip.bobAsk; with_reducible repeat' (first
    | assumption | intro _ | apply Chip.bmStart_canon | apply Chip.bobPhase_canon | apply ite_canon | apply ite_canon2 |
      apply ite_canon3 | refine snd_of (by assumption) ?_ | refine thd_of (by assumption) ?_ | split | dsimp only)

theorem Chip.bobRows_canon (a0 : BobCh) (a1 : BobDesc) (a2 : Nat) (a3 : Chip) (h3 : a3.canon) :
    (Chip.bobRows a0 a1 a2 a3).canon := by
  induction a2 generalizing a3 with | zero => exact h3 | succ f ih =>
    unfold Chip.bobRows; extract_lets k off; clear_value k off
    apply ite_canon h3; apply ite_canon (Chip.bobAsk_canon _ _ _ _ h3)
    have hx : (if a1.srcHost = true then (none, a3) else Chip.bobRow a0 a1 k a3).2.canon :=
      ite_canon2 h3 (Chip.bobRow_canon _ _ _ _ h3)
    generalize (if a1.srcHost = true then (none, a3) else Chip.bobRow a0 a1 k a3) = x at hx
    obtain ⟨x, y⟩ := x
    with_reducible repeat' (first
      | assumption | apply ih | apply Chip.bobErr_canon | apply Chip.wr_canon | apply Chip.bobEnd_canon
      | apply Chip.bobRowStart_canon | apply ite_canon | apply ite_canon2 | apply ite_canon3 | refine snd_of (by assumption) ?_
      | refine thd_of (by assumption) ?_ | split)

theorem Chip.bobMove_canon (a0 : BobCh) (a1 : Chip) (h1 : a1.canon) : (Chip.bobMove a0 a1).canon := by
  unfold Chip.bobMove; with_reducible repeat' (first
    | assumption | apply Chip.bobRows_canon | apply ite_canon | refine snd_of (by assumption) ?_
    | refine thd_of (by assumption) ?_ | split)

theorem Chip.bobHostDone_canon (a0 : BobCh) (a1 : Option (List Byte)) (a2 : Chip) (h2 : a2.canon) :
    (Chip.bobHostDone a0 a1 a2).canon := by
  unfold Chip.bobHostDone; with_reducible repeat' (first
    | assumption | apply Chip.bobMove_canon | apply Chip.bobPhase_canon | apply Chip.bobPut_canon | apply Chip.bobErr_canon
    | refine snd_of (by assumption) ?_ | refine thd_of (by assumption) ?_ | split)

theorem Chip.loadTgt_canon (a0 : Core) (a1 : Nat) (a2 : Nat) (a3 : Word) (a4 : Tgt) (a5 : Chip) (h5 : a5.canon) :
  (Chip.loadTgt a0 a1 a2 a3 a4 a5).2.canon := by
  unfold Chip.loadTgt; with_reducible repeat' (first
    | assumption | intro _ | apply Chip.accLog_canon | apply Chip.lmUe_canon | apply Chip.readReg_canon |
      apply Chip.landAll_canon | apply Chip.vRead_canon | apply ite_canon | apply ite_canon2 | apply ite_canon3 |
      refine snd_of (by assumption) ?_ | refine thd_of (by assumption) ?_ | split | dsimp only)

theorem Chip.storeTgt_canon (a0 : Core) (a1 : Bool) (a2 : Nat) (a3 : Word) (a4 : Word) (a5 : Tgt) (a6 : Chip) (h6 : a6.canon)
  : (Chip.storeTgt a0 a1 a2 a3 a4 a5 a6).canon := by
  unfold Chip.storeTgt; with_reducible repeat' (first
    | assumption | intro _ | apply Chip.memWrite_canon | apply Chip.storeYlx_canon | apply Chip.landAll_canon |
      apply Chip.when_canon | apply Chip.storeReg_canon | apply Chip.onCore_canon | apply Chip.vWrite_canon | apply ite_canon
      | apply ite_canon2 | apply ite_canon3 | refine snd_of (by assumption) ?_ | refine thd_of (by assumption) ?_ | split |
      dsimp only)

theorem Chip.yLoad_canon (a0 : Core) (a1 : Nat) (a2 : Word) (a3 : Chip) (h3 : a3.canon) : (Chip.yLoad a0 a1 a2 a3).2.canon := by
  unfold Chip.yLoad; with_reducible repeat' (first
    | assumption | apply Chip.loadTgt_canon | refine snd_of (by assumption) ?_ | refine thd_of (by assumption) ?_ | split)

theorem Chip.fetch_canon (a0 : Core) (a1 : Chip) (h1 : a1.canon) : (Chip.fetch a0 a1).2.canon := by
  unfold Chip.fetch; with_reducible repeat' (first
    | assumption | intro _ | apply Chip.loadTgt_canon | apply ite_canon | apply ite_canon2 | apply ite_canon3 |
      refine snd_of (by assumption) ?_ | refine thd_of (by assumption) ?_ | split | dsimp only)

theorem Chip.done_canon (a0 : Core) (a1 : CoreSt → CoreSt) (a2 : Chip) (h2 : a2.canon) : (Chip.done a0 a1 a2).canon := by
  unfold Chip.done; with_reducible repeat' (first | assumption | intro _ | apply Chip.onCore_canon)

theorem Chip.branch_canon (a0 : Core) (a1 : Word) (a2 : CoreSt → CoreSt) (a3 : Chip) (h3 : a3.canon) :
    (Chip.branch a0 a1 a2 a3).canon := by
  unfold Chip.branch; with_reducible repeat' (first
    | assumption | intro _ | apply Chip.trap_canon | apply Chip.onCore_canon | apply ite_canon)

theorem Chip.doLoad_canon (a0 : Core) (a1 : LoadKind) (a2 : GReg) (a3 : Word) (a4 : Chip) (h4 : a4.canon) :
    (Chip.doLoad a0 a1 a2 a3 a4).canon := by
  unfold Chip.doLoad; with_reducible repeat' (first
    | assumption | apply Chip.yLoad_canon | apply Chip.trap_canon | apply Chip.done_canon | refine snd_of (by assumption) ?_
    | refine thd_of (by assumption) ?_ | split)

theorem Chip.doStore_canon (a0 : Core) (a1 : Nat) (a2 : Word) (a3 : Word) (a4 : Chip) (h4 : a4.canon) :
    (Chip.doStore a0 a1 a2 a3 a4).canon := by
  unfold Chip.doStore; with_reducible repeat' (first
    | assumption | apply Chip.trap_canon | apply Chip.done_canon | apply Chip.storeTgt_canon | refine snd_of (by assumption) ?_
    | refine thd_of (by assumption) ?_ | split)

theorem Chip.doXchg_canon (a0 : Core) (a1 : GReg) (a2 : GReg) (a3 : Chip) (h3 : a3.canon) : (Chip.doXchg a0 a1 a2 a3).canon := by
  unfold Chip.doXchg; with_reducible repeat' (first
    | assumption | apply Chip.trap_canon | apply Chip.loadTgt_canon | apply Chip.done_canon | apply Chip.storeTgt_canon
    | refine snd_of (by assumption) ?_ | refine thd_of (by assumption) ?_ | split | dsimp only)

theorem Chip.putWord_canon (a0 : Core) (a1 : Bool) (a2 : Word) (a3 : Word) (a4 : Chip) (h4 : a4.canon) : (Chip.putWord a0 a1
  a2 a3 a4).canon := by
  unfold Chip.putWord; with_reducible repeat' (first
    | assumption | intro _ | apply Chip.storeTgt_canon | apply ite_canon | apply ite_canon2 | apply ite_canon3 |
      refine snd_of (by assumption) ?_ | refine thd_of (by assumption) ?_ | split | dsimp only)

theorem Chip.getWords_canon (a0 : Core) (a1 : List Word) (a2 : Chip) (h2 : a2.canon) : (Chip.getWords a0 a1 a2).2.canon := by
  induction a1 generalizing a2 with | nil => exact h2 | cons a t ih =>
    unfold Chip.getWords
    split
    · exact h2
    rename_i tgt _
    have h := Chip.loadTgt_canon a0 a0.val 4 a tgt a2 h2
    generalize Chip.loadTgt a0 a0.val 4 a tgt a2 = x at h
    split
    · exact h
    dsimp only at h
    refine ite_canon2 h ?_
    have k := ih _ h
    split <;> exact snd_of (by assumption) k

theorem Chip.callm_canon (a0 : Core) (a1 : GReg) (a2 : BitVec 13) (a3 : Chip) (h3 : a3.canon) :
    (Chip.callm a0 a1 a2 a3).canon := by
  unfold Chip.callm; with_reducible repeat' (first
    | assumption | intro _ | apply Chip.trap_canon | apply Chip.putWord_canon | apply Chip.onCore_canon | apply forEach_canon
    | apply ite_canon | refine snd_of (by assumption) ?_ | refine thd_of (by assumption) ?_ | split)

theorem Chip.retm_canon (a0 : Core) (a1 : BitVec 13) (a2 : Chip) (h2 : a2.canon) : (Chip.retm a0 a1 a2).canon := by
  unfold Chip.retm; with_reducible repeat' (first
    | assumption | intro _ | apply Chip.trap_canon | apply Chip.getWords_canon | apply Chip.onCore_canon |
      refine forEach_canon ?_ ?_ | apply ite_canon | apply ite_canon2 | apply ite_canon3 | refine snd_of (by assumption) ?_ |
      refine thd_of (by assumption) ?_ | split | dsimp only)

theorem Chip.sev_canon (a0 : Core) (a1 : BitVec 8) (a2 : Chip) (h2 : a2.canon) : (Chip.sev a0 a1 a2).canon := by
  unfold Chip.sev; with_reducible repeat' (first
    | assumption | intro _ | apply Chip.landAll_canon | apply Chip.done_canon | apply Chip.onCore_canon |
      refine forEach_canon ?_ ?_ | apply ite_canon | apply ite_canon2 | apply ite_canon3 | refine snd_of (by assumption) ?_ |
      refine thd_of (by assumption) ?_ | split | dsimp only)

theorem Chip.unpark_canon (a0 : Core) (a1 : Chip) (h1 : a1.canon) : (Chip.unpark a0 a1).canon := by
  unfold Chip.unpark; with_reducible repeat' (first
    | assumption | intro _ | apply Chip.onCore_canon | apply Chip.romScratch_canon | apply Chip.fresh_canon
    | apply Chip.trap_canon | apply ite_canon)

theorem Chip.parkOn_canon (a0 : Core) (a1 : Chip) (h1 : a1.canon) : (Chip.parkOn a0 a1).canon := by
  unfold Chip.parkOn; with_reducible repeat' (first
    | assumption | intro _ | apply Chip.unpark_canon | apply ite_canon | apply ite_canon2 | apply ite_canon3 |
      refine snd_of (by assumption) ?_ | refine thd_of (by assumption) ?_ | split | dsimp only)

theorem Chip.wfe_canon (a0 : Core) (a1 : Chip) (h1 : a1.canon) : (Chip.wfe a0 a1).canon := by
  unfold Chip.wfe; with_reducible repeat' (first
    | assumption | intro _ | apply Chip.parkOn_canon | apply Chip.done_canon | apply Chip.onCore_canon | apply ite_canon |
      apply ite_canon2 | apply ite_canon3 | refine snd_of (by assumption) ?_ | refine thd_of (by assumption) ?_ | split |
      dsimp only)

theorem Chip.waituntil_canon (a0 : Core) (a1 : BitVec 2) (a2 : Bool) (a3 : GReg) (a4 : Chip) (h4 : a4.canon) :
    (Chip.waituntil a0 a1 a2 a3 a4).canon := by
  unfold Chip.waituntil; with_reducible repeat' (first
    | assumption | intro _ | apply Chip.done_canon | apply Chip.onCore_canon | apply ite_canon)

theorem Chip.waitEnd_canon (a0 : Core) (a1 : Chip) (h1 : a1.canon) : (Chip.waitEnd a0 a1).canon := by
  unfold Chip.waitEnd; with_reducible repeat' (first
    | assumption | intro _ | apply Chip.when_canon | apply Chip.wr_canon | apply Chip.onCore_canon | apply ite_canon |
      apply ite_canon2 | apply ite_canon3 | refine snd_of (by assumption) ?_ | refine thd_of (by assumption) ?_ | split |
      dsimp only)

theorem Chip.debugHalt_canon (a0 : Core) (a1 : Chip) (h1 : a1.canon) : (Chip.debugHalt a0 a1).canon := by
  unfold Chip.debugHalt; with_reducible repeat' (first
    | assumption | intro _ | apply Chip.onCore_canon | apply Chip.waitEnd_canon | apply Chip.sb_canon | apply ite_canon |
      apply ite_canon2 | apply ite_canon3 | refine snd_of (by assumption) ?_ | refine thd_of (by assumption) ?_ | split |
      dsimp only)

theorem Chip.effect_canon (a0 : Core) (a1 : YOp) (a2 : Chip) (h2 : a2.canon) : (Chip.effect a0 a1 a2).canon := by
  unfold Chip.effect; with_reducible repeat' (first
    | assumption | intro _ | apply Chip.done_canon | apply Chip.doLoad_canon | apply Chip.doStore_canon
    | apply Chip.doXchg_canon | apply Chip.branch_canon | apply Chip.callm_canon | apply Chip.retm_canon | apply Chip.sev_canon
    | apply Chip.wfe_canon | apply Chip.waituntil_canon | apply Chip.trap_canon | apply Chip.eret_canon
    | apply Chip.debugHalt_canon | apply Chip.store_canon | apply ite_canon | refine snd_of (by assumption) ?_
    | refine thd_of (by assumption) ?_ | split)

theorem Chip.execOp_canon (a0 : Core) (a1 : BitVec 3) (a2 : Option YOp) (a3 : Chip) (h3 : a3.canon) :
    (Chip.execOp a0 a1 a2 a3).canon := by
  unfold Chip.execOp; with_reducible repeat' (first
    | assumption | apply Chip.trap_canon | apply Chip.effect_canon | apply Chip.done_canon | apply ite_canon
    | refine snd_of (by assumption) ?_ | refine thd_of (by assumption) ?_ | split)

theorem Chip.romCode_canon (a0 : Core) (a1 d : Chip) (h1 : a1.canon) (e : Chip.romCode a0 a1 = some d) : d.canon := by
  unfold Chip.romCode at e; dsimp only at e
  split at e
  · cases e
  split at e
  · cases e; exact Chip.unpark_canon _ _ h1
  split at e
  · cases e; exact Chip.wfe_canon _ _ (Chip.onCore_canon _ _ _ (Chip.romScratch_canon _ _ h1))
  · cases e

theorem Chip.issue_canon (a0 : Core) (a1 : BitVec 3) (a2 : Bool) (a3 : YOp) (a4 : Chip) (h4 : a4.canon) : (Chip.issue a0 a1
  a2 a3 a4).canon := by
  unfold Chip.issue; with_reducible repeat' (first
    | assumption | intro _ | apply Chip.fetch_canon | apply Chip.trap_canon | apply Chip.execOp_canon |
      refine Chip.romCode_canon _ _ _ ?_ (by assumption) | apply ite_canon | apply ite_canon2 | apply ite_canon3 |
      refine snd_of (by assumption) ?_ | refine thd_of (by assumption) ?_ | split | dsimp only)

theorem Chip.wake_canon (a0 : Core) (a1 : Option (BitVec 8)) (a2 : Chip) (h2 : a2.canon) : (Chip.wake a0 a1 a2).canon := by
  unfold Chip.wake; with_reducible repeat' (first
    | assumption | intro _ | apply Chip.when_canon | apply Chip.parkOn_canon | apply Chip.onCore_canon | apply ite_canon |
      apply ite_canon2 | apply ite_canon3 | refine snd_of (by assumption) ?_ | refine thd_of (by assumption) ?_ | split |
      dsimp only)

theorem Chip.waitMatch_canon (a0 : Core) (a1 : Chip) (h1 : a1.canon) : (Chip.waitMatch a0 a1).canon := by
  unfold Chip.waitMatch; with_reducible repeat' (first
    | assumption | intro _ | apply Chip.done_canon | apply Chip.setPos_canon | apply ite_canon
    | refine snd_of (by assumption) ?_ | refine thd_of (by assumption) ?_ | split)

theorem Chip.onSession_canon (a0 : Fin 8) (a1 : Session → Session) (a2 : Chip) (h2 : a2.canon) :
    (Chip.onSession a0 a1 a2).canon := by
  unfold Chip.onSession; with_reducible repeat' (first | assumption | intro _ | apply Chip.onTirba_canon)

theorem Chip.onFront_canon (a0 : Ring) (a1 : Cmd → Cmd) (a2 : Chip) (h2 : a2.canon) : (Chip.onFront a0 a1 a2).canon := by
  unfold Chip.onFront; with_reducible repeat' (first | assumption | intro _ | apply Chip.onRing_canon)

theorem Chip.closeFailed_canon (a0 : Cmd) (a1 : Chip) (h1 : a1.canon) : (Chip.closeFailed a0 a1).canon := by
  unfold Chip.closeFailed; with_reducible repeat' (first
    | assumption | intro _ | apply Chip.onTirba_canon | apply Chip.onRing_canon | apply forEach_canon | apply ite_canon
    | refine snd_of (by assumption) ?_ | refine thd_of (by assumption) ?_ | split)

theorem Chip.faultEntry_canon (a0 : Chip) (h0 : a0.canon) : (Chip.faultEntry a0).canon := by
  unfold Chip.faultEntry; with_reducible repeat' (first | assumption | apply Chip.fresh_canon | apply Chip.journal_canon)

theorem Chip.endFront_canon (a0 : Ring) (a1 : Nat) (a2 : Nat) (a3 : List Byte) (a4 : Option Bool) (a5 : Chip)
    (h5 : a5.canon) : (Chip.endFront a0 a1 a2 a3 a4 a5).canon := by
  unfold Chip.endFront; with_reducible repeat' (first
    | assumption | intro _ | apply Chip.onRing_canon | apply Chip.closeFailed_canon | apply Chip.faultEntry_canon
    | apply Chip.resetDone_canon | apply Chip.countFlight_canon | apply Chip.reply_canon | apply ite_canon
    | refine snd_of (by assumption) ?_ | refine thd_of (by assumption) ?_ | split)

theorem Chip.settle_canon (a0 : Nat) (a1 : Chip) (h1 : a1.canon) : (Chip.settle a0 a1).canon := by
  fun_induction Chip.settle a0 a1 <;> with_reducible repeat' (first
    | assumption | intro _ | apply_assumption | apply Chip.endFront_canon)

theorem Chip.settleAll_canon (a0 : Chip) (h0 : a0.canon) : (Chip.settleAll a0).canon := by
  unfold Chip.settleAll; with_reducible repeat' (first | assumption | apply Chip.settle_canon)

theorem Chip.endCmd_canon (a0 : Ring) (a1 : Nat) (a2 : Nat) (a3 : List Byte) (a4 : Chip) (h4 : a4.canon) :
    (Chip.endCmd a0 a1 a2 a3 a4).canon := by
  unfold Chip.endCmd; with_reducible repeat' (first | assumption | apply Chip.settleAll_canon | apply Chip.endFront_canon)

theorem Chip.consume_canon (a0 : Ring) (a1 : List Byte) (a2 : Nat) (a3 : Option (Nat × Nat)) (a4 : Chip) (h4 : a4.canon) :
    (Chip.consume a0 a1 a2 a3 a4).canon := by
  unfold Chip.consume; with_reducible repeat' (first
    | assumption | intro _ | apply Chip.onSession_canon | apply Chip.onTirba_canon | apply Chip.wf_canon
    | apply Chip.settleAll_canon | apply Chip.countFlight_canon | apply Chip.onRing_canon | apply ite_canon
    | refine snd_of (by assumption) ?_ | refine thd_of (by assumption) ?_ | split)

theorem Chip.lengthRange_canon (a0 : Ring) (a1 : List Byte) (a2 : Chip) (h2 : a2.canon) : (Chip.lengthRange a0 a1 a2).canon := by
  unfold Chip.lengthRange; with_reducible repeat' (first
    | assumption | apply Chip.consume_canon | apply Chip.mbxErr_canon | apply Chip.fray_canon)

theorem Chip.hostFetch_canon (a0 : Ring) (a1 : Chip) (h1 : a1.canon) : (Chip.hostFetch a0 a1).canon := by
  unfold Chip.hostFetch; with_reducible repeat' (first
    | assumption | intro _ | apply Chip.onTirba_canon | apply Chip.bmStart_canon | apply Chip.lengthRange_canon
    | apply Chip.consume_canon | apply ite_canon | refine snd_of (by assumption) ?_ | refine thd_of (by assumption) ?_ | split
    | apply canon_mk
    | (apply regsOk; first
      | assumption | apply Chip.onTirba_canon | apply Chip.bmStart_canon | apply Chip.lengthRange_canon
      | apply Chip.consume_canon)
    | (apply memOk; first
      | assumption | apply Chip.onTirba_canon | apply Chip.bmStart_canon | apply Chip.lengthRange_canon
      | apply Chip.consume_canon))

theorem Chip.ringReadFail_canon (a0 : Ring) (a1 : Chip) (h1 : a1.canon) : (Chip.ringReadFail a0 a1).canon := by
  unfold Chip.ringReadFail; with_reducible repeat' (first
    | assumption | intro _ | apply Chip.mbxErr_canon | apply Chip.fray_canon | apply Chip.onRing_canon)

theorem Chip.readSlots_canon (a0 : Ring) (a1 : List Nat) (a2 : Chip) (h2 : a2.canon) : (Chip.readSlots a0 a1 a2).2.canon := by
  fun_induction Chip.readSlots a0 a1 a2 <;> with_reducible repeat' (first
    | assumption | apply_assumption | apply Chip.vRead_canon | apply ite_canon | apply ite_canon2 | apply ite_canon3
    | refine snd_of (by assumption) ?_ | refine thd_of (by assumption) ?_)

theorem Chip.vellumFetch_canon (a0 : Ring) (a1 : Chip) (h1 : a1.canon) : (Chip.vellumFetch a0 a1).canon := by
  unfold Chip.vellumFetch; with_reducible repeat' (first
    | assumption | intro _ | apply Chip.readSlots_canon | apply Chip.ringReadFail_canon | apply Chip.lengthRange_canon
    | apply Chip.consume_canon | apply ite_canon | refine snd_of (by assumption) ?_ | refine thd_of (by assumption) ?_ | split
    | dsimp only)

theorem Chip.checkRings_canon (a0 : Chip) (h0 : a0.canon) : (Chip.checkRings a0).canon := by
  unfold Chip.checkRings; with_reducible repeat' (first | assumption | intro _ | apply Chip.ringCheck_canon | apply forEach_canon)

theorem Chip.serve_canon (a0 : Chip) (h0 : a0.canon) : (Chip.serve a0).canon := by
  unfold Chip.serve; with_reducible repeat' (first
    | assumption | apply Chip.storeSnd_canon | apply Chip.sb_canon | apply Chip.wr_canon | apply ite_canon)

theorem Chip.wantDone_canon (a0 : Nat × Nat) (a1 : Chip) (h1 : a1.canon) : (Chip.wantDone a0 a1).canon := by
  unfold Chip.wantDone; with_reducible repeat' (first
    | assumption | intro _ | apply ite_canon | apply ite_canon2 | apply ite_canon3 | refine snd_of (by assumption) ?_ |
      refine thd_of (by assumption) ?_ | split | apply canon_mk
    | (apply regsOk; first | assumption | apply ite_canon)
    | (apply memOk; first | assumption | apply ite_canon)
    | dsimp only)

theorem Chip.darnFailed_canon (a0 : Nat × Nat) (a1 : Chip) (h1 : a1.canon) : (Chip.darnFailed a0 a1).canon := by
  unfold Chip.darnFailed; with_reducible repeat' (first
    | assumption | intro _ | apply Chip.wantDone_canon | apply Chip.journal_canon | apply Chip.storeDrnCopy_canon |
      apply Chip.storeEyePage_canon | apply Chip.storeVlm_canon | apply Chip.storeSndPage_canon | apply ite_canon |
      apply ite_canon2 | apply ite_canon3 | refine snd_of (by assumption) ?_ | refine thd_of (by assumption) ?_ | split |
      dsimp only)

theorem Chip.darnService_canon (a0 : Chip) (h0 : a0.canon) : (Chip.darnService a0).canon := by
  unfold Chip.darnService; with_reducible repeat' (first
    | assumption | intro _ | apply Chip.darnFailed_canon | refine forEach_canon ?_ ?_ | apply ite_canon | apply ite_canon2 |
      apply ite_canon3 | refine snd_of (by assumption) ?_ | refine thd_of (by assumption) ?_ | split | dsimp only)

theorem Chip.fetchDescriptor_canon (a0 : Chip) (h0 : a0.canon) : (Chip.fetchDescriptor a0).canon := by
  unfold Chip.fetchDescriptor; with_reducible repeat' (first
    | assumption | intro _ | apply Chip.darnService_canon | apply Chip.serve_canon | apply Chip.checkRings_canon |
      apply Chip.hostFetch_canon | apply Chip.vellumFetch_canon | apply ite_canon | apply ite_canon2 | apply ite_canon3 |
      refine snd_of (by assumption) ?_ | refine thd_of (by assumption) ?_ | split | dsimp only)

theorem Chip.putSlot_canon (a0 : Bool) (a1 : Nat) (a2 : List (Option Byte)) (a3 : Chip) (h3 : a3.canon) : (Chip.putSlot a0 a1
  a2 a3).canon := by
  unfold Chip.putSlot; with_reducible repeat' (first
    | assumption | intro _ | apply Chip.emit_canon | apply Chip.hostVWrite_canon | apply ite_canon | apply ite_canon2 |
      apply ite_canon3 | refine snd_of (by assumption) ?_ | refine thd_of (by assumption) ?_ | split | dsimp only)

theorem Chip.putCompletion_canon (a0 : Bool) (a1 : Nat) (a2 : Reply) (a3 : Bool) (a4 : Chip) (h4 : a4.canon) :
  (Chip.putCompletion a0 a1 a2 a3 a4).canon := by
  unfold Chip.putCompletion; with_reducible repeat' (first
    | assumption | intro _ | apply Chip.putSlot_canon | apply ite_canon | apply ite_canon2 | apply ite_canon3 |
      refine snd_of (by assumption) ?_ | refine thd_of (by assumption) ?_ | split | dsimp only)

theorem Chip.notify_canon (a0 : Ring) (a1 : Chip) (h1 : a1.canon) : (Chip.notify a0 a1).canon := by
  unfold Chip.notify; with_reducible repeat' (first
    | assumption | apply Chip.setRingBit_canon | apply Chip.msiSet_canon | apply ite_canon)

theorem Chip.freeze_canon (a0 : Bool) (a1 : Chip) (h1 : a1.canon) : (Chip.freeze a0 a1).canon := by
  unfold Chip.freeze; with_reducible repeat' (first | assumption | intro _ | apply Chip.onTirba_canon)

theorem Chip.post_canon (a0 : Ring) (a1 : Chip) (h1 : a1.canon) : (Chip.post a0 a1).canon := by
  unfold Chip.post; with_reducible repeat' (first
    | assumption | intro _ | apply Chip.putCompletion_canon | apply Chip.wb_canon | apply Chip.wf_canon |
      apply Chip.when_canon | apply Chip.notify_canon | apply Chip.countFlight_canon | apply Chip.onRing_canon |
      apply Chip.freeze_canon | apply ite_canon | apply ite_canon2 | apply ite_canon3 | refine snd_of (by assumption) ?_ |
      refine thd_of (by assumption) ?_ | split | dsimp only)

theorem Chip.toStage_canon (a0 : Ring) (a1 : Nat) (a2 : List Nat) (a3 : Chip) (h3 : a3.canon) :
    (Chip.toStage a0 a1 a2 a3).canon := by
  unfold Chip.toStage; with_reducible repeat' (first | assumption | intro _ | apply Chip.onFront_canon)

theorem Chip.ok_canon (a0 : List Byte) (a1 : Chip) (h1 : a1.canon) : (Chip.ok a0 a1).2.canon := by
  unfold Chip.ok; with_reducible repeat' (first | assumption)

theorem Chip.no_canon (a0 : Nat) (a1 : Nat) (a2 : Chip) (h2 : a2.canon) : (Chip.no a0 a1 a2).2.canon := by
  unfold Chip.no; with_reducible repeat' (first | assumption)

theorem Chip.finish_canon (a0 : Ring) (a1 : Ans) (h1 : a1.2.canon) : (Chip.finish a0 a1).canon := by
  exact Chip.endCmd_canon _ _ _ _ _ h1

theorem Chip.once_canon (a0 : Ring) (a1 : Nat) (a2 : Cmd → Bool) (a3 : Cmd → Chip → Ans) (a4 : Chip) (h3 : ∀ x0 x1, x1.canon →
    (a3 x0 x1).2.canon) (h4 : a4.canon) : (Chip.once a0 a1 a2 a3 a4).canon := by
  unfold Chip.once; with_reducible repeat' (first
    | assumption | apply h3 | apply Chip.finish_canon | refine snd_of (by assumption) ?_ | refine thd_of (by assumption) ?_
    | split)

theorem Chip.askPayload_canon (a0 : Ring) (a1 : Cmd) (a2 : Nat) (a3 : Chip) (h3 : a3.canon) :
    (Chip.askPayload a0 a1 a2 a3).canon := by
  unfold Chip.askPayload; with_reducible repeat' (first | assumption | apply Chip.bmStart_canon | apply ite_canon)

theorem Chip.payloadThen_canon (a0 : Ring) (a1 : Nat) (a2 : Cmd → Chip → Option (Nat × Nat))
    (a3 : Cmd → List Byte → Chip → Chip) (a4 : Chip) (h3 : ∀ x0 x1 x2, x2.canon → (a3 x0 x1 x2).canon) (h4 : a4.canon) :
    (Chip.payloadThen a0 a1 a2 a3 a4).canon := by
  unfold Chip.payloadThen; with_reducible repeat' (first
    | assumption | intro _ | apply h3 | apply Chip.endCmd_canon | apply Chip.onFront_canon | apply Chip.askPayload_canon
    | apply Chip.vRead_canon | apply ite_canon | apply ite_canon2 | apply ite_canon3 | refine snd_of (by assumption) ?_
    | refine thd_of (by assumption) ?_ | split)

theorem Chip.withPayload_canon (a0 : Ring) (a1 : Nat) (a2 : Cmd → Chip → Option (Nat × Nat))
    (a3 : Cmd → List Byte → Chip → Ans) (a4 : Chip) (h3 : ∀ x0 x1 x2, x2.canon → (a3 x0 x1 x2).2.canon) (h4 : a4.canon) :
    (Chip.withPayload a0 a1 a2 a3 a4).canon := by
  unfold Chip.withPayload; with_reducible repeat' (first
    | assumption | intro _ | apply h3 | apply Chip.payloadThen_canon | apply Chip.finish_canon)

theorem Chip.writeRef_canon (a0 : Cmd) (a1 : List Byte) (a2 : Chip) (h2 : a2.canon) : (Chip.writeRef a0 a1 a2).canon := by
  unfold Chip.writeRef; with_reducible repeat' (first
    | assumption | intro _ | apply Chip.bmWrite_canon | apply Chip.vWrite_canon | apply ite_canon | apply ite_canon2 |
      apply ite_canon3 | refine snd_of (by assumption) ?_ | refine thd_of (by assumption) ?_ | split | dsimp only)

theorem Chip.sessionJoin_canon (a0 : Ring) (a1 : Fin 8) (a2 : List Nat) (a3 : Chip) (h3 : a3.canon) : (Chip.sessionJoin a0 a1
  a2 a3).canon := by
  unfold Chip.sessionJoin; with_reducible repeat' (first
    | assumption | intro _ | apply Chip.onSession_canon | apply Chip.onRing_canon | refine forEach_canon ?_ ?_ |
      apply ite_canon | apply ite_canon2 | apply ite_canon3 | refine snd_of (by assumption) ?_ |
      refine thd_of (by assumption) ?_ | split | dsimp only)

theorem Chip.sessionOpen_canon (a0 : Ring) (a1 : Cmd) (a2 : Chip) (h2 : a2.canon) : (Chip.sessionOpen a0 a1 a2).2.canon := by
  unfold Chip.sessionOpen; with_reducible repeat' (first
    | assumption | intro _ | apply Chip.no_canon | apply Chip.sessionJoin_canon | apply Chip.onTirba_canon |
      apply Chip.ok_canon | apply ite_canon | apply ite_canon2 | apply ite_canon3 | refine snd_of (by assumption) ?_ |
      refine thd_of (by assumption) ?_ | split | dsimp only)

theorem Chip.sessionClose_canon (a0 : Ring) (a1 : Chip) (h1 : a1.canon) : (Chip.sessionClose a0 a1).2.canon := by
  unfold Chip.sessionClose; with_reducible repeat' (first
    | assumption | intro _ | apply Chip.no_canon | apply Chip.ok_canon | apply Chip.onTirba_canon
    | refine snd_of (by assumption) ?_ | refine thd_of (by assumption) ?_ | split)

theorem Chip.ringStatus_canon (a0 : Ring) (a1 : Cmd) (a2 : Chip) (h2 : a2.canon) : (Chip.ringStatus a0 a1 a2).2.canon := by
  unfold Chip.ringStatus; with_reducible repeat' (first
    | assumption | intro _ | apply Chip.no_canon | apply Chip.ok_canon | apply forEach_canon | apply ite_canon
    | apply ite_canon2 | apply ite_canon3 | refine snd_of (by assumption) ?_ | refine thd_of (by assumption) ?_ | split
    | apply canon_mk
    | (apply regsOk; first
      | assumption | apply Chip.no_canon | apply Chip.ok_canon | apply forEach_canon | apply ite_canon)
    | (apply memOk; first
      | assumption | apply Chip.no_canon | apply Chip.ok_canon | apply forEach_canon | apply ite_canon)
    | dsimp only)

theorem Chip.paramQuery_canon (a0 : Cmd) (a1 : Chip) (h1 : a1.canon) : (Chip.paramQuery a0 a1).2.canon := by
  unfold Chip.paramQuery; with_reducible repeat' (first
    | assumption | apply Chip.ok_canon | apply Chip.no_canon | refine snd_of (by assumption) ?_
    | refine thd_of (by assumption) ?_ | split)

theorem Chip.deadline_canon (a0 : Ring) (a1 : Chip) (h1 : a1.canon) : (Chip.deadline a0 a1).canon := by
  unfold Chip.deadline; with_reducible repeat' (first
    | assumption | intro _ | apply Chip.endCmd_canon | apply Chip.onTirba_canon | apply ite_canon
    | refine snd_of (by assumption) ?_ | refine thd_of (by assumption) ?_ | split)

theorem Chip.ringGot_canon (a0 : Ring) (a1 : Option (List Byte)) (a2 : Chip) (h2 : a2.canon) : (Chip.ringGot a0 a1 a2).canon
  := by
  unfold Chip.ringGot; with_reducible repeat' (first
    | assumption | intro _ | apply Chip.ringReadFail_canon | apply Chip.onRing_canon | apply Chip.when_canon |
      apply Chip.hostFetch_canon | apply ite_canon | apply ite_canon2 | apply ite_canon3 | refine snd_of (by assumption) ?_ |
      refine thd_of (by assumption) ?_ | split | dsimp only)

theorem Chip.payloadGot_canon (a0 : Ring) (a1 : List Byte) (a2 : Bool) (a3 : Chip) (h3 : a3.canon) :
    (Chip.payloadGot a0 a1 a2 a3).canon := by
  unfold Chip.payloadGot; with_reducible repeat' (first | assumption | intro _ | apply Chip.onFront_canon)

theorem Chip.bmEnd_canon (a0 : BmRead) (a1 : Bool) (a2 : Chip) (h2 : a2.canon) : (Chip.bmEnd a0 a1 a2).canon := by
  unfold Chip.bmEnd; with_reducible repeat' (first
    | assumption | apply Chip.ringGot_canon | apply Chip.payloadGot_canon | apply Chip.bobHostDone_canon | apply ite_canon
    | refine snd_of (by assumption) ?_ | refine thd_of (by assumption) ?_ | split)

theorem Chip.bmData_canon (a0 : Nat) (a1 : Option (List Byte)) (a2 : Chip) (h2 : a2.canon) : (Chip.bmData a0 a1 a2).canon := by
  unfold Chip.bmData; with_reducible repeat' (first
    | assumption | intro _ | apply Chip.onTirba_canon | apply Chip.bmEnd_canon | apply ite_canon
    | refine snd_of (by assumption) ?_ | refine thd_of (by assumption) ?_ | split)

theorem Chip.dbgCapture_canon (a0 : Chip) (h0 : a0.canon) : (Chip.dbgCapture a0).canon := by
  unfold Chip.dbgCapture; with_reducible repeat' (first | assumption | apply Chip.emit_canon | apply Chip.setIr_canon)

theorem Chip.dbgEnd_canon (a0 : Bool) (a1 : Chip) (h1 : a1.canon) : (Chip.dbgEnd a0 a1).canon := by
  unfold Chip.dbgEnd; with_reducible repeat' (first | assumption | intro _ | apply Chip.fresh_canon | apply Chip.onDbg_canon)

theorem Chip.dbgData_canon (a0 : Word) (a1 : Chip) (h1 : a1.canon) : (Chip.dbgData a0 a1).canon := by
  unfold Chip.dbgData; with_reducible repeat' (first | assumption | intro _ | apply Chip.onDbg_canon)

theorem Chip.dbgCmd_canon (a0 : Core) (a1 : Bool) (a2 : Chip → Chip) (a3 : Chip) (h2 : ∀ x0, x0.canon → (a2 x0).canon)
    (h3 : a3.canon) : (Chip.dbgCmd a0 a1 a2 a3).canon := by
  unfold Chip.dbgCmd; with_reducible repeat' (first
    | assumption | apply h2 | apply Chip.dbgCapture_canon | apply Chip.dbgEnd_canon | apply ite_canon)

theorem Chip.dbgHaltCore_canon (a0 : Core) (a1 : Chip) (h1 : a1.canon) : (Chip.dbgHaltCore a0 a1).canon := by
  unfold Chip.dbgHaltCore; with_reducible repeat' (first
    | assumption | apply Chip.dbgEnd_canon | apply Chip.debugHalt_canon | apply ite_canon)

theorem Chip.dbgResumeCore_canon (a0 : Core) (a1 : Chip) (h1 : a1.canon) : (Chip.dbgResumeCore a0 a1).canon := by
  unfold Chip.dbgResumeCore; with_reducible repeat' (first
    | assumption | intro _ | apply Chip.dbgEnd_canon | apply Chip.when_canon | apply Chip.parkOn_canon |
      apply Chip.onCore_canon | apply ite_canon | apply ite_canon2 | apply ite_canon3 | refine snd_of (by assumption) ?_ |
      refine thd_of (by assumption) ?_ | split | dsimp only)

theorem Chip.dbgStepCore_canon (a0 : Core) (a1 : Chip) (h1 : a1.canon) : (Chip.dbgStepCore a0 a1).canon := by
  unfold Chip.dbgStepCore; with_reducible repeat' (first
    | assumption | intro _ | apply Chip.fetch_canon | apply Chip.trap_canon | apply Chip.execOp_canon |
      apply Chip.dbgEnd_canon | apply Chip.when_canon | apply Chip.waitEnd_canon | refine Chip.romCode_canon _ _ _ ?_ (by
      assumption) | apply ite_canon | apply ite_canon2 | apply ite_canon3 | refine snd_of (by assumption) ?_ |
      refine thd_of (by assumption) ?_ | split | dsimp only)

theorem Chip.dbgReadG_canon (a0 : Core) (a1 : Word) (a2 : Chip) (h2 : a2.canon) : (Chip.dbgReadG a0 a1 a2).canon := by
  unfold Chip.dbgReadG; with_reducible repeat' (first
    | assumption | intro _ | apply Chip.dbgData_canon | apply Chip.dbgEnd_canon | apply forEach_canon | apply ite_canon
    | apply ite_canon2 | apply ite_canon3 | refine snd_of (by assumption) ?_ | refine thd_of (by assumption) ?_ | split)

theorem Chip.dbgWriteG_canon (a0 : Core) (a1 : Word) (a2 : Word) (a3 : Chip) (h3 : a3.canon) :
    (Chip.dbgWriteG a0 a1 a2 a3).canon := by
  unfold Chip.dbgWriteG; with_reducible repeat' (first
    | assumption | intro _ | apply Chip.dbgEnd_canon | apply Chip.onCore_canon | apply forEach_canon | apply ite_canon
    | apply ite_canon2 | apply ite_canon3 | refine snd_of (by assumption) ?_ | refine thd_of (by assumption) ?_ | split)

theorem Chip.dbgLoadWord_canon (a0 : Core) (a1 : Word) (a2 : Chip) (h2 : a2.canon) : (Chip.dbgLoadWord a0 a1 a2).canon := by
  unfold Chip.dbgLoadWord; with_reducible repeat' (first
    | assumption | apply Chip.dbgEnd_canon | apply Chip.loadTgt_canon | apply Chip.dbgData_canon | apply Chip.ok_canon
    | refine snd_of (by assumption) ?_ | refine thd_of (by assumption) ?_ | split)

theorem Chip.dbgStoreWord_canon (a0 : Core) (a1 : Word) (a2 : Word) (a3 : Chip) (h3 : a3.canon) :
    (Chip.dbgStoreWord a0 a1 a2 a3).canon := by
  unfold Chip.dbgStoreWord; with_reducible repeat' (first
    | assumption | apply Chip.dbgEnd_canon | apply Chip.storeTgt_canon | apply Chip.ok_canon | refine snd_of (by assumption) ?_
    | refine thd_of (by assumption) ?_ | split)

theorem Chip.checked_canon (a0 : List (Bool × Nat × Nat)) (a1 : Chip) (a2 : Chip → Ans) (h1 : a1.canon) (h2 : ∀ x0, x0.canon →
    (a2 x0).2.canon) : (Chip.checked a0 a1 a2).2.canon := by
  unfold Chip.checked; with_reducible repeat' (first
    | assumption | apply h2 | apply Chip.no_canon | refine snd_of (by assumption) ?_ | refine thd_of (by assumption) ?_ | split)

theorem Chip.copyVellum_canon (a0 : Cmd) (a1 : Chip) (h1 : a1.canon) : (Chip.copyVellum a0 a1).2.canon := by
  unfold Chip.copyVellum; with_reducible repeat' (first
    | assumption | apply Chip.vRead_canon | apply Chip.fresh_canon | apply Chip.vWrite_canon | apply Chip.no_canon
    | apply Chip.ok_canon | apply ite_canon | apply ite_canon2)

theorem Chip.blockCopy_canon (a0 : Ring) (a1 : Chip) (h1 : a1.canon) : (Chip.blockCopy a0 a1).canon := by
  unfold Chip.blockCopy; with_reducible repeat' (first
    | assumption | intro _ | apply Chip.endCmd_canon | apply Chip.onFront_canon | apply Chip.askPayload_canon
    | apply Chip.finish_canon | apply Chip.copyVellum_canon | apply Chip.vWrite_canon | apply ite_canon
    | refine snd_of (by assumption) ?_ | refine thd_of (by assumption) ?_ | split)

theorem Chip.blockFill_canon (a0 : Cmd) (a1 : Chip) (h1 : a1.canon) : (Chip.blockFill a0 a1).2.canon := by
  unfold Chip.blockFill; with_reducible repeat' (first
    | assumption | intro _ | apply Chip.checked_canon | apply Chip.ok_canon | apply Chip.vWrite_canon)

theorem Chip.putPlane_canon (a0 : PlaneRec) (a1 : Chip) (h1 : a1.canon) : (Chip.putPlane a0 a1).canon := by
  unfold Chip.putPlane; with_reducible repeat' (first | assumption | intro _ | apply Chip.storeGnd_canon | apply forEach_canon)

theorem Chip.planeSet_canon (a0 : Cmd) (a1 : Chip) (h1 : a1.canon) : (Chip.planeSet a0 a1).2.canon := by
  unfold Chip.planeSet; with_reducible repeat' (first
    | assumption | intro _ | apply Chip.checked_canon | apply Chip.ok_canon | apply Chip.putPlane_canon | apply forEach_canon)

theorem Chip.motifConfig_canon (a0 : Cmd) (a1 : Chip) (h1 : a1.canon) : (Chip.motifConfig a0 a1).2.canon := by
  unfold Chip.motifConfig; with_reducible repeat' (first
    | assumption | intro _ | apply Chip.checked_canon | apply Chip.ok_canon | apply Chip.storeMtf_canon)

theorem Chip.windowSet_canon (a0 : Cmd) (a1 : Chip) (h1 : a1.canon) : (Chip.windowSet a0 a1).2.canon := by
  unfold Chip.windowSet; with_reducible repeat' (first
    | assumption | intro _ | apply Chip.checked_canon | apply Chip.ok_canon | apply Chip.storeEyePage_canon)

theorem Chip.layerOrder_canon (a0 : Cmd) (a1 : Chip) (h1 : a1.canon) : (Chip.layerOrder a0 a1).2.canon := by
  unfold Chip.layerOrder; with_reducible repeat' (first
    | assumption | intro _ | apply Chip.checked_canon | apply Chip.storeApq_canon | apply Chip.ok_canon | apply forEach_canon)

theorem Chip.spalPut_canon (a0 : Beam) (a1 : Nat) (a2 : Word) (a3 : Chip) (h3 : a3.canon) : (Chip.spalPut a0 a1 a2 a3).canon := by
  unfold Chip.spalPut; with_reducible repeat' (first
    | assumption | apply Chip.hold_canon | apply Chip.spalWrite_canon | apply ite_canon)

theorem Chip.paletteLoad_canon (a0 : Cmd) (a1 : List Byte) (a2 : Chip) (h2 : a2.canon) : (Chip.paletteLoad a0 a1 a2).2.canon := by
  unfold Chip.paletteLoad; with_reducible repeat' (first
    | assumption | intro _ | apply Chip.ok_canon | apply Chip.spalPut_canon | apply forEach_canon)

theorem Chip.beamFirst_canon (a0 : Beam) (a1 : Chip) (h1 : a1.canon) : (Chip.beamFirst a0 a1).canon := by
  unfold Chip.beamFirst; with_reducible repeat' (first
    | assumption | intro _ | apply Chip.onTirba_canon | apply Chip.storeBmo_canon | apply Chip.storePrk_canon | apply ite_canon)

theorem Chip.commitAsk_canon (a0 : Beam) (a1 : Chip) (h1 : a1.canon) : (Chip.commitAsk a0 a1).2.canon := by
  unfold Chip.commitAsk; with_reducible repeat' (first | assumption | apply Chip.commitReq_canon)

theorem Chip.commitCmd_canon (a0 : Ring) (a1 : Chip) (h1 : a1.canon) : (Chip.commitCmd a0 a1).canon := by
  unfold Chip.commitCmd; with_reducible repeat' (first
    | assumption | intro _ | apply Chip.endCmd_canon | apply Chip.commitAsk_canon | apply Chip.toStage_canon
    | apply Chip.beamFirst_canon | apply Chip.frame_canon | apply forEach_canon | apply ite_canon | apply ite_canon2
    | apply ite_canon3 | refine snd_of (by assumption) ?_ | refine thd_of (by assumption) ?_ | split)

theorem Chip.sigRegionSet_canon (a0 : Cmd) (a1 : Chip) (h1 : a1.canon) : (Chip.sigRegionSet a0 a1).2.canon := by
  unfold Chip.sigRegionSet; with_reducible repeat' (first
    | assumption | intro _ | apply Chip.checked_canon | apply Chip.ok_canon | apply Chip.storeApq_canon)

theorem Chip.sigRead_canon (a0 : Ring) (a1 : Chip) (h1 : a1.canon) : (Chip.sigRead a0 a1).canon := by
  unfold Chip.sigRead; with_reducible repeat' (first
    | assumption | apply Chip.endCmd_canon | apply Chip.toStage_canon | apply Chip.writeRef_canon | apply Chip.frame_canon
    | apply Chip.uncertain_canon | apply ite_canon | refine snd_of (by assumption) ?_ | refine thd_of (by assumption) ?_ | split
    | dsimp only)

theorem Chip.loadCoefs_canon (a0 : Port) (a1 : Nat) (a2 : Nat) (a3 : Nat) (a4 : Chip) (h4 : a4.canon) :
    (Chip.loadCoefs a0 a1 a2 a3 a4).canon := by
  unfold Chip.loadCoefs; with_reducible repeat' (first
    | assumption | intro _ | apply forEach_canon | apply canon_mk | (apply regsOk; first | assumption)
    | (apply memOk; first | assumption))

theorem Chip.portConfig_canon (a0 : Cmd) (a1 : Chip) (h1 : a1.canon) : (Chip.portConfig a0 a1).2.canon := by
  unfold Chip.portConfig; with_reducible repeat' (first
    | assumption | intro _ | apply Chip.checked_canon | apply Chip.storeEyePage_canon | apply Chip.loadCoefs_canon
    | apply Chip.storePrk_canon | apply Chip.ok_canon | apply Chip.onTirba_canon | apply forEach_canon)

theorem Chip.portStart_canon (a0 : Cmd) (a1 : Chip) (h1 : a1.canon) : (Chip.portStart a0 a1).2.canon := by
  unfold Chip.portStart; with_reducible repeat' (first
    | assumption | intro _ | apply Chip.no_canon | apply Chip.ok_canon | apply Chip.storeEyePage_canon | apply ite_canon
    | apply ite_canon2 | apply ite_canon3 | refine snd_of (by assumption) ?_ | refine thd_of (by assumption) ?_ | split
    | dsimp only)

theorem Chip.portStop_canon (a0 : Ring) (a1 : Chip) (h1 : a1.canon) : (Chip.portStop a0 a1).canon := by
  unfold Chip.portStop; with_reducible repeat' (first
    | assumption | intro _ | apply Chip.endCmd_canon | apply Chip.storeEyePage_canon | apply Chip.toStage_canon |
      apply Chip.eyeAbort_canon | apply ite_canon | apply ite_canon2 | apply ite_canon3 | refine snd_of (by assumption) ?_ |
      refine thd_of (by assumption) ?_ | split | dsimp only)

theorem Chip.portPolicy_canon (a0 : Cmd) (a1 : Chip) (h1 : a1.canon) : (Chip.portPolicy a0 a1).2.canon := by
  unfold Chip.portPolicy; with_reducible repeat' (first
    | assumption | intro _ | apply Chip.checked_canon | apply Chip.onEye_canon | apply Chip.ok_canon
    | apply Chip.policyTake_canon | apply ite_canon)

theorem Chip.portStatus_canon (a0 : Cmd) (a1 : Chip) (h1 : a1.canon) : (Chip.portStatus a0 a1).2.canon := by
  unfold Chip.portStatus; with_reducible repeat' (first
    | assumption | apply Chip.no_canon | apply Chip.ok_canon | apply Chip.readEye_canon | apply ite_canon | apply ite_canon2)

theorem Chip.i2cTransfer_canon (a0 : Ring) (a1 : Chip) (h1 : a1.canon) : (Chip.i2cTransfer a0 a1).canon := by
  unfold Chip.i2cTransfer; with_reducible repeat' (first
    | assumption | intro _ | apply Chip.endCmd_canon | apply Chip.storeSer_canon | apply Chip.toStage_canon
    | apply forEach_canon | apply ite_canon | refine snd_of (by assumption) ?_ | refine thd_of (by assumption) ?_ | split)

theorem Chip.voicePlay_canon (a0 : Cmd) (a1 : Chip) (h1 : a1.canon) : (Chip.voicePlay a0 a1).2.canon := by
  unfold Chip.voicePlay; with_reducible repeat' (first
    | assumption | intro _ | apply Chip.checked_canon | apply Chip.store_canon | apply Chip.voiceGain_canon
    | apply Chip.ok_canon | apply Chip.voiceCtrl_canon | apply forEach_canon)

theorem Chip.voiceAct_canon (a0 : Cmd) (a1 : Bool) (a2 : Bool) (a3 : Nat → Chip → Chip) (a4 : Chip) (h3 : ∀ x0 x1, x1.canon →
    (a3 x0 x1).canon) (h4 : a4.canon) : (Chip.voiceAct a0 a1 a2 a3 a4).2.canon := by
  unfold Chip.voiceAct; with_reducible repeat' (first
    | assumption | intro _ | apply h3 | apply Chip.checked_canon | apply Chip.ok_canon)

theorem Chip.busConfig_canon (a0 : Cmd) (a1 : List Byte) (a2 : Chip) (h2 : a2.canon) : (Chip.busConfig a0 a1 a2).2.canon := by
  unfold Chip.busConfig; with_reducible repeat' (first
    | assumption | apply Chip.storeSnd_canon | apply Chip.vWrite_canon | apply Chip.ok_canon | apply ite_canon
    | apply ite_canon2)

theorem Chip.audioPort_canon (a0 : Cmd) (a1 : Chip) (h1 : a1.canon) : (Chip.audioPort a0 a1).2.canon := by
  unfold Chip.audioPort; with_reducible repeat' (first
    | assumption | intro _ | apply Chip.checked_canon | apply Chip.storeAud_canon | apply Chip.ok_canon | apply ite_canon)

theorem Chip.putProgram_canon (a0 : RasterSt) (a1 : Core) (a2 : Chip) (h2 : a2.canon) : (Chip.putProgram a0 a1 a2).canon := by
  unfold Chip.putProgram; with_reducible repeat' (first | assumption | apply Chip.memWrite_canon)

theorem Chip.putRegions_canon (a0 : Core) (a1 : Core) (a2 : Chip) (h2 : a2.canon) : (Chip.putRegions a0 a1 a2).canon := by
  unfold Chip.putRegions; with_reducible repeat' (first
    | assumption | intro _ | apply Chip.storeYlx_canon | apply Chip.wb_canon | refine forEach_canon ?_ ?_ | apply ite_canon |
      apply ite_canon2 | apply ite_canon3 | refine snd_of (by assumption) ?_ | refine thd_of (by assumption) ?_ | split |
      dsimp only)

theorem Chip.startProgram_canon (a0 : Core) (a1 : Core) (a2 : List Word) (a3 : Chip) (h3 : a3.canon) :
    (Chip.startProgram a0 a1 a2 a3).canon := by
  unfold Chip.startProgram; with_reducible repeat' (first
    | assumption | intro _ | apply Chip.coreRelease_canon | apply Chip.putRegions_canon | apply Chip.fresh_canon
    | apply Chip.wdgKick_canon | apply Chip.storeYlx_canon | apply Chip.wr_canon | apply Chip.onCore_canon
    | apply Chip.onRaster_canon | apply Chip.pulse_canon | apply ite_canon)

theorem Chip.rasterLoad_canon (a0 : Cmd) (a1 : List Byte) (a2 : Chip) (h2 : a2.canon) : (Chip.rasterLoad a0 a1 a2).2.canon := by
  unfold Chip.rasterLoad; with_reducible repeat' (first
    | assumption | intro _ | apply Chip.checked_canon | apply Chip.no_canon | apply Chip.putRegions_canon
    | apply Chip.putProgram_canon | apply Chip.onRaster_canon | apply Chip.when_canon | apply Chip.startProgram_canon
    | apply Chip.ok_canon | apply ite_canon | apply ite_canon2 | apply ite_canon3 | refine snd_of (by assumption) ?_
    | refine thd_of (by assumption) ?_ | split)

theorem Chip.adoptEnd_canon (a0 : Chip) (h0 : a0.canon) : (Chip.adoptEnd a0).canon := by
  unfold Chip.adoptEnd; with_reducible repeat' (first
    | assumption | intro _ | apply Chip.journal_canon | apply Chip.onTirba_canon | refine snd_of (by assumption) ?_
    | refine thd_of (by assumption) ?_ | split)

theorem Chip.toStub_canon (a0 : Core) (a1 : Chip) (h1 : a1.canon) : (Chip.toStub a0 a1).canon := by
  unfold Chip.toStub; with_reducible repeat' (first
    | assumption | intro _ | apply Chip.storeYlx_canon | apply Chip.onCore_canon | apply Chip.coreRestart_canon)

theorem Chip.stopProgram_canon (a0 : Core) (a1 : Chip) (h1 : a1.canon) : (Chip.stopProgram a0 a1).canon := by
  unfold Chip.stopProgram; with_reducible repeat' (first
    | assumption | intro _ | apply Chip.toStub_canon | apply Chip.onRaster_canon | apply Chip.when_canon
    | apply Chip.adoptEnd_canon | apply ite_canon | refine snd_of (by assumption) ?_ | refine thd_of (by assumption) ?_ | split)

theorem Chip.rasterStop_canon (a0 : Cmd) (a1 : Chip) (h1 : a1.canon) : (Chip.rasterStop a0 a1).2.canon := by
  unfold Chip.rasterStop; with_reducible repeat' (first
    | assumption | intro _ | apply Chip.checked_canon | apply Chip.ok_canon | apply Chip.stopProgram_canon)

theorem Chip.rasterStart_canon (a0 : Cmd) (a1 : Chip) (h1 : a1.canon) : (Chip.rasterStart a0 a1).2.canon := by
  unfold Chip.rasterStart; with_reducible repeat' (first
    | assumption | intro _ | apply Chip.checked_canon | apply Chip.no_canon | apply Chip.startProgram_canon
    | apply Chip.ok_canon | apply Chip.onTirba_canon | apply ite_canon | apply ite_canon2 | apply ite_canon3
    | refine snd_of (by assumption) ?_ | refine thd_of (by assumption) ?_ | split)

theorem Chip.rasterStatus_canon (a0 : Cmd) (a1 : Chip) (h1 : a1.canon) : (Chip.rasterStatus a0 a1).2.canon := by
  unfold Chip.rasterStatus; with_reducible repeat' (first | assumption | intro _ | apply Chip.checked_canon | apply Chip.ok_canon)

theorem Chip.onDrn_canon (a0 : DrnSt → DrnSt) (a1 : Chip) (h1 : a1.canon) : (Chip.onDrn a0 a1).canon := by
  unfold Chip.onDrn; with_reducible repeat' (first
    | assumption | apply canon_mk | (apply regsOk; first | assumption) | (apply memOk; first | assumption))

theorem Chip.clearFault_canon (a0 : Core) (a1 : Chip) (h1 : a1.canon) : (Chip.clearFault a0 a1).canon := by
  unfold Chip.clearFault; with_reducible repeat' (first | assumption | apply Chip.wb_canon)

theorem Chip.selfTest_canon (a0 : Core) (a1 : Bool) (a2 : Chip) (h2 : a2.canon) : (Chip.selfTest a0 a1 a2).canon := by
  unfold Chip.selfTest; with_reducible repeat' (first
    | assumption | intro _ | apply Chip.clearFault_canon | apply Chip.toStub_canon | apply Chip.onDrn_canon | apply ite_canon)

theorem Chip.adoptCore_canon (a0 : Core) (a1 : BitVec 64) (a2 : Chip) (h2 : a2.canon) : (Chip.adoptCore a0 a1 a2).canon := by
  unfold Chip.adoptCore; with_reducible repeat' (first
    | assumption | intro _ | apply Chip.onDrn_canon | apply Chip.coreHold_canon | apply Chip.journal_canon
    | apply Chip.darned_canon | apply Chip.onTirba_canon | apply Chip.putRegions_canon | apply Chip.putProgram_canon
    | apply Chip.onRaster_canon | apply ite_canon | refine snd_of (by assumption) ?_ | refine thd_of (by assumption) ?_ | split)

theorem Chip.adoption_canon (a0 : Core) (a1 : Chip) (h1 : a1.canon) : (Chip.adoption a0 a1).canon := by
  unfold Chip.adoption; with_reducible repeat' (first | assumption | apply Chip.adoptCore_canon | apply ite_canon)

theorem Chip.adoptStart_canon (a0 : Chip) (h0 : a0.canon) : (Chip.adoptStart a0).canon := by
  unfold Chip.adoptStart; with_reducible repeat' (first
    | assumption | intro _ | apply Chip.onTirba_canon | apply Chip.startProgram_canon | apply ite_canon
    | refine snd_of (by assumption) ?_ | refine thd_of (by assumption) ?_ | split)

theorem Chip.core7Fault_canon (a0 : Chip) (h0 : a0.canon) : (Chip.core7Fault a0).canon := by
  unfold Chip.core7Fault; with_reducible repeat' (first
    | assumption | intro _ | apply Chip.adoptEnd_canon | apply Chip.onTirba_canon | apply Chip.clearFault_canon
    | apply Chip.coreHold_canon | apply ite_canon)

theorem Chip.core0Restart_canon (a0 : Chip) (h0 : a0.canon) : (Chip.core0Restart a0).canon := by
  unfold Chip.core0Restart; with_reducible repeat' (first
    | assumption | intro _ | apply Chip.clearFault_canon | apply Chip.coreRestart_canon | apply Chip.wr_canon
    | apply Chip.wb_canon | apply Chip.onCore_canon | apply Chip.onTirba_canon | apply Chip.journal_canon
    | apply Chip.onDrn_canon | apply Chip.countFlight_canon | apply ite_canon)

theorem Chip.applyEntry_canon (a0 : Nat) (a1 : Chip) (h1 : a1.canon) : (Chip.applyEntry a0 a1).canon := by
  unfold Chip.applyEntry; with_reducible repeat' (first
    | assumption | apply Chip.copyNoCopy_canon | apply Chip.wf_canon | apply Chip.sliceServe_canon | apply Chip.sliceMark_canon
    | apply Chip.sb_canon | apply ite_canon | refine snd_of (by assumption) ?_ | refine thd_of (by assumption) ?_ | split)

theorem Chip.tirbaStart_canon (a0 : Chip) (h0 : a0.canon) : (Chip.tirbaStart a0).canon := by
  unfold Chip.tirbaStart; with_reducible repeat' (first
    | assumption | intro _ | apply Chip.storeVlm_canon | apply Chip.applyEntry_canon | apply Chip.when_canon
    | apply Chip.storeBmo_canon | apply Chip.onTirba_canon | apply forEach_canon | apply ite_canon)

theorem Chip.telemetry_canon (a0 : Telemetry) (a1 : Chip) (h1 : a1.canon) : (Chip.telemetry a0 a1).2.canon := by
  unfold Chip.telemetry; with_reducible repeat' (first | assumption | apply Chip.ok_canon)

theorem Chip.supplyConfig_canon (a0 : Cmd) (a1 : Chip) (h1 : a1.canon) : (Chip.supplyConfig a0 a1).2.canon := by
  unfold Chip.supplyConfig; with_reducible repeat' (first
    | assumption | intro _ | apply Chip.checked_canon | apply Chip.storeLtn_canon | apply Chip.ok_canon
    | apply Chip.storeSndPage_canon)

theorem Chip.chargerConfig_canon (a0 : Cmd) (a1 : Chip) (h1 : a1.canon) : (Chip.chargerConfig a0 a1).2.canon := by
  unfold Chip.chargerConfig; with_reducible repeat' (first
    | assumption | intro _ | apply Chip.checked_canon | apply Chip.storeEmb_canon | apply Chip.ok_canon)

theorem Chip.darnStatus_canon (a0 : Chip) (h0 : a0.canon) : (Chip.darnStatus a0).2.canon := by
  unfold Chip.darnStatus; with_reducible repeat' (first | assumption | apply Chip.ok_canon)

theorem Chip.noSpare_canon (a0 : Ring) (a1 : Nat) (a2 : Chip) (h2 : a2.canon) : (Chip.noSpare a0 a1 a2).canon := by
  unfold Chip.noSpare; with_reducible repeat' (first | assumption | apply Chip.endCmd_canon | apply Chip.journal_canon)

theorem Chip.darnBank_canon (a0 : Ring) (a1 : Nat) (a2 : Chip) (h2 : a2.canon) : (Chip.darnBank a0 a1 a2).canon := by
  unfold Chip.darnBank; with_reducible repeat' (first
    | assumption | apply Chip.noSpare_canon | apply Chip.toStage_canon | apply Chip.storeDrnCopy_canon
    | refine snd_of (by assumption) ?_ | refine thd_of (by assumption) ?_ | split)

theorem Chip.darnBegin_canon (a0 : Ring) (a1 : Nat) (a2 : Nat) (a3 : Chip) (h3 : a3.canon) :
    (Chip.darnBegin a0 a1 a2 a3).canon := by
  unfold Chip.darnBegin; with_reducible repeat' (first
    | assumption | apply Chip.endCmd_canon | apply Chip.toStage_canon | apply Chip.darnBank_canon | apply Chip.noSpare_canon
    | apply Chip.storeEyePage_canon | apply Chip.storeVlm_canon | apply Chip.storeSndPage_canon | apply Chip.ltnIsolate_canon
    | apply Chip.adoptCore_canon | apply ite_canon | refine snd_of (by assumption) ?_ | refine thd_of (by assumption) ?_ | split)

theorem Chip.darnWait_canon (a0 : Ring) (a1 : Nat) (a2 : Nat) (a3 : Cmd) (a4 : Chip) (h4 : a4.canon) :
    (Chip.darnWait a0 a1 a2 a3 a4).canon := by
  unfold Chip.darnWait; with_reducible repeat' (first
    | assumption | intro _ | apply Chip.endCmd_canon | apply Chip.darnBank_canon | apply ite_canon
    | refine snd_of (by assumption) ?_ | refine thd_of (by assumption) ?_ | split)

theorem Chip.darnRequest_canon (a0 : Ring) (a1 : Chip) (h1 : a1.canon) : (Chip.darnRequest a0 a1).canon := by
  unfold Chip.darnRequest; with_reducible repeat' (first
    | assumption | apply Chip.endCmd_canon | apply Chip.darnBegin_canon | apply Chip.darnWait_canon | apply ite_canon
    | refine snd_of (by assumption) ?_ | refine thd_of (by assumption) ?_ | split)

theorem Chip.holdMark_canon (a0 : Beam) (a1 : Bool) (a2 : Chip) (h2 : a2.canon) : (Chip.holdMark a0 a1 a2).canon := by
  unfold Chip.holdMark; with_reducible repeat' (first
    | assumption | intro _ | apply Chip.fresh_canon | apply Chip.onEmb_canon | apply Chip.wr_canon | apply forEach_canon)

theorem Chip.glassEnter_canon (a0 : Ring) (a1 : Chip) (h1 : a1.canon) : (Chip.glassEnter a0 a1).canon := by
  unfold Chip.glassEnter; with_reducible repeat' (first
    | assumption | intro _ | apply Chip.endCmd_canon | apply Chip.toStage_canon | apply Chip.holdEnter_canon
    | apply Chip.holdMark_canon | apply forEach_canon | apply ite_canon | refine snd_of (by assumption) ?_
    | refine thd_of (by assumption) ?_ | split)

theorem Chip.glassRelease_canon (a0 : Ring) (a1 : Chip) (h1 : a1.canon) : (Chip.glassRelease a0 a1).canon := by
  unfold Chip.glassRelease; with_reducible repeat' (first
    | assumption | intro _ | apply Chip.endCmd_canon | apply Chip.toStage_canon | apply Chip.holdMark_canon
    | apply Chip.holdRelease_canon | apply forEach_canon | apply ite_canon | refine snd_of (by assumption) ?_
    | refine thd_of (by assumption) ?_ | split)

theorem Chip.glassAdopt_canon (a0 : Cmd) (a1 : Chip) (h1 : a1.canon) : (Chip.glassAdopt a0 a1).2.canon := by
  unfold Chip.glassAdopt; with_reducible repeat' (first
    | assumption | intro _ | apply Chip.checked_canon | apply Chip.ok_canon | apply Chip.holdMark_canon | apply Chip.wb_canon
    | apply forEach_canon)

theorem Chip.deviceReset_canon (a0 : Ring) (a1 : Cmd → Bool) (a2 : Chip) (h2 : a2.canon) : (Chip.deviceReset a0 a1 a2).canon := by
  unfold Chip.deviceReset; with_reducible repeat' (first
    | assumption | apply Chip.endCmd_canon | apply Chip.settleAll_canon | apply Chip.endFront_canon
    | refine snd_of (by assumption) ?_ | refine thd_of (by assumption) ?_ | split)

theorem Chip.fwImage_canon (a0 : Ring) (a1 : Cmd) (a2 : List Byte) (a3 : Chip) (h3 : a3.canon) : (Chip.fwImage a0 a1 a2
  a3).canon := by
  unfold Chip.fwImage; with_reducible repeat' (first
    | assumption | intro _ | apply Chip.endCmd_canon | apply Chip.onFront_canon | apply Chip.emit_canon | apply ite_canon |
      apply ite_canon2 | apply ite_canon3 | refine snd_of (by assumption) ?_ | refine thd_of (by assumption) ?_ | split |
      dsimp only)

theorem Chip.fwWrite_canon (a0 : Ring) (a1 : Bool) (a2 : Cmd) (a3 : Chip) (h3 : a3.canon) : (Chip.fwWrite a0 a1 a2 a3).canon
  := by
  unfold Chip.fwWrite; with_reducible repeat' (first
    | assumption | intro _ | apply Chip.endCmd_canon | apply Chip.toStage_canon | apply Chip.emit_canon | apply ite_canon |
      apply ite_canon2 | apply ite_canon3 | refine snd_of (by assumption) ?_ | refine thd_of (by assumption) ?_ | split |
      dsimp only)

theorem Chip.fwStage_canon (a0 : Ring) (a1 : Bool) (a2 : Chip) (h2 : a2.canon) : (Chip.fwStage a0 a1 a2).canon := by
  unfold Chip.fwStage; with_reducible repeat' (first
    | assumption | intro _ | apply Chip.fwWrite_canon | apply Chip.payloadThen_canon | apply Chip.fwImage_canon |
      apply ite_canon | apply ite_canon2 | apply ite_canon3 | refine snd_of (by assumption) ?_ |
      refine thd_of (by assumption) ?_ | split | dsimp only)

theorem Chip.fwPass_canon (a0 : List Byte) (a1 : List Byte) (a2 : Chip) (h2 : a2.canon) : (Chip.fwPass a0 a1 a2).canon := by
  unfold Chip.fwPass; with_reducible repeat' (first
    | assumption | intro _ | apply Chip.memWrite_canon | apply Chip.onCore_canon | apply ite_canon | apply ite_canon2 |
      apply ite_canon3 | refine snd_of (by assumption) ?_ | refine thd_of (by assumption) ?_ | split | dsimp only)

theorem Chip.core0Go_canon (a0 : Word) (a1 : Chip) (h1 : a1.canon) : (Chip.core0Go a0 a1).canon := by
  unfold Chip.core0Go; with_reducible repeat' (first
    | assumption | intro _ | apply Chip.onCore_canon | apply Chip.coreRelease_canon | apply Chip.wr_canon)

theorem Chip.fwCopy_canon (a0 : Nat) (a1 : Chip) (h1 : a1.canon) : (Chip.fwCopy a0 a1).2.canon := by
  unfold Chip.fwCopy; with_reducible repeat' (first
    | assumption | intro _ | apply Chip.vRead_canon | apply Chip.copyIn_canon | apply ite_canon | apply ite_canon2 |
      apply ite_canon3 | refine snd_of (by assumption) ?_ | refine thd_of (by assumption) ?_ | split | dsimp only)

theorem Chip.fwSwitch_canon (a0 : Ring) (a1 : Cmd) (a2 : Bool) (a3 : Chip) (h3 : a3.canon) : (Chip.fwSwitch a0 a1 a2
  a3).canon := by
  unfold Chip.fwSwitch; with_reducible repeat' (first
    | assumption | intro _ | apply Chip.fwPass_canon | apply Chip.fwCopy_canon | apply Chip.coreHold_canon |
      apply Chip.onTirba_canon | apply Chip.endCmd_canon | apply Chip.core0Go_canon | apply Chip.faultEntry_canon |
      apply ite_canon | apply ite_canon2 | apply ite_canon3 | refine snd_of (by assumption) ?_ |
      refine thd_of (by assumption) ?_ | split | dsimp only)

theorem Chip.fwBuffers_canon (a0 : Ring) (a1 : FlashSlot) (a2 : Chip) (h2 : a2.canon) : (Chip.fwBuffers a0 a1 a2).canon := by
  unfold Chip.fwBuffers; with_reducible repeat' (first
    | assumption | intro _ | apply Chip.vWrite_canon | apply Chip.onRing_canon | apply ite_canon | apply ite_canon2 |
      apply ite_canon3 | refine snd_of (by assumption) ?_ | refine thd_of (by assumption) ?_ | split | dsimp only)

theorem Chip.fwActivate_canon (a0 : Ring) (a1 : FlashSlot) (a2 : Bool) (a3 : Chip) (h3 : a3.canon) : (Chip.fwActivate a0 a1
  a2 a3).canon := by
  unfold Chip.fwActivate; with_reducible repeat' (first
    | assumption | intro _ | apply Chip.endCmd_canon | apply Chip.flashHeader_canon | apply Chip.fwBuffers_canon |
      apply Chip.emit_canon | apply Chip.fwSwitch_canon | apply ite_canon | apply ite_canon2 | apply ite_canon3 |
      refine snd_of (by assumption) ?_ | refine thd_of (by assumption) ?_ | split | dsimp only)

theorem Chip.fwInfo_canon (a0 : Chip) (h0 : a0.canon) : (Chip.fwInfo a0).2.canon := by
  unfold Chip.fwInfo; with_reducible repeat' (first | assumption | apply Chip.ok_canon)

theorem Chip.lcyStatus_canon (a0 : Chip) (h0 : a0.canon) : (Chip.lcyStatus a0).2.canon := by
  unfold Chip.lcyStatus; with_reducible repeat' (first | assumption | apply Chip.ok_canon)

theorem Chip.lcyDone_canon (a0 : Ring) (a1 : Chip) (h1 : a1.canon) : (Chip.lcyDone a0 a1).canon := by
  unfold Chip.lcyDone; with_reducible repeat' (first | assumption | apply Chip.endCmd_canon)

theorem Chip.lcyRecord_canon (a0 : Ring) (a1 : Bool) (a2 : Cmd) (a3 : List Byte) (a4 : Chip) (h4 : a4.canon) :
    (Chip.lcyRecord a0 a1 a2 a3 a4).canon := by
  unfold Chip.lcyRecord; with_reducible repeat' (first
    | assumption | apply Chip.endCmd_canon | apply Chip.lcyGo_canon | apply Chip.vWrite_canon | apply Chip.toStage_canon
    | apply Chip.lcyDone_canon | apply ite_canon)

theorem Chip.lcyAdvance_canon (a0 : Ring) (a1 : Bool) (a2 : Chip) (h2 : a2.canon) : (Chip.lcyAdvance a0 a1 a2).canon := by
  unfold Chip.lcyAdvance; with_reducible repeat' (first
    | assumption | intro _ | apply Chip.lcyDone_canon | apply Chip.payloadThen_canon | apply Chip.lcyRecord_canon
    | apply ite_canon | refine snd_of (by assumption) ?_ | refine thd_of (by assumption) ?_ | split)

theorem Chip.journalAt_canon (a0 : Nat) (a1 : Chip) (h1 : a1.canon) : (Chip.journalAt a0 a1).2.canon := by
  unfold Chip.journalAt; with_reducible repeat' (first | assumption | apply Chip.vRead_canon)

theorem Chip.journalRead_canon (a0 : List Nat) (a1 : Chip) (h1 : a1.canon) : (Chip.journalRead a0 a1).2.canon := by
  fun_induction Chip.journalRead a0 a1 <;> with_reducible repeat' (first
    | assumption | apply_assumption | apply Chip.journalAt_canon | refine snd_of (by assumption) ?_)

theorem Chip.logRead_canon (a0 : Cmd) (a1 : Chip) (h1 : a1.canon) : (Chip.logRead a0 a1).2.canon := by
  unfold Chip.logRead; with_reducible repeat' (first
    | assumption | intro _ | apply Chip.checked_canon | apply Chip.journalRead_canon | apply Chip.no_canon | apply Chip.ok_canon
    | apply Chip.writeRef_canon | apply ite_canon | apply ite_canon2)

theorem Chip.tick_canon (a0 : Chip) (h0 : a0.canon) : (Chip.tick a0).canon := by
  unfold Chip.tick; with_reducible repeat' (first
    | assumption | apply Chip.dueReset_canon | apply Chip.wdgTick_canon | apply Chip.timerTick_canon)

end Sys2Proof.Machine
end

