-- ==== Sys2Proof/Laws/Timers.lean ====
section
/-! SUPPORT. What counting and timer events keep: the time counter, the LP stepper's state, and what says that the tick is lost. -/

namespace Sys2Proof.Machine

/-- Two chips agree on the time counter, the LP stepper and what the loss of the tick is read from (R549, R550). -/
def SameTime (c d : Chip) : Prop :=
  d.time = c.time ∧ d.tmr.lp = c.tmr.lp ∧ d.tmr.acc = c.tmr.acc ∧ d.rd R.AON_PWR = c.rd R.AON_PWR ∧ d.rd R.TMR_FREEZE = c.rd R.TMR_FREEZE ∧
    ∀ n, d.core n = c.core n

theorem SameTime.refl (c : Chip) : SameTime c c := ⟨rfl, rfl, rfl, rfl, rfl, fun _ => rfl⟩

theorem SameTime.trans {a b c : Chip} (h : SameTime a b) (k : SameTime b c) : SameTime a c :=
  ⟨k.1.trans h.1, k.2.1.trans h.2.1, k.2.2.1.trans h.2.2.1, k.2.2.2.1.trans h.2.2.2.1, k.2.2.2.2.1.trans h.2.2.2.2.1,
    fun n => (k.2.2.2.2.2 n).trans (h.2.2.2.2.2 n)⟩

/-- The tick is lost in one exactly where it is in the other. -/
theorem SameTime.tickLost {c d : Chip} (h : SameTime c d) : d.tickLost = c.tickLost := by
  obtain ⟨_, _, _, hp, hf, hc⟩ := h
  unfold Chip.tickLost Chip.power Chip.rf Chip.rb
  rw [hp, hf]
  congr 2
  funext n
  rw [hc n]

/-- A write to another register than AON_PWR and TMR_FREEZE keeps them. -/
theorem sameTime_wr (c : Chip) (a : Nat) (v : Word) (h : a ≠ R.AON_PWR) (k : a ≠ R.TMR_FREEZE) : SameTime c (c.wr a v) :=
  ⟨rfl, rfl, rfl, c.rd_wr_ne _ _ _ h.symm, c.rd_wr_ne _ _ _ k.symm, fun _ => rfl⟩

theorem sameTime_setPre (c : Chip) (n : TmrCh) (v : Nat) : SameTime c (c.setPre n v) := ⟨rfl, rfl, rfl, rfl, rfl, fun _ => rfl⟩

theorem sameTime_late (c : Chip) (f : List (Nat × Nat) → List (Nat × Nat)) :
    SameTime c (c.onTmr fun t => { t with late := f t.late }) := ⟨rfl, rfl, rfl, rfl, rfl, fun _ => rfl⟩

theorem sameTime_stat (c : Chip) (n : TmrCh) (i : Nat) (b : Bool) : SameTime c (c.wb (R.TMR_STAT n) i b) :=
  sameTime_wr _ _ _ (by have := n.isLt; simp only [R.TMR_STAT, R.AON_PWR]; omega) (by simp only [R.TMR_STAT, R.TMR_FREEZE]; omega)

theorem sameTime_statIf (c : Chip) (n : TmrCh) (i : Nat) (b : Bool) : SameTime c (c.sbIf b (R.TMR_STAT n) i) := by
  cases b
  · exact .refl c
  · exact sameTime_stat c n i true

theorem sameTime_ctrl (c : Chip) (n : TmrCh) (i : Nat) (b : Bool) : SameTime c (c.wb (R.TMR_CTRL n) i b) :=
  sameTime_wr _ _ _ (by have := n.isLt; simp only [R.TMR_CTRL, R.AON_PWR]; omega) (by simp only [R.TMR_CTRL, R.TMR_FREEZE]; omega)

theorem sameTime_cnt (c : Chip) (n : TmrCh) (v : Word) : SameTime c (c.wr (R.TMR_CNT n) v) :=
  sameTime_wr _ _ _ (by have := n.isLt; simp only [R.TMR_CNT, R.AON_PWR]; omega) (by simp only [R.TMR_CNT, R.TMR_FREEZE]; omega)

/-- A one-shot channel stops, or not. -/
theorem sameTime_oneShot (c : Chip) (n : TmrCh) (b : Bool) :
    SameTime c (if b then (c.wb (R.TMR_CTRL n) 0 false).wb (R.TMR_STAT n) 3 false else c) := by
  cases b
  · exact .refl c
  · exact (sameTime_ctrl c n 0 false).trans (sameTime_stat _ n 3 false)

theorem sameTime_chStart (c : Chip) (n : TmrCh) : SameTime c (c.chStart n) :=
  ((sameTime_stat c n 4 false).trans (sameTime_stat _ n 3 true)).trans (sameTime_setPre _ n 0)

theorem sameTime_chTick (c : Chip) (n : TmrCh) : SameTime c (c.chTick n).2 := by
  simp only [Chip.chTick]
  exact (((sameTime_cnt c n _).trans (sameTime_statIf _ n 0 _)).trans (sameTime_statIf _ n 1 _)).trans (sameTime_oneShot _ n _)

theorem sameTime_chEvent (c : Chip) (n : TmrCh) (e : Nat) : SameTime c (c.chEvent n e).2 := by
  simp only [Chip.chEvent]
  split
  · exact sameTime_chStart c n
  · split
    · exact sameTime_chTick c n
    · exact .refl c

theorem sameTime_cascade : ∀ (l : List TmrCh) (evs : List Nat) (c : Chip), SameTime c (Chip.cascade l evs c).2
  | [], _, c => .refl c
  | n :: t, evs, c => by
    simp only [Chip.cascade]
    split
    · exact (sameTime_chEvent c n _).trans (sameTime_cascade t _ _)
    · exact sameTime_cascade t _ _

theorem sameTime_request (c : Chip) (src sel : Nat) (u : Bool) (x : Option Nat) : SameTime c (c.request src sel u x) := by
  unfold Chip.request
  split
  · split
    · exact sameTime_wr c R.SYS_XING _ (by decide) (by decide)
    · exact ⟨rfl, rfl, rfl, rfl, rfl, fun _ => rfl⟩
  · exact ⟨rfl, rfl, rfl, rfl, rfl, fun _ => rfl⟩

theorem sameTime_tmrRequests (c : Chip) (evs : List Nat) : SameTime c (c.tmrRequests evs) :=
  forEach_keeps (SameTime c) _ _ _ (fun e d h => h.trans (sameTime_request d 1 e false (some 2))) (.refl c)

theorem sameTime_raiseTmr (c : Chip) (m : Int) (evs : List Nat) : SameTime c (c.raiseTmr m evs) := by
  simp only [Chip.raiseTmr]
  exact ((sameTime_cascade _ _ c).trans (sameTime_late _ fun l => l ++ _)).trans (sameTime_tmrRequests _ _)

theorem sameTime_lateEvent (c : Chip) (n e : Nat) : SameTime c (c.lateEvent n e) := by
  simp only [Chip.lateEvent]
  exact (sameTime_chEvent c _ e).trans (sameTime_raiseTmr _ _ _)

theorem sameTime_lateEvents (c : Chip) : SameTime c c.lateEvents :=
  forEach_keeps (SameTime c) _ _ _ (fun p d h => h.trans (sameTime_lateEvent d p.1 p.2)) (sameTime_late c fun _ => [])

theorem sameTime_chLpStep (c : Chip) (n : TmrCh) (k : Nat) : SameTime c (c.chLpStep n k).2 := by
  simp only [Chip.chLpStep]
  split
  · exact (((((sameTime_setPre c n _).trans (sameTime_cnt _ n _)).trans (sameTime_statIf _ n 2 _)).trans (sameTime_statIf _ n 0 _)).trans
      (sameTime_statIf _ n 1 _)).trans (sameTime_oneShot _ n _)
  · exact .refl c

theorem sameTime_lpChannels (k : Nat) : ∀ (l : List TmrCh) (evs : List Nat) (c : Chip), SameTime c (Chip.lpChannels k l evs c).2
  | [], _, c => .refl c
  | n :: t, evs, c => by
    simp only [Chip.lpChannels]
    split
    · exact ((sameTime_chLpStep c n k).trans (sameTime_chEvent _ n _)).trans (sameTime_lpChannels k t _ _)
    · exact (sameTime_chLpStep c n k).trans (sameTime_lpChannels k t _ _)

/-- Advancing the counters of both keeps the agreement. -/
theorem SameTime.add {c d : Chip} (h : SameTime c d) (k : BitVec 64) :
    SameTime { c with time := c.time + k } { d with time := d.time + k } := by
  obtain ⟨h1, h2, h3, h4, h5, h6⟩ := h
  refine ⟨?_, h2, h3, h4, h5, h6⟩
  show d.time + k = c.time + k
  rw [h1]

/-- A change of `passed` keeps the agreement. -/
theorem sameTime_passed (c : Chip) (b : Bool) : SameTime c (c.onTmr fun t => { t with passed := b }) := ⟨rfl, rfl, rfl, rfl, rfl, fun _ => rfl⟩

/-- A counter that wraps makes the compare value lie ahead again, or not. -/
theorem sameTime_unpassed (c : Chip) (p : Prop) [Decidable p] :
    SameTime c (if p then c.onTmr fun t => { t with passed := false } else c) := by
  split
  · exact sameTime_passed c false
  · exact .refl c

/-- The compare and the channels of an LP edge. -/
theorem sameTime_lpTail (k : Nat) (chs : List TmrCh) (f : Chip) (hit : Bool) :
    SameTime f (let c := if hit then (f.sb R.TMR_TSTAT 0).onTmr fun t => { t with passed := true } else f
      let (all, c) := Chip.lpChannels k chs (if hit then [32] else []) c
      (c.onTmr fun t => { t with late := t.late ++ c.deferred all }).tmrRequests all) := by
  have c1 : SameTime f (if hit then (f.sb R.TMR_TSTAT 0).onTmr fun t => { t with passed := true } else f) := by
    cases hit
    · exact .refl f
    · exact (sameTime_wr f R.TMR_TSTAT _ (by decide) (by decide)).trans (sameTime_passed _ true)
  generalize (if hit then (f.sb R.TMR_TSTAT 0).onTmr fun t => { t with passed := true } else f) = g at c1 ⊢
  have l := sameTime_lpChannels k chs (if hit then [32] else []) g
  show SameTime f (match Chip.lpChannels k chs (if hit then [32] else []) g with
    | (all, c) => (c.onTmr fun t => { t with late := t.late ++ c.deferred all }).tmrRequests all)
  generalize Chip.lpChannels k chs (if hit then [32] else []) g = r at l ⊢
  obtain ⟨all, d⟩ := r
  exact ((c1.trans l).trans (sameTime_late d fun l => l ++ d.deferred all)).trans (sameTime_tmrRequests _ _)

/-- An LP edge while the tick is lost, with the stepper in use, advances the accumulator and the counter only (R550). -/
theorem sameTime_lpStep (c : Chip) (h : c.tickLost = true) (hl : c.tmr.lp = true) (e : Chip)
    (he : (c.onTmr fun t => { t with lp := true, acc := (c.tmr.acc + 11) % 16 }) = e) (k : Nat)
    (hk : (if 16 ≤ c.tmr.acc + 11 then 2930 else 2929) = k) :
    SameTime { e with time := e.time + BitVec.ofNat 64 k } c.lpStep := by
  have a : SameTime e ((e.sb R.TMR_TSTAT 1).lateEvents) :=
    (sameTime_wr e R.TMR_TSTAT _ (by decide) (by decide)).trans (sameTime_lateEvents _)
  unfold Chip.lpStep
  rw [if_neg (by rw [h]; decide), hl, if_pos rfl]
  subst he hk
  generalize List.finRange 16 = chs
  refine (a.add _).trans (SameTime.trans ?_ (sameTime_lpTail _ chs _ _))
  exact sameTime_unpassed _ _

end Sys2Proof.Machine
end

