-- ==== Sys2Proof/Laws/Yelex.lean ====
section
/-! SUPPORT. What the issue of an instruction comes to: its effect, one step, or the UNDEF trap. -/

namespace Sys2Proof.Machine

/-- A defined instruction whose predicate holds has its effect (R171). -/
theorem Chip.issue_effect {c : Chip} {n : Core} {p : BitVec 3} {op : YOp} {w : Word} (hr : c.runs n = true)
    (hf : c.fetch n = (.ok w, c)) (hm : c.romCode n = none) (hp : c.predTrue n p = true) (ho : op.undef (c.inU n) = false) :
    c.issue n p false op = c.effect n op := by simp [Chip.issue, hr, hf, hm, Chip.execOp, ho, hp]

/-- A defined instruction whose predicate does not hold only steps on (R171). -/
theorem Chip.issue_step {c : Chip} {n : Core} {p : BitVec 3} {op : YOp} {w : Word} (hr : c.runs n = true)
    (hf : c.fetch n = (.ok w, c)) (hm : c.romCode n = none) (hp : c.predTrue n p = false) (ho : op.undef (c.inU n) = false) :
    c.issue n p false op = c.done n id := by simp [Chip.issue, hr, hf, hm, Chip.execOp, ho, hp]

/-- An undefined encoding traps whatever its predicate (R172). -/
theorem Chip.issue_undef {c : Chip} {n : Core} {p : BitVec 3} {u : Bool} {op : YOp} {w : Word} (hr : c.runs n = true)
    (hf : c.fetch n = (.ok w, c)) (hm : c.romCode n = none) (ho : (u || op.undef (c.inU n)) = true) : c.issue n p u op = c.trap n .undef none := by
  cases u <;> simp_all [Chip.issue, Chip.execOp]

/-- A core in U mode, or whose pc lies above the boot ROM's park window code, is not in the ROM's own code (R136). -/
theorem Chip.romCode_none {c : Chip} {n : Core} (h : (c.core n).mode ≠ .S ∨ parkRest.toNat < (c.core n).pc.toNat) :
    c.romCode n = none := by
  unfold Chip.romCode
  dsimp only
  split
  · rfl
  · rename_i hm
    have hp := h.resolve_left hm
    have w : parkWindow.toNat < parkRest.toNat := by decide
    rw [if_neg (fun e => by rw [e] at hp; exact absurd hp (Nat.lt_irrefl _)), if_neg (fun e => absurd e.2 (by omega))]

/-- A core that does not run issues nothing. -/
theorem Chip.issue_idle {c : Chip} {n : Core} {p : BitVec 3} {u : Bool} {op : YOp} (hr : c.runs n = false) :
    c.issue n p u op = c := by simp [Chip.issue, hr]

/-- A fetch that fails traps with its cause (R156). -/
theorem Chip.issue_fetch {c d : Chip} {n : Core} {p : BitVec 3} {u : Bool} {op : YOp} {e : Cause} (hr : c.runs n = true)
    (hf : c.fetch n = (.error e, d)) : c.issue n p u op = d.trap n e (some (c.core n).pc) := by simp [Chip.issue, hr, hf]

/-- An instruction that issues and whose encoding is defined has its effect (R171). -/
theorem Chip.issues_effect {c : Chip} {n : Core} {p : BitVec 3} {op : YOp} (h : c.issues n p) (ho : op.undef (c.inU n) = false) :
    c.issue n p false op = c.effect n op := by
  obtain ⟨hr, ⟨w, hf⟩, hm, hp⟩ := h
  exact Chip.issue_effect hr hf hm hp ho

/-! ### Loads and stores of local memory (R185, R186) -/

/-- A load of local memory that is not marked receives its bytes. -/
theorem Chip.loadTgt_lm {c : Chip} {n : Core} {who size m key : Nat} {a : Word} (h : c.lmBad key = false) :
    c.loadTgt n who size a (.lm m key) = (.ok (c.memLE key size), c) := by
  show (if c.lmBad key then _ else _) = _
  simp [h]

/-- A checked load of local memory. -/
theorem Chip.yLoad_lm {c : Chip} {n : Core} {size m key : Nat} {a : Word} (hc : c.accCheck n .r size a = .ok (.lm m key))
    (h : c.lmBad key = false) : c.yLoad n size a = (.ok (c.memLE key size), c) := by
  simp only [Chip.yLoad, hc, Chip.loadTgt_lm h]

/-- A store to local memory. -/
theorem Chip.storeTgt_lm (c : Chip) (n : Core) (user : Bool) (size m key : Nat) (a v : Word) :
    c.storeTgt n user size a v (.lm m key) = c.memWrite key (leBytes size v.toNat) := rfl

/-! ### Which operations are undefined (R167, R172, R182, R183, R195) -/

@[simp] theorem YOp.undef_alu (u : Bool) (f : Alu) (gd : GReg) (ga : GReg) (gb : GReg) : YOp.undef u (.alu f gd ga gb) = decide (gd = 15) := rfl
@[simp] theorem YOp.undef_alui (u : Bool) (f : Alu) (gd : GReg) (ga : GReg) (imm : Word) : YOp.undef u (.alui f gd ga imm) = decide (gd = 15) := rfl
@[simp] theorem YOp.undef_movi (u : Bool) (gd : GReg) (imm : BitVec 16) : YOp.undef u (.movi gd imm) = decide (gd = 15) := rfl
@[simp] theorem YOp.undef_movhi (u : Bool) (gd : GReg) (imm : BitVec 16) : YOp.undef u (.movhi gd imm) = decide (gd = 15) := rfl
@[simp] theorem YOp.undef_cmp (u : Bool) (cc : BitVec 3) (pd : BitVec 2) (ga : GReg) (gb : GReg) : YOp.undef u (.cmp cc pd ga gb) = (decide (cc = 7) || decide (pd = 0)) := rfl
@[simp] theorem YOp.undef_cmpi (u : Bool) (cc : BitVec 3) (pd : BitVec 2) (ga : GReg) (imm : BitVec 12) : YOp.undef u (.cmpi cc pd ga imm) = (decide (cc = 7) || decide (pd = 0)) := rfl
@[simp] theorem YOp.undef_plog (u : Bool) (fn : BitVec 3) (pd : BitVec 2) (pa : BitVec 2) (pb : BitVec 2) : YOp.undef u (.plog fn pd pa pb) = (decide (fn = 7) || decide (pd = 0)) := rfl
@[simp] theorem YOp.undef_getPred (u : Bool) (gd : GReg) : YOp.undef u (.getPred gd) = decide (gd = 15) := rfl
@[simp] theorem YOp.undef_setPred (u : Bool) (ga : GReg) : YOp.undef u (.setPred ga) = false := rfl
@[simp] theorem YOp.undef_getUsp (u : Bool) (gd : GReg) : YOp.undef u (.getUsp gd) = (u || decide (gd = 15)) := rfl
@[simp] theorem YOp.undef_setUsp (u : Bool) (ga : GReg) : YOp.undef u (.setUsp ga) = u := rfl
@[simp] theorem YOp.undef_load (u : Bool) (k : LoadKind) (gd : GReg) (ga : GReg) (imm : BitVec 15) : YOp.undef u (.load k gd ga imm) = decide (gd = 15) := rfl
@[simp] theorem YOp.undef_store (u : Bool) (z : Nat) (gs : GReg) (ga : GReg) (imm : BitVec 15) : YOp.undef u (.store z gs ga imm) = false := rfl
@[simp] theorem YOp.undef_xchg (u : Bool) (gd : GReg) (ga : GReg) : YOp.undef u (.xchg gd ga) = decide (gd = 15) := rfl
@[simp] theorem YOp.undef_br (u : Bool) (off : BitVec 23) : YOp.undef u (.br off) = false := rfl
@[simp] theorem YOp.undef_bl (u : Bool) (off : BitVec 23) : YOp.undef u (.bl off) = false := rfl
@[simp] theorem YOp.undef_jr (u : Bool) (ga : GReg) : YOp.undef u (.jr ga) = false := rfl
@[simp] theorem YOp.undef_jlr (u : Bool) (gd : GReg) (ga : GReg) : YOp.undef u (.jlr gd ga) = decide (gd = 15) := rfl
@[simp] theorem YOp.undef_callm (u : Bool) (ga : GReg) (mask : BitVec 13) : YOp.undef u (.callm ga mask) = false := rfl
@[simp] theorem YOp.undef_retm (u : Bool) (mask : BitVec 13) : YOp.undef u (.retm mask) = false := rfl
@[simp] theorem YOp.undef_sev (u : Bool) (mask : BitVec 8) : YOp.undef u (.sev mask) = false := rfl
@[simp] theorem YOp.undef_wfe (u : Bool) : YOp.undef u (.wfe) = false := rfl
@[simp] theorem YOp.undef_waituntil (u : Bool) (src : BitVec 2) (after : Bool) (gn : GReg) : YOp.undef u (.waituntil src after gn) = decide (src = 3) := rfl
@[simp] theorem YOp.undef_trap (u : Bool) (imm : BitVec 16) : YOp.undef u (.trap imm) = false := rfl
@[simp] theorem YOp.undef_eret (u : Bool) : YOp.undef u (.eret) = u := rfl
@[simp] theorem YOp.undef_brk (u : Bool) (imm : BitVec 16) : YOp.undef u (.brk imm) = false := rfl
@[simp] theorem YOp.undef_nop (u : Bool) : YOp.undef u (.nop) = false := rfl

end Sys2Proof.Machine
end

