-- ==== Sys2Proof/Tests/Slice0.lean ====
section
/-! SUPPORT. Tests: ill-formed commands that the check refuses, words of R170 decoded, single steps on small states, and for each
statement with hypotheses a state and operands that meet them. -/

namespace Sys2Proof.Tests

open Sys2Proof Sys2Proof.Machine

set_option Elab.async false

/-- The state after reset with some registers at other values. -/
def withRegs (l : List (Nat × Word)) : State := { State.reset with chip := { regs := l } }

/-! ### Ill-formed commands that the check refuses, one for each check -/

/-- A flash slot with headers and bodies of n and m bytes. -/
def slotSized (n m : Nat) : FlashSlot := { header := List.replicate n 0, body := List.replicate m 0, headerErr := false, bodyErr := false }

theorem test_wf_vellumWrite : (Instr.vellumWrite .core 0 0 (List.replicate 12 none)).wf = false ∧
    (Instr.vellumWrite .core 0 0 []).wf = false ∧ (Instr.vellumWrite .core 0 0 (List.replicate 72 none)).wf = false ∧
    (Instr.vellumWrite .core 0 0 (List.replicate 64 none)).wf = true := by decide
theorem test_wf_scrubSlotComplete : (Instr.scrubSlotComplete 0 [(256, .ce 1)]).wf = false ∧
    (Instr.scrubSlotComplete 0 [(255, .ce 1)]).wf = true := by decide
theorem test_wf_darnCopyGranule : (Instr.darnCopyGranule (List.replicate 9 none)).wf = false ∧
    (Instr.darnCopyGranule (List.replicate 8 none)).wf = true := by decide
theorem test_wf_adcSequenceEnd : (Instr.adcSequenceEnd (List.replicate 17 0)).wf = false ∧
    (Instr.adcSequenceEnd (List.replicate 16 0)).wf = true := by decide
theorem test_wf_lanternDecision : (Instr.lanternDecision 0 (List.replicate 15 (0, 0))).wf = false ∧
    (Instr.lanternDecision 0 (List.replicate 14 (0, 0))).wf = true := by decide
theorem test_wf_blindDetect : (Instr.blindDetect 0 0 0 (List.replicate 15 (0, 0))).wf = false := by decide
theorem test_wf_lcyOperationEnd : (Instr.lcyOperationEnd [(104, 0)]).wf = false ∧ (Instr.lcyOperationEnd [(0, 256)]).wf = false ∧
    (Instr.lcyOperationEnd [(103, 255)]).wf = true := by decide
theorem test_wf_dbgResp : (Instr.dbgResp (List.replicate 131 0)).wf = false ∧ (Instr.dbgResp (List.replicate 132 0)).wf = true := by
  decide +kernel
theorem test_wf_hostBar0Request : (Instr.hostBar0Request true 0 0 0 0).wf = false ∧ (Instr.hostBar0Request true 0 0 1025 0).wf = false ∧
    (Instr.hostBar0Request true 0 0 1024 0).wf = true := by decide
theorem test_wf_bar2Access : (Instr.bar2Access true 0x3FFFFFF [none, none]).wf = false ∧
    (Instr.bar2Access true 0x3FFFFFF [none]).wf = true := by decide
theorem test_wf_romBoot : (Instr.romBoot [] (slotSized 255 0) (slotSized 256 0)).wf = false ∧
    (Instr.romBoot [] (slotSized 256 0) (slotSized 257 0)).wf = false ∧ (Instr.romBoot [(104, 0)] (slotSized 256 0) (slotSized 256 0)).wf = false ∧
    (Instr.romBoot [] (slotSized 256 0) (slotSized 256 0)).wf = true := by decide +kernel
theorem test_wf_fwActivate : (Instr.fwActivate 0 (slotSized 255 0) false).wf = false ∧ (Instr.fwActivate 0 (slotSized 256 4) false).wf = true := by
  decide +kernel
theorem test_wf_busMasterCompletion : (Instr.busMasterCompletion 32 none).wf = false ∧
    (Instr.busMasterCompletion 0 (some (List.replicate 513 0))).wf = false ∧ (Instr.busMasterCompletion 31 none).wf = true := by decide +kernel
theorem test_wf_completionTimeout : (Instr.completionTimeout 32).wf = false ∧ (Instr.completionTimeout 31).wf = true := by decide

/-- A body, and a packet, one byte longer than the check allows: the length alone decides. -/
theorem test_wf_lengths (bs : List Byte) (h : bs.length = 65536) :
    (Instr.longPacket 0 0 0x24 false false bs []).wf = false ∧
    (Instr.fwActivate 0 { header := [], body := bs, headerErr := false, bodyErr := false } false).wf = false := by
  simp [Instr.wf, h]

/-! ### Words of the spec decoded: the program of 06_yelex_isa.md's worked pattern, and the CRC check values of 19_check_units.md -/

theorem test_decode_moves : decodeYelex 0x21023C00 = some (.movi 4 0x4780) ∧ decodeYelex 0x250004A8 = some (.movhi 4 0x0095) ∧
    decodeYelex 0x21400000 = some (.movi 5 0) ∧ decodeYelex 0x25400960 = some (.movhi 5 0x012C) := by decide +kernel
theorem test_decode_waits : decodeYelex 0xA8100000 = some (.waituntil 0 false 4) ∧
    decodeYelex 0xA8940000 = some (.waituntil 0 true 5) := by decide +kernel
theorem test_decode_stores : decodeYelex 0x60400000 = some (.store 4 1 0 0) ∧ decodeYelex 0x60800000 = some (.store 4 2 0 0) := by
  decide +kernel
theorem test_decode_branch : decodeYelex 0x83FFFFD8 = some (.br (BitVec.ofInt 23 (-5))) ∧ predOf 0x83FFFFD8 = 0 := by decide +kernel
theorem test_decode_undefined : decodeYelex 0x00000000 = none ∧ decodeYelex 0xFC000000 = none := by decide +kernel

/-- The bytes "123456789". -/
def digits : List Byte := [0x31, 0x32, 0x33, 0x34, 0x35, 0x36, 0x37, 0x38, 0x39]

theorem test_crc_check_values :
    chkResult { w := 16, poly := 0x1021, init := 0xFFFF, xorout := 0, refin := false, refout := false }
      (digits.foldl (chkByte { w := 16, poly := 0x1021, init := 0xFFFF, xorout := 0, refin := false, refout := false }) 0xFFFF) = 0x29B1 ∧
    chkResult { w := 32, poly := 0x04C11DB7, init := 0xFFFFFFFF, xorout := 0xFFFFFFFF, refin := true, refout := true }
      (digits.foldl (chkByte { w := 32, poly := 0x04C11DB7, init := 0xFFFFFFFF, xorout := 0xFFFFFFFF, refin := true, refout := true })
        0xFFFFFFFF) = 0xCBF43926 ∧
    chkResult {} (digits.foldl (chkByte {}) 0xFFFFFFFF) = 0xE3069283 := by decide +kernel

/-! ### Single steps -/

/-- A command of the worked pattern of 19_check_units.md: CHK_DATA_B counts one byte. -/
theorem test_step_chkDataB : ∃ t, step { State.reset with pending := [.chkDataB 0 0x39] } = .next t ∧
    t.pending = [] ∧ t.chip.rd (R.CHK_COUNT 0) = 1 := ⟨_, rfl, rfl, by decide +kernel⟩
/-- An empty queue lets a tick pass; the time counter runs from reset on or stands, and nothing waits. -/
theorem test_step_idle : ∃ t, step State.reset = .next t ∧ t.pending = [] := ⟨_, rfl, rfl⟩

/-! BeamStartsAndStops -/

/-- Beam A stopped; running; locking; running with a stop armed at VB0; relocking. -/
def beamWith (l : List (Nat × Word)) (k : PrkBeam) : State := { State.reset with chip := { regs := l, prk := #v[k, k] } }

theorem wit_BeamStartsAndStops :
    ((beamWith [] {}).chip.rb (R.PRK_CTRL 0) 0 = false ∧ (beamWith [] {}).chip.running 0 = false) ∧
    ((beamWith [(R.PRK_STAT 0, 1)] {}).chip.rb (R.PRK_CTRL 0) 0 = false ∧ (beamWith [(R.PRK_STAT 0, 1)] {}).chip.running 0 = true) ∧
    ((beamWith [(R.PRK_CTRL 0, 1), (R.PRK_STAT 0, 1)] {}).chip.rb (R.PRK_CTRL 0) 0 = true ∧
      (beamWith [(R.PRK_CTRL 0, 1), (R.PRK_STAT 0, 1)] {}).chip.running 0 = true) ∧
    ((beamWith [(R.PRK_CTRL 0, 1)] { locking := true }).chip.rb (R.PRK_CTRL 0) 0 = true ∧
      (beamWith [(R.PRK_CTRL 0, 1)] { locking := true }).chip.running 0 = false ∧
      ((beamWith [(R.PRK_CTRL 0, 1)] { locking := true }).chip.beam 0).locking = true) ∧
    ((beamWith [(R.PRK_STAT 0, 1), (R.PRK_POS 0, 0x780000)] { stopArmed := true }).chip.atLine 0 480 = true ∧
      ((beamWith [(R.PRK_STAT 0, 1), (R.PRK_POS 0, 0x780000)] { stopArmed := true }).chip.beam 0).vactive = 480 ∧
      ((beamWith [(R.PRK_STAT 0, 1), (R.PRK_POS 0, 0x780000)] { stopArmed := true }).chip.beam 0).stopArmed = true) ∧
    ((beamWith [] { relocking := true }).chip.beam 0).relocking = true := by decide

/-! BeamEventsOfRunningBeam -/

theorem wit_BeamEventsOfRunningBeam :
    (beamWith [(R.PRK_STAT 0, 1)] {}).chip.running 0 = true ∧ (beamWith [] {}).chip.running 0 = false ∧
    (beamWith [(R.PRK_STAT 0, 1), (R.PRK_POS 0, 0)] {}).chip.atLine 0 0 = true ∧
    ((beamWith [(R.PRK_STAT 0, 1), (R.PRK_POS 0, 0x7A8000)] {}).chip.running 0 = true ∧
      (beamWith [(R.PRK_STAT 0, 1), (R.PRK_POS 0, 0x7A8000)] {}).chip.line 0 = 480 + 10) ∧
    ((beamWith [(R.PRK_STAT 0, 1), (R.PRK_POS 0, 0x780000)] {}).chip.atLine 0 480 = true ∧
      ((beamWith [] {}).chip.beam 0).vactive = 480 ∧ ((beamWith [] {}).chip.beam 0).vfront = 10 ∧
      ((beamWith [] {}).chip.beam 0).stopArmed = false ∧ ((beamWith [] {}).chip.beam 0).commitLine = 480) ∧
    ((beamWith [(R.PRK_STAT 0, 1), (R.PRK_POS 0, 0x82C000)] {}).chip.atLine 0 523 = true ∧
      ((beamWith [] {}).chip.beam 0).vtotal - ((beamWith [] {}).chip.beam 0).lead = 523) := by decide

/-! GenlockAndFsync -/

def fsState : State :=
  { State.reset with chip := { regs := [(R.PRK_STAT 0, 1)], prk := #v[{ frameBegun := true }, {}], fs := Vector.replicate 8 { ctrl := 1 } } }

theorem wit_GenlockAndFsync :
    ((withRegs [(R.PRK_CTRL 0, 2), (R.PRK_STAT 0, 1)]).chip.rb (R.PRK_CTRL 0) 1 = true ∧
      (withRegs [(R.PRK_CTRL 0, 2), (R.PRK_STAT 0, 1)]).chip.running 0 = true ∧
      (withRegs [(R.PRK_CTRL 0, 2), (R.PRK_STAT 0, 1)]).chip.rb (R.BMO_CTRL 0) 14 = false) ∧
    (tb (fsState.chip.fs[(0 : Port)]).ctrl 0 = true ∧ (fsState.chip.fs[(0 : Port)]).pulse = none ∧ (fsState.chip.fs[(0 : Port)]).beam = 0 ∧
      fsState.chip.running 0 = true ∧ (fsState.chip.beam 0).frameBegun = true ∧
      fsState.chip.line 0 = fld (fsState.chip.fs[(0 : Port)]).pos 26 14 ∧ fsState.chip.pixel 0 ≤ fld (fsState.chip.fs[(0 : Port)]).pos 13 0 ∧
      (fsState.chip.rd (R.PRK_FRAME 0)).toNat % (fld (fsState.chip.fs[(0 : Port)]).ctrl 7 4 + 1) = fld (fsState.chip.fs[(0 : Port)]).ctrl 11 8) ∧
    (({ State.reset with chip := { fs := Vector.replicate 8 { pulse := some (0, 1) } } } : State).chip.fs[(0 : Port)]).pulse.isSome = true := by
  decide

/-! StoresLandInTheirRegisters -/

theorem wit_StoresLandInTheirRegisters :
    (({ State.reset with chip := { cores := Vector.replicate 8 { stores := [(R.TMR_PRES 0, 1, false)] } } } : State).chip.core 0).stores =
      (R.TMR_PRES 0, 1, false) :: [] := by decide

/-! VellumRequestsQueueAndAreGranted -/

/-- One read of a core that waits for its token; one accepted write to bank 0. -/
def vReq : VReq := { cls := .core, idx := 0, write := false, off := 0, n := 1, bytes := [], acked := false, own := false, granted := false }
def vReqState (r : VReq) : State := { State.reset with chip := { vlm := { reqs := [r] } } }

theorem wit_VellumRequestsQueueAndAreGranted :
    reqOk 0 1 = true ∧ reqOk 0x2FFFFC0 8 = true ∧
    (clsAll.find? fun k => ((vReqState vReq).chip.vlm.reqs.any fun r => !r.write && !r.acked && r.cls = k) &&
      ((vReqState vReq).chip.vlm.token k).isSome) = some .core ∧
    (vReqState vReq).chip.vlm.buffered 7 < 16 ∧
    ((vReqState { vReq with acked := true }).chip.bank 0).promoted = false ∧
    ((vReqState { vReq with acked := true }).chip.arbitrate 0).isSome = true ∧
    (({ State.reset with chip := { vlm := { banks := [(0, { left := 1 })] } } } : State).chip.arbitrate 0).isNone = true ∧
    0 < (({ State.reset with chip := { vlm := { banks := [(0, { left := 1 })] } } } : State).chip.bank 0).left := by decide

/-! ScrubbingReadsAndTheBankCopy -/

theorem wit_ScrubbingReadsAndTheBankCopy :
    ((vReqState { vReq with acked := true, granted := true }).chip.vlm.reqs.find? fun r =>
      r.granted && !r.write && decide (r.cls = .core) && r.idx == (0#7).toNat) = some { vReq with acked := true, granted := true } ∧
    (withRegs [(R.VLM_CTRL, 1)]).chip.rb R.VLM_CTRL 0 = true ∧ (withRegs [(R.VLM_CTRL, 1)]).chip.scrubRef = 2 ∧
    ((beamWith [(R.PRK_STAT 0, 1), (R.PRK_POS 0, 0x780000), (R.VLM_CTRL, 1), (R.VLM_SCRUB_CTRL, 0)] {}).chip.scrubRef = (0 : Beam).val ∧
      (beamWith [(R.PRK_STAT 0, 1), (R.PRK_POS 0, 0x780000), (R.VLM_CTRL, 1), (R.VLM_SCRUB_CTRL, 0)] {}).chip.line 0 = 480 ∧
      (beamWith [(R.PRK_STAT 0, 1), (R.PRK_POS 0, 0x780000), (R.VLM_CTRL, 1), (R.VLM_SCRUB_CTRL, 0)] {}).chip.pixel 0 = 0) ∧
    (({ State.reset with chip := { vlm := { banks := [(101, { slot := .active })] } } } : State).chip.bank 101).slot = .active ∧
    ((withRegs [(R.DRN_COPY_STAT, 0x1FFF0)]).chip.copyMay = true ∧ (withRegs [(R.DRN_COPY_STAT, 0x1FFF0)]).chip.rf R.DRN_COPY_STAT 15 0 + 8 < 65536) ∧
    (State.reset.chip.copyActive = false ∧
      (State.reset.chip.store R.DRN_COPY (setBit (setBit 95 16 true) 17 false)).rf R.DRN_COPY 6 0 < 96 ∧
      (State.reset.chip.store R.DRN_COPY (setBit (setBit 95 16 true) 17 true)).rf R.DRN_COPY 6 0 < 96) ∧
    (withRegs [(R.DRN_COPY_STAT, 0x1FFF0)]).chip.copyActive = true := by decide

/-! CoresHoldReleaseAndRestart -/

theorem wit_CoresHoldReleaseAndRestart :
    (withRegs [(R.YLX_PCTRL 7, 1)]).chip.heldCore 7 = true ∧ State.reset.chip.heldCore 7 = false := by decide

/-! WatchdogsAndLocalScrubbers -/

theorem wit_WatchdogsAndLocalScrubbers :
    (withRegs [(R.YLX_WDG_CTRL 0, 1)]).chip.wdgCounts 0 = true ∧ ((withRegs []).chip.core 0).stage1 = false ∧
    (({ State.reset with chip := { regs := [(R.YLX_WDG_CTRL 0, 9)], cores := Vector.replicate 8 { stage1 := true } } } : State).chip.wdgCounts 0 = true ∧
      (({ State.reset with chip := { regs := [(R.YLX_WDG_CTRL 0, 9)], cores := Vector.replicate 8 { stage1 := true } } } : State).chip.core 0).stage1 = true ∧
      ({ State.reset with chip := { regs := [(R.YLX_WDG_CTRL 0, 9)], cores := Vector.replicate 8 { stage1 := true } } } : State).chip.rb (R.YLX_WDG_CTRL 0) 3 = true) ∧
    State.reset.chip.rb (R.YLX_CTRL 0) 4 = true ∧ State.reset.chip.lmBad (lmBase 0) = false ∧ (0 : Word) ≠ 0xC1A5 := by decide

/-! RegisterInstructionsCompute -/

theorem wit_issues : State.reset.chip.issues 0 0 := by
  refine ⟨by decide, ⟨_, rfl⟩, by decide⟩

/-! DivisionNeverTraps -/

/-- Core 0 after reset with g0 and g1 at the corner of R180. -/
def cornerCore (a b : Word) : State :=
  { State.reset with chip := { cores := (Vector.replicate 8 {}).set 0 { g := ((Vector.replicate 16 0).set 0 a).set 1 b } } }

theorem wit_DivisionNeverTraps :
    ((cornerCore 0x80000000 0xFFFFFFFF).chip.core 0).gr 0 = 0x80000000 ∧ ((cornerCore 0x80000000 0xFFFFFFFF).chip.core 0).gr 1 = 0xFFFFFFFF ∧
    ((cornerCore 7 0).chip.core 0).gr 1 = 0 ∧ ((cornerCore 7 2).chip.core 0).gr 1 ≠ 0 ∧ (cornerCore 7 0).chip.runs 0 = true := by decide

theorem wit_DivisionNeverTraps_issues : (cornerCore 7 0).chip.issues 0 0 ∧ (cornerCore 7 2).chip.issues 0 0 ∧
    (cornerCore 0x80000000 0xFFFFFFFF).chip.issues 0 0 :=
  ⟨⟨by decide, ⟨_, rfl⟩, by decide⟩, ⟨by decide, ⟨_, rfl⟩, by decide⟩, ⟨by decide, ⟨_, rfl⟩, by decide⟩⟩

/-! PredicatesCompareAndMove -/

theorem wit_PredicatesCompareAndMove : (State.reset.chip.core 0).mode = .S ∧ (6 : BitVec 3) ≠ 7 ∧ (3 : BitVec 2) ≠ 0 ∧ (14 : GReg) ≠ 15 := by decide

/-! FalsePredicatesAndUndefinedEncodings -/

theorem wit_FalsePredicates : State.reset.chip.runs 0 = true ∧ State.reset.chip.predTrue 0 1 = false ∧
    (({ State.reset with chip := { cores := Vector.replicate 8 { mode := .U } } } : State).chip.core 0).mode = .U ∧
    ({ State.reset with chip := { cores := Vector.replicate 8 { mode := .U } } } : State).chip.runs 0 = true := by decide

/-! LoadsStoresAndExchange -/

/-- Core 0 after reset with g0 at an address. -/
def coreAt (a : Word) : State :=
  { State.reset with chip := { cores := (Vector.replicate 8 {}).set 0 { g := (Vector.replicate 16 0).set 0 a } } }

theorem wit_LoadsStoresAndExchange_issues : (coreAt 0x100000).chip.issues 0 0 := by
  refine ⟨by decide, ⟨_, rfl⟩, by decide⟩

theorem wit_LoadsStoresAndExchange :
    (coreAt 0x100000).chip.accCheck 0 .r 4 (((coreAt 0x100000).chip.core 0).gr 0 + (0 : BitVec 15).signExtend 32) = .ok (.lm 0 0x200000) ∧
    (coreAt 0x100000).chip.accCheck 0 .r 2 0x10FFFE = .ok (.lm 0 0x20FFFE) ∧ (coreAt 0x100000).chip.accCheck 0 .r 1 0x27FFFF = .ok (.lm 7 0x27FFFF) ∧
    (coreAt 0x100000).chip.accCheck 0 .w 4 0x100000 = .ok (.lm 0 0x200000) ∧ (coreAt 0x100000).chip.accCheck 0 .w 2 0x100002 = .ok (.lm 0 0x200002) ∧
    (coreAt 0x100000).chip.accCheck 0 .w 1 0x100003 = .ok (.lm 0 0x200003) ∧ (coreAt 0x100000).chip.lmBad 0x200000 = false ∧
    (coreAt 0x100000).chip.accCheck 0 .w 4 0x40000000 = .ok .reg ∧
    (coreAt 0x100000).chip.xchgCheck 0 0x100000 = .ok (.lm 0 0x200000) ∧ (coreAt 0x100000).chip.accCheck 0 .r 4 0x100002 = .error .misalign ∧
    (coreAt 0x100000).chip.accCheck 0 .w 4 0x8000 = .error .noTarget ∧ (coreAt 0x100000).chip.xchgCheck 0 0x40000000 = .error .noTarget := by decide

/-! BranchesCallsAndReturns -/

/-- Core 0 after reset with its S stack pointer and its link register at an address. -/
def coreStack (a b : Word) : State :=
  { State.reset with chip := { cores := (Vector.replicate 8 {}).set 0 { g := ((Vector.replicate 16 0).set 13 a).set 14 b } } }

theorem wit_BranchesCallsAndReturns :
    (0#32 + 4 + ((0x7FFFFF : BitVec 23).signExtend 32 <<< (2 : Nat))).toNat % 4 = 0 ∧
    ((coreAt 0x100000).chip.core 0).gr 0 = 0x100000 ∧ ((coreAt 0x100002).chip.core 0).gr 0 = 0x100002 ∧
    (((coreStack 0x101000 0).chip.core 0).gr 1).toNat % 4 = 0 ∧
    (((coreStack 0x101000 0).chip.core 0).gr 13 - BitVec.ofNat 32 (4 * 3)).toNat % 4 = 0 ∧
    (coreStack 0x101000 0).chip.firstDenied 0 .w ((List.range 3).map fun i => 0x100FF4 + BitVec.ofNat 32 (4 * i)) = none ∧
    (coreStack 0x101000 0).chip.firstDenied 0 .r ((List.range 3).map fun i => 0x101000 + BitVec.ofNat 32 (4 * i)) = none ∧
    (Chip.getWords 0 ((List.range 3).map fun i => 0x101000 + BitVec.ofNat 32 (4 * i)) (coreStack 0x101000 0).chip).1 = .ok [0, 0, 0] := by decide

/-! EventsWaitsAndWaking -/

/-- Core 0 after reset in another state. -/
def coreIs (k : CoreSt) : State := { State.reset with chip := { cores := (Vector.replicate 8 {}).set 0 k } }

theorem wit_EventsWaitsAndWaking_issues : (coreIs { latch := true }).chip.issues 0 0 ∧ (coreIs {}).chip.issues 0 0 :=
  ⟨⟨by decide, ⟨_, rfl⟩, by decide⟩, ⟨by decide, ⟨_, rfl⟩, by decide⟩⟩

theorem wit_EventsWaitsAndWaking_park : (coreIs { pc := 0x7FC0 }).chip.issues 0 0 := ⟨by decide, ⟨_, rfl⟩, by decide⟩

theorem wit_EventsWaitsAndWaking :
    ((coreIs { latch := true }).chip.core 0).latch = true ∧ ((coreIs {}).chip.core 0).latch = false ∧
    ((coreIs { pc := 0x7FC0 }).chip.core 0).pc = 0x7FC0 ∧ ((coreIs { pc := 0x7FC0 }).chip.core 0).mode = .S ∧
    ((coreIs { asleep := true, latch := true }).chip.coresUp = true ∧ (coreIs { asleep := true, latch := true }).chip.heldCore 0 = false ∧
      (coreIs { asleep := true, latch := true }).chip.wakes 0 none = true) ∧
    ((coreIs { wait := some { src := 2, value := 0 } }).chip.core 0).wait = some { src := 2, value := 0 } ∧
    0 ≤ ((coreIs { wait := some { src := 2, value := 0 } }).chip.time.setWidth 32 - (0 : Word)).toInt ∧
    (withRegs [(R.PRK_STAT 1, 1), (R.PRK_POS 1, 0x4003)]).chip.canTake 1 0x4004 = true := by decide

/-! TrapsAndBreakpoints -/

/-- A blank part, and one with every fuse of its state groups blown. -/
def fuses (v : BitVec 5) : State := { State.reset with chip := { lcy := { groups := Vector.replicate 47 v } } }

theorem wit_TrapsAndBreakpoints :
    (withRegs []).chip.rb (R.YLX_ESTAT 0) 3 = false ∧ (withRegs [(R.YLX_ESTAT 0, 8)]).chip.rb (R.YLX_ESTAT 0) 3 = true ∧
    (fuses 0).chip.debugOpen = true ∧ (fuses 31).chip.debugOpen = false := by decide

theorem wit_TrapsAndBreakpoints_issues : (fuses 0).chip.issues 0 0 ∧ (fuses 31).chip.issues 0 0 ∧ (withRegs []).chip.issues 0 0 ∧
    (withRegs [(R.YLX_ESTAT 0, 8)]).chip.issues 0 0 :=
  ⟨⟨by decide, ⟨_, rfl⟩, by decide⟩, ⟨by decide, ⟨_, rfl⟩, by decide⟩, ⟨by decide, ⟨_, rfl⟩, by decide⟩, ⟨by decide, ⟨_, rfl⟩, by decide⟩⟩

/-! EretReturns -/

theorem wit_EretReturns : (State.reset.chip.core 0).mode = .S := by decide

/-! InterruptsAreTaken -/

/-- Core 0 with software source 3 and source 5 pending, enabled and of one priority. -/
def irqState : State := { State.reset with chip :=
  { regs := [(R.YLX_ESTAT 0, 1), (R.IRQ_EN 0 0, 0x28), (R.IRQ_PRIO 0 0, 0xFF4F4FFF)]
    cores := (Vector.replicate 8 {}).set 0 { pulse := [3, 5] } } }

theorem wit_InterruptsAreTaken :
    (irqState.chip.onCore 0 fun k => { k with wait := none }).runs 0 = true ∧ irqState.chip.rb (R.YLX_ESTAT 0) 0 = true ∧
    irqState.chip.eligible 0 3 = true ∧ irqState.chip.irqPrio 0 3 = 4 ∧ irqState.chip.irqPrio 0 5 = 4 ∧
    ∀ y, y < 32 → irqState.chip.eligible 0 y = true → y = 3 ∨ y = 5 := by decide

theorem wit_InterruptsAreTaken_rest : ∀ y, 32 ≤ y → y < 192 → irqState.chip.irqEn 0 y = false := by
  intro y h1 h2; have : y / 32 = 1 ∨ y / 32 = 2 ∨ y / 32 = 3 ∨ y / 32 = 4 ∨ y / 32 = 5 := by omega
  have : irqState.chip.rd (R.IRQ_EN 0 (y / 32)) = 0 := by rcases this with h | h | h | h | h <;> rw [h] <;> decide
  simp [Chip.irqEn, Chip.rb, this, tb]

/-! EndOfInterruptAndMsiSet -/

theorem wit_EndOfInterruptAndMsiSet : ((coreIs { stack := [(191, 16)] }).chip.core 0).stack = (191, 16) :: [] ∧
    (State.reset.chip.core 0).stack = [] := by decide

/-! BootRomAndHandover -/

/-- A part with fuses v whose ROM stands at step r, with registers. -/
def romAt (r : Nat) (v : BitVec 5) (l : List (Nat × Word)) : State :=
  { State.reset with chip := { regs := l, lcy := { groups := Vector.replicate 47 v }, rst := { State.reset.chip.rst with rom := r } } }

/-- A flash slot of 256 equal bytes. -/
def slotOf (b : Byte) : FlashSlot := { header := List.replicate 256 b, body := [], headerErr := false, bodyErr := false }

theorem wit_BootRomAndHandover :
    ((romAt 1 0 []).chip.coresUp = true ∧ (romAt 1 0 []).chip.romLocked = false ∧ (romAt 1 0 []).chip.rst.rom = 1) ∧
    ((romAt 2 0 [(R.SYS_VIO, 4)]).chip.coresUp = true ∧ (romAt 2 0 [(R.SYS_VIO, 4)]).chip.vioC = true ∧
      (romAt 2 0 [(R.SYS_VIO, 4)]).chip.lcyState ≠ 6) ∧
    hdrField (slotOf 0xFF).header 0 4 ≠ 0x54424948 ∧
    ((coreIs { pc := 0x7FE0 }).chip.sb R.SYS_BOOT_CTRL 0).runs 0 = true ∧
    ((coreIs { pc := 0x7FE0 }).chip.core 0).pc = 0x7FE0 ∧ ((coreIs {}).chip.core 0).pc ≠ 0x7FE0 ∧
    (withRegs [(R.SYS_BOOT_STAT, 4)]).chip.rf R.SYS_BOOT_STAT 3 0 = 4 ∧ (withRegs [(R.SYS_BOOT_STAT, 4)]).chip.romLocked = false ∧
    (romAt 2 0 [(R.SYS_VIO, 0)]).chip.vioC = false := by decide

/-! HostMemoryRequests -/

/-- The host link up over PCI Express, with registers. -/
def linked (l : List (Nat × Word)) (h : HostSt) : State := { State.reset with chip := { regs := l, host := h } }

theorem wit_HostMemoryRequests :
    (linked [] { up := true }).chip.pcieOn = true ∧ (linked [] { up := true }).chip.host.d3 = false ∧
    (0x1400 : BitVec 16).toNat % 4 = 0 ∧ bar0Reg 0x1400 = true ∧ bar0Reg 0x2000 = false ∧ (0x1402 : BitVec 16).toNat % 4 ≠ 0 ∧
    (0x2FFFFF8 : BitVec 26).toNat + [none, some 1, none, none, none, none, none, some (2 : Byte)].length ≤ 0x3000000 ∧
    ((0x2FFFFFF : BitVec 26).toNat < 0x3000000 ∧ 0x3000000 < (0x2FFFFFF : BitVec 26).toNat + [some (1 : Byte), none].length) ∧
    (linked [] { up := true, d3 := true }).chip.pcieOn = true ∧
    ((linked [(R.IRQ_MSI_PEND, 0x80000000)] { up := true, msiEnable := true }).chip.rb R.IRQ_MSI_PEND 31 = true ∧
      (linked [(R.IRQ_MSI_PEND, 0x80000000)] { up := true, msiEnable := true }).chip.pcieOn = true ∧
      tb (linked [(R.IRQ_MSI_PEND, 0x80000000)] { up := true, msiEnable := true }).chip.host.msiMask 31 = false) ∧
    (withRegs [(R.MBX_STAT, 1)]).chip.rb R.MBX_STAT 0 = true := by decide

/-! DoorbellsAndRingBits -/

theorem wit_DoorbellsAndRingBits :
    (withRegs [(R.SYS_BOOT_CTRL, 1), (R.MBX_RING_EN 1, 0x80000000)]).chip.romLocked = true ∧
    (withRegs [(R.SYS_BOOT_CTRL, 1), (R.MBX_RING_EN 1, 0x80000000)]).chip.ringOn 63 = true ∧
    (withRegs [(R.SYS_BOOT_CTRL, 1)]).chip.ringOn 63 = false ∧
    State.reset.chip.romLocked = false ∧ State.reset.chip.rf R.SYS_BOOT_STAT 3 0 ≠ 4 := by decide

/-! QspiFrames -/

theorem wit_QspiFrames :
    (linked [(R.SYS_STRAP, 1)] { up := true }).chip.qspiOn = true ∧
    frameCheck true (frameHead 0x61 0x1000 4) 0x1000 4 [] (crc16 (frameHead 0x61 0x1000 4)) false = 0 ∧
    frameCheck true (frameHead 0x61 0x1000 8) 0x1000 8 [] (crc16 (frameHead 0x61 0x1000 8)) false = 2 ∧
    frameCheck false (frameHead 0x63 0x2FFFC00 1024) 0x2FFFC00 1024 [] (crc16 (frameHead 0x63 0x2FFFC00 1024)) false = 0 ∧
    frameCheck false (frameHead 0x63 0x2FFFC04 1024) 0x2FFFC04 1024 [] (crc16 (frameHead 0x63 0x2FFFC04 1024)) false = 4 ∧
    frameCheck true (frameHead 0x62 0x1400 4) 0x1400 4 [1, 2, 3, 4] (crc16 (frameHead 0x62 0x1400 4 ++ [1, 2, 3, 4])) false = 0 ∧
    frameCheck false (frameHead 0x64 8 4) 8 4 [1, 2, 3, 4] (crc16 (frameHead 0x64 8 4 ++ [1, 2, 3, 4])) false = 0 ∧
    frameCheck false (frameHead 0x64 8 4) 8 4 [1, 2, 3, 4] (crc16 (frameHead 0x64 8 4 ++ [1, 2, 3, 4]) + 1) false = 1 := by decide +kernel

/-! TirbaFetchesAndPosts -/

/-- A header of 64 bytes: its first word, and fields of its body. -/
def descOf (w0 : Nat) (fs : List (Nat × Nat × Nat)) : List Byte := leBytes 4 w0 ++ leBytes 4 0x7A ++ res fs

/-- A command of a descriptor in session 0, at a stage with a payload. -/
def cmdOf (desc : List Byte) (stage : Nat) (keep : List Nat) (payload : List Byte) : Cmd :=
  { desc, sqHead := 1, session := some 0, serial := 0, discard := false, failed := none, stage, keep, payload, readFailed := false }

/-- Ring 5 with a command at its front, in session 0, on a chip. -/
def onRing5 (c : Chip) (q : Cmd) : State := { State.reset with chip := { c with tirba := { c.tirba with
  rings := c.tirba.rings.set 5 { checked := true, log2 := 4, flight := [q] }
  sessions := Vector.replicate 8 (some { version := 0x100, rings := [5], closing := false, aborted := 0 }) } } }

/-- A chip whose PCI Express function masters the bus. -/
def linkChip : Chip := { host := { up := true, busMaster := true } }

/-- The completion of a NOP. -/
def nopReply : Reply := { tag := 7, status := 0, detail := 0, sqHead := 1, result := [], notify := true, cmd := true, reset := none }

/-- Ring 5 with a completion to post. -/
def posting (head : Word) : State := { State.reset with chip := { regs := [(R.MBX_RST 5, head)], tirba := {
  rings := (Vector.replicate 64 {}).set 5 { checked := true, log2 := 4, posts := [nopReply] } } } }

theorem wit_TirbaFetchesAndPosts :
    ((withRegs [(R.MBX_STAT, 1)]).chip.tirbaUp = true ∧ (withRegs [(R.MBX_STAT, 1)]).chip.tirbaReady = true ∧
      (withRegs [(R.MBX_STAT, 1)]).chip.activating = false ∧ (withRegs [(R.MBX_STAT, 1)]).chip.checkRings.nextRing = none) ∧
    ((posting 0x800F0000).chip.tirbaUp = true ∧ ((posting 0x800F0000).chip.ring 5).checked = true ∧
      ((posting 0x800F0000).chip.ring 5).cqHost = false ∧ ((posting 0x800F0000).chip.cqTail 5 + 1) % 2 ^ 4 = (posting 0x800F0000).chip.cqHead 5) ∧
    ((posting 0x800F0001).chip.cqTail 5 + 1) % 2 ^ 4 ≠ (posting 0x800F0001).chip.cqHead 5 ∧
    ((onRing5 {} (cmdOf (descOf 0x80 [(8, 1, 1)]) 2 [1, 0, 0] [])).chip.ring 5).flight = cmdOf (descOf 0x80 [(8, 1, 1)]) 2 [1, 0, 0] [] :: [] ∧
    (onRing5 {} (cmdOf (descOf 0x80 [(8, 1, 1)]) 2 [1, 0, 0] [])).chip.tirbaUp = true ∧
    (cmdOf (descOf 0x80 [(8, 1, 1)]) 2 [1, 0, 0] []).opcode ≠ 2 := by decide +kernel

/-- Ring 9 with one NOP in Vellum, its tail past it. -/
def fetching : State := { State.reset with chip := { regs := [(R.MBX_STAT, 1), (R.MBX_RING_EN 0, 0x200), (R.MBX_DB 9, 1)], tirba := {
  rings := (Vector.replicate 64 {}).set 9 { checked := true, log2 := 4 } } } }

theorem wit_TirbaFetchesAndPosts_some : fetching.chip.tirbaUp = true ∧ fetching.chip.tirbaReady = true ∧ fetching.chip.activating = false ∧
    fetching.chip.checkRings.nextRing = some 9 := by decide +kernel

/-! TirbaSessionsAndQueries -/

/-- Ring 5 with a NOP-like command at its front and no session open. -/
def unopened (version : Word) (q : Cmd) : State := { State.reset with chip := { regs := [(R.MBX_VERSION, version)], tirba :=
  { rings := (Vector.replicate 64 {}).set 5 { checked := true, log2 := 4, flight := [{ q with session := none }] } } } }

theorem wit_TirbaSessionsAndQueries :
    ((onRing5 {} (cmdOf (descOf 0 []) 0 [] [])).chip.front 5 0x000 anyOf).isSome = true ∧
    ((unopened 0x100 (cmdOf (descOf 1 [(8, 2, 0x100), (10, 2, 0x102)]) 0 [] [])).chip.front 5 0x001 anyOf).isSome = true ∧
    (cmdOf (descOf 1 [(8, 2, 0x101), (10, 2, 0x102)]) 0 [] []).le 8 2 = 0x101 ∧
    (cmdOf (descOf 1 [(8, 2, 0x100), (10, 2, 0x102)]) 0 [] []).le 10 2 = 0x102 ∧
    (unopened 0x100 (cmdOf (descOf 1 [(8, 2, 0x100), (10, 2, 0x102)]) 0 [] [])).chip.rf R.MBX_VERSION 15 0 = 0x100 ∧
    (∀ m, m < 64 → (unopened 0x100 (cmdOf (descOf 1 [(8, 2, 0x100), (10, 2, 0x102)]) 0 [] [])).chip.sessionOf m = none) ∧
    ((onRing5 {} (cmdOf (descOf 1 []) 0 [] [])).chip.front 5 0x001 anyOf).isSome = true ∧
    ((onRing5 {} (cmdOf (descOf 1 []) 0 [] [])).chip.sessionOf 5) = some 0 ∧
    ((onRing5 {} (cmdOf (descOf 2 []) 0 [] [])).chip.front 5 0x002 anyOf).isSome = true ∧
    ((onRing5 {} (cmdOf (descOf 3 [(8, 1, 64)]) 0 [] [])).chip.front 5 0x003 anyOf).isSome = true ∧
    (cmdOf (descOf 3 [(8, 1, 64)]) 0 [] []).le 8 1 = 64 ∧
    ((onRing5 {} (cmdOf (descOf 3 [(8, 1, 5), (9, 1, 8)]) 0 [] [])).chip.front 5 0x003 anyOf).isSome = true ∧
    ((onRing5 {} (cmdOf (descOf 0x10 [(8, 1, 1)]) 0 [] [])).chip.front 5 0x010 anyOf).isSome = true ∧
    ((onRing5 {} (cmdOf (descOf 0x10 [(8, 1, 2)]) 0 [] [])).chip.front 5 0x010 anyOf).isSome = true := by decide +kernel

/-! TirbaBlocksAndCommits -/

/-- A word with REF set over an opcode. -/
def withRef (op : Nat) : Nat := op + 2 ^ 24

/-- An offset of Vellum whose 64 KiB the Tirba region does not reach. -/
def freeBase : Nat := if 0x10000 ≤ tirbaBase then 0 else 0x2FF0000

/-- Whatever region Tirba picks, it leaves those 64 KiB free. -/
theorem freeBase_free (off len : Nat) (h : off + len ≤ 0x10000) : inTirba (freeBase + off) len = false := by
  unfold freeBase inTirba
  by_cases g : 0x10000 ≤ tirbaBase
  · rw [if_pos g]; simp; omega
  · have e : tirbaBase = 0 := by
      have : tirbaBase = 0x10000 * (Config.tirbaRegion.1.toNat % (769 - tirbaUnits)) := rfl
      omega
    have l : tirbaLen ≤ 0x2FF0000 := by
      have h1 : tirbaLen = 0x10000 * tirbaUnits := rfl
      have h2 : tirbaUnits = 1 + Config.tirbaRegion.2.toNat % 767 := rfl
      omega
    rw [if_neg g]; simp [e]; omega

/-- The two places that a free base can have. -/
theorem freeBase_cases : freeBase = 0 ∨ freeBase = 0x2FF0000 := by unfold freeBase; split <;> simp

theorem wit_TirbaBlocksAndCommits :
    ((onRing5 linkChip (cmdOf (descOf (withRef 0x20) [(19, 1, 1)]) 0 [] [])).chip.front 5 0x020 anyOf).isSome = true ∧
    (cmdOf (descOf (withRef 0x20) [(19, 1, 1)]) 0 [] []).len = 0 ∧
    ((onRing5 linkChip (cmdOf (descOf (withRef 0x20) [(16, 3, 3), (19, 1, 1)]) 1 [] [1, 2, 3])).chip.front 5 0x020 anyOf).isSome = true ∧
    (cmdOf (descOf (withRef 0x20) [(16, 3, 3), (19, 1, 1)]) 1 [] [1, 2, 3]).len = 3 ∧
    ((onRing5 {} (cmdOf (descOf 0x21 [(16, 4, 5)]) 0 [] [])).chip.front 5 0x021 anyOf).isSome = true ∧
    ((onRing5 {} (cmdOf (descOf 0x21 [(8, 4, 2)]) 0 [] [])).chip.front 5 0x021 anyOf).isSome = true ∧
    (cmdOf (descOf 0x21 [(8, 4, 2)]) 0 [] []).le 8 4 % 4 ≠ 0 ∧
    ((onRing5 {} (cmdOf (descOf 0x80 [(8, 1, 3)]) 0 [] [])).chip.front 5 0x080 anyOf).isSome = true ∧
    ((onRing5 {} (cmdOf (descOf 0x80 [(8, 1, 1)]) 2 [0, 0, 0] [])).chip.front 5 0x080 anyOf).isSome = true ∧
    ((onRing5 {} (cmdOf (descOf 0x80 []) 0 [] [])).chip.front 5 0x080 anyOf).isSome = true := by decide +kernel

/-- A command at the front that passed the checks of its fetch may start. -/
theorem front_of {c : Chip} {n : Ring} {q : Cmd} {op : Nat} (h1 : c.tirbaUp = true) (h2 : (c.ring n).flight = [q]) (h3 : q.opcode = op)
    (h4 : q.stage = 0) (h5 : q.failed = none)  (h6 : q.host = false) (h10 : c.mayStart q = true) (h11 : q.flag 26 = false) : c.front n op anyOf = some q := by
  have t : c.turnedAway n = none := by
    unfold Chip.turnedAway
    simp [h2, h4, h5, h11]
  unfold Chip.front
  simp [h1, h2, h3, anyOf, h6, h10, t]

/-- A reference to Vellum outside the Tirba region is good. -/
theorem badRef_of {c : Chip} {q : Cmd} (h1 : q.ref = true) (h2 : q.le 19 1 / 2 = 0) (h3 : q.host = false)
    (h4 : q.addr + q.len ≤ vlmSize) (h5 : inTirba q.addr q.len = false) : c.badRef q = none := by
  unfold Chip.badRef
  simp [h1, h2, h3, h5]
  omega

/-- A BLOCK_COPY of 8 bytes from a base's offset 0x40 to its offset 0x80. -/
def copyCmd (b : Nat) : Cmd := cmdOf (descOf (withRef 0x20) [(8, 4, b + 0x40), (16, 3, 8), (20, 4, b + 0x80)]) 0 [] []

theorem wit_TirbaBlocksAndCommits_vellum (b : Nat) (hb : b = 0 ∨ b = 0x2FF0000) (f1 : inTirba (b + 0x40) 8 = false)
    (f2 : inTirba (b + 0x80) 8 = false) : (onRing5 {} (copyCmd b)).chip.front 5 0x020 anyOf = some (copyCmd b) ∧ (copyCmd b).len ≠ 0 ∧
    (copyCmd b).host = false ∧ firstOf (rangeChecks ((copyCmd b).le 20 4) (copyCmd b).len) = none ∧
    ¬((copyCmd b).addr < (copyCmd b).le 20 4 ∧ (copyCmd b).le 20 4 < (copyCmd b).addr + (copyCmd b).len) ∧
    (onRing5 {} (copyCmd b)).chip.firstBad (vlmBase + (copyCmd b).addr) (copyCmd b).len = none := by
  have e1 : (copyCmd b).addr = b + 0x40 := by rcases hb with h | h <;> subst h <;> decide +kernel
  have e2 : (copyCmd b).le 20 4 = b + 0x80 := by rcases hb with h | h <;> subst h <;> decide +kernel
  have e3 : (copyCmd b).len = 8 := by rcases hb with h | h <;> subst h <;> decide +kernel
  have e4 : (copyCmd b).host = false := by rcases hb with h | h <;> subst h <;> decide +kernel
  have e5 : (copyCmd b).ref = true := by rcases hb with h | h <;> subst h <;> decide +kernel
  have e6 : (copyCmd b).le 19 1 / 2 = 0 := by rcases hb with h | h <;> subst h <;> decide +kernel
  have e7 : (copyCmd b).opcode = 0x20 := by rcases hb with h | h <;> subst h <;> decide +kernel
  have e8 : (copyCmd b).badOpcode = none := by rcases hb with h | h <;> subst h <;> decide +kernel
  have e9 : (copyCmd b).badForm = none := by rcases hb with h | h <;> subst h <;> decide +kernel
  have e10 : (onRing5 {} (copyCmd b)).chip.badSession 5 (copyCmd b) = none := by rcases hb with h | h <;> subst h <;> decide +kernel
  have e11 : (onRing5 {} (copyCmd b)).chip.mayStart (copyCmd b) = true := by rcases hb with h | h <;> subst h <;> decide +kernel
  have e12 : (copyCmd b).flag 26 = false := by rcases hb with h | h <;> subst h <;> decide +kernel
  have e13 : (onRing5 {} (copyCmd b)).chip.tirbaUp = true := by rcases hb with h | h <;> subst h <;> decide +kernel
  have e14 : ((onRing5 {} (copyCmd b)).chip.ring 5).flight = [copyCmd b] := rfl
  have bl : b ≤ 0x2FF0000 := by rcases hb with h | h <;> omega
  have e15 : (onRing5 {} (copyCmd b)).chip.badRef (copyCmd b) = none :=
    badRef_of e5 e6 e4 (by rw [e1, e3, vlmSize]; omega) (by rw [e1, e3]; exact f1)
  refine ⟨front_of e13 e14 e7 rfl rfl e4 e11 e12, by simp [e3], e4, ?_, by omega, ?_⟩
  · simp [rangeChecks, firstOf, e2, e3, f2, vlmSize]
    omega
  · rcases hb with h | h <;> subst h <;> decide +kernel

/-- Whatever region Tirba picks, such a BLOCK_COPY may start and passes its checks. -/
theorem wit_TirbaBlocksAndCommits_free : inTirba (freeBase + 0x40) 8 = false ∧ inTirba (freeBase + 0x80) 8 = false ∧
    (freeBase = 0 ∨ freeBase = 0x2FF0000) := ⟨freeBase_free _ _ (by decide), freeBase_free _ _ (by decide), freeBase_cases⟩

/-! TirbaLayersAndSignatures -/

/-- One published frame of Beam B. -/
def sigFrame0 : SigFrame := { frame := 3, enabled := 1, uncertain := 0, raw := List.replicate 16 0, folded := List.replicate 16 0 }

/-- A PLANE_SET of plane 7 on Beam B, its bases at b. -/
def planeCmd (b : Nat) : Cmd := cmdOf (descOf 0x40 [(8, 1, 1), (16, 1, 7), (17, 1, 1), (20, 4, b), (28, 4, b)]) 0 [] []

/-- Its record. -/
def planeRec7 (b : Nat) : PlaneRec :=
  { plane := 7, beam := 1, flags := 0, format := 0, map := b, size := 0, tile := b, scroll := 0, affine := 0, winPos := 0, winSize := 0 }

/-- A MOTIF_CONFIG with its table at b. -/
def motifCmd (b : Nat) : Cmd := cmdOf (descOf 0x41 [(12, 4, b)]) 0 [] []

theorem wit_TirbaLayersAndSignatures_bases (b : Nat) (hb : b = 0 ∨ b = 0x2FF0000) (f1 : inTirba b 1 = false) (f2 : inTirba b 0x8000 = false) :
    (onRing5 {} (planeCmd b)).chip.front 5 0x040 anyOf = some (planeCmd b) ∧
    firstOf ((onRing5 {} (planeCmd b)).chip.planeChecks (planeCmd b)) = none ∧
    (onRing5 {} (motifCmd b)).chip.front 5 0x041 anyOf = some (motifCmd b) ∧
    firstOf (baseChecks ((motifCmd b).le 12 4) 0x8000) = none := by
  have e1 : (planeCmd b).planeRecs = [planeRec7 b] := by rcases hb with h | h <;> subst h <;> decide +kernel
  have e2 : (planeCmd b).le 8 1 = 1 ∧ (planeCmd b).ext = 0 := by rcases hb with h | h <;> subst h <;> decide +kernel
  have e3 : (motifCmd b).le 12 4 = b := by rcases hb with h | h <;> subst h <;> decide +kernel
  have e4 : tb ((onRing5 {} (planeCmd b)).chip.rd (R.GND_SH_CTRL 7)) 0 = false := by rcases hb with h | h <;> subst h <;> decide +kernel
  have bl : ¬ 0x4000000 ≤ b ∧ b % 64 = 0 := by rcases hb with h | h <;> omega
  refine ⟨by rcases hb with h | h <;> subst h <;> decide +kernel, ?_, by rcases hb with h | h <;> subst h <;> decide +kernel, ?_⟩
  · unfold Chip.planeChecks Chip.planeElsewhere
    generalize (onRing5 {} (planeCmd b)).chip = c at *
    simp [e1, e2, planeRec7, firstOf, baseChecks, PlaneRec.flag, f1, e4, bl]
  · simp [firstOf, baseChecks, e3, f2, bl]

theorem wit_TirbaLayersAndSignatures :
    ((onRing5 {} (cmdOf (descOf 0x40 []) 0 [] [])).chip.front 5 0x040 anyOf).isSome = true ∧
    ((onRing5 {} (cmdOf (descOf 0x42 [(8, 1, 7), (9, 1, 1)]) 0 [] [])).chip.front 5 0x042 anyOf).isSome = true ∧
    tb ((onRing5 {} (cmdOf (descOf 0x42 [(8, 1, 7), (9, 1, 1)]) 0 [] [])).chip.rd (R.EYE_WIN_SH_CTRL 7)) 0 = false ∧
    ((onRing5 {} (cmdOf (descOf 0x43 [(8, 1, 1)]) 0 [] [])).chip.front 5 0x043 anyOf).isSome = true ∧
    ((onRing5 linkChip (cmdOf (descOf (withRef 0x48) [(16, 3, 4), (19, 1, 1), (20, 1, 1)]) 1 [] [1, 2, 3, 4])).chip.front 5 0x048 anyOf).isSome = true ∧
    (cmdOf (descOf (withRef 0x48) [(16, 3, 4), (19, 1, 1), (20, 1, 1)]) 1 [] [1, 2, 3, 4]).len = 4 ∧
    ((onRing5 linkChip (cmdOf (descOf (withRef 0x48) [(16, 3, 4), (19, 1, 1), (20, 1, 2)]) 0 [] [])).chip.front 5 0x048 anyOf).isSome = true ∧
    firstOf (paletteChecks (cmdOf (descOf (withRef 0x48) [(16, 3, 4), (19, 1, 1), (20, 1, 2)]) 0 [] [])) = some (4, 0x10) ∧
    ((onRing5 {} (cmdOf (descOf 0x90 [(8, 1, 1), (9, 1, 15)]) 0 [] [])).chip.front 5 0x090 anyOf).isSome = true ∧
    ((onRing5 { tirba := { sigs := #v[[], [sigFrame0]] } } (cmdOf (descOf 0x91 [(20, 1, 1), (24, 4, 3)]) 0 [] [])).chip.front 5 0x091 anyOf).isSome = true ∧
    (onRing5 { tirba := { sigs := #v[[], [sigFrame0]] } } (cmdOf (descOf 0x91 [(20, 1, 1), (24, 4, 3)]) 0 [] [])).chip.sigFind 1 3 = .frame sigFrame0 := by
  decide +kernel

/-! TirbaPortsAndI2c -/

/-- A PORT_CONFIG of port 7 with 4 lanes of RAW8 at 80 Mbit/s and empty buffers at b. -/
def portCmd (b : Nat) : Cmd := cmdOf (descOf 0xA0 [(8, 1, 7), (9, 1, 4), (13, 1, 0x2A), (16, 4, b), (36, 2, 80)]) 0 [] []

theorem wit_TirbaPortsAndI2c_config (b : Nat) (hb : b = 0 ∨ b = 0x2FF0000) (f1 : inTirba b 0 = false) :
    (onRing5 {} (portCmd b)).chip.front 5 0x0A0 anyOf = some (portCmd b) ∧ (portCmd b).le 8 1 = 7 ∧
    firstOf (portFieldChecks (portCmd b) ++ rangeChecks ((portCmd b).le 16 4) (portBytes (portCmd b)) ++
      [((onRing5 {} (portCmd b)).chip.eyeBusy 7, 5, 0x11)]) = none := by
  have e1 : firstOf (portFieldChecks (portCmd b)) = none := by rcases hb with h | h <;> subst h <;> decide +kernel
  have e2 : (portCmd b).le 16 4 = b ∧ portBytes (portCmd b) = 0 := by rcases hb with h | h <;> subst h <;> decide +kernel
  have e3 : (onRing5 {} (portCmd b)).chip.eyeBusy 7 = false := by rcases hb with h | h <;> subst h <;> decide +kernel
  have bl : b ≤ 0x2FF0000 := by rcases hb with h | h <;> omega
  refine ⟨by rcases hb with h | h <;> subst h <;> decide +kernel, by rcases hb with h | h <;> subst h <;> decide +kernel, ?_⟩
  generalize (onRing5 {} (portCmd b)).chip = c at *
  simp only [firstOf, Option.map_eq_none_iff, List.find?_append] at e1 ⊢
  simp [e1, e2, e3, f1, rangeChecks, vlmSize]
  omega

theorem wit_TirbaPortsAndI2c_free : inTirba (freeBase + 0) 0 = false := freeBase_free _ _ (by decide)

/-- A chip with port 7 configured, with registers. -/
def portChip (l : List (Nat × Word)) : Chip := { regs := l, tirba := { ports := [7] } }

theorem wit_TirbaPortsAndI2c :
    ((onRing5 (portChip []) (cmdOf (descOf 0xA1 [(8, 1, 7), (9, 1, 1)]) 0 [] [])).chip.front 5 0x0A1 (fun q => q.le 9 1 != 0)).isSome = true ∧
    (onRing5 (portChip []) (cmdOf (descOf 0xA1 [(8, 1, 7), (9, 1, 1)]) 0 [] [])).chip.rb (R.EYE_CTRL 7) 0 = false ∧
    (onRing5 (portChip [(R.EYE_CTRL 7, 1)]) (cmdOf (descOf 0xA1 [(8, 1, 7), (9, 1, 1)]) 0 [] [])).chip.rb (R.EYE_CTRL 7) 0 = true ∧
    (portChip []).tirba.ports.contains 7 = true ∧
    ((onRing5 (portChip []) (cmdOf (descOf 0xA1 [(8, 1, 7)]) 0 [] [])).chip.front 5 0x0A1 (fun q => q.le 9 1 == 0)).isSome = true ∧
    (onRing5 (portChip []) (cmdOf (descOf 0xA1 [(8, 1, 7)]) 0 [] [])).chip.eyeRunning 7 = false ∧
    ((onRing5 {} (cmdOf (descOf 0xA2 [(8, 1, 7), (15, 1, 7)]) 0 [] [])).chip.front 5 0x0A2 anyOf).isSome = true ∧
    ((onRing5 {} (cmdOf (descOf 0xA3 [(8, 1, 7)]) 0 [] [])).chip.front 5 0x0A3 anyOf).isSome = true ∧
    ((onRing5 {} (cmdOf (descOf 0xA8 [(8, 1, 3), (12, 1, 32)]) 0 [] [])).chip.front 5 0x0A8 anyOf).isSome = true ∧
    (onRing5 {} (cmdOf (descOf 0xA8 [(8, 1, 3), (12, 1, 32)]) 0 [] [])).chip.rb (R.I2C_STAT 3) 0 = false ∧
    ((onRing5 { regs := [(R.I2C_STAT 3, 2)] } (cmdOf (descOf 0xA8 [(8, 1, 3), (12, 1, 32)]) 2 [] [])).chip.front 5 0x0A8 anyOf).isSome = true ∧
    (onRing5 { regs := [(R.I2C_STAT 3, 2)] } (cmdOf (descOf 0xA8 [(8, 1, 3)]) 2 [] [])).chip.rb (R.I2C_STAT 3) 1 = true ∧
    (onRing5 { regs := [(R.I2C_STAT 3, 2)] } (cmdOf (descOf 0xA8 [(8, 1, 3)]) 2 [] [])).chip.rb (R.I2C_STAT 3) 2 = false := by decide +kernel

theorem wit_TirbaPortsAndI2c_rate : (((List.finRange 8).filter fun m => m ≠ 7 ∧ (portChip []).eyeBusy m).map (portChip []).portRate).foldl (· + ·)
    ((portChip []).portRate 7) ≤ 2400 := by decide +kernel

theorem wit_TirbaPortsAndI2c_running : ∃ c : Chip, (onRing5 c (cmdOf (descOf 0xA1 [(8, 1, 7)]) 0 [] [])).chip.eyeRunning 7 = true ∧
    ((onRing5 c (cmdOf (descOf 0xA1 [(8, 1, 7)]) 0 [] [])).chip.front 5 0x0A1 (fun q => q.le 9 1 == 0)).isSome = true :=
  ⟨portChip [(R.EYE_STAT 7, 1)], by decide +kernel⟩

/-! TirbaSoundCommands -/

/-- A VOICE_PLAY of voice 95 from b, one frame of 16-bit mono. -/
def voiceCmd (b : Nat) : Cmd := cmdOf (descOf 0xC0 [(8, 1, 95), (12, 4, b), (16, 4, 1), (36, 2, 1)]) 0 [] []

theorem wit_TirbaSoundCommands_play (b : Nat) (hb : b = 0 ∨ b = 0x2FF0000) :
    (onRing5 {} (voiceCmd b)).chip.front 5 0x0C0 anyOf = some (voiceCmd b) ∧ (voiceCmd b).le 8 1 = 95 ∧ (voiceCmd b).le 12 4 = b ∧
    badGain ((voiceCmd b).le 34 1) ((voiceCmd b).le 36 2) = false ∧ (voiceCmd b).le 16 4 = 1 ∧ (voiceCmd b).le 10 1 = 0 ∧
    (voiceCmd b).le 20 4 + (voiceCmd b).le 24 4 = 0 ∧ (onRing5 {} (voiceCmd b)).chip.vState 95 = 0 ∧
    b + 1 * fmtBytes 0 ≤ vlmSize := by
  rcases hb with h | h <;> subst h <;> decide +kernel

theorem wit_TirbaSoundCommands_free : inTirba (freeBase + 0) (1 * fmtBytes 0) = false := freeBase_free _ _ (by decide)

theorem wit_TirbaSoundCommands :
    ((onRing5 {} (cmdOf (descOf 0xC1 [(8, 1, 95)]) 0 [] [])).chip.front 5 0x0C1 (actionIs 9 0 3 true)).isSome = true ∧
    ((onRing5 {} (cmdOf (descOf 0xC1 [(8, 1, 96)]) 0 [] [])).chip.front 5 0x0C1 (actionIs 9 0 3 true)).isSome = true ∧
    ((onRing5 {} (cmdOf (descOf 0xC1 [(8, 1, 95), (9, 1, 1)]) 0 [] [])).chip.front 5 0x0C1 (actionIs 9 1 3 false)).isSome = true ∧
    ((onRing5 {} (cmdOf (descOf 0xC1 [(8, 1, 95), (9, 1, 2), (16, 2, 64)]) 0 [] [])).chip.front 5 0x0C1 (actionIs 9 2 3 false)).isSome = true ∧
    badGain 0 64 = false ∧
    ((onRing5 {} (cmdOf (descOf 0xC1 [(8, 1, 95), (9, 1, 3)]) 0 [] [])).chip.front 5 0x0C1 (actionIs 9 3 3 false)).isSome = true ∧
    ((onRing5 {} (cmdOf (descOf 0xC2 [(20, 1, 7), (26, 2, 1), (28, 1, 0xFF)]) 0 [] [])).chip.front 5 0x0C2 anyOf).isSome = true ∧
    firstOf ((onRing5 {} (cmdOf (descOf 0xC2 [(20, 1, 7), (26, 2, 1), (28, 1, 0xFF)]) 0 [] [])).chip.busChecks
      (cmdOf (descOf 0xC2 [(20, 1, 7), (26, 2, 1), (28, 1, 0xFF)]) 0 [] [])) = none ∧
    ((onRing5 {} (cmdOf (descOf 0xC3 [(8, 1, 2), (9, 1, 1), (10, 1, 8), (11, 1, 24)]) 0 [] [])).chip.front 5 0x0C3 anyOf).isSome = true ∧
    (onRing5 {} (cmdOf (descOf 0xC3 []) 0 [] [])).chip.rb (R.AUD_PCTRL 2) 0 = false := by decide +kernel

theorem wit_TirbaSoundCommands_playing : (onRing5 { regs := [(R.V_STAT 95, 2)] } (cmdOf (descOf 0xC1 []) 0 [] [])).chip.vState 95 ≠ 0 := by decide +kernel

/-! TirbaDeviceAnswers -/

theorem wit_TirbaDeviceAnswers :
    ((onRing5 {} (cmdOf (descOf 0xE0 []) 0 [] [])).chip.front 5 0x0E0 anyOf).isSome = true ∧
    ((onRing5 {} (cmdOf (descOf 0xE1 [(8, 2, 1023), (10, 1, 15), (11, 1, 15)]) 0 [] [])).chip.front 5 0x0E1 anyOf).isSome = true ∧
    ((onRing5 {} (cmdOf (descOf 0xE1 [(8, 2, 1024)]) 0 [] [])).chip.front 5 0x0E1 anyOf).isSome = true ∧
    ((onRing5 {} (cmdOf (descOf 0xE2 [(10, 2, 150), (12, 2, 3300), (14, 1, 2)]) 0 [] [])).chip.front 5 0x0E2 anyOf).isSome = true ∧
    (fuses 0).chip.lcyState ≠ 6 ∧
    ((onRing5 {} (cmdOf (descOf 0xF0 []) 0 [] [])).chip.front 5 0x0F0 anyOf).isSome = true ∧
    ((onRing5 {} (cmdOf (descOf 0x102 []) 0 [] [])).chip.front 5 0x102 anyOf).isSome = true ∧
    ((onRing5 {} (cmdOf (descOf 0x110 []) 0 [] [])).chip.front 5 0x110 anyOf).isSome = true ∧
    ((onRing5 linkChip (cmdOf (descOf (withRef 0x120) [(16, 3, 64), (19, 1, 1), (20, 1, 1)]) 0 [] [])).chip.front 5 0x120 anyOf).isSome = true ∧
    ((onRing5 linkChip (cmdOf (descOf (withRef 0x120) [(19, 1, 1), (20, 1, 2)]) 0 [] [])).chip.front 5 0x120 anyOf).isSome = true := by decide +kernel

/-! TirbaDarningHoldAndReset -/

/-- Beam A running or not, with its link, its hold and an entry list. -/
def holdChip (run stat : Word) : Chip := { regs := [(R.PRK_STAT 0, run), (R.BMO_STAT 0, stat), (R.BMO_ENTER_LEN 0, 1)] }

theorem wit_TirbaDarningHoldAndReset :
    ((onRing5 {} (cmdOf (descOf 0xF1 [(10, 2, 95)]) 0 [] [])).chip.front 5 0x0F1 anyOf).isSome = true ∧
    (onRing5 {} (cmdOf (descOf 0xF1 [(10, 2, 95)]) 0 [] [])).chip.physBank 95 = 95 ∧
    ((onRing5 {} (cmdOf (descOf 0xF1 [(8, 1, 2), (10, 2, 31)]) 0 [] [])).chip.front 5 0x0F1 anyOf).isSome = true ∧
    ((onRing5 {} (cmdOf (descOf 0xF1 [(10, 2, 95)]) 2 [] [])).chip.front 5 0x0F1 anyOf).isSome = true ∧
    ((onRing5 {} (cmdOf (descOf 0xF8 [(8, 1, 1)]) 0 [] [])).chip.front 5 0x0F8 (actionIs 9 0 2 true)).isSome = true ∧
    ((onRing5 {} (cmdOf (descOf 0xF8 [(8, 1, 1)]) 2 [] [])).chip.front 5 0x0F8 (actionIs 9 0 2 true)).isSome = true ∧
    ((onRing5 {} (cmdOf (descOf 0xF8 [(8, 1, 1), (9, 1, 1)]) 0 [] [])).chip.front 5 0x0F8 (actionIs 9 1 2 false)).isSome = true ∧
    ((onRing5 {} (cmdOf (descOf 0xF8 [(8, 1, 1), (9, 1, 2)]) 0 [] [])).chip.front 5 0x0F8 (actionIs 9 2 2 false)).isSome = true ∧
    ((onRing5 {} (cmdOf (descOf 0xF9 [(12, 4, 0x52535444)]) 0 [] [])).chip.front 5 0x0F9 (actionIs 8 0 1 true)).isSome = true ∧
    ((onRing5 {} (cmdOf (descOf 0xF9 [(8, 1, 1), (12, 4, 0x52535444)]) 0 [] [])).chip.front 5 0x0F9 (actionIs 8 1 1 false)).isSome = true ∧
    (cmdOf (descOf 0xF9 [(12, 4, 0x52535444)]) 0 [] []).le 12 4 = 0x52535444 := by decide +kernel

theorem wit_TirbaDarningHoldAndReset_states :
    (onRing5 { vlm := { map := [(95, 96)] } } (cmdOf (descOf 0xF1 [(10, 2, 95)]) 0 [] [])).chip.physBank 95 ≠ 95 ∧
    (onRing5 { vlm := { map := [(0, 96), (1, 97), (2, 98), (3, 99), (4, 100), (5, 101)] } } (cmdOf [] 0 [] [])).chip.freeSpares = [] ∧
    (onRing5 {} (cmdOf [] 0 [] [])).chip.motif.spareFor = none ∧
    (onRing5 (holdChip 1 2) (cmdOf [] 0 [] [])).chip.running 0 = true ∧ (onRing5 (holdChip 1 2) (cmdOf [] 0 [] [])).chip.holdUnset 0 = false ∧
    (onRing5 (holdChip 1 2) (cmdOf [] 0 [] [])).chip.holdSt 0 = 0 ∧ (onRing5 (holdChip 1 0x22) (cmdOf [] 0 [] [])).chip.holdSt 0 = 2 ∧
    (onRing5 (holdChip 1 2) (cmdOf [] 0 [] [])).chip.link 0 = 2 ∧ (onRing5 (holdChip 0 0) (cmdOf [] 0 [] [])).chip.running 0 = false ∧
    (onRing5 (holdChip 0 0) (cmdOf [] 0 [] [])).chip.tirba.started[(0 : Beam)] = false := by decide +kernel

/-! TirbaFirmwareAndLifeCycle -/

/-- A staging of a host payload of 300 zero bytes in slot A. -/
def stageCmd (stage : Nat) : Cmd := cmdOf (descOf (withRef 0x100) [(16, 3, 300), (19, 1, 1)]) stage [] (List.replicate 300 0)

/-- A state whose sequencer blows group 8. -/
def blowing : State := { chip := { lcy := { groups := Vector.replicate 47 0, hash := Vector.replicate 4 0, op := some { hash := none, groups := [8] } } } }

theorem wit_TirbaFirmwareAndLifeCycle_end :
    blowing.chip.lcy.op = some { hash := none, groups := [8] } ∧ blowing.chip.hashFuses { hash := none, groups := [8] } = [] ∧
    (blowing.chip.blowGroups [] [8]).1 = true ∧ (blowing.chip.blowGroups [(8, 0), (8, 1), (8, 2), (8, 3), (8, 4)] [8]).1 = false := by
  decide +kernel

theorem wit_TirbaFirmwareAndLifeCycle :
    ((onRing5 linkChip (stageCmd 1)).chip.front 5 0x100 (fun q => q.stage == 2)).isNone = true ∧
    ((onRing5 linkChip (stageCmd 1)).chip.front 5 0x100 (fun _ => true)).isSome = true ∧ (stageCmd 1).len = 300 ∧
    ((stageCmd 1).payload.take 300).length ≠ 256 + hdrLength ((stageCmd 1).payload.take 256) ∧
    ((onRing5 linkChip (stageCmd 2)).chip.front 5 0x100 (fun q => q.stage == 2)).isSome = true ∧
    ((onRing5 {} (cmdOf (descOf 0x101 [(8, 1, 1)]) 0 [] [])).chip.front 5 0x101 anyOf).isSome = true ∧
    (onRing5 { tirba := { runSlot := 1 } } (cmdOf (descOf 0x101 [(8, 1, 1)]) 0 [] [])).chip.tirba.runSlot = 1 ∧
    ((onRing5 { tirba := { runSlot := 1 } } (cmdOf (descOf 0x101 [(8, 1, 1)]) 0 [] [])).chip.front 5 0x101 anyOf).isSome = true ∧
    (if (slotOf 0).headerErr then 9 else (onRing5 {} (cmdOf [] 0 [] [])).chip.headerStatus (slotOf 0).header) = 2 ∧
    ((onRing5 linkChip (cmdOf (descOf (withRef 0x111) [(19, 1, 1)]) 2 [] [])).chip.front 5 0x111 (fun q => q.stage == 2)).isSome = true ∧
    State.reset.chip.lcyBusy = false ∧ tb (0x80000000 : Word) 31 = true := by decide +kernel

/-! PlanesAndMotifs -/

/-- A captured line 5 of plane 0 on Beam A. -/
def snapPlane : State := { chip := { planes := upd (Vector.replicate 8 {}) 0 fun p => { p with snaps := [⟨0, 5, 0, 8, 0, 32, 32, 0, 0, 0, 0, 0, 1, 1, false, none, []⟩] } } }

/-- Motif state of Beam A. -/
def motifState (m : MotifBeam) : State := { chip := { motifB := #v[m, {}], regs := [(mtfCfg 0, 1), (R.PRK_STAT 0, 1)] } }

theorem wit_PlanesAndMotifs :
    (((snapPlane.chip.planes[(0 : Plane)]).snaps.find? fun y => y.beam == (0 : Beam) && y.line == (5 : BitVec 13).toNat).map fun x => x.affine) = some false ∧
    State.reset.chip.inTransfer 0 = false ∧ (withRegs [(R.APQ_COMMIT 0, 0x20)]).chip.inTransfer 0 = true ∧
    ((motifState { loading := true }).chip.motifB[(0 : Beam)]).loading = true ∧ (motifState { loading := true }).chip.motif.inval = none ∧
    (motifState {}).chip.running 0 = true ∧ ((motifState {}).chip.line 0 + 2) % ((motifState {}).chip.beam 0).vtotal < ((motifState {}).chip.beam 0).vactive ∧
    (motifState {}).chip.rb (mtfCfg 0) 0 = true ∧ (motifState {}).chip.shed 4 = false ∧
    (((motifState { evals := [(7, [])] }).chip.motifB[(0 : Beam)]).evals.find? fun e => e.1 == (7 : BitVec 13).toNat) = some (7, []) ∧
    (withRegs [(R.MTF_INVAL_STAT, 1)]).chip.rb R.MTF_INVAL_STAT 0 = true ∧ State.reset.chip.rb R.MTF_INVAL_STAT 0 = false ∧
    fld (0x03000400 : Word) 20 10 = 1 ∧ fld (0x03000400 : Word) 25 24 = 3 ∧ (∀ b : Beam, (State.reset.chip.motifB[b]).loading = false) := by
  decide +kernel

/-! EyeletFramesAndPackets -/

/-- Port 0 running with given frames. -/
def eyeState (fs : List EyeFrame) : State := { chip := { eye := upd (Vector.replicate 8 {}) 0 fun p => { p with frames := fs }, regs := [(R.EYE_STAT 0, 1), (R.EYE_LOST 0, 5)] } }

/-- A frame of RGB888 with no row yet. -/
def frame0 : EyeFrame := { serial := 0, geom := ⟨0, false, false, 0x24, 16, 0, 64, 0, 0, 1, 1, 1, 1⟩, fnum := 1, pipe := 0, dead := false, buf := 0, taps2 := true }

theorem wit_EyeletFramesAndPackets :
    (eyeState []).chip.eyeRunning 0 = true ∧ (eyeState []).chip.rf (R.EYE_CTRL 0) 9 8 = (0 : Fin 4).val ∧
    (eyeState []).chip.rf (R.EYE_CTRL 0) 9 8 ≠ (3 : Fin 4).val ∧ ((eyeState []).chip.eye[(0 : Port)]).current = none ∧
    ((eyeState [frame0]).chip.eye[(0 : Port)]).current = some frame0 ∧ (0x24 : BitVec 6).toNat = frame0.geom.dt ∧
    (eyeState []).chip.rf (R.EYE_LOST 0) 9 0 ≠ 0 ∧ (eyeState []).chip.rb (R.EYE_STAT 0) 3 = false ∧
    State.reset.chip.eyeRunning 0 = false := by decide +kernel

theorem wit_EyeletFramesAndPackets_row :
    let f : EyeFrame := { frame0 with rows := [[{ r := 1, g := 2, b := 3 }]] }
    ((eyeState [f]).chip.eye[(0 : Port)]).frames = [f] ∧ f.next < f.geom.outH ∧
    ((eyeState [f]).chip.rowDeps 0 f f.next).all (fun y => (f.source y).any Option.isSome) = true ∧ f.dead = false ∧ f.geom.mode ≠ 2 ∧
    f.landed = false := by decide +kernel

/-! CompositionAndCommits -/

/-- Beam A with registers, its compositor and its output block. -/
def beamOutState (l : List (Nat × Word)) (q : ApqBeam) (m : BmoBeam) : State := { chip := { regs := l, apq := #v[q, {}], bmo := #v[m, {}] } }

theorem wit_CompositionAndCommits :
    let r : State := beamOutState [(R.PRK_STAT 0, 1)] { snaps := [{ line := 0, mode := 0, backdrop := 0, order := [] }] } {}
    let u : State := beamOutState [(R.APQ_COMMIT 0, 0x20), (R.PRK_STAT 0, 1)] { held := [.spal 3 5], armAfter := true } {}
    let o : State := beamOutState [(R.BMO_STAT 0, 2)] {} {}
    r.chip.running 0 = true ∧ (r.chip.apq[(0 : Beam)]).started < (r.chip.beam 0).vactive ∧ r.chip.layersReady 0 0 = true ∧
    (r.chip.apq[(0 : Beam)]).started = 0 ∧ (r.chip.apq[(0 : Beam)]).outLine < (r.chip.beam 0).vactive ∧ r.chip.line 0 = (r.chip.apq[(0 : Beam)]).outLine ∧
    64 * (r.chip.apq[(0 : Beam)]).outSpan + 128 < (r.chip.beam 0).htotal ∧ (r.chip.apq[(0 : Beam)]).overtook = [] ∧
    u.chip.rf (R.APQ_COMMIT 0) 5 4 = 2 ∧ (u.chip.apq[(0 : Beam)]).held = [.spal 3 5] ∧ (u.chip.apq[(0 : Beam)]).armAfter = true ∧
    u.chip.running 0 = true ∧ (withRegs [(R.APQ_COMMIT 0, 0x30)]).chip.rf (R.APQ_COMMIT 0) 5 4 = 3 ∧
    (withRegs [(R.APQ_COMMIT 0, 0x20)]).chip.rf (R.APQ_COMMIT 0) 5 4 = 2 ∧ ((withRegs [(R.APQ_COMMIT 0, 0x20)]).chip.apq[(0 : Beam)]).held = [] ∧
    ((withRegs [(R.APQ_COMMIT 0, 0x20)]).chip.apq[(0 : Beam)]).armAfter = false ∧
    State.reset.chip.rf (R.APQ_COMMIT 0) 5 4 = 0 ∧ State.reset.chip.running 0 = false ∧
    r.chip.rf (R.APQ_COMMIT 0) 5 4 = 0 ∧ o.chip.link 0 = 2 ∧ o.chip.rb (R.BMO_CTRL 0) 0 = false ∧ o.chip.holdSt 0 = 0 ∧
    (o.chip.bmo[(0 : Beam)]).inFrame = false := by decide +kernel

/-! LinksCommandsAndHolding -/

theorem wit_LinksCommandsAndHolding :
    let u (v : Word) : State := beamOutState [(R.BMO_STAT 0, v)] {} {}
    let r : State := beamOutState [(R.PRK_STAT 0, 1), (R.PRK_POS 0, 5 * 16384), (R.BMO_STAT 0, 2)] {} { frameOn := true, inFrame := true }
    (u 2).chip.link 0 = 2 ∧ (u 2).chip.bmoMode 0 ≠ 2 ∧ ((u 2).chip.bmo[(0 : Beam)]).heldFrame = none ∧
    r.chip.link 0 = 2 ∧ r.chip.running 0 = true ∧ 2 ≤ r.chip.line 0 ∧ r.chip.line 0 < (r.chip.beam 0).vactive ∧
    (r.chip.bmo[(0 : Beam)]).frameOn = true ∧ (r.chip.bmo[(0 : Beam)]).inFrame = true ∧ (r.chip.bmo[(0 : Beam)]).heldFrame = none ∧
    ((beamOutState [] {} { fifo := List.replicate 64 0 }).chip.bmo[(0 : Beam)]).level = 64 ∧
    ((beamOutState [] {} { fifo := List.replicate 63 0 }).chip.bmo[(0 : Beam)]).level = 63 ∧
    splitPackets 64 [0x05, 0x00280039, 0x0000002A] = ([[0x05]], [], true) ∧
    (u 1).chip.link 0 = 1 ∧ ((beamOutState [] {} { ready := [[5]] }).chip.bmo[(0 : Beam)]).ready = [[5]] ∧
    (withRegs [(R.GPIO_PAD 9, 1)]).chip.rf (R.GPIO_PAD (9 + (0 : Beam).val)) 2 0 = 1 ∧
    (withRegs [(R.BMO_CTRL 0, 0x2000)]).chip.rb (R.BMO_CTRL 0) 13 = true ∧ (withRegs [(R.BMO_CTRL 0, 0x2000)]).chip.rb (R.BMO_CTRL 0) 14 = false ∧
    (u 1).chip.holdSt 0 = 0 ∧ (u 3).chip.link 0 = 3 ∧ (u 3).chip.holdSt 0 = 0 ∧ (u 4).chip.link 0 = 4 ∧ ((u 4).chip.bmo[(0 : Beam)]).marking = false ∧
    (u 0x22).chip.holdSt 0 = 2 ∧ (u 0x12).chip.holdSt 0 ≠ 2 := by decide +kernel

theorem wit_LinksCommandsAndHolding_list :
    let u (len : Word) : State := withRegs [(R.BMO_STAT 0, 2), (R.BMO_ENTER_LEN 0, len)]
    ((u 0).chip.holdList 0 ((u 0).chip.rd (R.BMO_ENTER_BASE 0)).toNat ((u 0).chip.rf (R.BMO_ENTER_LEN 0) 8 0)).1 = some [] ∧
    ((u 4).chip.holdList 0 ((u 4).chip.rd (R.BMO_ENTER_BASE 0)).toNat ((u 4).chip.rf (R.BMO_ENTER_LEN 0) 8 0)).1 = none := by decide +kernel

/-! VoicesBusesAndAudioPorts -/

/-- Voice 0 in a state, with the sound engine's other registers. -/
def voiceIn (n : Nat) (l : List (Nat × Word)) : State := { State.reset with chip := ({ regs := l } : Chip).setVState 0 n }

theorem wit_VoicesBusesAndAudioPorts :
    (voiceIn 2 []).chip.vState 0 ≠ 0 ∧ (voiceIn 0 []).chip.vState 0 = 0 ∧ (voiceIn 0 []).chip.armCause 0 ≠ 0 ∧
    (voiceIn 0 [(R.V_LENGTH 0, 100)]).chip.vState 0 = 0 ∧ (voiceIn 0 [(R.V_LENGTH 0, 100)]).chip.armCause 0 = 0 ∧
    (voiceIn 1 []).chip.vState 0 = 1 ∧ (voiceIn 2 []).chip.vState 0 = 2 ∧
    ((voiceIn 0 []).chip.store (R.V_GAIN 0) 5).vState 0 = 0 ∧ ((voiceIn 3 []).chip.store (R.V_GAIN 0) 5).vState 0 ≠ 0 ∧
    ((withRegs [(R.SND_BUS_CTRL 0, 1)]).chip.store (R.SND_BUS_GAIN 0) 7).rb (R.SND_BUS_CTRL 0) 0 = true ∧
    (State.reset.chip.store (R.SND_BUS_GAIN 0) 7).rb (R.SND_BUS_CTRL 0) 0 = false ∧
    vlmSize < 0x2FFFFC0 + 128 ∧ State.reset.chip.rb (R.AUD_PCTRL 0) 0 = false ∧
    (withRegs [(R.AUD_PCTRL 0, 1), (R.AUD_PCTRL 1, 1)]).chip.rb (R.AUD_PCTRL 0) 0 = true ∧
    (((withRegs [(R.AUD_PCTRL 0, 1), (R.AUD_PCTRL 1, 1)]).chip.wb (R.AUD_PCTRL 0) 0 false).wb (R.AUD_PSTAT 0) 0 false).rb (R.AUD_PCTRL 1) 0 = true ∧
    State.reset.chip.rb R.AUD_CLK 2 = false ∧ State.reset.chip.framesExist = false := by decide +kernel

theorem wit_VoicesBusesAndAudioPorts_run :
    let x : Chip := { regs := [(R.AUD_CLK, 0x105), (R.AUD_PCTRL 1, 1), (R.AUD_PSTAT 1, 1)] }
    x.rb R.AUD_CLK 2 = true ∧ x.audRunning 1 = true ∧ x.onEngineEdge 1 = false ∧ (1 : Fin 3).val ≠ 2 ∧
    (let c : Chip := { regs := [(R.AUD_CLK, 0x101), (R.AUD_PCTRL 1, 1), (R.AUD_PSTAT 1, 1)] }
     let d := ((c.wr R.AUD_FS_TIME c.timeLo).incWrap R.AUD_FRAME).onSnd fun s => { s with prev0 := s.next0, prev1 := s.next1 }
     let e := (d.audOut 0 []).audOut 1 []
     c.framesExist = true ∧ e.audRunning 2 = false ∧ (e.computeFrame [] []).engineOn = false) ∧
    (({ snd := { voices := [] , buses := upd (Vector.replicate 8 {}) 0 fun k => { k with loading := some 0x2FFFFC0 } } } : Chip).snd.buses[(0 : Bus)]).loading = some 0x2FFFFC0 ∧
    ({} : Chip).frames (({ releaseMs := 10 } : VoiceSt).releaseMs) ≠ 0 := by decide +kernel

/-! TimersCountAndStart -/

theorem wit_TimersCountAndStart :
    let u (l : List (Nat × Word)) (t : TmrSt) : Chip := { regs := l, time := 9, tmr := t }
    (u [(R.TMR_TCTRL, 1)] { tcmp := 9 }).rb R.TMR_TCTRL 0 = true ∧ (u [] { tcmp := 9 }).tmr.passed = false ∧
    (u [] { tcmp := 9 }).tmr.tcmp ≤ (u [] { tcmp := 9 }).time ∧ (u [] {}).rb R.TMR_TCTRL 0 = false ∧
    (0 : Word) ++ (u [] { tcmpLo := 9 }).tmr.tcmpLo ≤ (u [] {}).time ∧
    (u [(R.TMR_STAT 2, 8)] {}).tickLost = false ∧ (u [(R.TMR_STAT 2, 8)] {}).rb (R.TMR_CTRL 2) 8 = false ∧
    (u [(R.TMR_STAT 2, 8)] {}).chRun 2 = true ∧ (u [] {}).chRun 2 = false ∧ (u [(R.TMR_CTRL 2, 0x1000000)] {}).rb (R.TMR_CTRL 2) 24 = true ∧
    (u [] {}).rb (R.TMR_CTRL 2) 24 = false := by decide +kernel

/-! LpStepperKeepsTime -/

theorem wit_LpStepperKeepsTime :
    let c : Chip := { regs := [(R.AON_PWR, 0x20)], tmr := { lp := true, acc := 15 } }
    c.tickLost = true ∧ c.tmr.lp = true ∧ c.tmr.acc < 16 := by decide +kernel

/-! CheckUnitsFeedAndCompare -/

theorem wit_CheckUnitsFeedAndCompare : (State.reset.chip.chk[(4 : ChkCh)]).w = 32 ∧ 4 ≤ (4 : ChkCh).val := by decide

/-! BobbinsStartStopAndTrigger -/

/-- Bobbin 0 in a phase, with registers and memory. -/
def bobState (b : BobSt) (l : List (Nat × Word)) (m : List (Nat × Byte)) : State := { chip := { regs := l, mem := m, bob := upd (Vector.replicate 16 {}) 0 fun _ => b } }

theorem wit_BobbinsStartStopAndTrigger :
    let u (p : BobPhase) (l : List (Nat × Word)) : Chip := (bobState { phase := p } l []).chip
    (u .idle []).bobRunning 0 = false ∧ (u .fetch [(R.BOB_STAT 0, 1)]).bobRunning 0 = true ∧ ((u .fetch []).bob[(0 : BobCh)]).phase = .fetch ∧
    ((u .move []).bob[(0 : BobCh)]).phase ≠ .fetch ∧ (u .fetch []).power = 0 ∧ (u .fetch []).ue = [] ∧
    bobTarget ((u .fetch []).rd (R.BOB_CUR 0)).toNat ≠ .vellum ∧ ((u .fetch []).rd (R.BOB_CUR 0)).toNat = 0 ∧
    (u .wait [(R.BOB_CTRL 0, 1), (R.BOB_TRIG 0, 0x2001)]).bobTrigOf 0 (1 : BitVec 2).toNat (32 : BitVec 6).toNat = true ∧
    (u .wait [(R.BOB_CTRL 0, 1)]).rb (R.BOB_CTRL 0) 0 = true ∧ (u .move [(R.BOB_STAT 0, 0xF0000)]).rf (R.BOB_STAT 0) 19 16 = 15 ∧
    (u .move [(R.BOB_STAT 0, 0xE0000)]).rf (R.BOB_STAT 0) 19 16 ≠ 15 := by decide +kernel

theorem wit_BobbinsStartStopAndTrigger_desc :
    let u (m : List (Nat × Byte)) : Chip := (bobState { phase := .fetch } [(R.BOB_CUR 0, 0x00200100)] m).chip
    ((bobDesc ((u []).bytes 0x00200100 32)).map fun x => x.null) = some true ∧
    ((bobDesc ((u [(0x00200104, 16), (0x0020010B, 0x10), (0x0020010F, 0x10)]).bytes 0x00200100 32)).map fun x =>
      (x.null, x.check false, x.trig, x.rowTrig)) = some (false, 0, false, false) := by decide +kernel

/-! BobbinCopiesVellum -/

theorem wit_BobbinCopiesVellum :
    let d : BobDesc := ⟨false, false, false, false, false, false, false, false, true, 0, 32, vlmBase + 8, vlmBase, 0, 0, 0⟩
    let c : Chip := (bobState { phase := .move, desc := some d } [] []).chip
    (c.bob[(0 : BobCh)]).phase = .move ∧ (c.bob[(0 : BobCh)]).desc = some d ∧ c.power = 0 ∧ c.rf (R.BOB_ROW 0) 15 0 = 0 ∧ c.rd (R.BOB_OFF 0) = 0 ∧
    c.ue = [] ∧ vlmBase ≤ d.src ∧ d.src + d.count ≤ vlmBase + vlmSize ∧ vlmBase ≤ d.dst ∧ d.dst ≤ d.src ∧ 0 < d.count := by decide +kernel

/-! UartsMoveCharacters -/

/-- UART 0 in a state. -/
def uartState (x : UartSt) : Chip := { ser := { uart := #v[x, {}] } }

theorem wit_UartsMoveCharacters :
    ((uartState {}).uart 0).tx.length < 32 ∧ 32 ≤ ((uartState { tx := List.replicate 32 5 }).uart 0).tx.length ∧
    ((uartState { rx := [7] }).uart 0).rx = [7] ∧ ((uartState { tx := [5, 6], sending := some (6, 0x341) }).uart 0).tx = [5, 6] ∧
    [(6 : Byte)].length ≠ (uartState {}).rf (R.UART_FIFO 0) 12 8 ∧
    uartFrame ((uartState {}).rd (R.UART_CTRL 0)) [true, false, false, false, false, false, true, false, true] = some (0x41, false, false, false) ∧
    uartFrame ((uartState {}).rd (R.UART_CTRL 0)) (List.replicate 9 false) = some (0, true, false, true) ∧
    32 ≤ ((uartState { rx := List.replicate 32 5 }).uart 0).rx.length ∧ ((uartState { rx := [7] }).uart 0).rx.length + 1 ≠ (uartState {}).rf (R.UART_FIFO 0) 4 0 ∧
    ((uartState { rx := [7] }).uart 0).timedOut = false := by decide +kernel

/-! SerialBusesAdcAndGpio -/

theorem wit_SerialBusesAdcAndGpio :
    let q (n : Word) (o : Option Half) : Chip := { regs := [(R.ADC_STAT, n)], ser := { adcSeq := o } }
    (withRegs [(R.QSPI_STAT, 1)]).chip.rb R.QSPI_STAT 0 = true ∧ State.reset.chip.rb R.QSPI_STAT 0 = false ∧
    (({ } : Chip).store R.QSPI_CMD 5).power = 0 ∧ tb ((withRegs [(R.QSPI_STAT, 1)]).chip.rd R.QSPI_CMD) 17 = false ∧
    (({ } : Chip).store (R.I2C_XFER 0) 5).rb (R.I2C_STAT 0) 0 = false ∧ (({ } : Chip).store (R.I2C_XFER 0) 5).power = 0 ∧
    (({ ser := { i2c := #v[some { addr := 1, wr := [], rlen := 2, speed := 0 }, none, none, none] } } : Chip).ser.i2c[(0 : Fin 4)]).isSome = true ∧
    (withRegs [(R.I2C_STAT 0, 1)]).chip.rb (R.I2C_STAT 0) 0 = true ∧
    (q 0 none).ser.adcSeq = none ∧ (q 0 none).rf R.ADC_STAT 6 4 = 0 ∧ (q 0 none).power = 0 ∧ (q 0x30 (some 1)).rf R.ADC_STAT 6 4 < 4 ∧
    4 ≤ (q 0x40 (some 1)).rf R.ADC_STAT 6 4 ∧ (withRegs [(R.ADC_TRIG, 0x2001)]).chip.rb R.ADC_TRIG 0 = true ∧
    (withRegs [(R.ADC_TRIG, 0x2001)]).chip.rf R.ADC_TRIG 13 8 = (32 : BitVec 6).toNat ∧ (withRegs [(R.ADC_CTRL, 4)]).chip.rb R.ADC_CTRL 2 = true ∧
    tb ({ } : Chip).ser.balls 47 ≠ true ∧ (if ({ } : Chip).rb (R.GPIO_PAD 47) 12 then 3 else 1) ≤ 1 := by decide +kernel

/-! LanternDecidesAndSheds -/

/-- Lantern with registers and its own state. -/
def ltnState (l : List (Nat × Word)) (x : LtnSt) : Chip := { regs := l, ltn := x }

theorem wit_LanternDecidesAndSheds :
    (ltnState [] {}).power = 0 ∧ (ltnState [] { limited := [0] }).ltnLimit = true ∧
    ((List.range 5).find? fun s => decide ((ltnState [] { limited := [0] }).shedLevel < s) && (ltnState [] { limited := [0] }).shedAllowed s) = some 1 ∧
    (ltnState [] {}).rb R.LTN_CTRL 0 = false ∧ (ltnState [(R.LTN_VSET, 41)] {}).vcode < 41 ∧
    clampN (ltnState [(R.LTN_VSET, 41)] {}).vMin (ltnState [(R.LTN_VSET, 41)] {}).vMax (min 77 ((ltnState [(R.LTN_VSET, 41)] {}).rf R.LTN_VSET 6 0)) = 41 ∧
    clampN (ltnState [(R.LTN_VSET, 39)] {}).vMin (ltnState [(R.LTN_VSET, 39)] {}).vMax (min 77 ((ltnState [(R.LTN_VSET, 39)] {}).rf R.LTN_VSET 6 0)) = 39 ∧
    39 < (ltnState [] {}).vcode ∧ (ltnState [] {}).vcode = clampN (ltnState [] {}).vMin (ltnState [] {}).vMax (min 77 ((ltnState [] {}).rf R.LTN_VSET 6 0)) ∧
    (ltnState [] {}).phaseOn 11 = true ∧ tb (0x80000005 : Word) 31 = true ∧ fld (0x80000005 : Word) 3 0 = 5 ∧
    ((ltnState [] {}).store R.LTN_ISOLATE 0x80000005).phaseOn 5 = true ∧
    ((ltnState [] { engaging := [(12, 3)] }).ltn.engaging.find? fun e => e.1 == (12 : Phase).val) = some (12, 3) := by decide +kernel

theorem wit_LanternDecidesAndSheds_blind :
    let c : Chip := ltnState [] {}
    let ps : List (Nat × Nat × Nat) := ((List.range 14).filter c.phaseOn).map fun p =>
      (p, (([] : List (Half × BitVec 10)).getD p (0, 0)).1.toNat, (([] : List (Half × BitVec 10)).getD p (0, 0)).2.toNat)
    sumFails 1000 3300 600 (ps.map fun x => x.2.1) = true ∧ (plausFails ps).filter (fun p => c.phaseSt p == 1) = [] := by decide +kernel

/-! VcoreTargetStaysInItsLimits -/

theorem wit_VcoreTargetStaysInItsLimits : State.reset.chip.vMin ≤ State.reset.chip.vcode ∧ State.reset.chip.vcode ≤ State.reset.chip.vMax := by
  decide +kernel

/-! EmberCharges -/

/-- Ember with registers and its own state. -/
def embState (l : List (Nat × Word)) (x : EmbSt) : Chip := { regs := l, emb := x }

theorem wit_EmberCharges :
    (embState [] {}).rb R.AON_STAT 0 = false ∧ (embState [(R.EMB_CTRL, 1)] {}).rb R.EMB_CTRL 0 = true ∧ (embState [(R.EMB_CTRL, 1)] {}).power ≤ 1 ∧
    (∃ t ∈ ([451] : List Int), 450 < t ∨ t < 0) ∧ (∀ t ∈ ([20, 430] : List Int), 20 ≤ t ∧ t ≤ 430) ∧
    (embState [(R.EMB_STAT, 1)] {}).charge = 1 ∧ (embState [(R.EMB_STAT, 1)] {}).emb.noCell = false ∧
    (embState [(R.EMB_STAT, 2)] {}).charge = 2 ∧ (embState [(R.EMB_STAT, 2)] {}).rb R.EMB_STAT 5 = false ∧
    (embState [(R.EMB_STAT, 3)] {}).charge = 3 ∧ (embState [(R.EMB_STAT, 4)] {}).charge = 4 ∧ (embState [(R.EMB_STAT, 4)] {}).rb R.EMB_STAT 4 = false ∧
    (embState [(R.EMB_STAT, 5)] {}).charge = 5 ∧ (embState [] { noCell := true }).emb.noCell = true ∧
    tb (0 : Word) 0 = false ∧ tb (1 : Word) 0 = true ∧ tb ((embState [] {}).rd R.EMB_CTRL) 0 = false ∧ ((embState [] {}).store R.EMB_CTRL 1).power ≤ 1 := by
  decide +kernel

/-! RtcPowerStatesAndWake -/

theorem wit_RtcPowerStatesAndWake :
    let u (sub cal : Word) : Chip := embState [(R.AON_RTC_SUB, sub), (R.AON_RTC_CAL, cal)] {}
    (0 : Int) ≤ ((u 5 0xFB).rd R.AON_RTC_SUB).toNat + signed 8 ((u 5 0xFB).rf R.AON_RTC_CAL 7 0) ∧
    ((u 4 0xFB).rd R.AON_RTC_SUB).toNat + signed 8 ((u 4 0xFB).rf R.AON_RTC_CAL 7 0) < 0 ∧
    (32768 : Int) ≤ ((u 32767 1).rd R.AON_RTC_SUB).toNat + signed 8 ((u 32767 1).rf R.AON_RTC_CAL 7 0) ∧
    fld (0 : Word) 1 0 = 0 ∧ (embState [] {}).power ≠ 1 ∧ fld (3 : Word) 1 0 ≠ (embState [] {}).power ∧ fld (3 : Word) 1 0 ≠ 0 ∧
    ((embState [] {}).wf R.AON_PWR 1 0 3).wakeLevelHolds 0 = false ∧ ((embState [] {}).wf R.AON_PWR 1 0 3).wakeLevelHolds 1 = false ∧
    (embState [(R.AON_PWR, 0x101)] {}).rb R.AON_PWR 8 = true ∧ (embState [(R.AON_PWR, 0x101)] {}).rf R.AON_PWR 1 0 = 1 ∧
    (embState [] {}).rb R.AON_PWR 8 = false ∧ 3 < (embState [(R.AON_WAKE_CFG, 0x400)] {}).rf R.AON_WAKE_CFG 15 8 ∧
    (embState [(R.AON_WAKE_CFG, 0x402)] {}).rf R.AON_WAKE_CFG 15 8 ≤ 4 ∧ (embState [(R.AON_WAKE_CFG, 0x402)] {}).rf R.AON_WAKE_CFG (2 * 0 + 1) (2 * 0) = 2 ∧
    (embState [(R.AON_WAKE_EN, 4)] {}).rb R.AON_WAKE_EN (2 : Fin 5) = true ∧ (embState [(R.AON_PWR, 0x10)] {}).power = 1 ∧
    2 ≤ (embState [(R.AON_PWR, 0x30)] {}).power ∧ (embState [(R.AON_PWR, 0x30)] { vin := 3000 }).emb.vin ≤ 3000 ∧
    3000 < (embState [] {}).emb.vin ∧ (embState [(R.AON_PWR, 0x20)] { waking := true }).emb.waking = true := by decide +kernel

/-! SlicesVoicesAndJournal -/

theorem wit_SlicesVoicesAndJournal :
    let u (m : MotifSt) (l : List (Nat × Word)) : Chip := { regs := l, motif := m }
    (u {} [(R.DRN_CTRL, 2)]).rb R.DRN_CTRL 1 = true ∧ (u {} []).motif.spareFor = none ∧
    (u {} []).motif.suspects.contains ((u {} []).rf R.DRN_SLICE_CHK 4 0) = false ∧
    (u { suspects := [0] } []).motif.suspects.contains ((u { suspects := [0] } []).rf R.DRN_SLICE_CHK 4 0) = true ∧
    (u {} []).rb R.DRN_JRN_BASE 0 = false ∧ (u {} [(R.DRN_JRN_BASE, 1)]).rb R.DRN_JRN_BASE 0 = true ∧
    (u {} [(R.DRN_JRN_BASE, 1)]).rf R.DRN_JRN_BASE 25 13 * 0x2000 + 32 * (((u {} [(R.DRN_JRN_BASE, 1)]).rd R.DRN_JRN_SEQ).toNat % 256) + 32 ≤ vlmSize ∧
    (({} : Chip).journal 5 1 2 3 4 5).jrnQ.length = 1 ∧
    ({ State.reset.chip with tirba := { applied := false } } : Chip).tirba.applied = false := by decide +kernel

theorem wit_SlicesVoicesAndJournal_up :
    let u : Chip := (onRing5 ({ regs := [(R.SYS_BOOT_CTRL, 1)] } : Chip) (cmdOf [] 0 [] [])).chip
    u.tirbaUp = true ∧ u.romLocked = true ∧ u.tirba.applied = false := by decide +kernel

/-! RasterProgramsAndAdoption -/

/-- A raster program of core 3 in a state. -/
def rasterChip (st : Nat) : Chip := ({} : Chip).onRaster 3 fun p => { p with state := st }

theorem wit_RasterProgramsAndAdoption :
    ((onRing5 linkChip (cmdOf (descOf (withRef 0x130) [(19, 1, 1), (20, 1, 7)]) 0 [] [])).chip.front 5 0x130 anyOf).isSome = true ∧
    firstOf ((onRing5 linkChip (cmdOf (descOf (withRef 0x130) [(19, 1, 1), (20, 1, 7)]) 0 [] [])).chip.loadChecks
      (cmdOf (descOf (withRef 0x130) [(19, 1, 1), (20, 1, 7)]) 0 [] [])) = some (4, 0x11) ∧
    ((onRing5 {} (cmdOf (descOf 0x131 [(8, 1, 7)]) 0 [] [])).chip.front 5 0x131 (fun q => q.le 9 1 != 1)).isSome = true ∧
    ((onRing5 (rasterChip 2) (cmdOf (descOf 0x131 [(8, 1, 3)]) 0 [] [])).chip.raster 3).state = 2 ∧
    (onRing5 (rasterChip 2) (cmdOf (descOf 0x131 [(8, 1, 3)]) 0 [] [])).chip.runCore 3 = some 3 ∧ coreNo 3 = 3 ∧
    ((onRing5 (rasterChip 1) (cmdOf (descOf 0x131 [(8, 1, 3), (9, 1, 1)]) 0 [] [])).chip.front 5 0x131 (fun q => q.le 9 1 == 1)).isSome = true ∧
    ((onRing5 (rasterChip 1) (cmdOf (descOf 0x131 [(8, 1, 3), (9, 1, 1)]) 0 [] [])).chip.raster 3).state = 1 ∧
    ((onRing5 {} (cmdOf (descOf 0x132 [(8, 1, 3)]) 0 [] [])).chip.front 5 0x132 anyOf).isSome = true := by decide +kernel

theorem wit_RasterProgramsAndAdoption_load :
    let q := cmdOf (descOf (withRef 0x130) [(16, 3, 8), (19, 1, 1), (20, 1, 3), (24, 2, 8), (28, 2, 64)]) 1 [] (List.replicate 8 0)
    ((onRing5 linkChip q).chip.front 5 0x130 anyOf).isSome = true ∧ q.len ≤ q.payload.length ∧ firstOf ((onRing5 linkChip q).chip.loadChecks q) = none ∧
    (placing 0x00104000 (q.le 24 2) (q.le 28 2)).isSome = true ∧ q.bit 21 0 = 0 := by decide +kernel

theorem wit_RasterProgramsAndAdoption_faults :
    let u : Chip := (onRing5 { regs := [(R.YLX_PCTRL 3, 1), (R.YLX_RST_CAUSE 3, 4)], drn := { selfFail := [3] } } (cmdOf [] 0 [] [])).chip
    let v : Chip := { regs := [(R.YLX_RST_CAUSE 0, 4), (R.YLX_RST_CAUSE 7, 8), (R.PRK_STAT 0, 1), (R.PRK_POS 0, 0x780000)], time := 96000 }
    u.tirbaUp = true ∧ u.beamCore 3 = true ∧ u.heldCore 3 = true ∧ u.coreFault 3 = true ∧ u.drn.selfFail.contains 3 = true ∧
    v.heldCore 7 = false ∧ (0 : BitVec 64).toNat + 96000 ≤ v.time.toNat ∧ v.atLine 0 (v.beam 0).vactive = true ∧ v.coreFault 7 = true ∧
    v.coreFault 0 = true ∧ v.drn.core0Restarted = false ∧ v.tirba.core7Lost = false := by decide +kernel

/-! JtagPortAndGrants -/

theorem wit_JtagPortAndGrants :
    let u (d : DbgSt) : Chip := { dbg := d }
    (u {}).dbg.checking = none ∧ (u { checking := some ([], none) }).dbg.checking = some ([], none) ∧ (u {}).responseOk [] none = false ∧
    (u { level := some 2 }).dbg.level ≠ none ∧ 2 ≤ (u { fails := 2 }).dbg.fails ∧ (u { fails := 2 }).dbg.blocked = false := by decide +kernel

/-! DebugCommandsNeedAccess -/

/-- A part with no fuse blown, whose core 3 is halted or not. -/
def dbgChip (h : Bool) : Chip := ({ (fuses 0).chip with rst := { phase := .run } } : Chip).onCore 3 fun k => { k with halted := h, parked := false }

theorem wit_DebugCommandsNeedAccess :
    ((dbgChip true).debugOpen && (dbgChip true).inLevel 3) = true ∧ ((dbgChip false).core 3).halted = false ∧ ((dbgChip true).core 3).halted = true ∧
    (fuses 31).chip.debugOpen = false ∧ (dbgChip false).coresUp = true ∧ (dbgChip false).heldCore 3 = false ∧ ((dbgChip true).core 3).parked = false ∧
    (match accTarget 3 .r 4 0x50000000 with | .error _ => true | .ok _ => false) = true ∧
    (match accTarget 3 .w 4 0x50000000 with | .error _ => true | .ok _ => false) = true ∧
    (match accTarget 3 .w 4 0x00104000 with | .error _ => false | .ok _ => true) = true ∧
    (match accTarget 3 .r 4 0x00104000 with | .error _ => false | .ok t => match ((dbgChip true).dbgCapture.loadTgt 3 3 4 0x00104000 t).1 with | .ok _ => true | .error _ => false) = true := by
  decide +kernel

/-! ResetsStartsAndBanks -/

/-- A block in a phase of its start. -/
def phaseState (p : RstPhase) (f : Option Bool) (t : BitVec 64) : Chip := { rst := { phase := p, fatal := f }, time := t }

theorem wit_ResetsStartsAndBanks :
    (phaseState .run none 0).rst.phase ≠ .lockout ∧ (phaseState .run none 0).power < 2 ∧ (phaseState .run (some true) 5).rst.fatal = some true ∧
    (phaseState .run (some true) 5).time.toNat < 960000000 ∧ (phaseState .run (some true) 5).rst.fatal ≠ some false ∧
    (phaseState .wait none 0).rst.phase = .wait ∧ ((List.range 14).filter fun p => !tb (0x1FF : BitVec 14) p).length = 5 ∧
    ((List.range 14).filter fun p => !tb (0xFF : BitVec 14) p).length = 6 ∧ (0 : BitVec 24) ≠ 0x525354 ∧ (phaseState .run none 0).rst.phase = .run ∧
    (withRegs [(R.SYS_VIO, 0)]).chip.rb R.SYS_VIO (0 : Fin 3) = false ∧ (withRegs [(R.SYS_VIO, 7)]).chip.rb R.SYS_VIO (2 : Fin 3) = true := by decide +kernel

/-! ResetsKeepWhatTheSpecKeeps -/

theorem wit_ResetsKeepWhatTheSpecKeeps :
    let c : Chip := { rst := { phase := .run }, regs := [(R.SYS_BOOT_CTRL, 1)] }
    c.rst.phase = .run ∧ c.romLocked = true := by decide

/-! BusMasterReadsAndSwset -/

theorem wit_BusMasterReadsAndSwset :
    let c : Chip := { tirba := { bm := [{ owner := .bobbin 2, len := 8, got := [1, 2] }] } }
    c.tirba.bm[0]? = some { owner := .bobbin 2, len := 8, got := [1, 2] } ∧ [(1 : Byte), 2].length + [(3 : Byte)].length < 8 ∧
    8 ≤ [(1 : Byte), 2].length + (List.replicate 6 (0 : Byte)).length ∧ c.tirba.bm[1]? = none := by decide

/-! CanonicalFormIsKept -/

theorem wit_CanonicalFormIsKept :
    let s : State := { chip := { mem := [(0x200000, 5)], regs := [(R.LTN_VSET, 3)] }, pending := [.runWrite 0] }
    s.chip.canon ∧ s.queueWf ∧ ∃ t, step s = .next t :=
  ⟨⟨by decide +kernel, by decide +kernel⟩, by intro i h; rcases List.mem_singleton.mp h with rfl; rfl, _, rfl⟩

/-! VellumDecodeIsOneToOne -/

theorem wit_VellumDecodeIsOneToOne :
    (0x2FFFFFF#26).toNat < vlmSize ∧ vBank 0x2FFFFFF = 95 ∧ vWord 0x2FFFFFF = 0xFFFF ∧ (95 < 96 ∧ 0xFFFF < 0x10000) ∧
    vOffset 95 0xFFFF = 0x2FFFFF8 := by decide +kernel

/-- The worked example of 04_vellum.md: offset 0x96_03C8 is word 0x5809 of bank 23, channel 7. -/
theorem test_vellum_decode : vChannel 0x9603C8 = 7 ∧ vBank 0x9603C8 = 23 ∧ vWord 0x9603C8 = 0x5809 := by decide

/-! ### Further forms of the statements: a state and operands for each -/

theorem wit_StoresLandInTheirRegisters_forms : ylxAt 3 (R.TMR_PRES 0) = none ∧ ylxAt 3 (0x00110000 + R.YLX_ENTRY 0 % 0x1000) = some (3, R.YLX_ENTRY 0 % 0x1000) ∧
    isReg (0x00120000 + 0x1000 * 3 + R.YLX_ENTRY 0 % 0x1000) = true ∧ (linked [] { up := true }).chip.pcieOn = true ∧ State.reset.chip.pcieOn = false := by decide +kernel

theorem wit_VellumRequestsQueueAndAreGranted_forms :
    (clsAll.find? fun k => ((vReqState vReq).chip.vlm.reqs.any fun r => (vReqState vReq).chip.vlm.wants r && decide (r.cls = k)) &&
      ((vReqState vReq).chip.vlm.token k).isSome) = some .core ∧
    (({ chip := { vlm := { banks := [(101, { slot := .active, left := 5, promoted := true })] } } } : State).chip.bank 101).promoted = true ∧
    0 < (({ chip := { vlm := { banks := [(101, { slot := .active, left := 5, promoted := true })] } } } : State).chip.bank 101).left := by decide +kernel

theorem wit_ScrubbingReadsAndTheBankCopy_forms :
    let free : Chip := { regs := [(R.VLM_CTRL, 1)], time := 1600000 }
    let pfs : Chip := (beamWith [(R.PRK_STAT 0, 1), (R.PRK_POS 0, 0x82C000), (R.VLM_CTRL, 1), (R.VLM_SCRUB_CTRL, 0)] {}).chip
    (free.rb R.VLM_CTRL 0 = true ∧ free.scrubRef = 2 ∧ 1600000 ≤ (free.time - free.vlm.freeFrom).toNat ∧ 800000 ≤ (free.time - free.vlm.slotAt).toNat) ∧
    (pfs.scrubRef = (0 : Beam).val ∧ pfs.line 0 = (pfs.beam 0).vtotal - (pfs.beam 0).lead ∧ pfs.pixel 0 = 0) ∧
    ((({ vlm := { banks := [(101, { slot := .active })] } } : Chip).bank 101).slot = .active ∧
      (({ vlm := { banks := [(101, { slot := .active })] } } : Chip).bank 101).left = 0) ∧
    ((withRegs [(R.DRN_COPY_STAT, 0x1FFF8)]).chip.copyMay = true ∧ 65536 ≤ (withRegs [(R.DRN_COPY_STAT, 0x1FFF8)]).chip.rf R.DRN_COPY_STAT 15 0 + 8) ∧
    ((withRegs [(R.DRN_COPY_STAT, 0x1FFF8)]).chip.copyActive = true ∧ tb (0x20000 : Word) 18 = false) := by decide +kernel

theorem wit_WatchdogsAndLocalScrubbers_forms :
    let w (k : CoreSt) : Chip := { regs := [(R.YLX_WDG_CTRL 0, 9), (R.YLX_WDG_COUNT 0, 0)], cores := Vector.replicate 8 k }
    (w {}).wdgCounts 0 = true ∧ (w {}).rd (R.YLX_WDG_COUNT 0) = 0 ∧ (w { stage1 := true }).wdgCounts 0 = true ∧
    (w { stage1 := true }).rd (R.YLX_WDG_COUNT 0) = 0 ∧ ({ ue := [lmBase 0] } : Chip).lmBad (lmBase 0) = true ∧
    ({ ue := [lmBase 0] } : Chip).rb (R.YLX_CTRL 0) 4 = true := by decide +kernel

theorem wit_BranchesCallsAndReturns_forms : (Chip.getWords 0 ((List.range 3).map fun i => 0x101000 + BitVec.ofNat 32 (4 * i))
    (coreStack 0x101000 0).chip).2.goesOn 0 = true := by decide +kernel

theorem wit_EventsWaitsAndWaking_forms :
    let p : Chip := (coreIs { asleep := true, parked := true, latch := true }).chip
    ((coreIs { latch := true }).chip.landAll 0).goesOn 0 = true ∧ ((coreIs { latch := true }).chip.core 0).pc ≠ parkWindow ∧
    p.coresUp = true ∧ p.heldCore 0 = false ∧ (p.core 0).parked = true ∧ (p.core 0).mode = .S ∧ p.wakes 0 none = true ∧
    p.rb (R.YLX_ESTAT 0) 0 = false ∧ p.rd (R.YLX_ENTRY 0) = 0 := by decide +kernel

theorem wit_BootRomAndHandover_forms :
    (slotOf 0xFF).headerErr = false ∧ (slotOf 0xFF).header.length = 256 ∧
    (romAt 0 31 [(R.SYS_BOOT_STAT, 4)]).chip.coresUp = true ∧ (romAt 0 31 [(R.SYS_BOOT_STAT, 4)]).chip.romLocked = false ∧
    (romAt 0 31 [(R.SYS_BOOT_STAT, 4)]).chip.rf R.SYS_BOOT_STAT 3 0 = 4 ∧ (romAt 0 31 [(R.SYS_BOOT_STAT, 4)]).chip.lcyState = 6 ∧
    (withRegs [(R.SYS_BOOT_STAT, 4)]).chip.coresUp = true := by decide +kernel

/-- A host write to Vellum that waits for its bank. -/
def bellChip (l : List (Nat × Word)) : Chip :=
  { regs := l, vlm := { reqs := [{ cls := .host, idx := 0, write := true, off := 0, n := 1, bytes := [], acked := true, own := false, granted := false }] } }

theorem wit_DoorbellsAndRingBits_forms : (bellChip [(R.SYS_BOOT_CTRL, 1)]).hostWrites ≠ [] ∧
    (withRegs [(R.SYS_BOOT_CTRL, 1), (R.MBX_RING_EN 1, 0x80000000)]).chip.hostWrites = [] ∧ State.reset.chip.hostWrites = [] := by decide +kernel

theorem wit_QspiFrames_forms : frameCheck true (frameHead 0x61 0x1004 8) 0x1004 8 [] (crc16 (frameHead 0x61 0x1004 8)) false ≠ 0 ∧
    frameCheck true (frameHead 0x62 0x1400 4) 0x1400 4 [1, 2, 3, 4] 0 false ≠ 0 := by decide +kernel

theorem wit_TirbaFetchesAndPosts_forms :
    let c : Chip := (withRegs [(R.MBX_STAT, 1)]).chip.serve.darnService
    let f : Chip := fetching.chip.serve.darnService
    (withRegs [(R.MBX_STAT, 1)]).chip.tirbaUp = true ∧ c.tirbaReady = true ∧ c.activating = false ∧ c.checkRings.nextRing = none ∧
    fetching.chip.tirbaUp = true ∧ f.tirbaReady = true ∧ f.activating = false ∧ f.checkRings.nextRing = some 9 ∧
    State.reset.chip.tirbaUp = true ∧ State.reset.chip.serve.darnService.tirbaReady = false := by decide +kernel

theorem wit_TirbaSessionsAndQueries_forms :
    let q := cmdOf (descOf 1 [(8, 2, 0x100), (10, 2, 0x102)]) 0 [] []
    let full : Chip := { regs := [(R.MBX_VERSION, 0x100)], tirba := {
      rings := (Vector.replicate 64 {}).set 5 { checked := true, log2 := 4, flight := [{ q with session := none }] }
      sessions := Vector.replicate 8 (some { version := 0x100, rings := [6], closing := false, aborted := 0 }) } }
    (full.front 5 0x001 anyOf).isSome = true ∧ (∀ m, m < 64 → m ≠ 6 → full.sessionOf m = none) ∧ (∀ i : Fin 8, full.tirba.sessions[i] ≠ none) ∧
    max (q.le 8 2) 0x100 ≤ min (q.le 10 2) (full.rf R.MBX_VERSION 15 0) ∧
    ((onRing5 {} (cmdOf (descOf 3 [(8, 1, 6)]) 0 [] [])).chip.front 5 0x003 anyOf).isSome = true ∧
    (onRing5 {} (cmdOf (descOf 3 [(8, 1, 6)]) 0 [] [])).chip.sessionOf 6 = none := by decide +kernel

theorem wit_TirbaPortsAndI2c_forms :
    let c : Chip := portChip [(R.EYE_STAT 7, 1)]
    let stop := cmdOf (descOf 0xA1 [(8, 1, 7)]) 2 [0] []
    ((onRing5 { c with time := 9600000 } stop).chip.front 5 0x0A1 (fun q => q.le 9 1 == 0)).isSome = true ∧
    (onRing5 { c with time := 9600000 } stop).chip.eyeRunning 7 = true ∧ stop.keep.getD 0 0 + 9600000 ≤ (9600000 : BitVec 64).toNat ∧
    (onRing5 (portChip []) stop).chip.eyeRunning 7 = false ∧ (cmdOf (descOf 0xA2 [(8, 1, 7), (15, 1, 7)]) 0 [] []).le 12 1 ≠ 2 ∧
    ((onRing5 c (cmdOf (descOf 0xA2 [(8, 1, 7), (12, 1, 2), (15, 1, 7)]) 0 [] [])).chip.front 5 0x0A2 anyOf).isSome = true ∧
    c.rb (R.GND_SH_CTRL 7) 1 = c.rb (R.EYE_WIN_SH_CTRL 7) 1 := by decide +kernel

theorem wit_TirbaDarningHoldAndReset_forms :
    let c : Chip := (onRing5 { regs := [(R.DRN_COPY_STAT, 0x10000)] } (cmdOf (descOf 0xF1 [(10, 2, 95)]) 0 [] [])).chip
    let r : Chip := (onRing5 {} (cmdOf (descOf 0xF9 [(12, 4, 0x52535444)]) 0 [] [])).chip
    (c.front 5 0x0F1 anyOf).isSome = true ∧ c.physBank 95 = 95 ∧ c.copyActive = true ∧ (r.runsNow 0x100 || r.runsNow 0x101) = false := by decide +kernel

/-- A staging from Vellum at b. -/
def stageAt (b : Nat) : Cmd := cmdOf (descOf (withRef 0x100) [(8, 4, b), (16, 3, 300), (20, 1, 1)]) 0 [] []

theorem wit_TirbaFirmwareAndLifeCycle_vellum (b : Nat) (hb : b = 0 ∨ b = 0x2FF0000) :
    ((onRing5 {} (stageAt b)).chip.front 5 0x100 (fun q => decide (2 ≤ q.stage))) = none ∧
    ((onRing5 {} (stageAt b)).chip.front 5 0x100 (fun _ => true)) = some (stageAt b) ∧ (stageAt b).host = false ∧ (stageAt b).len = 300 ∧
    (stageAt b).le 20 1 = 1 ∧ 1 ≠ (onRing5 {} (stageAt b)).chip.tirba.bootSlot ∧ 1 ≠ (onRing5 {} (stageAt b)).chip.tirba.runSlot ∧
    (onRing5 {} (stageAt b)).chip.runsNow 0x101 = false ∧ (onRing5 {} (stageAt b)).chip.runsNow 0x100 = false ∧
    ((onRing5 {} (stageAt b)).chip.vRead .core 0 (stageAt b).addr (stageAt b).len).2.1 = false := by
  rcases hb with h | h <;> subst h <;> decide +kernel

theorem wit_TirbaFirmwareAndLifeCycle_forms :
    let q : Cmd := cmdOf (descOf 0x101 [(8, 1, 1)]) 2 [] []
    let r : Chip := { lcy := { groups := Vector.replicate 47 0, hash := Vector.replicate 4 0, op := some { hash := none, groups := [8] } } }
    (∀ k : Fin 4, ((onRing5 linkChip (stageCmd (k.val + 2))).chip.front 5 0x100 (fun q => decide (2 ≤ q.stage))).isSome = true) ∧
    ((onRing5 {} q).chip.front 5 0x101 anyOf).isSome = true ∧ (onRing5 {} q).chip.inFlight = 1 ∧
    (onRing5 { tirba := { rings := (Vector.replicate 64 {}).set 6 { flight := [q] } } } q).chip.inFlight ≠ 1 ∧
    ((onRing5 {} (cmdOf (descOf 0x101 [(8, 1, 1)]) 0 [] [])).chip.runsNow 0x100 || (onRing5 {} (cmdOf (descOf 0x101 [(8, 1, 1)]) 0 [] [])).chip.runsNow 0x101) = false ∧
    (onRing5 {} (cmdOf (descOf 0x101 [(8, 1, 1)]) 0 [] [])).chip.tirba.runSlot ≠ 1 ∧
    (onRing5 {} (cmdOf (descOf 0x101 [(8, 1, 1)]) 0 [] [])).chip.tirba.adopt = none ∧ r.lcyBusy = true := by decide +kernel

theorem wit_PlanesAndMotifs_forms :
    let x : PlaneSnap := ⟨0, 5, 0, 8, 0, 32, 32, 0, 0, 0, 0, 0, 1, 1, false, none, []⟩
    let late : Chip := { planes := upd (Vector.replicate 8 {}) 0 fun p => { p with late := [x] } }
    let m (b : MotifBeam) (pos cfg : Word) : Chip := { motifB := #v[b, {}], regs := [(mtfCfg 0, cfg), (R.PRK_STAT 0, 1), (R.PRK_POS 0, pos)] }
    (x.got = [] ∧ x.blank = false ∧ x.beam = 0) ∧
    ((late.planes[(0 : Plane)]).snaps.find? fun y => y.beam == (0 : Beam) && y.line == (5 : BitVec 13).toNat) = none ∧
    ((late.planes[(0 : Plane)]).late.find? fun y => y.beam == (0 : Beam) && y.line == (5 : BitVec 13).toNat) = some x ∧
    (∀ p : Plane, (State.reset.chip.planes[p]).snaps = []) ∧
    (m {} 0 0).running 0 = true ∧ ((m {} 0 0).line 0 + 2) % ((m {} 0 0).beam 0).vtotal < ((m {} 0 0).beam 0).vactive ∧ (m {} 0 0).rb (mtfCfg 0) 0 = false ∧
    ((m { loading := true } 0x82C000 1).line 0 + 2) % ((m {} 0 0).beam 0).vtotal = 0 ∧ (m { loading := true } 0x82C000 1).rb (mtfCfg 0) 0 = true ∧
    (m { loading := true } 0x82C000 1).shed 4 = false ∧
    (((m { late := [(7, [])] } 0 1).motifB[(0 : Beam)]).evals.find? fun e => e.1 == (7 : BitVec 13).toNat) = none ∧
    (((m { late := [(7, [])] } 0 1).motifB[(0 : Beam)]).late.find? fun e => e.1 == (7 : BitVec 13).toNat) = some (7, []) ∧
    State.reset.chip.motif.inval = none ∧ (m { loading := true } 0 1).rb R.MTF_INVAL_STAT 0 = false := by decide +kernel

theorem wit_CompositionAndCommits_forms :
    let x : ApqSnap := { line := 0, mode := 0, backdrop := 0, order := [] }
    let r : Chip := (beamOutState [(R.PRK_STAT 0, 1)] { snaps := [x] } {}).chip
    (r.apq[(0 : Beam)]).snap (r.apq[(0 : Beam)]).started = some x ∧ x.late = none ∧ (withRegs [(R.APQ_COMMIT 0, 0x10)]).chip.rf (R.APQ_COMMIT 0) 5 4 = 1 := by
  decide +kernel

theorem wit_LinksCommandsAndHolding_forms :
    let c : Chip := (beamOutState [(R.PRK_STAT 0, 1), (R.BMO_STAT 0, 2)] {} {}).chip
    c.running 0 = true ∧ c.link 0 = 2 ∧ c.cmdMode 0 = false ∧ ((beamOutState [] {} {}).chip.bmo[(0 : Beam)]).list = [] := by decide +kernel

theorem wit_VoicesBusesAndAudioPorts_forms :
    let d : Chip := (((withRegs [(R.AUD_PCTRL 0, 1), (R.AUD_PCTRL 1, 1)]).chip.wb (R.AUD_PCTRL 0) 0 false).wb (R.AUD_PSTAT 0) 0 false).emit (.audioPins 0 0)
    (d.rb (R.AUD_PCTRL 0) 0 || d.rb (R.AUD_PCTRL 1) 0 || d.rb (R.AUD_PCTRL 2) 0) = true ∧
    (withRegs [(R.AUD_PCTRL 1, 3)]).chip.audOk 1 = true ∧ (withRegs [(R.AUD_PCTRL 1, 3)]).chip.rb R.AUD_CLK 2 = false ∧
    (withRegs [(R.AUD_PCTRL 1, 3)]).chip.rb (R.AUD_PCTRL 1) 0 = true := by decide +kernel

theorem wit_TimersCountAndStart_forms :
    let u (p : Nat) : Chip := { regs := [(R.TMR_STAT 2, 8)], tmr := { pre := Vector.replicate 16 p } }
    (u 0).tmr.pre[(2 : TmrCh)] < (u 0).rf (R.TMR_PRES 2) 15 0 + 1 ∧ (u 1).rf (R.TMR_PRES 2) 15 0 + 1 ≤ (u 1).tmr.pre[(2 : TmrCh)] ∧
    (u 1).tickLost = false ∧ (u 1).rb (R.TMR_CTRL 2) 8 = false ∧ (u 1).chRun 2 = true := by decide +kernel

theorem wit_BobbinsStartStopAndTrigger_forms :
    let u (p : BobPhase) (l : List EvReq) : Chip := { (bobState { phase := p } [(R.BOB_CTRL 0, 1), (R.BOB_TRIG 0, 0x2001), (R.BOB_STAT 0, 1)] []).chip with reqs := l }
    let r : EvReq := { dst := some 0, src := (1 : BitVec 2).toNat, sel := (32 : BitVec 6).toNat }
    (u .wait [r]).reqs.contains r = true ∧ (u .wait []).reqs.contains r = false ∧ (u .wait [r]).bobTrigOf 0 (1 : BitVec 2).toNat (32 : BitVec 6).toNat = true ∧
    (u .wait [r]).rb (R.BOB_CTRL 0) 0 = true ∧ (u .move [r]).bobRunning 0 = true ∧ ((u .move [r]).bob[(0 : BobCh)]).phase ≠ .abort ∧
    (∀ k, ((u .move [r]).bob[(0 : BobCh)]).phase ≠ .host k) ∧ ((u (.host 3) []).bob[(0 : BobCh)]).phase = .host 3 ∧
    (u (.host 3) []).bobRunning 0 = true := by
  refine ⟨by decide +kernel, by decide +kernel, by decide +kernel, by decide +kernel, by decide +kernel, by decide +kernel, ?_, by decide +kernel, by decide +kernel⟩
  intro k h; cases h

theorem wit_UartsMoveCharacters_forms : ((uartState { tx := [5, 6], sending := some (6, 0x341) }).uart 0).sending = some (6, 0x341) ∧
    ((uartState { rx := [7] }).uart 0).rx ≠ [] := by decide +kernel

theorem wit_SerialBusesAdcAndGpio_forms :
    let r : EvReq := { dst := none, src := 1, sel := (32 : BitVec 6).toNat }
    let u (l : List EvReq) : Chip := { regs := [(R.ADC_TRIG, 0x2001)], reqs := l }
    (u [r]).reqs.contains r = true ∧ (u []).reqs.contains r = false ∧ (u [r]).rb R.ADC_TRIG 0 = true ∧
    (u [r]).rf R.ADC_TRIG 13 8 = (32 : BitVec 6).toNat ∧ (withRegs [(R.SYS_VIO, 2)]).chip.rb R.SYS_VIO 1 = true := by decide +kernel

theorem wit_LanternDecidesAndSheds_forms :
    let c : Chip := { regs := [], time := 1296, ltn := { limited := [0], limitAt := some 0 } }
    c.decisionDue = true ∧ (ltnState [] {}).decisionDue = false ∧ c.ltnLimit = true ∧ c.power = 0 ∧ c.ltn.limitAt = some 0 ∧ 768 ≤ (c.time - 0).toNat ∧
    ((List.range 5).find? fun s => decide (c.shedLevel < s) && c.shedAllowed s) = some 1 := by decide +kernel

theorem wit_EmberCharges_forms :
    let c (n : Word) : Chip := embState [(R.EMB_STAT, n)] {}
    (c 2).charge = 2 ∧ (3000 : Nat) ≤ 3300 ∧ (c 5).charge = 5 ∧ (4099 : Nat) < 4200 - 100 ∧ (c 3).charge ≠ 0 ∧ (4350 : Nat) < 4351 ∧
    (c 4).charge = 4 ∧ (c 4).rb R.EMB_STAT 4 = false ∧ (c 4).rb R.EMB_STAT 5 = false ∧ ((0 : Nat) : Rat) < 1000 * (c 4).termCurrent ∧
    ¬((10000000 : Nat) : Rat) < 1000 * (c 4).termCurrent := by decide +kernel

theorem wit_RtcPowerStatesAndWake_forms :
    let u (sub cal : Word) : Chip := embState [(R.AON_RTC_SUB, sub), (R.AON_RTC_CAL, cal)] { calTicks := 1048576 }
    ((u 32767 0).rd R.AON_RTC_SUB).toNat = 32767 ∧ ((u 5 0).rd R.AON_RTC_SUB).toNat ≠ 32767 ∧ 1048576 ≤ (u 5 0).emb.calTicks ∧
    (embState [] {}).emb.calTicks < 1048576 ∧ (embState [(R.AON_PWR, 0x102)] {}).rb R.AON_PWR 8 = true ∧
    2 ≤ (embState [(R.AON_PWR, 0x102)] {}).rf R.AON_PWR 1 0 ∧ (embState [(R.AON_PWR, 0x102)] {}).lcyBusy = false := by decide +kernel

theorem wit_RtcPowerStatesAndWake_asleep :
    let c : Chip := { regs := [(R.AON_PWR, 0x102)], cores := Vector.replicate 8 { asleep := true } }
    c.coresAsleep = true ∧ c.rb R.AON_PWR 8 = true ∧ 2 ≤ c.rf R.AON_PWR 1 0 ∧ c.lcyBusy = false := by decide +kernel

theorem wit_RasterProgramsAndAdoption_forms :
    let c (st : Nat) : Chip := (onRing5 (rasterChip st) (cmdOf (descOf 0x131 [(8, 1, 3)]) 0 [] [])).chip
    ((c 3).front 5 0x131 (fun q => q.le 9 1 != 1)).isSome = true ∧ 2 ≤ ((c 3).raster 3).state ∧ (c 3).runCore 3 = some 3 ∧ (c 3).tirba.adopt = none := by
  decide +kernel

theorem wit_JtagPortAndGrants_forms :
    let u (d : DbgSt) : Chip := { regs := [(R.SYS_VIO, 4)], rst := { phase := .run }, dbg := d }
    (u {}).jtagOn = true ∧ ({ regs := [(R.SYS_VIO, 0)], rst := { phase := .run } } : Chip).jtagOn = false ∧
    (u { challenge := some ([], 0) }).dbg.challenge = some ([], 0) ∧ (u {}).dbg.challenge = none := by decide +kernel

theorem wit_DebugCommandsNeedAccess_forms :
    let c : Chip := ({ dbgChip true with regs := [(R.SYS_VIO, 4)] } : Chip).onCore 3 fun k => { k with pc := 0x00100000 }
    c.jtagOn = true ∧ (c.debugOpen && c.inLevel 3) = true ∧ (c.core 3).halted = true ∧
    (match (c.dbgCapture.fetch 3).1 with | .ok _ => true | .error _ => false) = true ∧ (c.dbgCapture.fetch 3).2.romCode 3 = none ∧
    ((dbgChip true).dbgCapture.fetch 3).2.romCode 3 ≠ none := by decide +kernel

theorem wit_ResetsStartsAndBanks_forms : (1620 : Nat) ≤ 1800 ∧ ¬((1620 ≤ 1619 ∧ 1619 ≤ 1980) ∨ (2970 ≤ 1619 ∧ 1619 ≤ 3630)) ∧
    (withRegs [(R.SYS_VIO, 2)]).chip.rb R.SYS_VIO 1 = true ∧ (phaseState .wait none 0).ballMode = .normal ∧
    (phaseState .wait none 0).rst.phase ≠ .run ∧ ({ regs := [(R.SYS_VIO, 0)] } : Chip).bankGood (Ball.gpio 3).bank = false := by decide +kernel

/-- A GPIO output of a good bank is driven, and no ball in HOLD is. -/
theorem test_pins : let c (p : Word) : Chip := { regs := [(R.SYS_VIO, 2), (R.AON_PWR, p), (R.GPIO_PAD 20, 0x10), (R.GPIO_OUT 0, 0x100000)], rst := { phase := .run } }
    (c 0).ballDrive (.gpio 20) = .high ∧ (c 0x20).ballDrive (.gpio 20) = .float := by decide +kernel

end Sys2Proof.Tests
end

section
/-! Register writes (00_scope.md, R6, R146, R758): what STORE_LAND and REGISTER_WRITE answer, by who makes the write, and where a
store to a plain timer register lands. -/

namespace Sys2Proof.Machine

/-! ### The two commands -/

/-- A state with its own chip is the state. -/
@[simp] theorem State.withChip_chip (s : State) : s.withChip s.chip = s := rfl

theorem exec_storeLand (n : Core) (s : State) : exec (.storeLand n) s = .next (s.withChip (s.chip.land n)) := rfl

/-- The oldest store of a core that holds one leaves its queue and lands in its register (R146). -/
theorem Chip.land_cons {c : Chip} {n : Core} {a : Nat} {v : Word} {u : Bool} {t : List (Nat × Word × Bool)}
    (h : (c.core n).stores = (a, v, u) :: t) : c.land n = (c.onCore n fun k => { k with stores := t }).storeReg n u a v := by
  simp only [Chip.land, h]

/-- A core's write outside the YLX pages lands in a register page. -/
theorem exec_registerWrite_core_page {n : Core} {a : BitVec 32} (h : ylxAt n a.toNat = none) (u : Bool) (v : Word) (s : State) :
    exec (.registerWrite (.core n) u a v) s = .next (s.withChip (s.chip.storeReg n u a.toNat v)) := by
  show execRegisterWrite (.core n) u a v s = _
  simp only [execRegisterWrite, h, Chip.next, State.withChip]

/-- A core's write to a YLX register is made in S mode and dropped in U mode. -/
theorem exec_registerWrite_core_ylx {n m : Core} {a : BitVec 32} {off : Nat} (h : ylxAt n a.toNat = some (m, off))
    (hr : isReg (0x00120000 + 0x1000 * m.val + off) = true) (u : Bool) (v : Word) (s : State) :
    exec (.registerWrite (.core n) u a v) s = .next (s.withChip (s.chip.when (!u) (Chip.storeYlx m off v))) := by
  show execRegisterWrite (.core n) u a v s = _
  simp only [execRegisterWrite, h, hr, Bool.and_true, Chip.next, State.withChip]

theorem exec_registerWrite_bobbin (k : BobCh) (u : Bool) (a : BitVec 32) (v : Word) (s : State) :
    exec (.registerWrite (.bobbin k) u a v) s = .next (s.withChip (s.chip.storeReg 0 false a.toNat v)) := rfl

theorem exec_registerWrite_host (u : Bool) (a : BitVec 32) (v : Word) (s : State) :
    exec (.registerWrite .host u a v) s = .next (s.withChip (s.chip.cfgRequest true a.toNat 0xF v)) := rfl

/-- Nothing answers a configuration request while the endpoint is not selected or not enabled (R245). -/
theorem Chip.cfgRequest_of_off {c : Chip} (h : c.pcieOn = false) (w : Bool) (off : Nat) (be : BitVec 4) (v : Word) :
    c.cfgRequest w off be v = c := by
  simp [Chip.cfgRequest, h]

/-! ### Plain registers of the timer channels -/

/-- Above core 7's peer view no address is in a YLX page (R132). -/
theorem ylxAt_eq_none {n : Core} {a : Nat} (h : 0x00128000 ≤ a) : ylxAt n a = none := by
  unfold ylxAt
  rw [if_neg (by omega), if_neg (by omega)]

/-- A register without W1C and W1S bits takes the stored value in its RW bits and keeps the others (R6). -/
theorem RegSpec.store_of_rw {r : RegSpec} (hc : r.w1c = 0) (hs : r.w1s = 0) (old v : Word) :
    r.store old v = (old &&& ~~~(w32 r.rw)) ||| (v &&& w32 r.rw) := by
  simp only [RegSpec.store, hc, hs, BitVec.and_zero, BitVec.not_zero, BitVec.and_allOnes, BitVec.or_zero]

/-- What a store leaves in a register that the map lists (R6). -/
theorem Chip.store_of_regSpec {a : Nat} {r : RegSpec} (h : regSpec a = some r) (v : Word) (c : Chip) :
    c.store a v = c.wr a (r.store (c.rd a) v) := by
  simp only [Chip.store, h]

/-- A store to page 0x4000_3000 lands in the TMR page (R758). -/
theorem Chip.storeReg_tmr {a : Nat} (h : a / 0x1000 = 0x40003) (n : Core) (u : Bool) (v : Word) (c : Chip) :
    c.storeReg n u a v = c.storeTmr a v := by
  simp only [Chip.storeReg, h]

/-- A channel register other than TMR_CTRL and TMR_CNT has no effect beside the store. -/
theorem Chip.storeTmr_channel_plain {a : Nat} (hlo : 0x100 ≤ a % 0x1000) (hctrl : a % 0x1000 % 0x20 ≠ 0x00)
    (hcnt : a % 0x1000 % 0x20 ≠ 0x10) (v : Word) (c : Chip) : c.storeTmr a v = c.store a v := by
  have h8 : a % 0x1000 ≠ 0x008 := by omega
  have hC : a % 0x1000 ≠ 0x00C := by omega
  have h10 : a % 0x1000 ≠ 0x010 := by omega
  simp only [Chip.storeTmr, h8, hC, h10, hctrl, hcnt, if_false, ite_self]

/-- TMR_PRES of a channel stands in the TMR page, at 4 in the channel's block of 0x20 bytes (R556). -/
theorem TMR_PRES_place (m : TmrCh) : R.TMR_PRES m < 0x40004000 ∧ R.TMR_PRES m / 0x1000 = 0x40003 ∧
    0x100 ≤ R.TMR_PRES m % 0x1000 ∧ R.TMR_PRES m % 0x1000 % 0x20 = 0x04 := by
  have hm := m.isLt
  simp only [R.TMR_PRES]
  omega

/-- The map's row of TMR_PRES: 16 RW bits (R556). -/
theorem regSpec_TMR_PRES (m : TmrCh) :
    regSpec (R.TMR_PRES m) = some ⟨0x40003104, 16, 0x20, 1, 0x0, 0xFFFF, 0x0, 0x0, 0x0, 0xFFFF, 0x0⟩ := by
  revert m
  decide

/-- A store to TMR_PRES takes the 16 prescaler bits and leaves the reserved ones (R4, R6). -/
theorem Chip.storeReg_TMR_PRES (n : Core) (u : Bool) (m : TmrCh) (v : Word) (c : Chip) :
    c.storeReg n u (R.TMR_PRES m) v =
      c.wr (R.TMR_PRES m) ((c.rd (R.TMR_PRES m) &&& 0xFFFF0000#32) ||| (v &&& 0xFFFF#32)) := by
  obtain ⟨_, hpage, hchannel, hoff⟩ := TMR_PRES_place m
  rw [Chip.storeReg_tmr hpage, Chip.storeTmr_channel_plain hchannel (by omega) (by omega),
    Chip.store_of_regSpec (regSpec_TMR_PRES m), RegSpec.store_of_rw rfl rfl]
  rfl

/-! ### The obligation -/

/-- Settles O4: each clause is the rule of its command and sender; the last one follows the store to TMR_PRES through its page. -/
theorem storesLandInTheirRegisters : Obligations.StoresLandInTheirRegisters := by
  unfold Obligations.StoresLandInTheirRegisters
  refine ⟨?land, ?write, ?pres⟩
  case land =>
    intro n a v u t s h
    rw [exec_storeLand, Chip.land_cons h]
  case write =>
    intro n m k u a off v s
    refine ⟨fun h => exec_registerWrite_core_page h u v s, fun h hr => ⟨?_, ?_⟩, exec_registerWrite_bobbin k u a v s,
      fun _ => exec_registerWrite_host u a v s, fun h => ?_⟩
    · exact exec_registerWrite_core_ylx h hr false v s
    · exact exec_registerWrite_core_ylx h hr true v s
    · rw [exec_registerWrite_host, Chip.cfgRequest_of_off h, State.withChip_chip]
  case pres =>
    intro n u m v s
    obtain ⟨hlt, hpage, _, _⟩ := TMR_PRES_place m
    have ha : (BitVec.ofNat 32 (R.TMR_PRES m)).toNat = R.TMR_PRES m := by
      rw [BitVec.toNat_ofNat, Nat.mod_eq_of_lt (by omega)]
    rw [exec_registerWrite_core_page (by rw [ha]; exact ylxAt_eq_none (by omega)), ha, Chip.storeReg_TMR_PRES]

end Sys2Proof.Machine
end

section
/-! GENLOCK, FSYNC and the speed count (03, R55, R83 to R91, R483): what GENLOCK_EDGE and GENLOCK_LOSS answer while the Beam
steers by its ball, when a pulse of an FSYNC driver starts and ends, and where the count of laps goes. -/

namespace Sys2Proof.Machine

/-! ### GENLOCK -/

/-- A Beam that runs with GENLOCK on and without TE_LOCK steers by its GENLOCK ball (R83, R483). -/
def Chip.ballSteers (c : Chip) (b : Beam) : Prop :=
  c.rb (R.PRK_CTRL b) 1 = true ∧ c.running b = true ∧ ¬c.rb (R.BMO_CTRL b) 14 = true

/-- An edge is captured by a Beam that steers by its ball (R83). -/
theorem exec_genlockEdge_of_ballSteers {b : Beam} {s : State} (h : s.chip.ballSteers b) (p : BitVec 14) :
    exec (.genlockEdge b p) s = .next (s.withChip (s.chip.glkEdge b p.toNat)) := by
  show execGenlockEdge b p s = _
  exact if_pos h

/-- A loss is met by a Beam that steers by its ball (R85). -/
theorem exec_genlockLoss_of_ballSteers {b : Beam} {s : State} (h : s.chip.ballSteers b) :
    exec (.genlockLoss b) s = .next (s.withChip (s.chip.glkLoss b)) := by
  show execGenlockLoss b s = _
  exact if_pos h

/-! ### FSYNC pulses -/

theorem exec_fsyncPulseStart (n : Port) (s : State) :
    exec (.fsyncPulseStart n) s = .next (s.withChip (s.chip.fsStart n)) := rfl

theorem exec_fsyncPulseEnd (n : Port) (s : State) :
    exec (.fsyncPulseEnd n) s = .next (s.withChip (s.chip.fsEnd n)) := rfl

/-- Port n's pulse becomes `pulse`, and its ball shows it. -/
def Chip.fsPulse (n : Port) (pulse : Option (Beam × Nat)) (c : Chip) : Chip :=
  { c with fs := upd c.fs n fun p => { p with pulse } }.fsEmit n

/-- The counters of the Beam that port n follows stand where a pulse is due: on the line of its settings and not past their
pixel, in a frame that DIV and PHASE choose (R87, R88). -/
def Chip.fsAtPos (c : Chip) (n : Port) : Prop :=
  let p := c.fs[n]
  c.line p.beam = fld p.pos 26 14 ∧ c.pixel p.beam ≤ fld p.pos 13 0 ∧
    (c.rd (R.PRK_FRAME p.beam)).toNat % (fld p.ctrl 7 4 + 1) = fld p.ctrl 11 8

/-- A free driver that is on starts its pulse where it is due, once its Beam runs and has begun a frame (R87, R88, R91). -/
theorem Chip.fsStart_of_atPos {c : Chip} {n : Port} (hon : tb (c.fs[n]).ctrl 0 = true) (hfree : (c.fs[n]).pulse = none)
    (hrun : c.running (c.fs[n]).beam = true) (hbegun : (c.beam (c.fs[n]).beam).frameBegun = true) (hpos : c.fsAtPos n) :
    c.fsStart n = (c.setPos (c.fs[n]).beam (fld (c.fs[n]).pos 26 14) (fld (c.fs[n]).pos 13 0)).fsPulse n
      (some ((c.fs[n]).beam, max 1 (fld (c.fs[n]).ctrl 31 16))) := by
  obtain ⟨hline, hpixel, hframe⟩ := hpos
  exact if_pos ⟨hon, hrun, hbegun, hline, hpixel, hfree, hframe⟩

/-- A pulse in progress ends (R87). -/
theorem Chip.fsEnd_of_isSome {c : Chip} {n : Port} (h : (c.fs[n]).pulse.isSome = true) : c.fsEnd n = c.fsPulse n none :=
  if_pos h

/-! ### The speed count -/

theorem exec_speedUpdate (laps : BitVec 16) (s : State) :
    exec (.speedUpdate laps) s = .next (s.withChip (s.chip.wf R.SYS_SPEED 15 0 laps.toNat)) := rfl

/-! ### The obligation -/

/-- Settles O3: the premises of the first clause say that the Beam steers by its ball, those of the second that the pulse is due. -/
theorem genlockAndFsync : Obligations.GenlockAndFsync := by
  unfold Obligations.GenlockAndFsync
  refine ⟨?genlock, ?pulseStart, ?pulseEnd, exec_speedUpdate⟩
  case genlock =>
    intro b p s hon hrun hte
    have hsteers : s.chip.ballSteers b := ⟨hon, hrun, by simp [hte]⟩
    exact ⟨exec_genlockEdge_of_ballSteers hsteers p, exec_genlockLoss_of_ballSteers hsteers⟩
  case pulseStart =>
    intro n s hon hfree p b hrun hbegun hline hpixel hframe c
    rw [exec_fsyncPulseStart, Chip.fsStart_of_atPos hon hfree hrun hbegun ⟨hline, hpixel, hframe⟩]
    rfl
  case pulseEnd =>
    intro n s h
    rw [exec_fsyncPulseEnd, Chip.fsEnd_of_isSome h]
    rfl

end Sys2Proof.Machine
end

section
/-! Starts and stops of a Beam, and the events of a running Beam (03, R61 to R81, R763): what each command answers, by whether the
Beam runs and where its counters stand. -/

namespace Sys2Proof.Machine

/-! ### Where the counters stand -/

/-- PRK_STAT.RUNNING stays as it is at a write of PRK_CTRL.RUN. -/
theorem Chip.running_wb_PRK_CTRL (c : Chip) (b : Beam) (i : Nat) (v : Bool) : (c.wb (R.PRK_CTRL b) i v).running b = c.running b := by
  have hne : R.PRK_STAT b ≠ R.PRK_CTRL b := by simp only [R.PRK_STAT, R.PRK_CTRL]; omega
  simp only [Chip.running, Chip.rb, Chip.rd_wb_ne _ _ _ _ _ hne]

/-- No line is met while the counters stand still (R70). -/
theorem Chip.atLine_of_stopped {c : Chip} {b : Beam} (h : c.running b = false) (l : Nat) : c.atLine b l = false := by
  simp only [Chip.atLine, h, Bool.false_and]

/-! ### Writes of RUN (R72, R73) -/

theorem exec_runWrite (b : Beam) (s : State) : exec (.runWrite b) s = .next (s.withChip (s.chip.runSet b)) := rfl

theorem exec_runClear (b : Beam) (s : State) : exec (.runClear b) s = .next (s.withChip (s.chip.runClr b)) := rfl

/-- The synthesizer of Beam b takes the settings of its registers and begins to lock (R62, R72). -/
def Chip.lockStart (b : Beam) (c : Chip) : Chip :=
  c.onBeam b fun k => { k with
    synOn := true, locking := true, relocking := false
    synInt := c.rf (R.PRK_SYN_INT b) 4 0, synPost := c.rf (R.PRK_SYN_INT b) 14 8, centre := c.synRegs b }

/-- RUN 1 starts a stopped Beam (R72). -/
theorem Chip.runSet_of_stopped {c : Chip} {b : Beam} (hrun : c.rb (R.PRK_CTRL b) 0 = false) (hstop : c.running b = false) :
    c.runSet b = ((c.sb (R.PRK_CTRL b) 0).synClamp b).lockStart b := by
  have hstop' : ¬(c.sb (R.PRK_CTRL b) 0).running b = true := by rw [Chip.sb, Chip.running_wb_PRK_CTRL, hstop]; decide
  exact (if_neg (by simp [hrun])).trans (if_neg hstop')

/-- RUN 1 takes back the stop of a Beam that still runs (R73). -/
theorem Chip.runSet_of_running {c : Chip} {b : Beam} (hrun : c.rb (R.PRK_CTRL b) 0 = false) (hruns : c.running b = true) :
    c.runSet b = (c.sb (R.PRK_CTRL b) 0).onBeam b fun k => { k with stopArmed := false } :=
  (if_neg (by simp [hrun])).trans (if_pos ((c.running_wb_PRK_CTRL b 0 true).trans hruns))

/-- RUN 0 arms the stop of a running Beam (R73). -/
theorem Chip.runClr_of_running {c : Chip} {b : Beam} (hrun : c.rb (R.PRK_CTRL b) 0 = true) (hruns : c.running b = true) :
    c.runClr b = (c.wb (R.PRK_CTRL b) 0 false).onBeam b fun k => { k with stopArmed := true } :=
  (if_neg (by simp [hrun])).trans (if_pos ((c.running_wb_PRK_CTRL b 0 false).trans hruns))

/-- RUN 0 abandons a start that still locks (R65). -/
theorem Chip.runClr_of_locking {c : Chip} {b : Beam} (hrun : c.rb (R.PRK_CTRL b) 0 = true) (hstop : c.running b = false)
    (hlock : (c.beam b).locking = true) :
    c.runClr b = ((c.wb (R.PRK_CTRL b) 0 false).onBeam b fun k => { k with locking := false, synOn := false }).wb (R.PRK_STAT b) 1 false := by
  have hstop' : ¬(c.wb (R.PRK_CTRL b) 0 false).running b = true := by rw [Chip.running_wb_PRK_CTRL, hstop]; decide
  exact (if_neg (by simp [hrun])).trans ((if_neg hstop').trans (if_pos hlock))

/-! ### Starts and stops of the counters (R65, R72, R73) -/

/-- The counters start once the start that RUN still asks for has locked (R72). -/
theorem exec_counterStart_of_locking {b : Beam} {s : State} (hrun : s.chip.rb (R.PRK_CTRL b) 0 = true)
    (hstop : s.chip.running b = false) (hlock : (s.chip.beam b).locking = true) (u v : Bool) :
    exec (.counterStart b u v) s = .next (s.withChip (s.chip.counterStart b u v)) := by
  show (s.chip.startLocked b u v).next s = _
  rw [Chip.startLocked, if_pos ⟨hlock, by simp [hstop], hrun⟩]
  rfl

/-- An armed stop takes effect at VB0 (R73). -/
theorem exec_beamStop_of_armed {b : Beam} {s : State} (hvb0 : s.chip.atLine b (s.chip.beam b).vactive = true)
    (harmed : (s.chip.beam b).stopArmed = true) (u v : Bool) :
    exec (.beamStop b u v) s = .next (s.withChip (s.chip.beamStop b u v)) := by
  show execBeamStop b u v s = _
  exact if_pos ⟨hvb0, harmed⟩

theorem exec_synUnlock (b : Beam) (p : BitVec 14) (s : State) :
    exec (.synUnlock b p) s = .next (s.withChip (s.chip.synUnlock b p.toNat)) := rfl

theorem exec_lockReturn (b : Beam) (u v : Bool) (s : State) :
    exec (.lockReturn b u v) s = .next (s.withChip (s.chip.lockReturn b u v)) := rfl

/-- A loss of lock stops a running Beam where it stands (R65). -/
theorem Chip.synUnlock_of_running {c : Chip} {b : Beam} (h : c.running b = true) (p : Nat) :
    c.synUnlock b p =
      let d := (((c.setPos b (c.line b) p).counterStop b).sb (R.PRK_STICKY b) 5).wb (R.PRK_STAT b) 1 false
      let e := (d.onBeam b fun k => { k with relocking := true }).linkUnlock b
      e.journal 0x03 5 b.val (e.rd (R.PRK_STAT b)) 0 0 :=
  if_neg (by simp [h])

/-- Lock that returns restarts the Beam where RUN is still 1 (R65). -/
theorem Chip.lockReturn_of_relocking {c : Chip} {b : Beam} (h : (c.beam b).relocking = true) (u v : Bool) :
    c.lockReturn b u v = if c.rb (R.PRK_CTRL b) 0 then c.counterStart b u v
      else (c.onBeam b fun k => { k with relocking := false }).sb (R.PRK_STAT b) 1 :=
  if_neg (by simp [h])

/-- Settles O1: each clause is the rule of its command on a Beam in the state that the clause names. -/
theorem beamStartsAndStops : Obligations.BeamStartsAndStops := by
  unfold Obligations.BeamStartsAndStops
  refine ⟨?start, ?cancel, ?arm, ?abandon, ?counters, ?stop, ?unlock, ?relock⟩
  case start =>
    intro b s hrun hstop
    rw [exec_runWrite, Chip.runSet_of_stopped hrun hstop]
    rfl
  case cancel =>
    intro b s hrun hruns
    rw [exec_runWrite, Chip.runSet_of_running hrun hruns]
  case arm =>
    intro b s hrun hruns
    rw [exec_runClear, Chip.runClr_of_running hrun hruns]
  case abandon =>
    intro b s hrun hstop hlock
    rw [exec_runClear, Chip.runClr_of_locking hrun hstop hlock]
  case counters =>
    intro b u v s hrun hstop hlock
    exact exec_counterStart_of_locking hrun hstop hlock u v
  case stop =>
    intro b u v s hvb0 harmed
    exact exec_beamStop_of_armed hvb0 harmed u v
  case unlock =>
    intro b p s hruns
    rw [exec_synUnlock, Chip.synUnlock_of_running hruns]
  case relock =>
    intro b u v s hrelock
    rw [exec_lockReturn, Chip.lockReturn_of_relocking hrelock]

/-! ### Line starts and the frame's advance (R70, R77, R81) -/

theorem exec_lineStart (b : Beam) (s : State) : exec (.lineStart b) s = .next (s.withChip (s.chip.lineStart b)) := rfl

theorem exec_frameAdvance (b : Beam) (s : State) : exec (.frameAdvance b) s = .next (s.withChip (s.chip.frameAdvance b)) := rfl

/-- The live registers are captured for line t: the Appliqué's, then the planes', then the windows' (R77). -/
def Chip.captureLine (b : Beam) (t : Nat) (c : Chip) : Chip :=
  forEach (List.finRange 8) (fun n c => c.winCapture b t n)
    (forEach (List.finRange 8) (fun p c => c.planeCapture b t p) (c.apqCapture b t))

/-- The line on which Beam b stands is over, with its slack, and the counters go to pixel 0 of line l (R70, R81). -/
def Chip.enterLine (b : Beam) (l : Nat) (c : Chip) : Chip :=
  (((((c.ltnLine b (((c.beam b).slack.find? fun e => e.1 == c.line b).map (·.2))).ltnPixel b).lineDone b (c.line b)).setPos b l 0).onBeam b
    fun k => { k with serial := k.serial + 1 }).palPrune b

/-- A line start of a running Beam: the next line, with line 0 after the last, and the capture of the line that lies LEAD ahead. -/
theorem Chip.lineStart_of_running {c : Chip} {b : Beam} (h : c.running b = true) :
    c.lineStart b =
      let l := if c.line b + 1 < (c.beam b).vtotal then c.line b + 1 else 0
      let t := (l + (c.beam b).lead) % (c.beam b).vtotal
      if t < (c.beam b).vactive then (c.enterLine b l).captureLine b t else c.enterLine b l :=
  if_neg (by simp [h])

theorem Chip.lineStart_of_stopped {c : Chip} {b : Beam} (h : c.running b = false) : c.lineStart b = c := if_pos (by simp [h])

/-- Line 0, pixel 0: the frame count, the settings that wait for it and the frame's actions (R70, R79, R90). -/
theorem Chip.frameAdvance_of_atLine {c : Chip} {b : Beam} (h : c.atLine b 0 = true) :
    c.frameAdvance b = (((((c.incWrap (R.PRK_FRAME b)).takeCommitLine b).onBeam b fun k => { k with frameBegun := true }).fsTakeAll b).apqFrame
      b).ltnFrame b :=
  if_pos h

theorem Chip.frameAdvance_of_stopped {c : Chip} {b : Beam} (h : c.running b = false) : c.frameAdvance b = c :=
  if_neg (by simp [Chip.atLine_of_stopped h])

/-! ### Beam events (R74) -/

/-- HS and VS are no unit requests: their bit sets, and an occurrence unacknowledged merges (R42, R94). -/
theorem Chip.raiseEv_sync (c : Chip) (b : Beam) (u : Bool) :
    c.raiseEv b 0 u = (c.sb (R.PRK_EV_STAT b) 0).merge u b.val ∧ c.raiseEv b 1 u = (c.sb (R.PRK_EV_STAT b) 1).merge u b.val := ⟨rfl, rfl⟩

theorem exec_hs_of_running {b : Beam} {s : State} (h : s.chip.running b = true) (u : Bool) :
    exec (.hs b u) s = .next (s.withChip ((s.chip.setPos b (s.chip.line b) (s.chip.beam b).hsPixel).raiseEv b 0 u)) := by
  show execHs b u s = _
  exact if_pos h

theorem exec_vs_of_line {b : Beam} {s : State} (h : s.chip.running b = true)
    (hl : s.chip.line b = (s.chip.beam b).vactive + (s.chip.beam b).vfront) (u : Bool) :
    exec (.vs b u) s = .next (s.withChip ((s.chip.setPos b (s.chip.line b) (s.chip.beam b).hsPixel).raiseEv b 1 u)) := by
  show execVs b u s = _
  exact if_pos ⟨h, hl⟩

theorem exec_vb0_of_atLine {b : Beam} {s : State} (h : s.chip.atLine b (s.chip.beam b).vactive = true)
    (hstop : (s.chip.beam b).stopArmed = false) (u : Bool) : exec (.vb0 b u) s = .next (s.withChip (s.chip.vb0 b u)) := by
  show execVb0 b u s = _
  exact if_pos ⟨h, by simp [hstop]⟩

theorem exec_commitPoint_of_atLine {b : Beam} {s : State} (h : s.chip.atLine b (s.chip.beam b).commitLine = true) (u : Bool) :
    exec (.commitPoint b u) s = .next (s.withChip (s.chip.commitEv b u)) := by
  show execCommitPoint b u s = _
  exact if_pos h

theorem exec_pfs (b : Beam) (u : Bool) (s : State) : exec (.pfs b u) s = .next (s.withChip (s.chip.pfs b u)) := rfl

/-- PFS stands LEAD lines before line 0 (R74). -/
theorem Chip.pfs_of_atLine {c : Chip} {b : Beam} (h : c.atLine b ((c.beam b).vtotal - (c.beam b).lead) = true) (u : Bool) :
    c.pfs b u = ((c.raiseEv b 4 u).cacheFlush b).regionCapture b :=
  if_pos h

theorem exec_hs_of_stopped {b : Beam} {s : State} (h : s.chip.running b = false) (u : Bool) : exec (.hs b u) s = .next s := by
  show execHs b u s = _
  exact if_neg (by simp [h])

theorem exec_vs_of_stopped {b : Beam} {s : State} (h : s.chip.running b = false) (u : Bool) : exec (.vs b u) s = .next s := by
  show execVs b u s = _
  exact if_neg (by simp [h])

theorem exec_vb0_of_stopped {b : Beam} {s : State} (h : s.chip.running b = false) (u : Bool) : exec (.vb0 b u) s = .next s := by
  show execVb0 b u s = _
  exact if_neg (by simp [Chip.atLine_of_stopped h])

theorem exec_commitPoint_of_stopped {b : Beam} {s : State} (h : s.chip.running b = false) (u : Bool) :
    exec (.commitPoint b u) s = .next s := by
  show execCommitPoint b u s = _
  exact if_neg (by simp [Chip.atLine_of_stopped h])

theorem Chip.pfs_of_stopped {c : Chip} {b : Beam} (h : c.running b = false) (u : Bool) : c.pfs b u = c :=
  if_neg (by simp [Chip.atLine_of_stopped h])

/-- Settles O2: on a running Beam each clause is the rule of its event at its position; a stopped Beam stands at no position. -/
theorem beamEventsOfRunningBeam : Obligations.BeamEventsOfRunningBeam := by
  unfold Obligations.BeamEventsOfRunningBeam
  refine ⟨?line, ?stopped, ?frame, ?hs, ?vs, ?vb0, ?commit, ?pfs⟩
  case line =>
    intro b s hruns
    rw [exec_lineStart, Chip.lineStart_of_running hruns]
    rfl
  case stopped =>
    intro b u s hstop
    refine ⟨?_, exec_hs_of_stopped hstop u, exec_vs_of_stopped hstop u, exec_vb0_of_stopped hstop u, exec_commitPoint_of_stopped hstop u, ?_, ?_⟩
    · rw [exec_lineStart, Chip.lineStart_of_stopped hstop, State.withChip_chip]
    · rw [exec_pfs, Chip.pfs_of_stopped hstop, State.withChip_chip]
    · rw [exec_frameAdvance, Chip.frameAdvance_of_stopped hstop, State.withChip_chip]
  case frame =>
    intro b s hline
    rw [exec_frameAdvance, Chip.frameAdvance_of_atLine hline]
    rfl
  case hs =>
    intro b u s hruns
    rw [exec_hs_of_running hruns, (Chip.raiseEv_sync _ b u).1]
    rfl
  case vs =>
    intro b u s hruns hline
    rw [exec_vs_of_line hruns hline, (Chip.raiseEv_sync _ b u).2]
    rfl
  case vb0 =>
    intro b u s hline hstop
    exact exec_vb0_of_atLine hline hstop u
  case commit =>
    intro b u s hline
    exact exec_commitPoint_of_atLine hline u
  case pfs =>
    intro b u s hline
    rw [exec_pfs, Chip.pfs_of_atLine hline]
    rfl

end Sys2Proof.Machine
end

section
/-! Ground planes and palettes (12, R352 to R383): what a fetch of a captured line reads, what a flush of a cache leaves, and where a
palette write goes. -/

namespace Sys2Proof.Machine

/-! ### Loops -/

/-- What the body of a loop brings about for one element, and keeps for every element, holds after the loop. -/
theorem forEach_reaches {α σ : Type} (P : σ → Prop) {f : α → σ → σ} {a : α} (hreach : ∀ s, P (f a s))
    (hkeep : ∀ x s, P s → P (f x s)) : ∀ (l : List α) (s : σ), a ∈ l → P (forEach l f s)
  | x :: t, s, hmem => by
    rcases List.mem_cons.mp hmem with rfl | ht
    · exact forEach_keeps P f t (f a s) hkeep (hreach s)
    · exact forEach_reaches P hreach hkeep t (f x s) ht

/-! ### A plane changed -/

@[simp] theorem Chip.planes_onPlane (p : Plane) (f : PlaneSt → PlaneSt) (c : Chip) : (c.onPlane p f).planes[p] = f c.planes[p] := upd_same _ _ _

theorem Chip.planes_onPlane_ne {p q : Plane} (h : p ≠ q) (f : PlaneSt → PlaneSt) (c : Chip) : (c.onPlane p f).planes[q] = c.planes[q] :=
  upd_ne _ _ _ _ h

/-! ### Reads of Vellum leave the planes -/

theorem Chip.errRecord_planes (ue : Bool) (syn : Byte) (bank : Nat) (cls : VClass) (idx off : Nat) (c : Chip) :
    (c.errRecord ue syn bank cls idx off).planes = c.planes := by
  unfold Chip.errRecord
  split
  · rfl
  · rw [Chip.wr_planes, Chip.wr_planes]

theorem Chip.suspect_planes (n : Nat) (c : Chip) : (c.suspect n).planes = c.planes := by
  unfold Chip.suspect
  extract_lets a i c1 c2
  have hmark : c2.planes = c.planes := rfl
  split
  · exact Chip.sb_planes ..
  · split
    · exact hmark
    · split
      · exact hmark
      · exact hmark

theorem Chip.vCe_planes (bank : Nat) (cls : VClass) (idx off : Nat) (syn : Byte) (c : Chip) :
    (c.vCe bank cls idx off syn).planes = c.planes :=
  (Chip.when_same Chip.planes _ _ _ (Chip.suspect_planes _ _)).trans (Chip.errRecord_planes _ _ _ _ _ _ c)

theorem Chip.vUe_planes (bank : Nat) (cls : VClass) (idx off : Nat) (syn : Byte) (c : Chip) :
    (c.vUe bank cls idx off syn).planes = c.planes :=
  (Chip.suspect_planes _ _).trans (Chip.errRecord_planes _ _ _ _ _ _ c)

theorem Chip.vFind_planes (cls : VClass) (idx off : Nat) (e : Option Ecc) (c : Chip) : (c.vFind cls idx off e).planes = c.planes := by
  simp only [Chip.vFind, Chip.vFindIn]
  split
  · exact Chip.vUe_planes ..
  · split
    · exact Chip.vCe_planes ..
    · exact Chip.vUe_planes ..
    · rfl

theorem Chip.tokTouch_planes (cls : VClass) (c : Chip) : (c.tokTouch cls).planes = c.planes := by
  simp only [Chip.tokTouch]
  split <;> rfl

/-- A unit's read changes no plane: it counts a token and records the errors it finds (R107, R114). -/
theorem Chip.vRead_planes (cls : VClass) (idx off n : Nat) (c : Chip) : (c.vRead cls idx off n).2.2.planes = c.planes :=
  (forEach_same Chip.planes _ _ _ fun _ d => d.vFind_planes ..).trans (Chip.when_same Chip.planes _ _ _ (Chip.tokTouch_planes cls c))

/-! ### A fetch by one plane leaves the others (R366, R367) -/

section
variable {p q : Plane} (h : p ≠ q)
include h

theorem Chip.cacheRead_planes_ne (b : Beam) (g : Nat) (c : Chip) : (c.cacheRead b p g).2.2.planes[q] = c.planes[q] := by
  cases hfind : (c.planes[p]).cache.find? fun e => e.1 == g with
  | some e =>
    simp only [Chip.cacheRead, hfind]
    exact Chip.planes_onPlane_ne h _ _
  | none =>
    simp only [Chip.cacheRead, hfind]
    rw [Chip.planes_onPlane_ne h, Chip.vRead_planes]

theorem Chip.planePixel_planes_ne (s : PlaneSnap) (i : Nat) (c : Chip) : (c.planePixel p s i).2.planes[q] = c.planes[q] := by
  simp only [Chip.planePixel]
  split
  · rfl
  · split
    · rfl
    · exact Chip.cacheRead_planes_ne h ..

theorem Chip.planePixels_planes_ne (s : PlaneSnap) : ∀ (l : List Nat) (c : Chip), (Chip.planePixels p s l c).2.planes[q] = c.planes[q]
  | [], _ => rfl
  | i :: t, c => (Chip.planePixels_planes_ne s t _).trans (Chip.planePixel_planes_ne h s i c)

theorem Chip.fetchTo_planes_ne (s : PlaneSnap) (m : Nat) (c : Chip) : (c.fetchTo p s m).2.planes[q] = c.planes[q] := by
  simp only [Chip.fetchTo]
  split
  · rfl
  · exact Chip.planePixels_planes_ne h ..

theorem Chip.keepRead_planes_ne : ∀ (l : List PlaneSnap) (c : Chip), (Chip.keepRead p l c).2.planes[q] = c.planes[q]
  | [], _ => rfl
  | s :: t, c => (Chip.keepRead_planes_ne t _).trans (Chip.fetchTo_planes_ne h s _ c.fresh.2)

/-- A flush of one plane's cache leaves the other planes. -/
theorem Chip.planeFlush_planes_ne (c : Chip) : (c.planeFlush p).planes[q] = c.planes[q] :=
  (Chip.planes_onPlane_ne h _ _).trans (Chip.keepRead_planes_ne h ..)

end

/-! ### TILE_INVAL (R368) -/

theorem exec_tileInval (mask : Byte) (s : State) : exec (.tileInval mask) s = .next (s.withChip (s.chip.tileInval mask.toNat)) := rfl

/-- What GND_TILE_INVAL with a mask does to plane p. -/
def Chip.flushIn (mask : Nat) (p : Plane) (c : Chip) : Chip := if mask / 2 ^ p.val % 2 = 1 then c.planeFlush p else c

theorem Chip.tileInval_eq (mask : Nat) (c : Chip) : c.tileInval mask = forEach (List.finRange 8) (Chip.flushIn mask) c := rfl

theorem Chip.planeFlush_cache (p : Plane) (c : Chip) : ((c.planeFlush p).planes[p]).cache = [] :=
  congrArg PlaneSt.cache (Chip.planes_onPlane ..)

/-- A plane with no fetch in progress has nothing to keep: its flush empties the cache and changes nothing else (R368). -/
theorem Chip.planeFlush_of_idle {p : Plane} {c : Chip} (h : (c.planes[p]).snaps = []) :
    c.planeFlush p = c.onPlane p fun s => { s with snaps := [], cache := [] } := by
  simp only [Chip.planeFlush, h, Chip.keepRead]

theorem Chip.flushIn_planes_ne {p q : Plane} (h : p ≠ q) (mask : Nat) (c : Chip) : (c.flushIn mask p).planes[q] = c.planes[q] := by
  simp only [Chip.flushIn]
  split
  · exact Chip.planeFlush_planes_ne h c
  · rfl

/-- A cache of the mask is empty after the flush, since each later plane's flush leaves it so. -/
theorem Chip.tileInval_cache {mask : Nat} {p : Plane} (h : mask / 2 ^ p.val % 2 = 1) (c : Chip) : ((c.tileInval mask).planes[p]).cache = [] := by
  have hflush (d : Chip) : ((d.flushIn mask p).planes[p]).cache = [] := by
    rw [Chip.flushIn, if_pos h]
    exact Chip.planeFlush_cache p d
  refine forEach_reaches (fun d : Chip => (d.planes[p]).cache = []) hflush (fun q d hd => ?_) _ c (List.mem_finRange p)
  by_cases hq : q = p
  · rw [hq]
    exact hflush d
  · rw [Chip.flushIn_planes_ne hq]
    exact hd

/-- A plane outside the mask is left. -/
theorem Chip.tileInval_planes_of_unnamed {mask : Nat} {p : Plane} (h : mask / 2 ^ p.val % 2 = 0) (c : Chip) :
    (c.tileInval mask).planes[p] = c.planes[p] := by
  refine forEach_same (fun d : Chip => d.planes[p]) _ _ c fun q d => ?_
  by_cases hq : q = p
  · subst hq
    rw [if_neg (by omega)]
  · exact Chip.flushIn_planes_ne hq mask d

/-- With no fetch in progress a flush reads nothing, so no register changes. -/
theorem Chip.tileInval_regs_of_idle {c : Chip} (h : ∀ p : Plane, (c.planes[p]).snaps = []) (mask : Nat) : (c.tileInval mask).regs = c.regs := by
  refine (forEach_keeps (fun d : Chip => (∀ p : Plane, (d.planes[p]).snaps = []) ∧ d.regs = c.regs) _ _ c ?_ ⟨h, rfl⟩).2
  rintro q d ⟨hidle, hregs⟩
  split
  · rw [Chip.planeFlush_of_idle (hidle q)]
    refine ⟨fun p => ?_, hregs⟩
    obtain rfl | hp := eq_or_ne q p
    · rw [Chip.planes_onPlane]
    · rw [Chip.planes_onPlane_ne hp, hidle p]
  · exact ⟨hidle, hregs⟩

/-! ### Fetches (R361, R377, R378) -/

theorem exec_planeFetchComplete (p : Plane) (b : Beam) (l : BitVec 13) (slack : Int) (s : State) :
    exec (.planeFetchComplete p b l slack) s = .next (s.withChip (s.chip.planeFetch p b l.toNat slack)) := rfl

/-- A fetch of a line of which nothing has been read makes the line's map reads and then reads every pixel. -/
theorem Chip.fetchLine_of_unread {x : PlaneSnap} (hgot : x.got = []) (hblank : x.blank = false) (p : Plane) (c : Chip) :
    c.fetchLine p x =
      Chip.planePixels p x (List.range x.winW) (forEach x.mapReads (fun r c => (c.vRead .beam x.beam r.1 r.2).2.2) c) := by
  simp [Chip.fetchLine, Chip.fetchTo, hgot, hblank]

/-- The report for a line that is not over counts for that line (R81). -/
theorem Chip.reportSlack_of_present (b : Beam) (l : Nat) (slack : Int) (c : Chip) :
    c.reportSlack b l false slack = c.onBeam b (PrkBeam.report l slack) := by
  simp [Chip.reportSlack]

/-- The fetch of a captured line that is not output yet fills the line buffer and reports. -/
theorem Chip.planeFetch_of_captured {p : Plane} {b : Beam} {l : Nat} {x : PlaneSnap} {c : Chip}
    (h : ((c.planes[p]).snaps.find? fun y => y.beam == b && y.line == l) = some x) (slack : Int) :
    c.planeFetch p b l slack =
      ((c.fetchLine p x).2.onPlane p fun st => { st with
        snaps := st.snaps.filter (fun y => !(y.beam == b && y.line == l))
        bufs := st.bufs.filter (fun y => !(y.beam == b && y.line == l)) ++
          [{ beam := b, line := l, x0 := x.winX, px := (c.fetchLine p x).1 }] }).onBeam b (PrkBeam.report l slack) := by
  simp only [Chip.planeFetch, h, Chip.reportSlack_of_present]

/-- The fetch of a line that has been output only reports. -/
theorem Chip.planeFetch_of_late {p : Plane} {b : Beam} {l : Nat} {x : PlaneSnap} {c : Chip}
    (h : ((c.planes[p]).snaps.find? fun y => y.beam == b && y.line == l) = none)
    (hlate : ((c.planes[p]).late.find? fun y => y.beam == b && y.line == l) = some x) (slack : Int) :
    c.planeFetch p b l slack =
      ((c.fetchLine p x).2.onPlane p fun st => { st with
        late := st.late.filter fun y => !(y.beam == b && y.line == l) }).reportSlack b l true slack := by
  simp only [Chip.planeFetch, h, hlate]

/-! ### Palettes (R360, R362, R459) -/

theorem exec_livePaletteWrite (n : Core) (b : Beam) (v : Word) (pixel : BitVec 14) (s : State) :
    exec (.livePaletteWrite n b v pixel) s = .next (s.withChip (s.chip.livePalData n b pixel.toNat v)) := rfl

theorem exec_shadowPaletteWrite (n : Core) (b : Beam) (v : Word) (s : State) :
    exec (.shadowPaletteWrite n b v) s = .next (s.withChip (s.chip.shadowPalData n b v)) := rfl

/-- A live palette entry written reads what was written. -/
theorem Chip.palLive_palWrite (b : Beam) (pixel entry : Nat) (v : Word) (c : Chip) :
    Sparse.get 0 (c.palWrite b pixel entry v).palLive (palKey b entry) = v :=
  (Sparse.get_set (fun _ => 0) c.palLive (palKey b entry) (palKey b entry) v).trans (if_pos rfl)

/-- Outside a transfer a shadow palette write takes effect at once (R362). -/
theorem Chip.shadowPalData_of_free {b : Beam} {c : Chip} (h : c.inTransfer b = false) (n : Core) (v : Word) :
    c.shadowPalData n b v =
      let ia := if b.val = 0 then R.GND_SPALA_IDX else R.GND_SPALB_IDX
      (c.spalWrite b ((c.port n ia).toNat % 4096) v).portInc n ia 4096 := by
  simp only [Chip.shadowPalData, h, Bool.false_eq_true, if_false]

/-- During a transfer a shadow palette write is held (R459). -/
theorem Chip.shadowPalData_of_inTransfer {b : Beam} {c : Chip} (h : c.inTransfer b = true) (n : Core) (v : Word) :
    c.shadowPalData n b v =
      let ia := if b.val = 0 then R.GND_SPALA_IDX else R.GND_SPALB_IDX
      (c.hold b (.spal (palKey b ((c.port n ia).toNat % 4096)) v)).portInc n ia 4096 := by
  simp only [Chip.shadowPalData, h, if_true]

end Sys2Proof.Machine
end


section
/-! Motifs (13, R384 to R405): the evaluation of a line and what starts it, the graphics of a line, live writes to the entries, and reloads. -/

namespace Sys2Proof.Machine

/-! ### The motif engine changed -/

@[simp] theorem Chip.motifB_onMotif (b : Beam) (f : MotifBeam → MotifBeam) (c : Chip) : (c.onMotif b f).motifB[b] = f c.motifB[b] := upd_same _ _ _

theorem Chip.sbIf_motifB (v : Bool) (a i : Nat) (c : Chip) : (c.sbIf v a i).motifB = c.motifB := by
  simp only [Chip.sbIf]
  split <;> rfl

theorem Chip.sbIf_motif (v : Bool) (a i : Nat) (c : Chip) : (c.sbIf v a i).motif = c.motif := by
  simp only [Chip.sbIf]
  split <;> rfl

theorem Chip.sbIf_prk (v : Bool) (a i : Nat) (c : Chip) : (c.sbIf v a i).prk = c.prk := by
  simp only [Chip.sbIf]
  split <;> rfl

/-! ### The evaluation of a line (R392 to R394) -/

/-- Of elements numbered in order, those with a number below n are at most n. -/
theorem length_filter_ranked_le {α : Type} (l : List α) {keep : Nat × α → Bool} {n : Nat} (h : ∀ r, keep r = true → r.1 < n) :
    (((List.range l.length).zip l).filter keep).length ≤ n := by
  set drawn := ((List.range l.length).zip l).filter keep with hdrawn
  have hranks : (drawn.map Prod.fst).Sublist (List.range l.length) := by
    have := (List.filter_sublist (p := keep) (l := (List.range l.length).zip l)).map Prod.fst
    rwa [List.map_fst_zip (by simp)] at this
  have hbelow : drawn.map Prod.fst ⊆ List.range n := by
    intro k hk
    obtain ⟨r, hr, rfl⟩ := List.mem_map.mp hk
    exact List.mem_range.mpr (h r (List.mem_filter.mp hr).2)
  have hlen := (List.subperm_of_subset (hranks.nodup List.nodup_range) hbelow).length_le
  rwa [List.length_map, List.length_range] at hlen

/-- A motif that an evaluation for Beam b may draw: an enabled entry that names the Beam, with its words as they stand (R392, R393). -/
def Chip.MayDraw (c : Chip) (b : Beam) (m : MotifSel) : Prop :=
  m.entry < 1024 ∧ tb (c.attrWord b m.entry 0) 0 = true ∧ tb (c.attrWord b m.entry 0) 1 = decide (b.val = 1) ∧
    m.words = (List.range 8).map fun w => c.attrWord b m.entry w

/-- Line l has been evaluated: ms is its list, and no fetch of it is late. -/
def MotifBeam.setEval (l : Nat) (ms : List MotifSel) (m : MotifBeam) : MotifBeam :=
  { m with evals := m.evals.filter (fun x => x.1 != l) ++ [(l, ms)], late := m.late.filter fun x => x.1 != l }

/-- What an evaluation comes to: registers that report it, and on an active line a list of at most 256 motifs. -/
theorem Chip.motifEval_cases (b : Beam) (l : Nat) (c : Chip) :
    ∃ (d : Chip) (ms : List MotifSel),
      c.motifEval b l = (if l < (c.beam b).vactive then d.onMotif b (MotifBeam.setEval l ms) else d) ∧
      d.motifB = c.motifB ∧ d.motif = c.motif ∧ ms.length ≤ 256 ∧ ∀ m ∈ ms, c.MayDraw b m := by
  unfold Chip.motifEval
  extract_lets hact words mine ws c1 c2 c3 sel c4 hi c5 dead ranked drawn c6
  have hmotifB : c6.motifB = c.motifB := by
    simp only [c6, c5, c4, c3, c2, c1, apply_ite Chip.motifB, Chip.incSat_motifB, Chip.sb_motifB, Chip.wf_motifB, Chip.sbIf_motifB, ite_self]
  have hprk : c6.prk = c.prk := by
    simp only [c6, c5, c4, c3, c2, c1, apply_ite Chip.prk, Chip.incSat_prk, Chip.sb_prk, Chip.wf_prk, Chip.sbIf_prk, ite_self]
  have hmotif : c6.motif = c.motif := by
    simp only [c6, c5, c4, c3, c2, c1, apply_ite Chip.motif, Chip.incSat_motif, Chip.sb_motif, Chip.wf_motif, Chip.sbIf_motif, ite_self]
  have hbeam : c6.beam b = c.beam b := by simp only [Chip.beam, hprk]
  refine ⟨c6, _, by rw [hbeam]; rfl, hmotifB, hmotif, ?_, ?_⟩
  · rw [List.length_map]
    exact length_filter_ranked_le sel fun r hr => of_decide_eq_true (Bool.and_eq_true_iff.mp hr).1
  · intro m hm
    obtain ⟨⟨k, e⟩, hr, rfl⟩ := List.mem_map.mp hm
    have hsel : e ∈ sel := (List.of_mem_zip (List.mem_filter.mp hr).1).2
    obtain ⟨i, hi, rfl⟩ := List.mem_map.mp (List.mem_filter.mp hsel).1
    obtain ⟨hlt, hmine⟩ := List.mem_filter.mp hi
    obtain ⟨hen, hbeam⟩ := Bool.and_eq_true_iff.mp hmine
    exact ⟨List.mem_range.mp hlt, hen, eq_of_beq hbeam, rfl⟩

/-- An evaluation leaves what the Beams share of the motif engine. -/
theorem Chip.motifEval_motif (b : Beam) (l : Nat) (c : Chip) : (c.motifEval b l).motif = c.motif := by
  obtain ⟨d, ms, heval, _, hmotif, _, _⟩ := c.motifEval_cases b l
  rw [heval]
  split
  · exact hmotif
  · exact hmotif

/-! ### What starts an evaluation (R389, R392, R402) -/

theorem exec_motifLoadEnd (b : Beam) (s : State) : exec (.motifLoadEnd b) s = .next (s.withChip (s.chip.motifLoadEnd b)) := rfl

theorem exec_motifEvaluation (b : Beam) (s : State) : exec (.motifEvaluation b) s = .next (s.withChip (s.chip.motifStart b)) := rfl

/-- Without an MTF_INVAL that waits the end of a load starts no reload (R398). -/
theorem Chip.reloadNext_of_none {c : Chip} (h : c.motif.inval = none) (b : Beam) : c.reloadNext b = c := by
  simp only [Chip.reloadNext, h]

/-- The end of a load lets the evaluation of line 0 that waited run (R389). -/
theorem Chip.motifLoadEnd_of_loading {c : Chip} {b : Beam} (hload : (c.motifB[b]).loading = true) (hinval : c.motif.inval = none) :
    c.motifLoadEnd b =
      let d := c.onMotif b fun m => { m with loading := false, waits := false }
      if (c.motifB[b]).waits then d.motifEval b 0 else d := by
  refine (if_pos hload).trans (Chip.reloadNext_of_none ?_ b)
  split
  · rw [Chip.motifEval_motif]
    exact hinval
  · exact hinval

/-- The motif layer of Beam b is off or shed (R402, R441). -/
def Chip.motifOff (c : Chip) (b : Beam) : Bool := !c.rb (mtfCfg b) 0 || (c.shed 4 && c.rb (mtfCfg b) 1)

/-- Beam b stands at the pixel HACTIVE of its line, or past it, at which an evaluation starts (R392). -/
def Chip.atEval (b : Beam) (c : Chip) : Chip := c.setPos b (c.line b) (max (c.pixel b) (c.beam b).hactive)

/-- The line that an evaluation of Beam b is for: two lines ahead (R392). -/
def Chip.evalLine (c : Chip) (b : Beam) : Nat := (c.line b + 2) % (c.beam b).vtotal

theorem Chip.rb_congr {c d : Chip} {a : Nat} (h : d.rd a = c.rd a) (i : Nat) : d.rb a i = c.rb a i := congrArg (tb · i) h

theorem Chip.rf_congr {c d : Chip} {a : Nat} (h : d.rd a = c.rd a) (hi lo : Nat) : d.rf a hi lo = c.rf a hi lo := congrArg (fld · hi lo) h

/-- What is shed rests on LTN_SHED alone. -/
theorem Chip.shed_congr {c d : Chip} (h : d.rd R.LTN_SHED = c.rd R.LTN_SHED) (i : Nat) : d.shed i = c.shed i := by
  simp only [Chip.shed, Chip.rf_congr h, Chip.rb_congr h]

/-- The counters of a Beam are no part of what turns the motif layer off. -/
theorem Chip.motifOff_atEval (c : Chip) (b : Beam) : (c.atEval b).motifOff b = c.motifOff b := by
  have hcfg : (c.atEval b).rd (mtfCfg b) = c.rd (mtfCfg b) :=
    Chip.rd_wr_ne _ _ _ _ (by simp only [mtfCfg, R.MTF_CFGA, R.PRK_POS]; omega)
  have hshed : (c.atEval b).rd R.LTN_SHED = c.rd R.LTN_SHED :=
    Chip.rd_wr_ne _ _ _ _ (by simp only [R.LTN_SHED, R.PRK_POS]; omega)
  simp only [Chip.motifOff, Chip.rb_congr hcfg, Chip.shed_congr hshed]

/-- What an evaluation of a running Beam comes to: no motifs, a wait for the load that runs, or the line's list. -/
theorem Chip.motifStart_of_running {c : Chip} {b : Beam} (h : c.running b = true) :
    c.motifStart b =
      if c.motifOff b then (c.atEval b).motifNone b (c.evalLine b)
      else if (c.motifB[b]).loading && c.evalLine b == 0 then
        ((c.atEval b).sb R.MTF_STICKY (6 + b)).onMotif b fun m => { m with waits := true }
      else (c.atEval b).motifEval b (c.evalLine b) := by
  rw [← Chip.motifOff_atEval]
  exact if_neg (by simp [h])

/-- A layer that is on and not shed. -/
theorem Chip.motifOff_eq_false {c : Chip} {b : Beam} (hen : c.rb (mtfCfg b) 0 = true)
    (hshed : c.shed 4 = false ∨ c.rb (mtfCfg b) 1 = false) : c.motifOff b = false := by
  rcases hshed with h | h <;> simp [Chip.motifOff, hen, h]

/-- A layer that is off, or under shed with its SHED bit. -/
theorem Chip.motifOff_eq_true {c : Chip} {b : Beam}
    (h : c.rb (mtfCfg b) 0 = false ∨ (c.shed 4 = true ∧ c.rb (mtfCfg b) 1 = true)) : c.motifOff b = true := by
  rcases h with h | ⟨hs, hb⟩
  · simp [Chip.motifOff, h]
  · simp [Chip.motifOff, hs, hb]

/-- A layer that is off or shed has no motifs on an active line. -/
theorem Chip.motifStart_of_off {c : Chip} {b : Beam} (hruns : c.running b = true) (hactive : c.evalLine b < (c.beam b).vactive)
    (hoff : c.motifOff b = true) :
    c.motifStart b = (c.atEval b).onMotif b fun m => { m with
      evals := m.evals.filter (fun x => x.1 != c.evalLine b)
      bufs := m.bufs.filter (fun x => x.1 != c.evalLine b) ++ [(c.evalLine b, [])] } := by
  rw [Chip.motifStart_of_running hruns, if_pos hoff]
  exact if_pos hactive

/-- Line 0 waits for a load that still runs (R389). -/
theorem Chip.motifStart_of_waiting {c : Chip} {b : Beam} (hruns : c.running b = true) (hon : c.motifOff b = false)
    (hload : (c.motifB[b]).loading = true) (hl : c.evalLine b = 0) :
    c.motifStart b = ((c.atEval b).sb R.MTF_STICKY (6 + b)).onMotif b fun m => { m with waits := true } := by
  rw [Chip.motifStart_of_running hruns, if_neg (by simp [hon]), if_pos (by rw [hload, hl]; rfl)]

/-- Any other line of a layer that is on is evaluated. -/
theorem Chip.motifStart_of_on {c : Chip} {b : Beam} (hruns : c.running b = true) (hon : c.motifOff b = false)
    (hl : (c.motifB[b]).loading = false ∨ c.evalLine b ≠ 0) : c.motifStart b = (c.atEval b).motifEval b (c.evalLine b) := by
  rw [Chip.motifStart_of_running hruns, if_neg (by simp [hon]), if_neg ?_]
  rcases hl with hload | hline
  · rw [hload, Bool.false_and]
    exact Bool.false_ne_true
  · simp [hline]

/-! ### The graphics of a line (R401) -/

theorem exec_motifLineComplete (b : Beam) (l : BitVec 13) (slack : Int) (s : State) :
    exec (.motifLineComplete b l slack) s = .next (s.withChip (s.chip.motifLine b l.toNat slack)) := rfl

/-- The rows of an evaluated line take the place of its list, and the slack is reported. -/
theorem Chip.motifLine_of_evaluated {b : Beam} {l : Nat} {e : Nat × List MotifSel} {c : Chip}
    (h : ((c.motifB[b]).evals.find? fun e => e.1 == l) = some e) (slack : Int) :
    c.motifLine b l slack =
      ((Chip.motifRows b l e.2 c).2.onMotif b fun m => { m with
        evals := m.evals.filter (fun x => x.1 != l)
        bufs := m.bufs.filter (fun x => x.1 != l) ++ [(l, (Chip.motifRows b l e.2 c).1)] }).onBeam b (PrkBeam.report l slack) := by
  simp only [Chip.motifLine, h, Chip.reportSlack_of_present]

/-- A line that has been output only reports. -/
theorem Chip.motifLine_of_late {b : Beam} {l : Nat} {e : Nat × List MotifSel} {c : Chip}
    (h : ((c.motifB[b]).evals.find? fun e => e.1 == l) = none)
    (hlate : ((c.motifB[b]).late.find? fun e => e.1 == l) = some e) (slack : Int) :
    c.motifLine b l slack =
      ((Chip.motifRows b l e.2 c).2.onMotif b fun m => { m with
        late := m.late.filter fun x => x.1 != l }).reportSlack b l true slack := by
  simp only [Chip.motifLine, h, hlate]

/-! ### Live writes to the entries (R395, R405) -/

theorem exec_liveAttributeWrite (n : Core) (b : Beam) (v : Word) (s : State) :
    exec (.liveAttributeWrite n b v) s = .next (s.withChip (s.chip.liveAttr n b v)) := rfl

/-- A word of an entry written reads what was written. -/
theorem Chip.attrWord_setAttr (b : Beam) (e w : Nat) (v : Word) (c : Chip) : (c.setAttr b e w v).attrWord b e w = v := by
  rw [Chip.attrWord, Chip.setAttr, Chip.motifB_onMotif]
  exact (Sparse.get_set (fun _ => 0) _ _ _ v).trans (if_pos rfl)

/-! ### Reloads (R398) -/

theorem exec_mtfInval (v : Word) (s : State) : exec (.mtfInval v) s = .next (s.withChip (s.chip.mtfInval v)) := rfl

theorem exec_mtfReloadEnd (s : State) : exec .mtfReloadEnd s = .next (s.withChip s.chip.motifReloadEnd) := rfl

/-- The Beams whose commit-point load runs. -/
def Chip.motifLoads (c : Chip) : List Nat := (List.finRange 2).filterMap fun b => if (c.motifB[b]).loading then some b.val else none

theorem Chip.mem_motifLoads {b : Beam} {c : Chip} (h : (c.motifB[b]).loading = true) : b.val ∈ c.motifLoads :=
  List.mem_filterMap.mpr ⟨b, List.mem_finRange b, if_pos h⟩

theorem Chip.motifLoads_eq_nil {c : Chip} (h : ∀ b : Beam, (c.motifB[b]).loading = false) : c.motifLoads = [] :=
  List.filterMap_eq_nil_iff.mpr fun b _ => if_neg (by rw [h b]; decide)

/-- An MTF_INVAL during BUSY is dropped. -/
theorem Chip.mtfInval_of_busy {c : Chip} (h : c.rb R.MTF_INVAL_STAT 0 = true) (v : Word) : c.mtfInval v = c.sb R.MTF_STICKY 9 := if_pos h

/-- An MTF_INVAL with no entry or no Beam does nothing. -/
theorem Chip.mtfInval_of_empty {c : Chip} (h : c.rb R.MTF_INVAL_STAT 0 = false) {v : Word} (hv : fld v 20 10 = 0 ∨ fld v 25 24 = 0) :
    c.mtfInval v = c :=
  (if_neg (by simp [h])).trans (if_pos hv)

section
variable {c : Chip} {v : Word} (hfree : c.rb R.MTF_INVAL_STAT 0 = false) (hcount : fld v 20 10 ≠ 0) (hmask : fld v 25 24 ≠ 0)
include hfree hcount hmask

/-- Any other MTF_INVAL sets BUSY, and reloads at once where no load runs. -/
theorem Chip.mtfInval_of_idle (h : ∀ b : Beam, (c.motifB[b]).loading = false) :
    c.mtfInval v = (c.sb R.MTF_INVAL_STAT 0).reload (fld v 9 0) (fld v 20 10) (fld v 25 24) :=
  calc c.mtfInval v
    _ = _ := if_neg (by simp [hfree])
    _ = _ := if_neg (not_or.mpr ⟨hcount, hmask⟩)
    _ = _ := if_pos (congrArg List.isEmpty (Chip.motifLoads_eq_nil h))

/-- While loads run it waits for them. -/
theorem Chip.mtfInval_of_loading {b : Beam} (h : (c.motifB[b]).loading = true) :
    c.mtfInval v = { c.sb R.MTF_INVAL_STAT 0 with
      motif := { c.motif with inval := some (fld v 9 0, fld v 20 10, fld v 25 24, c.motifLoads) } } :=
  have hloads : ¬c.motifLoads.isEmpty = true := by
    rw [List.isEmpty_iff]
    exact List.ne_nil_of_mem (Chip.mem_motifLoads h)
  calc c.mtfInval v
    _ = _ := if_neg (by simp [hfree])
    _ = _ := if_neg (not_or.mpr ⟨hcount, hmask⟩)
    _ = _ := if_neg hloads

end

/-- A reload that has run ends, and BUSY clears. -/
theorem Chip.motifReloadEnd_of_run {c : Chip} (h : c.motif.inval = none) : c.motifReloadEnd = c.wb R.MTF_INVAL_STAT 0 false :=
  if_neg (by simp [h])

/-! ### The obligation -/

/-- Settles O33: the planes' clauses are those of a captured line, of a flush and of a palette write; the motifs' are those of an
evaluation by what the layer and the load allow, of a line's graphics, and of a reload. -/
theorem planesAndMotifs : Obligations.PlanesAndMotifs := by
  unfold Obligations.PlanesAndMotifs
  refine ⟨?fetch, ?fetchLate, ?flush, ?flushOthers, ?livePalette, ?shadowPalette, ?loadEnd, ?evaluation, ?noEvaluation, ?lineComplete,
    ?lineLate, ?liveAttribute, ?inval⟩
  case fetch =>
    intro p b l slack x s hx
    refine ⟨fun hgot hblank hbeam => ?_, ?_⟩
    · subst hbeam
      exact Chip.fetchLine_of_unread hgot hblank p s.chip
    · rw [exec_planeFetchComplete, Chip.planeFetch_of_captured hx]
  case fetchLate =>
    intro p b l slack x s hnone hlate
    rw [exec_planeFetchComplete, Chip.planeFetch_of_late hnone hlate]
  case flush =>
    intro mask s
    exact ⟨_, exec_tileInval mask s, fun hidle => Chip.tileInval_regs_of_idle hidle _, fun p hp => Chip.tileInval_cache hp s.chip⟩
  case flushOthers =>
    intro mask p s hp _
    exact ⟨_, exec_tileInval mask s, Chip.tileInval_planes_of_unnamed hp s.chip⟩
  case livePalette =>
    intro n b pixel v s
    exact ⟨exec_livePaletteWrite n b v pixel s, Chip.palLive_palWrite ..⟩
  case shadowPalette =>
    intro n b v s
    refine ⟨fun hfree => ?_, fun htransfer => ?_⟩
    · rw [exec_shadowPaletteWrite, Chip.shadowPalData_of_free hfree]
    · rw [exec_shadowPaletteWrite, Chip.shadowPalData_of_inTransfer htransfer]
  case loadEnd =>
    intro b s hload hinval
    rw [exec_motifLoadEnd, Chip.motifLoadEnd_of_loading hload hinval]
  case evaluation =>
    intro b s k l hruns hactive hen hshed hl
    obtain ⟨d, ms, heval, hmotifB, _, hlen, hdraw⟩ := (s.chip.atEval b).motifEval_cases b l
    replace heval := heval.trans (if_pos hactive)
    refine ⟨d.onMotif b (MotifBeam.setEval l ms), ms, ?_, ?_, hlen, hdraw⟩
    · rw [exec_motifEvaluation, Chip.motifStart_of_on hruns (Chip.motifOff_eq_false hen hshed) hl, ← heval]
      rfl
    · rw [Chip.motifB_onMotif, hmotifB]
      rfl
  case noEvaluation =>
    intro b s k l c hruns hactive
    refine ⟨fun hoff => ?_, fun hen hshed hload hl => ?_⟩
    · rw [exec_motifEvaluation, Chip.motifStart_of_off hruns hactive (Chip.motifOff_eq_true hoff)]
      rfl
    · rw [exec_motifEvaluation, Chip.motifStart_of_waiting hruns (Chip.motifOff_eq_false hen hshed) hload hl]
      rfl
  case lineComplete =>
    intro b l slack e s he
    rw [exec_motifLineComplete, Chip.motifLine_of_evaluated he]
  case lineLate =>
    intro b l slack e s hnone hlate
    rw [exec_motifLineComplete, Chip.motifLine_of_late hnone hlate]
  case liveAttribute =>
    intro n b v s
    exact ⟨exec_liveAttributeWrite n b v s, Chip.attrWord_setAttr ..⟩
  case inval =>
    intro v s
    refine ⟨fun hbusy => ?_, fun hfree hv => ?_, fun hfree hcount hmask hnone => ?_, fun b hfree hcount hmask hload => ?_, fun hrun => ?_⟩
    · rw [exec_mtfInval, Chip.mtfInval_of_busy hbusy]
    · rw [exec_mtfInval, Chip.mtfInval_of_empty hfree hv, State.withChip_chip]
    · rw [exec_mtfInval, Chip.mtfInval_of_idle hfree hcount hmask hnone]
    · exact ⟨_, Chip.mem_motifLoads hload, by rw [exec_mtfInval, Chip.mtfInval_of_loading hfree hcount hmask hload]⟩
    · rw [exec_mtfReloadEnd, Chip.motifReloadEnd_of_run hrun]

end Sys2Proof.Machine
end

section
/-! The decode of a Vellum offset (04, R97): its fields as quotients and remainders, and the offset of a word read back. -/

namespace Sys2Proof.Machine

/-- The bits [hi:lo] of an offset are a quotient's remainder. -/
theorem toNat_extractLsb_eq_div_mod {w : Nat} (x : BitVec w) (hi lo : Nat) :
    (x.extractLsb hi lo).toNat = x.toNat / 2 ^ lo % 2 ^ (hi - lo + 1) := by
  rw [BitVec.extractLsb_toNat, Nat.shiftRight_eq_div_pow]

/-- The word in its bank is A[21:9] above A[5:3] (R97). -/
theorem vWord_eq_or (off : Nat) : vWord off = (off / 2 ^ 9 % 2 ^ 13) <<< 3 ||| off / 2 ^ 3 % 2 ^ 3 := by
  rw [← Nat.shiftLeft_add_eq_or_of_lt (Nat.mod_lt _ (by decide)), Nat.shiftLeft_eq]
  rfl

/-- An offset of Vellum is that of its word, and its byte (R97). -/
theorem vOffset_vBank_vWord {off : Nat} (h : off < vlmSize) : vOffset (vBank off) (vWord off) + off % 8 = off := by
  simp only [vlmSize] at h
  simp only [vOffset, vBank, vWord, vChannel]
  omega

theorem vChannel_vOffset (b w : Nat) : vChannel (vOffset b w) = b % 8 := by
  simp only [vOffset, vChannel]
  omega

theorem vBank_vOffset {b w : Nat} (hb : b < 96) (hw : w < 0x10000) : vBank (vOffset b w) = b := by
  have hstripe : vOffset b w / 2 ^ 22 = b / 8 := by
    simp only [vOffset]
    omega
  rw [vBank, vChannel_vOffset, hstripe]
  omega

theorem vWord_vOffset {b w : Nat} (hw : w < 0x10000) : vWord (vOffset b w) = w := by
  simp only [vOffset, vWord]
  omega

/-- The word that a bank and a word name lies in Vellum. -/
theorem vOffset_add_le_vlmSize {b w : Nat} (hb : b < 96) (hw : w < 0x10000) : vOffset b w + 8 ≤ vlmSize := by
  simp only [vOffset, vlmSize]
  omega

/-- Settles O59: the fields of an offset of 26 bits are quotients and remainders, so that linear arithmetic reads them back. -/
theorem vellumDecodeIsOneToOne : Obligations.VellumDecodeIsOneToOne := by
  unfold Obligations.VellumDecodeIsOneToOne
  refine ⟨?decode, fun b w hb hw => ⟨vOffset_add_le_vlmSize hb hw, vBank_vOffset hb hw, vWord_vOffset hw⟩⟩
  case decode =>
    intro A hA
    simp only [toNat_extractLsb_eq_div_mod]
    have hstripe : A.toNat / 2 ^ 22 % 16 ≤ 11 := by
      simp only [vlmSize] at hA
      omega
    have hchannel : vChannel A.toNat ≤ 7 := Nat.le_of_lt_succ (Nat.mod_lt _ (by decide))
    refine ⟨?channel, hchannel, hstripe, rfl, ?bank, vWord_eq_or _, ?word, ?byte, ?place⟩
    case channel => rfl
    case bank => exact Nat.add_le_add (Nat.mul_le_mul_left 8 hstripe) hchannel
    case word =>
      simp only [vWord]
      omega
    case byte => exact congrArg (· % 8) (Nat.div_one A.toNat).symm
    case place => simpa using vOffset_vBank_vWord hA

end Sys2Proof.Machine
end

section
/-! Requests to Vellum (04, R100 to R118, R122): what a handshake, a freed token, room in a channel's buffer and a bank's grant answer. -/

namespace Sys2Proof.Machine

/-! ### Handshakes (R100, R115 to R118) -/

/-- A read that R100 allows is issued. -/
theorem exec_vellumRead_of_reqOk {off : BitVec 26} {n : Fin 8} (h : reqOk off.toNat (n.val + 1) = true) (k : VClass) (i : Fin 16)
    (s : State) : exec (.vellumRead k i off n) s = .next (s.withChip (s.chip.issueRead k i.val off.toNat (n.val + 1))) := by
  show execVellumRead k i off n s = _
  exact if_pos h

/-- A write of whole words that R100 allows is issued. -/
theorem exec_vellumWrite_of_reqOk {off : BitVec 26} {bs : List (Option Byte)} (hlen : bs.length % 8 = 0)
    (h : reqOk off.toNat (bs.length / 8) = true) (k : VClass) (i : Fin 16) (s : State) :
    exec (.vellumWrite k i off bs) s = .next (s.withChip (s.chip.issueWrite k i.val off.toNat (bs.length / 8) bs)) := by
  show execVellumWrite k i off bs s = _
  exact if_pos ⟨hlen, h⟩

theorem exec_tokenAcquire (s : State) : exec .tokenAcquire s = .next (s.withChip s.chip.acquire) := rfl

theorem exec_writeAccept (ch : Fin 8) (s : State) : exec (.writeAccept ch) s = .next (s.withChip (s.chip.acceptWrite ch.val)) := rfl

/-- A freed token goes to the oldest read of the first class that can take one (R115, R116). -/
theorem Chip.acquire_of_class {c : Chip} {k : VClass}
    (h : (clsAll.find? fun k => (c.vlm.reqs.any fun r => c.vlm.wants r && decide (r.cls = k)) && (c.vlm.token k).isSome) = some k) :
    c.acquire = (c.setReqs (changeFirst (fun r => c.vlm.wants r && decide (r.cls = k))
      (fun r => { r with acked := true, own := (c.vlm.token k).getD false }) c.vlm.reqs)).tokPeak := by
  simp only [Chip.acquire, h]

/-- A channel's buffer with room takes its oldest waiting write (R117). -/
theorem Chip.acceptWrite_of_room {c : Chip} {ch : Nat} (h : c.vlm.buffered ch < 16) :
    c.acceptWrite ch = c.setReqs (changeFirst (fun r => r.write && !r.acked && vChannel r.off == ch) (fun r => { r with acked := true }) c.vlm.reqs) :=
  if_pos h

/-! ### Grants (R113, R122) -/

theorem exec_bankGrant (n : Bank) (s : State) :
    exec (.bankGrant n) s = .next (s.withChip (s.chip.bellsAfter (s.chip.grant n.val))) := rfl

section
variable {c : Chip} {n : Nat}

/-- A promoted scrub run goes first, whole (R122). -/
theorem Chip.grant_of_promoted (hprom : (c.bank n).promoted = true) (hleft : 0 < (c.bank n).left) :
    c.grant n = (c.tokTouch .scrub).onBank n fun k => { k with left := 0 } :=
  if_pos (by simp [hprom, hleft])

/-- A bank without a promoted run grants the request that the arbiter chooses, and its class's round robin goes on from there (R113). -/
theorem Chip.grant_of_request (hprom : (c.bank n).promoted = false) {r : VReq} (h : c.arbitrate n = some r) :
    c.grant n =
      let d := c.onBank n fun k => { k with rr := Sparse.set 15 k.rr (clsCode r.cls) (r.idx % 16) }
      if r.write then (d.applyWrite r).setReqs (removeFirst (fun x => decide (x = r)) d.vlm.reqs)
      else d.setReqs (changeFirst (fun x => decide (x = r)) (fun x => { x with
        granted := true, bytes := (d.vbytes r.off (8 * r.n)).map some, bad := d.badWords r.off r.n }) d.vlm.reqs) := by
  simp only [Chip.grant, hprom, h, Bool.false_and, Bool.false_eq_true, if_false]

/-- A bank where nothing waits makes one scrub read of its slot (R113). -/
theorem Chip.grant_of_slot (hprom : (c.bank n).promoted = false) (h : c.arbitrate n = none) (hleft : 0 < (c.bank n).left) :
    c.grant n = (c.tokTouch .scrub).onBank n fun k => { k with left := k.left - 1 } := by
  simp only [Chip.grant, hprom, h, hleft, Bool.false_and, Bool.false_eq_true, if_false, if_true]

end

/-! ### Doorbells that wait for host writes (R16) -/

/-- No doorbell takes effect where no host write has landed. -/
theorem Chip.bellsAfter_of_hostWrites {c d : Chip} (h : d.hostWrites = c.hostWrites) : c.bellsAfter d = d :=
  if_neg (by simp [h])

theorem Chip.tokTouch_vlm (k : VClass) (c : Chip) : (c.tokTouch k).vlm = c.vlm := by
  unfold Chip.tokTouch
  split <;> rfl

theorem Chip.hostWrites_congr {c d : Chip} (h : d.vlm.reqs = c.vlm.reqs) : d.hostWrites = c.hostWrites :=
  congrArg (List.filter _) h

/-- A scrub read leaves the host's writes. -/
theorem Chip.hostWrites_onBank_tokTouch (n : Nat) (f : BankSt → BankSt) (k : VClass) (c : Chip) :
    ((c.tokTouch k).onBank n f).hostWrites = c.hostWrites :=
  have hreqs : (c.tokTouch k).vlm.reqs = c.vlm.reqs := congrArg Vlm.reqs (c.tokTouch_vlm k)
  Chip.hostWrites_congr hreqs

/-- Settles O5: each clause is the rule of its command; a scrub read lands no host write, so that no doorbell follows it. -/
theorem vellumRequestsQueueAndAreGranted : Obligations.VellumRequestsQueueAndAreGranted := by
  unfold Obligations.VellumRequestsQueueAndAreGranted
  refine ⟨?read, ?write, ?token, ?accept, ?request, ?slot, ?promoted⟩
  case read =>
    intro k i off n s h
    exact exec_vellumRead_of_reqOk h k i s
  case write =>
    intro k i off bs s hlen h
    exact exec_vellumWrite_of_reqOk hlen h k i s
  case token =>
    intro k s h
    rw [exec_tokenAcquire, Chip.acquire_of_class h]
  case accept =>
    intro ch s h
    rw [exec_writeAccept, Chip.acceptWrite_of_room h]
  case request =>
    intro n r s hprom h
    rw [exec_bankGrant, Chip.grant_of_request hprom h]
  case slot =>
    intro n s h hleft hprom
    rw [exec_bankGrant, Chip.grant_of_slot hprom h hleft, Chip.bellsAfter_of_hostWrites (Chip.hostWrites_onBank_tokTouch ..)]
  case promoted =>
    intro n s hprom hleft
    rw [exec_bankGrant, Chip.grant_of_promoted hprom hleft, Chip.bellsAfter_of_hostWrites (Chip.hostWrites_onBank_tokTouch ..)]

end Sys2Proof.Machine
end

section
/-! Reads of Vellum that complete, scrub slots, the error counts and the darn copier (04, R107, R119 to R130; 24, R678 to R681). -/

namespace Sys2Proof.Machine

/-! ### Bits of a word -/

theorem tb_eq_getLsbD {n : Nat} (w : BitVec n) (i : Nat) : tb w i = w.getLsbD i := by
  rw [tb, ← BitVec.testBit_toNat, Nat.testBit_eq_decide_div_mod_eq]
  rfl

theorem bitW_eq_twoPow (i : Nat) : bitW i = BitVec.twoPow 32 i := by
  apply BitVec.eq_of_toNat_eq
  rw [BitVec.toNat_twoPow, bitW, BitVec.toNat_ofNat]

/-- A bit of a word in which a bit is set or cleared. -/
theorem tb_setBit {w : Word} {i j : Nat} (hj : j < 32) (b : Bool) : tb (setBit w i b) j = if i = j then b else tb w j := by
  simp only [tb_eq_getLsbD, setBit, bitW_eq_twoPow]
  obtain rfl | h := eq_or_ne i j
  · cases b <;> simp [hj]
  · cases b <;> simp [hj, h, h.symm]

theorem beam_eq_zero_or_one (b : Beam) : b = 0 ∨ b = 1 := by
  revert b
  decide

/-! ### Reads that complete, and the counts (R107, R114, R130) -/

/-- The oldest granted read of a requester reports what its words show, delivers the bytes taken at its grant and leaves the queue. -/
theorem exec_vlmReadComplete_of_granted {k : VClass} {i : BitVec 7} {r : VReq} {s : State}
    (h : (s.chip.vlm.reqs.find? fun r => r.granted && !r.write && decide (r.cls = k) && r.idx == i.toNat) = some r)
    (find : List (Option Ecc)) :
    exec (.vlmReadComplete k i find) s = .next (s.withChip
      (let word (j : Nat) : Nat := r.off + 8 * j
       let found (j : Nat) : Bool := match find[j]?.join with
         | some (.ue _) => true
         | _ => false
       let c := forEach (List.range r.n) (fun j c => c.vFindIn (r.bad.contains (word j)) k i.toNat (word j) (find[j]?.join)) s.chip
       let bad := ((List.range r.n).filter fun j => r.bad.contains (word j) || found j).map word
       { c with vlm := { c.vlm with
           reqs := removeFirst (fun x => decide (x = r)) c.vlm.reqs
           delivered := { cls := k, idx := i.toNat, off := r.off, bytes := r.bytes.map (·.getD 0), bad } ::
             c.vlm.delivered.filter fun x => !(decide (x.cls = k) && x.idx == i.toNat) } })) := by
  show (s.chip.readDone k i.toNat find).next s = _
  simp only [Chip.readDone, h]
  rfl

theorem exec_cntClr (s : State) : exec .cntClr s = .next (s.withChip s.chip.cntClr) := rfl

/-! ### Scrub slots (R120 to R123) -/

/-- Every scrubbed bank has its 256 reads to come, or misses the slot (R120, R121, R123). -/
def Chip.slotBanks (pause : Bool) (c : Chip) : Chip :=
  (forEach (List.range 102) (fun n c =>
    if !c.scrubbed n then c.onBank n fun k => { k with slot := .idle, left := 0 }
    else if pause || c.inCopy n then c.bankMiss n
    else c.onBank n fun k => { k with slot := .active, left := 256, promoted := false }) c).slotClose

theorem Chip.slotOpen_eq (c : Chip) :
    c.slotOpen = { c with vlm := { c.vlm with slotAt := c.time, copyHold := if c.scrubRef = 2 then none else c.vlm.copyHold } }.slotBanks
      (c.rb R.VLM_CTRL 1 || c.shed 1) := rfl

theorem exec_scrubSlotOpen_of_due {s : State} (hen : s.chip.rb R.VLM_CTRL 0 = true) (h : s.chip.slotDue = true) :
    exec .scrubSlotOpen s = .next (s.withChip s.chip.slotCount.slotOpen) := by
  show execScrubSlotOpen s = _
  exact if_pos ⟨hen, h⟩

/-- With the free period as reference a slot is due one period after the last (R120). -/
theorem Chip.slotDue_of_free {c : Chip} (href : c.scrubRef = 2) (h : 1600000 ≤ (c.time - c.vlm.freeFrom).toNat) : c.slotDue = true := by
  simp only [Chip.slotDue, href]
  exact decide_eq_true h

/-- With a Beam as reference a slot is due at its VB0 (R120). -/
theorem Chip.slotDue_of_beam {c : Chip} {b : Beam} (href : c.scrubRef = b.val) (hline : c.line b = (c.beam b).vactive)
    (hpixel : c.pixel b = 0) : c.slotDue = true := by
  obtain rfl | rfl := beam_eq_zero_or_one b
  · simp [Chip.slotDue, href, hline, hpixel]
  · simp [Chip.slotDue, href, hline, hpixel]

theorem Chip.slotCount_of_free {c : Chip} (href : c.scrubRef = 2) :
    c.slotCount = { c with vlm := { c.vlm with freeFrom := c.vlm.freeFrom + 1600000 } } :=
  if_pos href

theorem Chip.slotCount_of_beam {c : Chip} (href : c.scrubRef ≠ 2) : c.slotCount = c :=
  if_neg href

/-- The reference rests on the registers. -/
theorem Chip.scrubRef_congr {c d : Chip} (h : d.regs = c.regs) : d.scrubRef = c.scrubRef := by
  simp only [Chip.scrubRef, Chip.running, Chip.rf, Chip.rb, Chip.rd_congr h]
  rfl

/-- With the free period as reference a copier that waits goes on at the slot (R129). -/
theorem Chip.slotOpen_of_free {c : Chip} (href : c.scrubRef = 2) :
    c.slotOpen = { c with vlm := { c.vlm with slotAt := c.time, copyHold := none } }.slotBanks (c.rb R.VLM_CTRL 1 || c.shed 1) := by
  rw [Chip.slotOpen_eq, if_pos href]

/-- The same where the next slot is counted from t. -/
theorem Chip.slotOpen_of_counted {c : Chip} (href : c.scrubRef = 2) (t : BitVec 64) :
    { c with vlm := { c.vlm with freeFrom := t } }.slotOpen =
      { c with vlm := { c.vlm with freeFrom := t, slotAt := c.time, copyHold := none } }.slotBanks (c.rb R.VLM_CTRL 1 || c.shed 1) :=
  Chip.slotOpen_of_free (c := { c with vlm := { c.vlm with freeFrom := t } }) ((Chip.scrubRef_congr rfl).trans href)

/-- A slot of a Beam leaves the free period's count and the copier's wait (R120, R129). -/
theorem Chip.slotOpen_of_beam {c : Chip} (href : c.scrubRef ≠ 2) :
    c.slotCount.slotOpen = { c with vlm := { c.vlm with slotAt := c.time } }.slotBanks (c.rb R.VLM_CTRL 1 || c.shed 1) := by
  rw [Chip.slotCount_of_beam href, Chip.slotOpen_eq, if_neg href]

/-- The promotion is due at the PFS of the Beam that is the reference, or in the free period 800,000 ticks after the opening (R122). -/
theorem Chip.promoteDue_of_free {c : Chip} (href : c.scrubRef = 2) (h : 800000 ≤ (c.time - c.vlm.slotAt).toNat) : c.promoteDue = true := by
  simp only [Chip.promoteDue, href]
  exact decide_eq_true h

/-- See promoteDue_of_free. -/
theorem Chip.promoteDue_of_beam {c : Chip} {b : Beam} (href : c.scrubRef = b.val) (hline : c.line b = (c.beam b).vtotal - (c.beam b).lead)
    (hpixel : c.pixel b = 0) : c.promoteDue = true := by
  obtain rfl | rfl := beam_eq_zero_or_one b
  · simp [Chip.promoteDue, href, hline, hpixel]
  · simp [Chip.promoteDue, href, hline, hpixel]

theorem exec_scrubPromote_of_due {s : State} (h : s.chip.promoteDue = true) :
    exec .scrubPromote s = .next (s.withChip s.chip.slotPromote) := by
  show execScrubPromote s = _
  exact if_pos h

theorem exec_scrubSlotComplete (n : Bank) (find : List (Nat × Ecc)) (s : State) :
    exec (.scrubSlotComplete n find) s = .next (s.withChip (s.chip.slotDone n.val find)) := rfl

/-! ### The darn copier (R678 to R681) -/

theorem exec_darnCopyGranule (find : List (Option Ecc)) (s : State) :
    exec (.darnCopyGranule find) s = .next (s.withChip (s.chip.copyGranule find)) := rfl

theorem exec_drnCopyGo (v : Word) (s : State) :
    exec (.drnCopyGo v) s = .next (s.withChip (s.chip.storeDrnCopy (setBit (setBit v 16 true) 17 false))) := rfl

theorem exec_drnCopyNocopy (v : Word) (s : State) :
    exec (.drnCopyNocopy v) s = .next (s.withChip (s.chip.storeDrnCopy (setBit (setBit v 16 true) 17 true))) := rfl

theorem exec_drnCopyAbort (s : State) : exec .drnCopyAbort s = .next (s.withChip s.chip.copyAbort) := rfl

/-- While a copy runs, DRN_COPY takes ABORT only (R678). -/
theorem Chip.storeDrnCopy_of_active {c : Chip} (h : c.copyActive = true) {v : Word} (habort : tb v 18 = false) : c.storeDrnCopy v = c := by
  simp only [Chip.storeDrnCopy, h, habort, if_true, Bool.false_eq_true, if_false]

/-- A GO that names a logical bank copies it, or with NOCOPY maps it at once (R678, R681). -/
theorem Chip.storeDrnCopy_of_go {c : Chip} (h : c.copyActive = false) {v : Word} (hgo : tb v 16 = true)
    (hbank : (c.store R.DRN_COPY v).rf R.DRN_COPY 6 0 < 96) :
    c.storeDrnCopy v =
      let d := c.store R.DRN_COPY v
      if tb v 17 then d.copyNoCopy (d.rf R.DRN_COPY 6 0) (min 5 (d.rf R.DRN_COPY 10 8))
      else d.copyGo (d.rf R.DRN_COPY 6 0) (min 5 (d.rf R.DRN_COPY 10 8)) :=
  (if_neg (by simp [h])).trans (if_neg (by simp only [hgo, Bool.not_true, Bool.false_or, decide_eq_true_eq]; omega))

/-- The control word of DRN_COPY_GO and DRN_COPY_NOCOPY: GO is 1, NOCOPY is as given, ABORT stays. -/
theorem tb_copyWord (v : Word) (nocopy : Bool) :
    tb (setBit (setBit v 16 true) 17 nocopy) 16 = true ∧ tb (setBit (setBit v 16 true) 17 nocopy) 17 = nocopy ∧
      tb (setBit (setBit v 16 true) 17 nocopy) 18 = tb v 18 := by
  simp [tb_setBit]

/-- Settles O6: each clause is the rule of its command, with the premises of the clause met. -/
theorem scrubbingReadsAndTheBankCopy : Obligations.ScrubbingReadsAndTheBankCopy := by
  unfold Obligations.ScrubbingReadsAndTheBankCopy
  refine ⟨?read, exec_cntClr, ?slotOpen, ?promote, ?slotComplete, ?granule, ?go, ?active, ?abort⟩
  case read =>
    intro k i find r s h
    exact exec_vlmReadComplete_of_granted h find
  case slotOpen =>
    intro s hen pause opened
    refine ⟨fun href htime => ?_, fun b href hline hpixel => ?_⟩
    · rw [exec_scrubSlotOpen_of_due hen (Chip.slotDue_of_free href htime), Chip.slotCount_of_free href, Chip.slotOpen_of_counted href]
      rfl
    · have hne : s.chip.scrubRef ≠ 2 := by omega
      rw [exec_scrubSlotOpen_of_due hen (Chip.slotDue_of_beam href hline hpixel), Chip.slotOpen_of_beam hne]
      rfl
  case promote =>
    rintro s (⟨href, htime⟩ | ⟨b, href, hline, hpixel⟩)
    · exact exec_scrubPromote_of_due (Chip.promoteDue_of_free href htime)
    · exact exec_scrubPromote_of_due (Chip.promoteDue_of_beam href hline hpixel)
  case slotComplete =>
    intro n find s hactive hleft
    rw [exec_scrubSlotComplete, Chip.slotDone, if_pos ⟨hactive, hleft⟩]
  case granule =>
    intro find s hmay
    rw [exec_darnCopyGranule, Chip.copyGranule, if_pos hmay]
    refine ⟨fun hmore => ?_, fun hlast => ?_⟩
    · rw [if_pos hmore]
    · rw [if_neg (Nat.not_lt.mpr hlast)]
  case go =>
    intro v s hidle
    refine ⟨fun hbank => ?_, fun hbank => ?_⟩
    · obtain ⟨hgo, hcopy, _⟩ := tb_copyWord v false
      rw [exec_drnCopyGo, Chip.storeDrnCopy_of_go hidle hgo hbank, hcopy, if_neg Bool.false_ne_true]
    · obtain ⟨hgo, hnocopy, _⟩ := tb_copyWord v true
      rw [exec_drnCopyNocopy, Chip.storeDrnCopy_of_go hidle hgo hbank, hnocopy, if_pos rfl]
  case active =>
    intro v s hactive habort
    have hkept (nocopy : Bool) : tb (setBit (setBit v 16 true) 17 nocopy) 18 = false := (tb_copyWord v nocopy).2.2.trans habort
    rw [exec_drnCopyGo, exec_drnCopyNocopy, Chip.storeDrnCopy_of_active hactive (hkept false), Chip.storeDrnCopy_of_active hactive (hkept true)]
    exact ⟨rfl, rfl⟩
  case abort =>
    intro s hactive
    rw [exec_drnCopyAbort, Chip.copyAbort, if_pos hactive]

end Sys2Proof.Machine
end

section
/-! The host link (09, R98, R110, R220, R245 to R251, R299): the host's requests to BAR0, BAR2 and the configuration space, the
function's power state, link resets, host MSI and the heartbeat. -/

namespace Sys2Proof.Machine

/-! ### BAR0 and the configuration space (R247, R248, R250) -/

theorem exec_hostBar0Request (w : Bool) (off : BitVec 16) (be : BitVec 4) (k : Nat) (v : Word) (s : State) :
    exec (.hostBar0Request w off be k v) s = .next (s.withChip (s.chip.bar0Request w off.toNat be k v)) := rfl

theorem exec_hostBar0Request_cfg (w : Bool) (off : BitVec 16) (be : BitVec 4) (k : Nat) (v : Word) (s : State) :
    exec (.hostBar0Request w off be k v true) s = .next (s.withChip (s.chip.cfgRequest w off.toNat be v)) := rfl

theorem exec_bar2Access (w : Bool) (off : BitVec 26) (bytes : List (Option Byte)) (s : State) :
    exec (.bar2Access w off bytes) s = .next (s.withChip (s.chip.bar2Access w off.toNat bytes)) := rfl

section
variable {c : Chip} (hon : c.pcieOn = true)
include hon

/-- In D3hot a read completes with Unsupported Request and a write does nothing (R250). -/
theorem Chip.bar0Request_of_d3 (hd3 : c.host.d3 = true) (w : Bool) (off : Nat) (be : BitVec 4) (k : Nat) (v : Word) :
    c.bar0Request w off be k v = if w then c else c.unsupported := by
  simp only [Chip.bar0Request, hon, hd3, Bool.not_true, Bool.false_eq_true, if_false, if_true]

/-- See bar0Request_of_d3. -/
theorem Chip.bar2Access_of_d3 (hd3 : c.host.d3 = true) (w : Bool) (off : Nat) (bytes : List (Option Byte)) :
    c.bar2Access w off bytes = if w then c else c.unsupported := by
  simp only [Chip.bar2Access, hon, hd3, Bool.not_true, Bool.false_eq_true, if_false, if_true]

variable (hd0 : c.host.d3 = false)
include hd0

/-- A BAR0 request of any other form than one aligned DWORD is refused (R248). -/
theorem Chip.bar0Request_of_badForm {off : Nat} {be : BitVec 4} {k : Nat} (h : be ≠ 0xF ∨ k ≠ 1 ∨ off % 4 ≠ 0) (w : Bool) (v : Word) :
    c.bar0Request w off be k v = if w then c.sb R.MBX_STAT 2 else (c.sb R.MBX_STAT 2).unsupported := by
  simp only [Chip.bar0Request, hon, hd0, Bool.not_true, Bool.false_eq_true, if_false]
  exact if_pos h

/-- One aligned DWORD is served, with BAR0_HOLE where no register stands (R248). -/
theorem Chip.bar0Request_of_dword {off : Nat} (h : off % 4 = 0) (w : Bool) (v : Word) :
    c.bar0Request w off 0xF 1 v =
      let d := c.sbIf (!bar0Reg off) R.MBX_STAT 3
      if w then d.bar0Write off v else d.emit (.hostRead (leBytes 4 (d.bar0Read off).toNat) false) := by
  simp only [Chip.bar0Request, hon, hd0, Bool.not_true, Bool.false_eq_true, if_false]
  exact if_neg (by simp [h])

/-- A BAR2 access touches the bytes below the hole, and sets HOST_HOLE where it reaches it (R98, R249). -/
theorem Chip.bar2Access_of_d0 (w : Bool) (off : Nat) (bytes : List (Option Byte)) :
    c.bar2Access w off bytes =
      let n := belowHole off bytes.length
      let d := c.sbIf (decide (n < bytes.length)) R.VLM_STICKY 3
      if w then d.hostVWrite off (bytes.take n)
      else forEach (tlpCuts (bytes.length + 1) off bytes.length) (fun t c => c.emit (c.readTlp t)) (d.vRead .host 0 off n).2.2 := by
  simp only [Chip.bar2Access, hon, hd0, Bool.not_true, Bool.false_eq_true, if_false]

/-- An access below the hole. -/
theorem Chip.bar2Access_of_below {off : Nat} {bytes : List (Option Byte)} (h : off + bytes.length ≤ 0x3000000) (w : Bool) :
    c.bar2Access w off bytes = if w then c.hostVWrite off bytes
      else forEach (tlpCuts (bytes.length + 1) off bytes.length) (fun t c => c.emit (c.readTlp t)) (c.vRead .host 0 off bytes.length).2.2 := by
  have hcut : belowHole off bytes.length = bytes.length := by
    simp only [belowHole, vlmSize]
    omega
  simp only [Chip.bar2Access_of_d0 hon hd0, hcut, Nat.lt_irrefl, decide_false, Chip.sbIf, Bool.false_eq_true, if_false, List.take_length]

/-- An access that reaches the hole. -/
theorem Chip.bar2Access_of_hole {off : Nat} {bytes : List (Option Byte)} (h : 0x3000000 < off + bytes.length) (hne : 0 < bytes.length)
    (w : Bool) :
    c.bar2Access w off bytes =
      let n := min bytes.length (0x3000000 - off)
      let d := c.sb R.VLM_STICKY 3
      if w then d.hostVWrite off (bytes.take n)
      else forEach (tlpCuts (bytes.length + 1) off bytes.length) (fun t c => c.emit (c.readTlp t)) (d.vRead .host 0 off n).2.2 := by
  have hcut : belowHole off bytes.length < bytes.length := by
    simp only [belowHole, vlmSize]
    omega
  simp only [Chip.bar2Access_of_d0 hon hd0, hcut, decide_true, Chip.sbIf, if_true]
  rfl

end

/-! ### Link events, MSI and the heartbeat (R220, R250, R251, R299) -/

theorem exec_d3hotEntry_of_on {s : State} (hon : s.chip.pcieOn = true) :
    exec .d3hotEntry s = .next (s.withChip (s.chip.onHost fun h => { h with d3 := true })) := by
  show execD3hotEntry s = _
  exact if_pos hon

theorem exec_d0Return_of_on {s : State} (hon : s.chip.pcieOn = true) :
    exec .d0Return s = .next (s.withChip (s.chip.onHost fun h => { h with d3 := false })) := by
  show execD0Return s = _
  exact if_pos hon

theorem exec_linkReset (s : State) : exec .linkReset s = .next (s.withChip s.chip.linkReset) := rfl

theorem exec_msiSend (v : BitVec 5) (s : State) : exec (.msiSend v) s = .next (s.withChip (s.chip.msiSend v.toNat)) := rfl

theorem exec_heartbeat_of_ready {s : State} (h : s.chip.tirbaReady = true) :
    exec .heartbeat s = .next (s.withChip (s.chip.incWrap R.MBX_HEARTBEAT)) := by
  show execHeartbeat s = _
  exact if_pos h

/-- Settles O21: each clause is the rule of its request or event on a link that serves it. -/
theorem hostMemoryRequests : Obligations.HostMemoryRequests := by
  unfold Obligations.HostMemoryRequests
  refine ⟨?dword, ?badForm, ?config, ?bar2, ?d3hot, ?d3entry, ?d0return, ?linkReset, ?msi, ?heartbeat⟩
  case dword =>
    intro w off v s hon hd0 haligned c
    rw [exec_hostBar0Request, Chip.bar0Request_of_dword hon hd0 haligned]
    have hhole : s.chip.sbIf (!bar0Reg off.toNat) R.MBX_STAT 3 = c := by
      simp only [c, Chip.sbIf]
      cases bar0Reg off.toNat <;> rfl
    rw [hhole]
  case badForm =>
    intro w off be k v s hon hd0 hform
    rw [exec_hostBar0Request, Chip.bar0Request_of_badForm hon hd0 hform]
  case config =>
    intro w off be k v s _
    exact exec_hostBar0Request_cfg w off be k v s
  case bar2 =>
    intro off bytes s hon hd0 reads
    refine ⟨fun hbelow => ?_, fun hhole hne => ?_⟩
    · simp only [exec_bar2Access, Chip.bar2Access_of_below hon hd0 hbelow]
      exact ⟨rfl, rfl⟩
    · simp only [exec_bar2Access, Chip.bar2Access_of_hole hon hd0 hhole hne]
      exact ⟨rfl, rfl⟩
  case d3hot =>
    intro off bytes o be k v s hon hd3
    simp only [exec_bar2Access, exec_hostBar0Request, Chip.bar2Access_of_d3 hon hd3, Chip.bar0Request_of_d3 hon hd3]
    exact ⟨rfl, rfl, rfl, rfl⟩
  case d3entry =>
    intro s hon
    exact exec_d3hotEntry_of_on hon
  case d0return =>
    intro s hon
    exact exec_d0Return_of_on hon
  case linkReset =>
    intro s hon
    rw [exec_linkReset, Chip.linkReset, if_neg (by simp [hon])]
  case msi =>
    intro v s hpend hon hd0 hen hmask g
    rw [exec_msiSend, Chip.msiSend, if_pos ⟨hpend, hon, by simp [hd0], hen, by simp [hmask]⟩]
  case heartbeat =>
    intro s hready
    exact exec_heartbeat_of_ready hready

end Sys2Proof.Machine
end

section
/-! The frames of the QSPI slave (09, R270 to R276): what a frame whose checks pass or fail sends, writes and leaves as its status. -/

namespace Sys2Proof.Machine

/-! ### Reads leave the marks of uncorrectable words (R107) -/

theorem Chip.errRecord_ue (ue : Bool) (syn : Byte) (bank : Nat) (cls : VClass) (idx off : Nat) (c : Chip) :
    (c.errRecord ue syn bank cls idx off).ue = c.ue := by
  unfold Chip.errRecord
  split
  · rfl
  · rw [Chip.wr_ue, Chip.wr_ue]

theorem Chip.suspect_ue (n : Nat) (c : Chip) : (c.suspect n).ue = c.ue := by
  unfold Chip.suspect
  extract_lets a i c1 c2
  have hmark : c2.ue = c.ue := rfl
  split
  · exact Chip.sb_ue ..
  · split
    · exact hmark
    · split <;> exact hmark

theorem Chip.vUe_ue (bank : Nat) (cls : VClass) (idx off : Nat) (syn : Byte) (c : Chip) : (c.vUe bank cls idx off syn).ue = c.ue :=
  (Chip.suspect_ue _ _).trans (Chip.errRecord_ue _ _ _ _ _ _ c)

/-- A word in which the read finds nothing new keeps its mark. -/
theorem Chip.vFind_none_ue (cls : VClass) (idx off : Nat) (c : Chip) : (c.vFind cls idx off none).ue = c.ue := by
  simp only [Chip.vFind, Chip.vFindIn]
  split
  · exact Chip.vUe_ue ..
  · rfl

theorem Chip.tokTouch_ue (cls : VClass) (c : Chip) : (c.tokTouch cls).ue = c.ue := by
  simp only [Chip.tokTouch]
  split <;> rfl

theorem Chip.vRead_ue (cls : VClass) (idx off n : Nat) (c : Chip) : (c.vRead cls idx off n).2.2.ue = c.ue :=
  (forEach_same Chip.ue _ _ _ fun _ d => d.vFind_none_ue ..).trans (Chip.when_same Chip.ue _ _ _ (Chip.tokTouch_ue cls c))

theorem Chip.vBad_congr {c d : Chip} (h : d.ue = c.ue) (off n : Nat) : d.vBad off n = c.vBad off n := by
  simp only [Chip.vBad, h]

/-- A read says whether its bytes were marked as it began. -/
theorem Chip.vRead_bad (cls : VClass) (idx off n : Nat) (c : Chip) : (c.vRead cls idx off n).2.1 = c.vBad off n :=
  Chip.vBad_congr (c.vRead_ue cls idx off n) off n

/-! ### Frames (R270 to R276) -/

theorem Chip.frame_of_on {c : Chip} (h : c.qspiOn = true) (f : Chip → Chip) : c.frame false f = f c := by
  simp only [Chip.frame, h, Bool.not_true, Bool.false_eq_true, if_false]

/-- A frame inside the gap does nothing but leave BUSY (R275). -/
theorem Chip.frame_of_gap {c : Chip} (h : c.qspiOn = true) (f : Chip → Chip) :
    c.frame true f = c.onHost fun k => { k with frameStatus := 7 } := by
  simp only [Chip.frame, h, Bool.not_true, Bool.false_eq_true, if_false, if_true]

section
variable {s : State} {addr : Word} {len crc : Half} {data : List Byte} {st : Nat} (hon : s.chip.qspiOn = true)
include hon

/-- The frame of code 0x61 answers the register, or as many bytes 0x00 as were asked for (R272, R273). -/
theorem exec_qspiBar0Read_of_check (hst : frameCheck true (frameHead 0x61 addr len) addr len [] crc false = st) :
    exec (.qspiBar0Read addr len crc false false) s =
      (let c := s.chip.bar0Hole st
       if st = 0 then c.frameReply (leBytes 4 (c.bar0Read addr.toNat).toNat) 0 else c.frameReply (List.replicate len.toNat 0#8) st).next s := by
  subst hst
  exact congrArg (Chip.next · s) (Chip.frame_of_on hon _)

/-- The frame of code 0x63 answers the words of Vellum, or as many bytes 0x00 as were asked for (R272, R273). -/
theorem exec_qspiVellumRead_of_check (hst : frameCheck false (frameHead 0x63 addr len) addr len [] crc false = st) :
    exec (.qspiVellumRead addr len crc false false) s =
      (if st = 0 then
         let c := (s.chip.vRead .host 0 addr.toNat len.toNat).2.2
         c.frameReply (c.vellumWords addr.toNat len.toNat) (if s.chip.vBad addr.toNat len.toNat then 5 else 0)
       else s.chip.frameReply (List.replicate len.toNat 0#8) st).next s := by
  subst hst
  rw [← Chip.vRead_bad .host 0]
  exact congrArg (Chip.next · s) (Chip.frame_of_on hon _)

/-- The frame of code 0x62 with all its data writes the register where its checks pass, and ends with its status (R272). -/
theorem exec_qspiBar0Write_of_check (hlen : data.length = len.toNat)
    (hst : frameCheck true (frameHead 0x62 addr len) addr len data crc false = st) :
    exec (.qspiBar0Write addr len data crc false false) s =
      (let c := s.chip.bar0Hole st
       (if st = 0 then c.bar0Write addr.toNat (w32 (leNat data)) else c).qspiEnd st).next s := by
  show Chip.next (s.chip.frame false _) s = _
  simp only [Chip.frame_of_on hon, hlen, bne_self_eq_false, Bool.or_self, hst]

/-- The frame of code 0x64 with all its data writes Vellum where its checks pass, and ends with its status (R272). -/
theorem exec_qspiVellumWrite_of_check (hlen : data.length = len.toNat)
    (hst : frameCheck false (frameHead 0x64 addr len) addr len data crc false = st) :
    exec (.qspiVellumWrite addr len data crc false false) s =
      ((if st = 0 then s.chip.hostVWrite addr.toNat (data.map some) else s.chip).qspiEnd st).next s := by
  show Chip.next (s.chip.frame false _) s = _
  simp only [Chip.frame_of_on hon, hlen, bne_self_eq_false, Bool.or_self, hst]

end

/-- The frame of code 0x65 answers the status and the count of the frames before it (R272, R273). -/
theorem exec_qspiFrameStatus_of_on {s : State} (hon : s.chip.qspiOn = true) :
    exec (.qspiFrameStatus 0x65 false) s = .next (s.withChip
      (let b := [BitVec.ofNat 8 s.chip.host.frameStatus, BitVec.ofNat 8 s.chip.host.frameCount]
       s.chip.emit (.qspiFrame 0 (nibbles (b ++ beBytes 2 (crc16 b).toNat))))) :=
  congrArg (fun c : Chip => c.next s) ((Chip.frame_of_on hon _).trans (if_pos rfl))

/-- Settles O23: each clause is the rule of its frame, by what its checks give. -/
theorem qspiFrames : Obligations.QspiFrames := by
  unfold Obligations.QspiFrames
  intro addr len crc data s hon rchk wchk sends ends
  refine ⟨?bar0Read, ?bar0ReadBad, ?vellumRead, ?vellumReadBad, ?bar0Write, ?bar0WriteBad, ?vellumWrite, ?vellumWriteBad, ?status, ?gap⟩
  case bar0Read => exact fun h => (exec_qspiBar0Read_of_check hon h).trans (congrArg (Chip.next · s) (if_pos rfl))
  case bar0ReadBad => exact fun h => (exec_qspiBar0Read_of_check hon rfl).trans (congrArg (Chip.next · s) (if_neg h))
  case vellumRead => exact fun h => (exec_qspiVellumRead_of_check hon h).trans (congrArg (Chip.next · s) (if_pos rfl))
  case vellumReadBad => exact fun h => (exec_qspiVellumRead_of_check hon rfl).trans (congrArg (Chip.next · s) (if_neg h))
  case bar0Write =>
    exact fun hlen h => (exec_qspiBar0Write_of_check hon hlen h).trans (congrArg (fun c : Chip => (c.qspiEnd _).next s) (if_pos rfl))
  case bar0WriteBad =>
    exact fun hlen h => (exec_qspiBar0Write_of_check hon hlen rfl).trans (congrArg (fun c : Chip => (c.qspiEnd _).next s) (if_neg h))
  case vellumWrite =>
    exact fun hlen h => (exec_qspiVellumWrite_of_check hon hlen h).trans (congrArg (fun c : Chip => (c.qspiEnd _).next s) (if_pos rfl))
  case vellumWriteBad =>
    exact fun hlen h => (exec_qspiVellumWrite_of_check hon hlen rfl).trans (congrArg (fun c : Chip => (c.qspiEnd _).next s) (if_neg h))
  case status => exact exec_qspiFrameStatus_of_on hon
  case gap =>
    intro short code busy
    have hbusy (f : Chip → Chip) : (s.chip.frame true f).next s = busy := congrArg (fun c : Chip => c.next s) (Chip.frame_of_gap hon f)
    exact ⟨hbusy _, hbusy _, hbusy _, hbusy _, hbusy _⟩

end Sys2Proof.Machine
end

section
/-! Tirba's fetch loop, the posting of completions, deadlines and the end of a command (10, R256, R263 to R265, R283 to R289, R298, R300). -/

namespace Sys2Proof.Machine

/-! ### The fetch loop (R256, R283) -/

theorem exec_descriptorFetch (s : State) : exec .descriptorFetch s = .next (s.withChip s.chip.fetchDescriptor) := rfl

section
variable {c : Chip} (hup : c.tirbaUp = true)
include hup

/-- A visit of a Tirba that does not serve, or that activates an image, takes nothing. -/
theorem Chip.fetchDescriptor_of_idle (h : c.serve.darnService.tirbaReady = false ∨ c.serve.darnService.activating = true) :
    c.fetchDescriptor = c.serve.darnService := by
  simp only [Chip.fetchDescriptor, hup, Bool.not_true, Bool.false_eq_true, if_false]
  exact if_pos (by simpa using h)

variable (hready : c.serve.darnService.tirbaReady = true) (hact : c.serve.darnService.activating = false)
include hready hact

/-- A visit of a serving Tirba checks the rings offered and finds none to fetch from. -/
theorem Chip.fetchDescriptor_of_none (h : c.serve.darnService.checkRings.nextRing = none) :
    c.fetchDescriptor = c.serve.darnService.checkRings := by
  simp only [Chip.fetchDescriptor, hup, hready, hact, h, Bool.not_true, Bool.or_self, Bool.false_eq_true, if_false]

/-- A visit of a serving Tirba takes a descriptor from the next ring in turn. -/
theorem Chip.fetchDescriptor_of_ring {n : Ring} (h : c.serve.darnService.checkRings.nextRing = some n) :
    c.fetchDescriptor =
      let d := c.serve.darnService.checkRings
      if (d.ring n).sqHost then d.hostFetch n else d.vellumFetch n := by
  simp only [Chip.fetchDescriptor, hup, hready, hact, h, Bool.not_true, Bool.or_self, Bool.false_eq_true, if_false]

end

/-! ### Completions (R263 to R265, R289) -/

theorem exec_completionPost (n : Ring) (s : State) : exec (.completionPost n) s = .next (s.withChip (s.chip.post n)) := rfl

section
variable {c : Chip} {n : Ring} {r : Reply} {t : List Reply} (hposts : (c.ring n).posts = r :: t)
include hposts

/-- A completion ring without room holds the completion (R263). -/
theorem Chip.post_of_full (h : (c.cqTail n + 1) % (c.ring n).size = c.cqHead n) : c.post n = c := by
  simp only [Chip.post, hposts, h, decide_true, Bool.or_true, Bool.true_or, if_true]

/-- A completion that resets nothing is written, the tail moves on and the host is told (R264, R265, R289). -/
theorem Chip.post_of_room (hup : c.tirbaUp = true) (hchecked : (c.ring n).checked = true)
    (hhost : (c.ring n).cqHost = true → c.bmOn = true) (hreset : r.reset = none)
    (h : (c.cqTail n + 1) % (c.ring n).size ≠ c.cqHead n) :
    c.post n =
      let next := (c.cqTail n + 1) % (c.ring n).size
      let phase := c.rb (R.MBX_RST n) 31
      let d := c.putCompletion (c.ring n).cqHost ((c.ring n).cqBase + 64 * c.cqTail n) r phase
      let e := (d.wf (R.MBX_RST n) 27 16 next).wb (R.MBX_RST n) 31 (if next = 0 then !phase else phase)
      ((e.onRing n fun g => { g with posts := t }).countFlight).when r.notify (Chip.notify n) := by
  have hreach : ((c.ring n).cqHost && !c.bmOn) = false := by
    cases hcq : (c.ring n).cqHost with
    | false => rfl
    | true => simp [hhost hcq]
  simp only [Chip.post, hposts, hup, hchecked, hreach, h, hreset, decide_false, Bool.not_true, Bool.or_self, Bool.false_eq_true, if_false]

end

/-! ### The end of a command (R288, R298, R300) -/

theorem exec_commandTimeout (n : Ring) (s : State) : exec (.commandTimeout n) s = .next (s.withChip (s.chip.deadline n)) := rfl

/-- A front command that has started ends with TIMEOUT at its deadline (R298). -/
theorem Chip.deadline_of_started {c : Chip} {n : Ring} {q : Cmd} {t : List Cmd} (hup : c.tirbaUp = true)
    (hfront : (c.ring n).flight = q :: t) (hstage : q.stage ≠ 0) :
    c.deadline n = (c.onTirba fun k => { k with bm := k.bm.filter fun b => b.owner != .payload n }).endCmd n 7 0 [] := by
  simp only [Chip.deadline, hfront]
  exact if_pos ⟨hup, Or.inl hstage⟩

/-- The completion of a command that ends (R288). -/
def Cmd.endReply (q : Cmd) (status detail : Nat) (result : List Byte) (reset : Option Bool) : Reply :=
  { tag := q.tag, status, detail, sqHead := q.sqHead, result, notify := reset.isSome || !q.flag 27, cmd := true, reset }

/-- A ring whose front command has ended and posts: the command leaves its flight and is recorded, and the rest follows it (R300). -/
def RingSt.ended (q : Cmd) (t : List Cmd) (status : Nat) (g : RingSt) : RingSt :=
  { g.record q.tag status false with flight := t, prevOk := some (status == 0) }

/-- The end of a command that is not discarded, other than by FAULT or of a SESSION_CLOSE that fails: its ring's record, and its
completion (R288, R300). -/
theorem Chip.endFront_of_posted {c : Chip} {n : Ring} {q : Cmd} {t : List Cmd} {status : Nat} (hfront : (c.ring n).flight = q :: t)
    (hpost : q.discard = false) (hfault : status ≠ 8) (hclose : q.opcode ≠ 2 ∨ status = 0) (detail : Nat) (result : List Byte)
    (reset : Option Bool) :
    c.endFront n status detail result reset = (c.onRing n (RingSt.ended q t status)).reply n (q.endReply status detail result reset) := by
  have hkeeps : ¬(q.opcode = 2 ∧ status ≠ 0 ∧ q.failed.isNone = true) := by tauto
  simp only [Chip.endFront, hfront, hpost, hfault, Bool.false_eq_true, if_false]
  rw [if_neg hkeeps]
  rfl

/-- Settles O24: the visits of the fetch loop by what Tirba does, a completion by the room on its ring, and the end of a command by
what it leaves on its own ring. -/
theorem tirbaFetchesAndPosts : Obligations.TirbaFetchesAndPosts := by
  unfold Obligations.TirbaFetchesAndPosts
  refine ⟨?fetch, ?post, ?timeout, ?ended⟩
  case fetch =>
    intro s hup c
    refine ⟨fun hready hact => ⟨fun hnone => ?_, fun n hring => ?_⟩, fun hidle => ?_⟩
    · rw [exec_descriptorFetch, Chip.fetchDescriptor_of_none hup hready hact hnone]
    · rw [exec_descriptorFetch, Chip.fetchDescriptor_of_ring hup hready hact hring]
    · rw [exec_descriptorFetch, Chip.fetchDescriptor_of_idle hup hidle]
  case post =>
    intro n r t s hup hchecked hposts hhost hreset g next
    refine ⟨fun hfull => ?_, fun hroom => ?_⟩
    · rw [exec_completionPost, Chip.post_of_full hposts hfull, State.withChip_chip]
    · rw [exec_completionPost, Chip.post_of_room hposts hup hchecked hhost hreset hroom]
      rfl
  case timeout =>
    intro n q t s hup hfront hstage
    rw [exec_commandTimeout, Chip.deadline_of_started hup hfront hstage]
  case ended =>
    intro c n q t st det r hfront hpost hfault hclose d
    have hd : d = (c.onRing n (RingSt.ended q t st)).reply n (q.endReply st det r none) :=
      Chip.endFront_of_posted hfront hpost hfault hclose det r none
    rw [hd]
    refine ⟨?_, rfl, rfl, fun m hm => ?_⟩
    · rw [Chip.reply, Chip.ring_onRing, Chip.ring_onRing]
      rfl
    · rw [Chip.reply, Chip.ring_onRing_ne _ _ _ _ hm.symm, Chip.ring_onRing_ne _ _ _ _ hm.symm]

end Sys2Proof.Machine
end

section
/-! Start and hold of the cores (05, R136, R138): what CORE_HOLD, CORE_RELEASE and CORE_RESTART leave in the core, its registers,
memory and the other cores. -/

namespace Sys2Proof.Machine

/-! ### The commands -/

theorem exec_coreHold (n : Core) (s : State) : exec (.coreHold n) s = .next (s.withChip (s.chip.coreHold n)) := rfl

theorem exec_coreRelease_of_held {n : Core} {s : State} (h : s.chip.heldCore n = true) :
    exec (.coreRelease n) s = .next (s.withChip (s.chip.coreRelease n)) := by
  show execCoreRelease n s = _
  exact if_pos h

theorem exec_coreRelease_of_free {n : Core} {s : State} (h : s.chip.heldCore n = false) : exec (.coreRelease n) s = .next s := by
  show execCoreRelease n s = _
  exact if_neg (by simp [h])

theorem exec_coreRestart (n : Core) (s : State) :
    exec (.coreRestart n) s = .next (s.withChip ((s.chip.coreHold n).coreRelease n)) := rfl

/-! ### The interrupt bank at its reset (R218) -/

/-- A bank's reset writes no register below the banks. -/
theorem Chip.rd_bankReset_of_lt {a : Nat} (h : a < 0x50000000) (n : Core) (c : Chip) : (c.bankReset n).rd a = c.rd a := by
  have hact : ∀ k (c : Chip), ((c.wr (R.IRQ_EN n k) 0).wr (R.IRQ_ACT n k) 0).rd a = c.rd a := fun k c => by
    rw [Chip.rd_wr_ne _ _ _ _ (by simp only [R.IRQ_ACT]; omega), Chip.rd_wr_ne _ _ _ _ (by simp only [R.IRQ_EN]; omega)]
  have hprio : ∀ k (c : Chip), (c.wr (R.IRQ_PRIO n k) 0xFFFFFFFF).rd a = c.rd a := fun k c =>
    Chip.rd_wr_ne _ _ _ _ (by simp only [R.IRQ_PRIO]; omega)
  simp only [Chip.bankReset]
  rw [forEach_same (Chip.rd · a) _ _ _ hprio, forEach_same (Chip.rd · a) _ _ _ hact,
    Chip.rd_wr_ne _ _ _ _ (by simp only [R.IRQ_STAT]; omega), Chip.rd_wr_ne _ _ _ _ (by simp only [R.IRQ_SLEEP]; omega),
    Chip.rd_wr_ne _ _ _ _ (by simp only [R.IRQ_PMASK]; omega)]

/-- What writes of registers leave, a bank's reset leaves. -/
theorem Chip.bankReset_same {β : Type} {g : Chip → β} (hg : ∀ a v c, g (Chip.wr a v c) = g c) (n : Core) (c : Chip) :
    g (c.bankReset n) = g c := by
  simp only [Chip.bankReset]
  rw [forEach_same g _ _ _ fun k c => hg _ _ c, forEach_same g _ _ _ fun k c => (hg _ _ _).trans (hg _ _ c), hg, hg, hg]

/-! ### The release (R138) -/

/-- The locks of core n's MPU regions open (R154). -/
def Chip.mpuUnlock (n : Core) (c : Chip) : Chip := forEach (List.range 8) (fun k c => c.wb (R.YLX_MPU_ATTR n k) 5 false) c

/-- The YLX registers as a release leaves them: not held, interrupts and the MPU disabled, the region locks open, and the cause
of the start (R138, R154). -/
def Chip.releaseYlx (n : Core) (c : Chip) : Chip :=
  (((((c.wb (R.YLX_PCTRL n) 0 false).wr (R.YLX_ESTAT n) 0).wr (R.YLX_MPU_CTRL n) 0).mpuUnlock n).wb (R.YLX_RST_CAUSE n) 0
    false).wb (R.YLX_RST_CAUSE n) 1 true

/-- A release in its three parts: the core's YLX registers, its interrupt bank, the core itself. -/
theorem Chip.coreRelease_eq (n : Core) (c : Chip) :
    c.coreRelease n = ((c.releaseYlx n).bankReset n).onCore n fun k =>
      k.start (if (c.releaseYlx n).romLocked then parkWindow else 0) (c.releaseYlx n).romLocked := rfl

theorem Chip.rd_mpuUnlock_ne {n : Core} {a : Nat} (h : ∀ k, a ≠ R.YLX_MPU_ATTR n k) (c : Chip) : (c.mpuUnlock n).rd a = c.rd a :=
  forEach_same (Chip.rd · a) _ _ _ fun k c => c.rd_wb_ne _ _ _ _ (h k)

/-- What writes of registers leave, the YLX registers of a release leave. -/
theorem Chip.releaseYlx_same {β : Type} {g : Chip → β} (hg : ∀ a v c, g (Chip.wr a v c) = g c) (n : Core) (c : Chip) :
    g (c.releaseYlx n) = g c := by
  simp only [Chip.releaseYlx, Chip.mpuUnlock, Chip.wb]
  rw [hg, hg, forEach_same g _ _ _ fun k c => hg _ _ c, hg, hg, hg]

/-- A register that is neither a region's attributes nor the cause of the start reads after a release as its first three writes
leave it. -/
theorem Chip.rd_releaseYlx {n : Core} {a : Nat} (hattr : ∀ k, a ≠ R.YLX_MPU_ATTR n k) (hcause : a ≠ R.YLX_RST_CAUSE n) (c : Chip) :
    (c.releaseYlx n).rd a = (((c.wb (R.YLX_PCTRL n) 0 false).wr (R.YLX_ESTAT n) 0).wr (R.YLX_MPU_CTRL n) 0).rd a := by
  rw [Chip.releaseYlx, Chip.rd_wb_ne _ _ _ _ _ hcause, Chip.rd_wb_ne _ _ _ _ _ hcause, Chip.rd_mpuUnlock_ne hattr]

theorem Chip.rd_releaseYlx_PCTRL (n : Core) (c : Chip) :
    (c.releaseYlx n).rd (R.YLX_PCTRL n) = setBit (c.rd (R.YLX_PCTRL n)) 0 false := by
  rw [Chip.rd_releaseYlx (fun k => by simp only [R.YLX_PCTRL, R.YLX_MPU_ATTR]; omega) (by simp),
    Chip.rd_wr_ne _ _ _ _ (by simp),
    Chip.rd_wr_ne _ _ _ _ (by simp), Chip.rd_wb_same]

theorem Chip.rd_releaseYlx_ESTAT (n : Core) (c : Chip) : (c.releaseYlx n).rd (R.YLX_ESTAT n) = 0 := by
  rw [Chip.rd_releaseYlx (fun k => by simp only [R.YLX_ESTAT, R.YLX_MPU_ATTR]; omega) (by simp),
    Chip.rd_wr_ne _ _ _ _ (by simp), Chip.rd_wr_same]

theorem Chip.rd_releaseYlx_MPU_CTRL (n : Core) (c : Chip) : (c.releaseYlx n).rd (R.YLX_MPU_CTRL n) = 0 := by
  rw [Chip.rd_releaseYlx (fun k => by simp only [R.YLX_MPU_CTRL, R.YLX_MPU_ATTR]; omega)
    (by simp), Chip.rd_wr_same]

theorem Chip.romLocked_releaseYlx (n : Core) (c : Chip) : (c.releaseYlx n).romLocked = c.romLocked := by
  have hn := n.isLt
  refine Chip.rb_congr ?_ 0
  rw [Chip.rd_releaseYlx (fun k => by simp only [R.SYS_BOOT_CTRL, R.YLX_MPU_ATTR]; omega)
      (by simp only [R.SYS_BOOT_CTRL, R.YLX_RST_CAUSE]; omega),
    Chip.rd_wr_ne _ _ _ _ (by simp only [R.SYS_BOOT_CTRL, R.YLX_MPU_CTRL]; omega),
    Chip.rd_wr_ne _ _ _ _ (by simp only [R.SYS_BOOT_CTRL, R.YLX_ESTAT]; omega),
    Chip.rd_wb_ne _ _ _ _ _ (by simp only [R.SYS_BOOT_CTRL, R.YLX_PCTRL]; omega)]

/-! ### A core that has been started -/

/-- Below the interrupt banks a release leaves the registers as its YLX part does. -/
theorem Chip.rd_coreRelease_of_lt {a : Nat} (h : a < 0x50000000) (n : Core) (c : Chip) :
    (c.coreRelease n).rd a = (c.releaseYlx n).rd a := by
  rw [Chip.coreRelease_eq, Chip.rd_onCore, Chip.rd_bankReset_of_lt h]

/-- A release takes the core out of its hold. -/
theorem Chip.heldCore_coreRelease (n : Core) (c : Chip) : (c.coreRelease n).heldCore n = false := by
  have hn := n.isLt
  rw [Chip.heldCore, Chip.rb, Chip.rd_coreRelease_of_lt (by simp only [R.YLX_PCTRL]; omega), Chip.rd_releaseYlx_PCTRL,
    tb_setBit (by decide), if_pos rfl]

/-- The core starts at the ROM's start, or asleep in the park window once the ROM is locked (R136, R138). -/
theorem Chip.core_coreRelease (n : Core) (c : Chip) :
    (c.coreRelease n).core n = (c.core n).start (if c.romLocked then parkWindow else 0) c.romLocked := by
  rw [Chip.coreRelease_eq, Chip.core_onCore, Chip.bankReset_same (g := (Chip.core · n)) fun _ _ _ => rfl,
    Chip.releaseYlx_same (g := (Chip.core · n)) fun _ _ _ => rfl, Chip.romLocked_releaseYlx]

theorem Chip.core_coreRelease_ne {n m : Core} (h : m ≠ n) (c : Chip) : (c.coreRelease n).core m = c.core m := by
  rw [Chip.coreRelease_eq, Chip.core_onCore_ne _ _ _ _ h.symm, Chip.bankReset_same (g := (Chip.core · m)) fun _ _ _ => rfl,
    Chip.releaseYlx_same (g := (Chip.core · m)) fun _ _ _ => rfl]

theorem Chip.byte_coreRelease (n : Core) (c : Chip) (a : Nat) : (c.coreRelease n).byte a = c.byte a := by
  rw [Chip.coreRelease_eq, Chip.byte_onCore, Chip.bankReset_same (g := (Chip.byte · a)) fun _ _ _ => rfl,
    Chip.releaseYlx_same (g := (Chip.byte · a)) fun _ _ _ => rfl]

/-- A hold does not touch the ROM's lock. -/
theorem Chip.romLocked_coreHold (n : Core) (c : Chip) : (c.coreHold n).romLocked = c.romLocked := by
  have hn := n.isLt
  refine Chip.rb_congr ?_ 0
  rw [Chip.coreHold, Chip.rd_onCore, Chip.rd_sb_ne _ _ _ _ (by simp only [R.SYS_BOOT_CTRL, R.YLX_PCTRL]; omega)]

theorem Chip.core_coreHold_ne {n m : Core} (h : m ≠ n) (c : Chip) : (c.coreHold n).core m = c.core m :=
  Chip.core_onCore_ne _ _ _ _ h.symm

theorem Chip.byte_coreHold (n : Core) (c : Chip) (a : Nat) : (c.coreHold n).byte a = c.byte a := rfl

/-- Chip d is chip c with core n started (R138). -/
def Chip.startedIn (c : Chip) (n : Core) (d : Chip) : Prop :=
  d.heldCore n = false ∧ (d.core n).mode = .S ∧ d.rd (R.YLX_ESTAT n) = 0 ∧ d.rd (R.YLX_MPU_CTRL n) = 0 ∧
    (d.core n).pc = (if c.romLocked then 0x7FC0#32 else 0#32) ∧ (d.core n).asleep = c.romLocked ∧ (d.core n).wait = none ∧
    (d.core n).halted = false ∧ c.sameMem d ∧ ∀ m, m ≠ n → d.core m = c.core m

theorem Chip.startedIn_coreRelease (n : Core) (c : Chip) : c.startedIn n (c.coreRelease n) := by
  have hn := n.isLt
  refine ⟨c.heldCore_coreRelease n, ?mode, ?estat, ?mpu, ?pc, ?asleep, ?wait, ?halted, c.byte_coreRelease n,
    fun m hm => Chip.core_coreRelease_ne hm c⟩
  case estat => rw [Chip.rd_coreRelease_of_lt (by simp only [R.YLX_ESTAT]; omega), Chip.rd_releaseYlx_ESTAT]
  case mpu => rw [Chip.rd_coreRelease_of_lt (by simp only [R.YLX_MPU_CTRL]; omega), Chip.rd_releaseYlx_MPU_CTRL]
  all_goals rw [Chip.core_coreRelease]; rfl

/-- A restart starts the core as a release does, whatever the hold before it ends. -/
theorem Chip.startedIn_coreRestart (n : Core) (c : Chip) : c.startedIn n ((c.coreHold n).coreRelease n) := by
  obtain ⟨hheld, hmode, hestat, hmpu, hpc, hasleep, hwait, hhalted, hmem, hcores⟩ := (c.coreHold n).startedIn_coreRelease n
  rw [Chip.romLocked_coreHold] at hpc hasleep
  exact ⟨hheld, hmode, hestat, hmpu, hpc, hasleep, hwait, hhalted, fun a => (hmem a).trans (c.byte_coreHold n a),
    fun m hm => (hcores m hm).trans (Chip.core_coreHold_ne hm c)⟩

/-- Settles O7: a hold is its command's definition; a release, alone or after a hold, starts the core. -/
theorem coresHoldReleaseAndRestart : Obligations.CoresHoldReleaseAndRestart := by
  unfold Obligations.CoresHoldReleaseAndRestart
  intro n s started
  refine ⟨exec_coreHold n s, fun hheld => ?_, exec_coreRelease_of_free, ?_⟩
  · exact ⟨_, exec_coreRelease_of_held hheld, s.chip.startedIn_coreRelease n⟩
  · exact ⟨_, exec_coreRestart n s, s.chip.startedIn_coreRestart n⟩

end Sys2Proof.Machine
end

section
/-! Watchdogs and the local scrubbers (05, R143, R144, R160 to R163): the kick, the lock and the two stages of a watchdog that is
due, and what a checked read of local memory counts and marks. -/

namespace Sys2Proof.Machine

/-! ### Watchdogs (R160 to R163) -/

theorem exec_wdgKick (n : Core) (v : Word) (s : State) : exec (.wdgKick n v) s = .next (s.withChip (s.chip.wdgKick n v)) := rfl

theorem exec_wdgLock (n : Core) (s : State) : exec (.wdgLock n) s = .next (s.withChip (s.chip.sb (R.YLX_WDG_CTRL n) 2)) := rfl

theorem exec_wdgStage1 (n : Core) (s : State) : exec (.wdgStage1 n) s = .next (s.withChip (s.chip.wdgStage1 n)) := rfl

theorem exec_wdgStage2 (n : Core) (s : State) : exec (.wdgStage2 n) s = .next (s.withChip (s.chip.wdgStage2 n)) := rfl

/-- The kick's own value reloads the count (R160). -/
theorem Chip.wdgKick_of_key (n : Core) (c : Chip) :
    c.wdgKick n 0xC1A5 = (c.wr (R.YLX_WDG_COUNT n) (c.rd (R.YLX_WDG_LOAD n))).onCore n fun k => { k with stage1 := false } :=
  if_pos rfl

/-- Another value is no kick (R160). -/
theorem Chip.wdgKick_of_ne {v : Word} (h : v ≠ 0xC1A5) (n : Core) (c : Chip) : c.wdgKick n v = c := if_neg h

section
variable {c : Chip} {n : Core} (hcounts : c.wdgCounts n = true) (hzero : c.rd (R.YLX_WDG_COUNT n) = 0)
include hcounts hzero

theorem Chip.wdgExpired_of_zero : c.wdgExpired n = true := by
  rw [Chip.wdgExpired, hcounts, hzero]
  rfl

/-- The first expiry, or any without a second stage, reports stage 1 and counts anew (R161, R162). -/
theorem Chip.wdgStage1_of_due (h : (c.core n).stage1 = false ∨ c.rb (R.YLX_WDG_CTRL n) 3 = false) :
    c.wdgStage1 n = ((c.sb (R.YLX_STAT n) 4).wr (R.YLX_WDG_COUNT n) (c.rd (R.YLX_WDG_LOAD n))).onCore n
      fun k => { k with stage1 := true } := by
  refine if_pos ?_
  rw [Chip.wdgExpired_of_zero hcounts hzero]
  rcases h with h | h <;> simp [h]

/-- The expiry after stage 1 holds the core and reports it (R162). -/
theorem Chip.wdgStage2_of_due (hstage1 : (c.core n).stage1 = true) (hen : c.rb (R.YLX_WDG_CTRL n) 3 = true) :
    c.wdgStage2 n =
      let d := ((c.coreHold n).rasterHeld n 4).sb (R.YLX_RST_CAUSE n) 2
      d.journal 0x02 2 n.val (d.rd (R.YLX_STAT n)) 0 0 := by
  refine if_pos ?_
  rw [Chip.wdgExpired_of_zero hcounts hzero, hstage1, hen]
  rfl

end

/-! ### Checked reads of local memory (R143, R144) -/

theorem exec_lmScrubRead (n : Core) (e : Option Ecc) (s : State) :
    exec (.lmScrubRead n e) s = .next (s.withChip (s.chip.lmScrub n e)) := rfl

theorem exec_lmScrubRead_word (n : Core) (e : Option Ecc) (w : BitVec 14) (s : State) :
    exec (.lmScrubRead n e (some w)) s = .next (s.withChip (s.chip.lmFinds n w.toNat e)) := rfl

/-- Core n's local scrubber has read word w, of 16,384, and stands at the next (R144). -/
def Chip.lmScrubbed (n : Core) (w : Nat) (c : Chip) : Chip := c.onCore n fun k => { k with lmScrub := (w + 1) % 16384 }

section
variable {c : Chip} {n : Core} (hon : c.rb (R.YLX_CTRL n) 4 = true)
include hon

/-- A sound word passes, and a single-bit error in it counts. -/
theorem Chip.lmScrub_of_sound (hbad : c.lmBad (lmBase n + 4 * (c.core n).lmScrub) = false) :
    c.lmScrub n none = c.lmScrubbed n (c.core n).lmScrub ∧
      ∀ e, c.lmScrub n (some (.ce e)) = (c.lmCe n).lmScrubbed n (c.core n).lmScrub := by
  simp [Chip.lmScrub, hon, hbad, Chip.lmScrubbed]

/-- A marked word is reported at every pass. -/
theorem Chip.lmScrub_of_marked (hbad : c.lmBad (lmBase n + 4 * (c.core n).lmScrub) = true) :
    c.lmScrub n none = (c.lmUe n (c.core n).lmScrub).lmScrubbed n (c.core n).lmScrub := by
  simp [Chip.lmScrub, hon, hbad, Chip.lmScrubbed]

/-- A word found uncorrectable is marked and reported. -/
theorem Chip.lmScrub_of_ue (e : Byte) :
    c.lmScrub n (some (.ue e)) =
      ({ c with ue := insertSorted (lmBase n + 4 * (c.core n).lmScrub) c.ue }.lmUe n (c.core n).lmScrub).lmScrubbed n
        (c.core n).lmScrub :=
  if_pos hon

end

/-- Another read that meets a single-bit error in a sound word counts it (R143). -/
theorem Chip.lmFinds_ce_of_sound {c : Chip} {n w : Nat} (hbad : c.lmBad (lmBase n + 4 * w) = false) (e : Byte) :
    c.lmFinds n w (some (.ce e)) = c.lmCe n :=
  if_neg (by simp [hbad])

/-- Settles O8: each clause is the rule of its command in the state that the clause names. -/
theorem watchdogsAndLocalScrubbers : Obligations.WatchdogsAndLocalScrubbers := by
  unfold Obligations.WatchdogsAndLocalScrubbers
  intro n s
  refine ⟨?kick, fun v hv => ?other, exec_wdgLock n s, fun hcounts hzero h => ?stage1, fun hcounts hzero hstage1 hen => ?stage2,
    fun hon => ⟨fun hbad => ?sound, fun hbad => ?marked, fun e => ?found⟩, fun w e => ⟨fun hbad => ?word, rfl⟩⟩
  case kick => rw [exec_wdgKick, Chip.wdgKick_of_key]
  case other => rw [exec_wdgKick, Chip.wdgKick_of_ne hv, State.withChip_chip]
  case stage1 => rw [exec_wdgStage1, Chip.wdgStage1_of_due hcounts hzero h]
  case stage2 => rw [exec_wdgStage2, Chip.wdgStage2_of_due hcounts hzero hstage1 hen]
  case sound =>
    obtain ⟨hnone, hce⟩ := Chip.lmScrub_of_sound hon hbad
    exact ⟨by rw [exec_lmScrubRead, hnone]; rfl, fun e => by rw [exec_lmScrubRead, hce]; rfl⟩
  case marked =>
    rw [exec_lmScrubRead, Chip.lmScrub_of_marked hon hbad]
    rfl
  case found =>
    rw [exec_lmScrubRead, Chip.lmScrub_of_ue hon]
    rfl
  case word => rw [exec_lmScrubRead_word, Chip.lmFinds_ce_of_sound hbad]

end Sys2Proof.Machine
end

section
/-! Traps, eret, brk and interrupts (05, R156 to R159; 06, R199; 07, R207 to R210; 25, R723): what an instruction that issues
answers, what entering S mode saves, and which source an interrupt entry takes. -/

namespace Sys2Proof.Machine

/-! ### A core changed -/

/-- A change of core n rests on the state it has. -/
theorem Chip.onCore_congr {c : Chip} {n : Core} {f g : CoreSt → CoreSt} (h : f (c.core n) = g (c.core n)) :
    c.onCore n f = c.onCore n g := by
  show { c with cores := c.cores.set n.val (f (c.core n)) n.isLt } = c.onCore n g
  rw [h]
  rfl

/-- A change that leaves core n's state as it is is none. -/
theorem Chip.onCore_of_fixed {c : Chip} {n : Core} {f : CoreSt → CoreSt} (h : f (c.core n) = c.core n) : c.onCore n f = c := by
  have hset : upd c.cores n f = c.cores := by
    show c.cores.set n.val (f (c.core n)) n.isLt = c.cores
    rw [h]
    exact Vector.set_getElem_self _
  rw [Chip.onCore, hset]

/-! ### An instruction that issues -/

/-- A defined instruction that issues answers its effect, beside the queue (R171). -/
theorem Chip.next_issue_of_issues {s : State} {n : Core} {p : BitVec 3} {op : YOp} (h : s.chip.issues n p)
    (hdef : op.undef (s.chip.inU n) = false) : (s.chip.issue n p false op).next s = .next (s.withChip (s.chip.effect n op)) := by
  rw [Chip.issues_effect h hdef]
  rfl

/-- A core that runs waits for nothing, sleeps not and is not halted. -/
theorem Chip.idle_of_runs {c : Chip} {n : Core} (h : c.runs n = true) :
    (c.core n).asleep = false ∧ (c.core n).wait = none ∧ (c.core n).halted = false := by
  simp only [Chip.runs, Bool.and_eq_true, Bool.not_eq_true', Option.isNone_iff_eq_none] at h
  obtain ⟨⟨⟨_, hasleep⟩, hwait⟩, hhalted⟩ := h
  exact ⟨hasleep, hwait, hhalted⟩

section
variable {s : State} {n : Core} {p : BitVec 3} (h : s.chip.issues n p)
include h

theorem exec_trap_of_issues (imm : BitVec 16) :
    exec (.trap n p false imm) s = .next (s.withChip (s.chip.trap n .soft (some (imm.setWidth 32)))) :=
  Chip.next_issue_of_issues h rfl

theorem exec_brk_of_issues (imm : BitVec 16) :
    exec (.brk n p false imm) s = .next (s.withChip
      (if s.chip.debugOpen then (s.chip.done n id).debugHalt n else s.chip.trap n .undef none)) :=
  Chip.next_issue_of_issues (op := .brk imm) h rfl

/-- In S mode eret is defined (R199). -/
theorem exec_eret_of_issues (hS : (s.chip.core n).mode = .S) :
    exec (.eret n p false) s = .next (s.withChip (s.chip.eret n)) :=
  Chip.next_issue_of_issues (op := .eret) h (by simp [Chip.inU, hS])

end

/-! ### Entering S mode (R157) -/

/-- YLX_ESTAT as it saves IE and the mode, IE then 0 and INTRAP set by a trap (R157). -/
def estatEntered (user trap : Bool) (e : Word) : Word :=
  let e := setBit (setBit (setBit e 1 (tb e 0)) 2 user) 0 false
  if trap then setBit e 3 true else e

theorem Chip.rd_enterS_ESTAT (n : Core) (trap : Bool) (c : Chip) :
    (c.enterS n trap).rd (R.YLX_ESTAT n) = estatEntered (c.inU n) trap (c.rd (R.YLX_ESTAT n)) := Chip.rd_wr_same _ _ _

theorem Chip.rd_enterS_ne {n : Core} {a : Nat} (h : a ≠ R.YLX_ESTAT n) (trap : Bool) (c : Chip) : (c.enterS n trap).rd a = c.rd a :=
  Chip.rd_wr_ne _ _ _ _ h

theorem Chip.core_enterS (n : Core) (trap : Bool) (c : Chip) : (c.enterS n trap).core n = { c.core n with mode := .S } :=
  Chip.core_onCore _ _ _

theorem Chip.core_enterS_ne {n m : Core} (h : m ≠ n) (trap : Bool) (c : Chip) : (c.enterS n trap).core m = c.core m :=
  Chip.core_onCore_ne _ _ _ _ h.symm

theorem Chip.byte_enterS (n : Core) (trap : Bool) (c : Chip) (a : Nat) : (c.enterS n trap).byte a = c.byte a := rfl

/-- Core n in S mode, going on at an offset from its vector base (R157). -/
def Chip.enterAt (n : Core) (trap : Bool) (off : Word) (c : Chip) : Chip :=
  (c.enterS n trap).onCore n fun k => { k with pc := (c.enterS n trap).rd (R.YLX_VBASE n) + off }

theorem Chip.rd_enterAt_ESTAT (n : Core) (trap : Bool) (off : Word) (c : Chip) :
    (c.enterAt n trap off).rd (R.YLX_ESTAT n) = estatEntered (c.inU n) trap (c.rd (R.YLX_ESTAT n)) := c.rd_enterS_ESTAT n trap

theorem Chip.rd_enterAt_ne {n : Core} {a : Nat} (h : a ≠ R.YLX_ESTAT n) (trap : Bool) (off : Word) (c : Chip) :
    (c.enterAt n trap off).rd a = c.rd a := Chip.rd_enterS_ne h trap c

theorem Chip.core_enterAt (n : Core) (trap : Bool) (off : Word) (c : Chip) :
    (c.enterAt n trap off).core n = { c.core n with mode := .S, pc := c.rd (R.YLX_VBASE n) + off } := by
  rw [Chip.enterAt, Chip.core_onCore, Chip.core_enterS, Chip.rd_enterS_ne (by simp)]

theorem Chip.core_enterAt_ne {n m : Core} (h : m ≠ n) (trap : Bool) (off : Word) (c : Chip) :
    (c.enterAt n trap off).core m = c.core m := by
  rw [Chip.enterAt, Chip.core_onCore_ne _ _ _ _ h.symm, Chip.core_enterS_ne h]

theorem Chip.byte_enterAt (n : Core) (trap : Bool) (off : Word) (c : Chip) (a : Nat) : (c.enterAt n trap off).byte a = c.byte a := rfl

/-! ### A trap (R157, R159) -/

/-- What a raster program records of a trap stands in no register (R350). -/
theorem Chip.rasterTrap_regs (n : Core) (u : Bool) (c : Chip) : (c.rasterTrap n u).regs = c.regs := by
  unfold Chip.rasterTrap
  split <;> rfl

theorem Chip.rasterTrap_cores (n : Core) (u : Bool) (c : Chip) : (c.rasterTrap n u).cores = c.cores := by
  unfold Chip.rasterTrap
  split <;> rfl

theorem Chip.rasterTrap_mem (n : Core) (u : Bool) (c : Chip) : (c.rasterTrap n u).mem = c.mem := by
  unfold Chip.rasterTrap
  split <;> rfl

theorem Chip.core_congr {c d : Chip} (h : d.cores = c.cores) (n : Core) : d.core n = c.core n := by rw [Chip.core, h]; rfl

/-- The registers that say why and where a trap with an address was taken, and the record of a raster program. -/
def Chip.trapRecord (n : Core) (cause : Cause) (a : Word) (c : Chip) : Chip :=
  (((c.wr (R.YLX_EPC n) ((c.core n).pc &&& ~~~3#32)).wr (R.YLX_CAUSE n) (w32 cause.code)).wr (R.YLX_FADDR n) a).rasterTrap n (c.inU n)

theorem Chip.rd_trapRecord (n : Core) (cause : Cause) (a : Word) (c : Chip) (x : Nat) :
    (c.trapRecord n cause a).rd x = if x = R.YLX_FADDR n then a else if x = R.YLX_CAUSE n then w32 cause.code
      else if x = R.YLX_EPC n then (c.core n).pc &&& ~~~3#32 else c.rd x := by
  rw [Chip.trapRecord, Chip.rd_congr (Chip.rasterTrap_regs _ _ _), Chip.rd_wr, Chip.rd_wr, Chip.rd_wr]

theorem Chip.core_trapRecord (n m : Core) (cause : Cause) (a : Word) (c : Chip) : (c.trapRecord n cause a).core m = c.core m :=
  Chip.core_congr (Chip.rasterTrap_cores _ _ _) m

theorem Chip.byte_trapRecord (n : Core) (cause : Cause) (a : Word) (c : Chip) (x : Nat) : (c.trapRecord n cause a).byte x = c.byte x :=
  Chip.byte_congr (Chip.rasterTrap_mem _ _ _) x

/-- A trap with an address while INTRAP is 0: its record, and the entry at YLX_VBASE (R157). -/
theorem Chip.trap_of_free {c : Chip} {n : Core} (h : c.rb (R.YLX_ESTAT n) 3 = false) (cause : Cause) (a : Word) :
    c.trap n cause (some a) = (c.trapRecord n cause a).enterAt n true 0 := by
  have hoff (v : Word) : v + 0 = v := BitVec.add_zero v
  simp only [Chip.enterAt, hoff]
  exact if_neg (by simp [h])

/-- A trap while INTRAP is 1 is a double fault (R159). -/
theorem Chip.trap_of_inTrap {c : Chip} {n : Core} (h : c.rb (R.YLX_ESTAT n) 3 = true) (cause : Cause) (a : Option Word) :
    c.trap n cause a = c.doubleFault n := if_pos h

/-! ### brk (R199, R723) -/

/-- A debug halt ends nothing in a core that neither sleeps nor waits. -/
theorem Chip.waitEnd_of_idle {c : Chip} {n : Core} (hasleep : (c.core n).asleep = false) (hwait : (c.core n).wait = none) :
    c.waitEnd n = c := by
  have hwake : { (c.core n).wakeUp with wait := none } = c.core n := by
    rw [CoreSt.wakeUp, if_neg (by simp [hasleep]), ← hwait]
  simp only [Chip.waitEnd, hwait, Option.isSome_none, Chip.when]
  exact Chip.onCore_of_fixed hwake

/-- A debug halt of a core that neither sleeps nor waits is recorded and stops it. -/
theorem Chip.debugHalt_of_idle {c : Chip} {n : Core} (hasleep : (c.core n).asleep = false) (hwait : (c.core n).wait = none) :
    c.debugHalt n = (c.sb R.DBG_STICKY 3).onCore n fun k => { k with halted := true } := by
  rw [Chip.debugHalt, Chip.waitEnd_of_idle (c := c.sb R.DBG_STICKY 3) hasleep hwait]

/-- Settles O16: a trap is its record followed by the entry to S mode, or a double fault; brk halts or traps by R199. -/
theorem trapsAndBreakpoints : Obligations.TrapsAndBreakpoints := by
  unfold Obligations.TrapsAndBreakpoints
  intro n p imm s h
  refine ⟨fun hfree => ?trap, fun hin => ?double, fun hopen => ?halt, fun hclosed => ?undef⟩
  case trap =>
    refine ⟨(s.chip.trapRecord n .soft (imm.setWidth 32)).enterAt n true 0, ?next, ?epc, ?why, ?faddr, ?estat, ?core,
      fun a ha => ?regs, fun a => ?mem, fun m hm => ?others⟩
    case next => rw [exec_trap_of_issues h, Chip.trap_of_free hfree]
    case epc => simp [Chip.rd_enterAt_ne, Chip.rd_trapRecord]
    case why => simp [Chip.rd_enterAt_ne, Chip.rd_trapRecord, Cause.code]
    case faddr => simp [Chip.rd_enterAt_ne, Chip.rd_trapRecord]
    case estat =>
      rw [Chip.rd_enterAt_ESTAT, Chip.rd_trapRecord]
      simp [estatEntered, Chip.inU, Chip.core_trapRecord, Chip.rb]
    case core => simp [Chip.core_enterAt, Chip.core_trapRecord, Chip.rd_trapRecord]
    case regs =>
      simp only [List.mem_cons, List.not_mem_nil, or_false, not_or] at ha
      obtain ⟨hepc, hcause, hfaddr, hestat⟩ := ha
      rw [Chip.rd_enterAt_ne hestat, Chip.rd_trapRecord, if_neg hfaddr, if_neg hcause, if_neg hepc]
    case mem => rw [Chip.byte_enterAt, Chip.byte_trapRecord]
    case others => rw [Chip.core_enterAt_ne hm, Chip.core_trapRecord]
  case double =>
    rw [exec_trap_of_issues h, Chip.trap_of_inTrap hin]
    rfl
  case halt =>
    obtain ⟨hasleep, hwait, _⟩ := Chip.idle_of_runs h.1
    rw [exec_brk_of_issues h, if_pos hopen, Chip.debugHalt_of_idle (by simpa [Chip.done, CoreSt.adv] using hasleep)
      (by simpa [Chip.done, CoreSt.adv] using hwait)]
    rfl
  case undef => rw [exec_brk_of_issues h, if_neg (by simp [hclosed])]

/-! ### eret (R158) -/

/-- Settles O17: eret writes YLX_ESTAT and the core's mode and pc, and nothing else. -/
theorem eretReturns : Obligations.EretReturns := by
  unfold Obligations.EretReturns
  intro n p s h hS
  refine ⟨_, exec_eret_of_issues h hS, Chip.rd_wr_same _ _ _, Chip.core_onCore _ _ _, fun a ha => ?regs, fun _ => rfl,
    fun m hm => Chip.core_onCore_ne _ _ _ _ hm.symm⟩
  case regs => exact Chip.rd_wr_ne _ _ _ _ (by simpa using ha)

/-! ### Which source is taken (R208) -/

/-- The better of a source and the one chosen before, which keeps its place at equal PRIO (R208). -/
def Chip.better (c : Chip) (n : Core) (m : Option Nat) (y : Nat) : Option Nat :=
  match m with
  | none => some y
  | some t => if c.irqPrio n y < c.irqPrio n t then some y else some t

theorem Chip.selected_eq (c : Chip) (n : Core) :
    c.selected n = ((List.range 192).filter (c.eligible n)).foldl (c.better n) none := rfl

/-- What a choice among some sources comes to is one of them. -/
theorem Chip.mem_of_foldl_better {c : Chip} {n : Core} {t : Nat} : ∀ {l : List Nat} {m : Option Nat},
    l.foldl (c.better n) m = some t → t ∈ l ∨ m = some t
  | [], _, h => .inr h
  | y :: l, m, h => by
    rcases Chip.mem_of_foldl_better (l := l) h with hmem | hstep
    · exact .inl (List.mem_cons_of_mem _ hmem)
    · cases m with
      | none => exact .inl (by simp_all [Chip.better])
      | some z =>
        simp only [Chip.better] at hstep
        split at hstep
        · exact .inl (by simp_all)
        · exact .inr hstep

/-- A source stays chosen while none of a lower PRIO comes. -/
theorem Chip.foldl_better_of_least {c : Chip} {n : Core} {x : Nat} : ∀ {l : List Nat},
    (∀ y ∈ l, c.irqPrio n x ≤ c.irqPrio n y) → l.foldl (c.better n) (some x) = some x
  | [], _ => rfl
  | y :: l, h => by
    have hstep : c.better n (some x) y = some x := if_neg (by have := h y (by simp); omega)
    rw [List.foldl_cons, hstep]
    exact Chip.foldl_better_of_least fun z hz => h z (List.mem_cons_of_mem _ hz)

/-- A source of lower PRIO than the one chosen before is chosen. -/
theorem Chip.better_of_lt {c : Chip} {n : Core} {x : Nat} {m : Option Nat} (h : ∀ t, m = some t → c.irqPrio n x < c.irqPrio n t) :
    c.better n m x = some x := by
  cases m with
  | none => rfl
  | some t => exact if_pos (h t rfl)

/-- The source that a core takes is the eligible one of least PRIO, and of those the first (R208). -/
theorem Chip.selected_of_least {c : Chip} {n : Core} {x : Nat} (hx : x < 192) (helig : c.eligible n x = true)
    (hleast : ∀ y, y < 192 → c.eligible n y = true →
      c.irqPrio n x < c.irqPrio n y ∨ (c.irqPrio n x = c.irqPrio n y ∧ x ≤ y)) : c.selected n = some x := by
  obtain ⟨before, after, hl⟩ := List.append_of_mem (List.mem_filter.mpr ⟨List.mem_range.mpr hx, helig⟩)
  have hmem : ∀ y, y ∈ before ++ x :: after → y < 192 ∧ c.eligible n y = true := fun y hy => by
    rw [← hl, List.mem_filter, List.mem_range] at hy
    exact hy
  have hsorted : (before ++ x :: after).Pairwise (· < ·) := hl ▸ List.pairwise_lt_range.filter _
  have hbefore : ∀ y ∈ before, c.irqPrio n x < c.irqPrio n y := fun y hy => by
    have hlt : y < x := (List.pairwise_append.mp hsorted).2.2 y hy x (by simp)
    obtain ⟨h192, hy'⟩ := hmem y (by simp [hy])
    exact (hleast y h192 hy').resolve_right fun ⟨_, hle⟩ => absurd hle (by omega)
  have hafter : ∀ y ∈ after, c.irqPrio n x ≤ c.irqPrio n y := fun y hy => by
    obtain ⟨h192, hy'⟩ := hmem y (by simp [hy])
    rcases hleast y h192 hy' with h | ⟨h, _⟩ <;> omega
  have hstep : c.better n (before.foldl (c.better n) none) x = some x := Chip.better_of_lt fun t ht =>
    (Chip.mem_of_foldl_better ht).elim (hbefore t) fun h => nomatch h
  rw [Chip.selected_eq, hl, List.foldl_append, List.foldl_cons, hstep, Chip.foldl_better_of_least hafter]

/-! ### An interrupt entry (R210) -/

/-- The end of a wait is no part of what makes a source eligible. -/
theorem Chip.selected_onCore_wait (c : Chip) (n : Core) (w : Option WaitFor) :
    (c.onCore n fun k => { k with wait := w }).selected n = c.selected n := by
  have helig : (c.onCore n fun k => { k with wait := w }).eligible n = c.eligible n := by
    funext y
    simp only [Chip.eligible, Chip.pend, Chip.core_onCore]
    rfl
  rw [Chip.selected_eq, helig]
  rfl

/-- Core n's own part of taking source x: its pair on the stack, its PRIO running, and a pulse source pending no more (R210). -/
def CoreSt.serve (x prio : Nat) (k : CoreSt) : CoreSt :=
  { k with stack := (x, k.runPrio) :: k.stack, runPrio := prio, pulse := k.pulse.filter (· != x) }

/-- Source x is active in core n's bank and on its stack, and YLX_EPC holds the pc (R157, R210). -/
def Chip.irqRecord (n : Core) (x : Nat) (c : Chip) : Chip :=
  ((c.wb (R.IRQ_ACT n (x / 32)) (x % 32) true).onCore n (CoreSt.serve x (c.irqPrio n x))).wr (R.YLX_EPC n) (c.core n).pc

/-- Taking a source: its record, and the entry at YLX_VBASE + 0x40 (R157, R210). -/
theorem Chip.irqTake_of_selected {c : Chip} {n : Core} {x : Nat} (h : c.selected n = some x) :
    c.irqTake n = (c.irqRecord n x).enterAt n false 0x40 := by
  have hpc : (((c.wb (R.IRQ_ACT n (x / 32)) (x % 32) true).onCore n (CoreSt.serve x (c.irqPrio n x))).core n).pc = (c.core n).pc := by
    rw [Chip.core_onCore]
    rfl
  rw [Chip.irqRecord, ← hpc]
  simp only [Chip.irqTake, h]
  rfl

theorem Chip.rd_irqRecord_ne {n : Core} {x a : Nat} (hepc : a ≠ R.YLX_EPC n) (hact : a ≠ R.IRQ_ACT n (x / 32)) (c : Chip) :
    (c.irqRecord n x).rd a = c.rd a := by
  rw [Chip.irqRecord, Chip.rd_wr_ne _ _ _ _ hepc, Chip.rd_onCore, Chip.rd_wb_ne _ _ _ _ _ hact]

/-- No register of a core's YLX page stands in its interrupt bank. -/
theorem IRQ_ACT_ne_of_lt {a : Nat} (h : a < 0x50000000) (n : Core) (k : Nat) : a ≠ R.IRQ_ACT n k := by
  simp only [R.IRQ_ACT]
  omega

theorem Chip.rd_irqRecord_ACT (n : Core) (x : Nat) (c : Chip) :
    (c.irqRecord n x).rd (R.IRQ_ACT n (x / 32)) = setBit (c.rd (R.IRQ_ACT n (x / 32))) (x % 32) true := by
  rw [Chip.irqRecord, Chip.rd_wr_ne _ _ _ _ (by simp only [R.IRQ_ACT, R.YLX_EPC]; omega), Chip.rd_onCore, Chip.rd_wb_same]

theorem Chip.core_irqRecord (n : Core) (x : Nat) (c : Chip) :
    (c.irqRecord n x).core n = (c.core n).serve x (c.irqPrio n x) := Chip.core_onCore _ _ _

theorem Chip.core_irqRecord_ne {n m : Core} (h : m ≠ n) (x : Nat) (c : Chip) : (c.irqRecord n x).core m = c.core m :=
  Chip.core_onCore_ne _ _ _ _ h.symm

/-- A core with IE at 1 that runs once its wait is abandoned takes the source selected (R198, R208, R210). -/
theorem exec_interruptEntry_of_selected {n : Core} {x : Nat} {s : State}
    (hruns : (s.chip.onCore n fun k => { k with wait := none }).runs n = true) (hie : s.chip.rb (R.YLX_ESTAT n) 0 = true)
    (hsel : s.chip.selected n = some x) :
    exec (.interruptEntry n) s = .next (s.withChip
      (((s.chip.onCore n fun k => { k with wait := none }).irqRecord n x).enterAt n false 0x40)) := by
  rw [← Chip.irqTake_of_selected ((s.chip.selected_onCore_wait n none).trans hsel)]
  show execInterruptEntry n s = _
  exact if_pos ⟨hruns, hie, by rw [hsel]; rfl⟩

/-- Settles O18: the source selected is the least by PRIO and number, and its entry is its record followed by the entry to S mode. -/
theorem interruptsAreTaken : Obligations.InterruptsAreTaken := by
  unfold Obligations.InterruptsAreTaken
  intro n x s hruns hie hx helig hleast
  have hn := n.isLt
  refine ⟨_, exec_interruptEntry_of_selected hruns hie (Chip.selected_of_least hx helig hleast), ?epc, ?estat, ?act, ?core,
    fun a ha => ?regs, fun a => rfl, fun m hm => ?others⟩
  case epc =>
    rw [Chip.rd_enterAt_ne (by simp), Chip.irqRecord, Chip.rd_wr_same, Chip.core_onCore]
  case estat =>
    rw [Chip.rd_enterAt_ESTAT, Chip.rd_irqRecord_ne (by simp) (IRQ_ACT_ne_of_lt (by simp only [R.YLX_ESTAT]; omega) n _), Chip.rd_onCore,
      Chip.inU, Chip.core_irqRecord, Chip.core_onCore, estatEntered, show tb (s.chip.rd (R.YLX_ESTAT n)) 0 = true from hie]
    rfl
  case act =>
    rw [Chip.rd_enterAt_ne (IRQ_ACT_ne_of_lt (by simp only [R.YLX_ESTAT]; omega) n _).symm, Chip.rd_irqRecord_ACT, Chip.rd_onCore]
  case core =>
    rw [Chip.core_enterAt, Chip.core_irqRecord, Chip.core_onCore,
      Chip.rd_irqRecord_ne (by simp) (IRQ_ACT_ne_of_lt (by simp only [R.YLX_VBASE]; omega) n _), Chip.rd_onCore]
    rfl
  case regs =>
    simp only [List.mem_cons, List.not_mem_nil, or_false, not_or] at ha
    obtain ⟨hepc, hestat, hact⟩ := ha
    rw [Chip.rd_enterAt_ne hestat, Chip.rd_irqRecord_ne hepc hact, Chip.rd_onCore]
  case others => rw [Chip.core_enterAt_ne hm, Chip.core_irqRecord_ne hm, Chip.core_onCore_ne _ _ _ _ hm.symm]

end Sys2Proof.Machine
end

section
/-! Events, waits and waking (05, R136; 06, R193 to R197; 07, R216, R217): what sev, wfe and waituntil do to a core that issues
them, and what ends a sleep or a wait. -/

namespace Sys2Proof.Machine

/-! ### Instructions that issue -/

section
variable {s : State} {n : Core} {p : BitVec 3} (h : s.chip.issues n p)
include h

theorem exec_sev_of_issues (mask : BitVec 8) : exec (.sev n p false mask) s = .next (s.withChip (s.chip.sev n mask)) :=
  Chip.next_issue_of_issues (op := .sev mask) h rfl

theorem exec_wfe_of_issues : exec (.wfe n p false) s = .next (s.withChip (s.chip.wfe n)) :=
  Chip.next_issue_of_issues (op := .wfe) h rfl

/-- A source other than 11 is defined (R195). -/
theorem exec_waituntil_of_issues {src : BitVec 2} (hsrc : src ≠ 3) (after : Bool) (gn : GReg) :
    exec (.waituntil n p false src after gn) s = .next (s.withChip (s.chip.waituntil n src after gn)) :=
  Chip.next_issue_of_issues (op := .waituntil src after gn) h (decide_eq_false hsrc)

end

/-- sev once the core's stores have landed and left it running (R193). -/
theorem Chip.sev_of_goesOn {c : Chip} {n : Core} (h : (c.landAll n).goesOn n = true) (mask : BitVec 8) :
    c.sev n mask = (forEach ((List.finRange 8).filter fun m => decide (m.val < (c.landAll n).rf R.SYS_PARAM0 27 24) && tb mask m.val)
      (fun m c => c.onCore m fun k => { k with latch := true }) (c.landAll n)).done n id :=
  if_neg (by simp [h])

/-! ### wfe (R136, R194) -/

/-- Past the park window's WFE a core goes on with that window's code alone (R136). -/
theorem Chip.parkOn_of_elsewhere {c : Chip} {n : Core} (h : ¬((c.core n).pc = parkRest ∧ (c.core n).mode = .S)) : c.parkOn n = c :=
  if_neg fun ⟨hpc, hmode, _⟩ => h ⟨hpc, hmode⟩

/-- Only the instruction after the park window's WFE stands past it. -/
theorem add_four_eq_parkRest {a : Word} : a + 4 = parkRest ↔ a = parkWindow := by
  rw [show parkRest = parkWindow + 4 from rfl, BitVec.add_left_inj]

/-- A set latch is cleared, and the core steps on (R194). -/
theorem Chip.wfe_of_latch {c : Chip} {n : Core} (hlatch : (c.core n).latch = true)
    (hpark : ¬((c.core n).pc = parkWindow ∧ (c.core n).mode = .S)) : c.wfe n = c.done n fun k => { k with latch := false } := by
  have helse : ¬(((c.done n fun k => { k with latch := false }).core n).pc = parkRest ∧
      ((c.done n fun k => { k with latch := false }).core n).mode = .S) := by
    rw [Chip.done, Chip.core_onCore]
    exact fun ⟨hpc, hmode⟩ => hpark ⟨add_four_eq_parkRest.mp hpc, hmode⟩
  exact (if_pos hlatch).trans (Chip.parkOn_of_elsewhere helse)

/-- With the latch clear the core sleeps past the instruction (R194). -/
theorem Chip.wfe_of_sleep {c : Chip} {n : Core} (hlatch : (c.core n).latch = false)
    (hpark : ¬((c.core n).pc = parkWindow ∧ (c.core n).mode = .S)) : c.wfe n = c.done n fun k => { k with asleep := true } :=
  (if_neg (by simp [hlatch])).trans (if_neg hpark)

/-- In the park window it sleeps at the instruction, parked (R136). -/
theorem Chip.wfe_of_park {c : Chip} {n : Core} (hlatch : (c.core n).latch = false)
    (hpc : (c.core n).pc = parkWindow) (hmode : (c.core n).mode = .S) :
    c.wfe n = c.onCore n fun k => { k with asleep := true, parked := true } :=
  (if_neg (by simp [hlatch])).trans (if_pos ⟨hpc, hmode⟩)

/-! ### Waking (R194, R216, R217) -/

theorem exec_wfeWake (n : Core) (src : Option (BitVec 8)) (s : State) :
    exec (.wfeWake n src) s = .next (s.withChip (s.chip.wake n src)) := rfl

/-- The wake of a core that is not parked ends its sleep, with the latch clear (R194). -/
theorem CoreSt.wakeUp_of_unparked {k : CoreSt} (hasleep : k.asleep = true) (hparked : k.parked = false) :
    k.wakeUp = { k with asleep := false, latch := false } := by
  cases k
  simp_all [CoreSt.wakeUp]

/-- The wake of a parked core leaves it past the park window's WFE (R136). -/
theorem CoreSt.wakeUp_of_parked {k : CoreSt} (hasleep : k.asleep = true) (hparked : k.parked = true) :
    k.wakeUp = { k with asleep := false, parked := false, latch := false, pc := parkRest } := by
  rw [CoreSt.wakeUp, if_pos hasleep, if_pos hparked]

/-- Past the park window's WFE with interrupts disabled, the window's code goes on (R136, R217). -/
theorem Chip.parkOn_of_rest {c : Chip} {n : Core} (hpc : (c.core n).pc = parkRest) (hmode : (c.core n).mode = .S)
    (hie : c.rb (R.YLX_ESTAT n) 0 = false) : c.parkOn n = c.unpark n :=
  if_pos ⟨hpc, hmode, by simp [hie]⟩

/-- Without an entry that code executes the WFE again (R136). -/
theorem Chip.unpark_of_noEntry {c : Chip} {n : Core} (h : c.rd (R.YLX_ENTRY n) = 0) :
    c.unpark n = c.onCore n fun k => { k with asleep := true, parked := true, pc := parkWindow, latch := false } := if_pos h

section
variable {c : Chip} {n : Core} {src : Option (BitVec 8)} (hup : c.coresUp = true) (hheld : c.heldCore n = false)
  (hasleep : (c.core n).asleep = true) (hwakes : c.wakes n src = true)
include hup hheld hasleep hwakes

/-- A core that sleeps and is woken ends its WFE, and in the park window goes on with that window's code. -/
theorem Chip.wake_of_asleep : c.wake n src = (c.onCore n CoreSt.wakeUp).when (c.core n).parked (Chip.parkOn n) :=
  if_neg (by simp [hup, hheld, hasleep, hwakes])

/-- A core that is not parked wakes with its latch clear (R194). -/
theorem Chip.wake_of_unparked (hparked : (c.core n).parked = false) :
    c.wake n src = c.onCore n fun k => { k with asleep := false, latch := false } := by
  rw [Chip.wake_of_asleep hup hheld hasleep hwakes, hparked]
  refine Chip.onCore_congr ?_
  exact CoreSt.wakeUp_of_unparked hasleep hparked

/-- A parked core without an entry is back in the park window's WFE (R136). -/
theorem Chip.core_wake_of_parked (hparked : (c.core n).parked = true) (hmode : (c.core n).mode = .S)
    (hie : c.rb (R.YLX_ESTAT n) 0 = false) (hentry : c.rd (R.YLX_ENTRY n) = 0) :
    (c.wake n src).core n = { c.core n with asleep := true, parked := true, pc := parkWindow, latch := false } := by
  have hcore : (c.onCore n CoreSt.wakeUp).core n =
      { c.core n with asleep := false, parked := false, latch := false, pc := parkRest } := by
    rw [Chip.core_onCore, CoreSt.wakeUp_of_parked hasleep hparked]
  have hrest : (c.onCore n CoreSt.wakeUp).parkOn n = (c.onCore n CoreSt.wakeUp).unpark n :=
    Chip.parkOn_of_rest (by rw [hcore]) (by rw [hcore]; exact hmode) hie
  rw [Chip.wake_of_asleep hup hheld hasleep hwakes, hparked, Chip.when, if_pos rfl, hrest,
    Chip.unpark_of_noEntry (c := c.onCore n CoreSt.wakeUp) hentry, Chip.core_onCore, hcore]

end

/-! ### waituntil (R195 to R197) -/

/-- The wait that waituntil begins (R195). -/
theorem Chip.waituntil_eq (c : Chip) (n : Core) (src : BitVec 2) (after : Bool) (gn : GReg) :
    c.waituntil n src after gn = if after && c.reached src ((c.core n).gr gn) then c.done n id
      else c.onCore n fun k => { k with wait := some { src := src.toNat, value := (c.core n).gr gn } } := rfl

theorem exec_waituntilMatch_of_up {n : Core} {s : State} (hup : s.chip.coresUp = true) (hheld : s.chip.heldCore n = false) :
    exec (.waituntilMatch n) s = .next (s.withChip (s.chip.waitMatch n)) := by
  show execWaituntilMatch n s = _
  exact if_pos ⟨hup, by simp [hheld]⟩

/-- A source code below 2 names its Beam (R195). -/
theorem beam_of_code (b : Beam) : (if b.val = 0 then 0 else 1 : Beam) = b := by
  revert b
  decide

/-- The wait of core n is over, and the core steps on. -/
def Chip.waitOver (n : Core) (c : Chip) : Chip := c.done n fun k => { k with wait := none }

section
variable {c : Chip} {n : Core} {w : WaitFor} (hwait : (c.core n).wait = some w)
include hwait

/-- A wait for a time ends once the counter has reached it (R197). -/
theorem Chip.waitMatch_of_time (hsrc : w.src = 2) (hreached : 0 ≤ (c.timeLo - w.value).toInt) : c.waitMatch n = c.waitOver n := by
  simp only [Chip.waitMatch, hwait, hsrc, if_pos, hreached]
  rfl

/-- A wait for a position ends at it, once its Beam's counters can take it (R196). -/
theorem Chip.waitMatch_of_position {b : Beam} (hsrc : w.src = b.val) (htake : c.canTake b (w.value.toNat % 2 ^ 27) = true) :
    c.waitMatch n = (c.setPos b (w.value.toNat % 2 ^ 27 / 2 ^ 14) (w.value.toNat % 2 ^ 14)).waitOver n := by
  have hpixel : w.value.toNat % 2 ^ 27 % 2 ^ 14 = w.value.toNat % 2 ^ 14 := Nat.mod_mod_of_dvd _ (by decide)
  have hbeam : (if w.src = 0 then 0 else 1 : Beam) = b := by rw [hsrc, beam_of_code]
  have htime : w.src ≠ 2 := by omega
  simp only [Chip.waitMatch, hwait, if_neg htime, hbeam, if_pos htake, hpixel]
  rfl

end

/-- Settles O15: each clause is the rule of its command on a core in the state that the clause names. -/
theorem eventsWaitsAndWaking : Obligations.EventsWaitsAndWaking := by
  unfold Obligations.EventsWaitsAndWaking
  refine ⟨fun n p s h => ⟨fun mask hgoes => ?sev, fun hlatch hpark => ?latch, fun hlatch hpark => ?sleep, fun hlatch hpc hmode => ?park,
    fun src after gn hsrc => ?wait⟩, ?wake, ?parked,
    fun n w s hup hheld hwait => ⟨fun hsrc hreached => ?time, fun b hsrc htake => ?position⟩⟩
  case sev =>
    rw [exec_sev_of_issues h, Chip.sev_of_goesOn hgoes]
    rfl
  case latch =>
    rw [exec_wfe_of_issues h, Chip.wfe_of_latch hlatch hpark]
    rfl
  case sleep =>
    rw [exec_wfe_of_issues h, Chip.wfe_of_sleep hlatch hpark]
    rfl
  case park => rw [exec_wfe_of_issues h, Chip.wfe_of_park hlatch hpc hmode]
  case wait =>
    rw [exec_waituntil_of_issues h hsrc, Chip.waituntil_eq, apply_ite s.withChip, State.after]
    rfl
  case wake =>
    intro n src s hup hheld hasleep hparked hwakes
    rw [exec_wfeWake, Chip.wake_of_unparked hup hheld hasleep hwakes hparked]
  case parked =>
    intro n src s hup hheld hasleep hparked hmode hwakes hie hentry
    have hcore := Chip.core_wake_of_parked hup hheld hasleep hwakes hparked hmode hie hentry
    exact ⟨_, exec_wfeWake n src s, congrArg CoreSt.asleep hcore, congrArg CoreSt.parked hcore, congrArg CoreSt.pc hcore,
      congrArg CoreSt.latch hcore⟩
  case time =>
    rw [exec_waituntilMatch_of_up hup hheld, Chip.waitMatch_of_time hwait hsrc hreached]
    rfl
  case position =>
    rw [exec_waituntilMatch_of_up hup hheld, Chip.waitMatch_of_position hwait hsrc htake]
    rfl

end Sys2Proof.Machine
end

section
/-! Arithmetic, predicates, moves and branches (06, R178 to R184, R189 to R191, R199): what such an instruction that issues
answers, what its operation computes, and where a branch, callm and retm continue. -/

namespace Sys2Proof.Machine

/-! ### What an operation of opcode 0x01 computes (R179, R180) -/

/-- A division by zero gives all ones as its quotient (R180). -/
theorem Alu.eval_divs_of_zero {b : Word} (a : Word) (h : b = 0) : Alu.eval .divs a b = 0xFFFFFFFF := if_pos h

theorem Alu.eval_divu_of_zero {b : Word} (a : Word) (h : b = 0) : Alu.eval .divu a b = 0xFFFFFFFF := if_pos h

/-- A division by zero leaves ga as its remainder (R180). -/
theorem Alu.eval_rems_of_zero {b : Word} (a : Word) (h : b = 0) : Alu.eval .rems a b = a := if_pos h

theorem Alu.eval_remu_of_zero {b : Word} (a : Word) (h : b = 0) : Alu.eval .remu a b = a := if_pos h

/-- The signed quotient of R179 is the one that wraps, the corner of R180 included. -/
theorem Alu.eval_divs_of_ne {b : Word} (a : Word) (h : b ≠ 0) : Alu.eval .divs a b = a.sdiv b := by
  have hdivs : Alu.eval .divs a b = BitVec.ofInt 32 (a.toInt.tdiv b.toInt) := if_neg h
  apply BitVec.eq_of_toInt_eq
  rw [hdivs, BitVec.toInt_ofInt, BitVec.toInt_sdiv]

theorem Alu.eval_rems_of_ne {b : Word} (a : Word) (h : b ≠ 0) : Alu.eval .rems a b = a.srem b := by
  have hrems : Alu.eval .rems a b = BitVec.ofInt 32 (a.toInt.tmod b.toInt) := if_neg h
  rw [hrems, ← BitVec.toInt_srem, BitVec.ofInt_toInt]

theorem Alu.eval_divu_of_ne {b : Word} (a : Word) (h : b ≠ 0) : Alu.eval .divu a b = a / b := by
  have hdivu : Alu.eval .divu a b = BitVec.ofNat 32 (a.toNat / b.toNat) := if_neg h
  rw [hdivu, ← BitVec.toNat_udiv, BitVec.ofNat_toNat, BitVec.setWidth_eq]

theorem Alu.eval_remu_of_ne {b : Word} (a : Word) (h : b ≠ 0) : Alu.eval .remu a b = a % b := by
  have hremu : Alu.eval .remu a b = BitVec.ofNat 32 (a.toNat % b.toNat) := if_neg h
  rw [hremu, ← BitVec.toNat_umod, BitVec.ofNat_toNat, BitVec.setWidth_eq]

/-- A shift by an immediate uses all of its 5 bits (R181). -/
theorem shiftCount_setWidth (i : BitVec 5) : (i.setWidth 32).toNat % 32 = i.toNat := by
  rw [BitVec.toNat_setWidth_of_le (by decide), Nat.mod_eq_of_lt i.isLt]

theorem Alu.eval_shl_setWidth (a : Word) (i : BitVec 5) : Alu.eval .shl a (i.setWidth 32) = a <<< i.toNat :=
  congrArg (a <<< ·) (shiftCount_setWidth i)

theorem Alu.eval_shr_setWidth (a : Word) (i : BitVec 5) : Alu.eval .shr a (i.setWidth 32) = a >>> i.toNat :=
  congrArg (a >>> ·) (shiftCount_setWidth i)

theorem Alu.eval_sar_setWidth (a : Word) (i : BitVec 5) : Alu.eval .sar a (i.setWidth 32) = a.sshiftRight i.toNat :=
  congrArg a.sshiftRight (shiftCount_setWidth i)

/-! ### What an instruction of opcodes 0x01 to 0x0F or nop answers (R179 to R184, R199) -/

section
variable {s : State} {n : Core} {p : BitVec 3} (h : s.chip.issues n p)
include h

/-- An operation of two registers writes its value v into gd and steps on. -/
theorem Chip.next_issue_alu {gd : GReg} (hgd : gd ≠ 15) (f : Alu) {ga gb : GReg} {v : Word}
    (hv : f.eval ((s.chip.core n).gr ga) ((s.chip.core n).gr gb) = v) :
    (s.chip.issue n p false (.alu f gd ga gb)).next s = .next (s.after n (CoreSt.setG gd v)) := by
  rw [Chip.next_issue_of_issues (op := .alu f gd ga gb) h (decide_eq_false hgd), ← hv]
  rfl

/-- An operation of a register and an immediate does so too. -/
theorem Chip.next_issue_alui {gd : GReg} (hgd : gd ≠ 15) (f : Alu) {ga : GReg} {imm v : Word}
    (hv : f.eval ((s.chip.core n).gr ga) imm = v) :
    (s.chip.issue n p false (.alui f gd ga imm)).next s = .next (s.after n (CoreSt.setG gd v)) := by
  rw [Chip.next_issue_of_issues (op := .alui f gd ga imm) h (decide_eq_false hgd), ← hv]
  rfl

theorem exec_movi_of_issues {gd : GReg} (hgd : gd ≠ 15) (imm : BitVec 16) :
    exec (.movi n p false gd imm) s = .next (s.after n (CoreSt.setG gd (imm.signExtend 32))) :=
  Chip.next_issue_of_issues (op := .movi gd imm) h (decide_eq_false hgd)

theorem exec_movhi_of_issues {gd : GReg} (hgd : gd ≠ 15) (imm : BitVec 16) :
    exec (.movhi n p false gd imm) s = .next (s.after n (CoreSt.setG gd (setFld ((s.chip.core n).gr gd) 31 16 imm.toNat))) :=
  Chip.next_issue_of_issues (op := .movhi gd imm) h (decide_eq_false hgd)

end

/-- Settles O10: the corner is the signed quotient and remainder that hold of every divisor other than zero. -/
theorem divisionNeverTraps : Obligations.DivisionNeverTraps := by
  unfold Obligations.DivisionNeverTraps
  intro n p gd ga gb s h hgd a b gives
  have alu (f : Alu) {v : Word} (hv : f.eval a b = v) : (s.chip.issue n p false (.alu f gd ga gb)).next s = gives v :=
    Chip.next_issue_alu h hgd f hv
  refine ⟨fun hb => ⟨alu .divs ?_, alu .divu ?_, alu .rems ?_, alu .remu ?_⟩, fun ha hb => ⟨alu .divs ?_, alu .rems ?_⟩,
    fun hb => ⟨alu .divu ?_, alu .remu ?_⟩, fun hb _ => ⟨alu .divs ?_, alu .rems ?_⟩⟩
  · exact Alu.eval_divs_of_zero a hb
  · exact Alu.eval_divu_of_zero a hb
  · exact Alu.eval_rems_of_zero a hb
  · exact Alu.eval_remu_of_zero a hb
  · rw [ha, hb, Alu.eval_divs_of_ne _ (by decide)]
    decide
  · rw [ha, hb, Alu.eval_rems_of_ne _ (by decide)]
    decide
  · exact Alu.eval_divu_of_ne a hb
  · exact Alu.eval_remu_of_ne a hb
  · exact Alu.eval_divs_of_ne a hb
  · exact Alu.eval_rems_of_ne a hb

/-- Settles O9: each instruction is its operation of R179 on the operands that its mode names. -/
theorem registerInstructionsCompute : Obligations.RegisterInstructionsCompute := by
  unfold Obligations.RegisterInstructionsCompute
  intro n p gd ga gb s h hgd a b gives
  have alu (f : Alu) : (s.chip.issue n p false (.alu f gd ga gb)).next s = gives (f.eval a b) :=
    Chip.next_issue_alu h hgd f rfl
  have alui (f : Alu) {imm v : Word} (hv : f.eval a imm = v) : (s.chip.issue n p false (.alui f gd ga imm)).next s = gives v :=
    Chip.next_issue_alui h hgd f hv
  exact ⟨alu .add, alu .sub, alu .and, alu .or, alu .xor, alu .shl, alu .shr, alu .sar, alu .mul, alu .mulhs, alu .mulhu,
    alu .min, alu .max, alu .minu, alu .maxu,
    fun i => ⟨alui .add rfl, alui .and rfl, alui .or rfl, alui .xor rfl⟩,
    fun i => ⟨alui .shl (Alu.eval_shl_setWidth a i), alui .shr (Alu.eval_shr_setWidth a i), alui .sar (Alu.eval_sar_setWidth a i)⟩,
    fun i => ⟨exec_movi_of_issues h hgd i, exec_movhi_of_issues h hgd i⟩⟩

/-! ### What a comparison and a logic function give (R183), and the predicates of a core -/

/-- Two words differ: as a Boolean and as the decision of R183's ≠. -/
theorem bne_eq_decide_ne (x y : Word) : (x != y) = decide (x ≠ y) := decide_not.symm

/-- A source of plog: 00 reads as true (R182). -/
theorem plogSource_eq (k : CoreSt) (q : BitVec 2) : (if q = 0 then true else k.pr q.toNat) = (decide (q = 0) || k.pr q.toNat) := by
  by_cases hq : q = 0 <;> simp [hq]

section
variable {s : State} {n : Core} {p : BitVec 3} (h : s.chip.issues n p)
include h

theorem exec_cmp_of_issues {cc : BitVec 3} {pd : BitVec 2} (hcc : cc ≠ 7) (hpd : pd ≠ 0) (ga gb : GReg) :
    exec (.cmp n p false cc pd ga gb) s =
      .next (s.after n (CoreSt.setP pd.toNat (ccTrue cc ((s.chip.core n).gr ga) ((s.chip.core n).gr gb)))) :=
  Chip.next_issue_of_issues (op := .cmp cc pd ga gb) h (Bool.or_eq_false_iff.mpr ⟨decide_eq_false hcc, decide_eq_false hpd⟩)

theorem exec_cmpi_of_issues {cc : BitVec 3} {pd : BitVec 2} (hcc : cc ≠ 7) (hpd : pd ≠ 0) (ga : GReg) (imm : BitVec 12) :
    exec (.cmpi n p false cc pd ga imm) s =
      .next (s.after n (CoreSt.setP pd.toNat (ccTrue cc ((s.chip.core n).gr ga) (imm.signExtend 32)))) :=
  Chip.next_issue_of_issues (op := .cmpi cc pd ga imm) h (Bool.or_eq_false_iff.mpr ⟨decide_eq_false hcc, decide_eq_false hpd⟩)

theorem exec_plog_of_issues {fn : BitVec 3} {pd : BitVec 2} (hfn : fn ≠ 7) (hpd : pd ≠ 0) (pa pb : BitVec 2) :
    exec (.plog n p false fn pd pa pb) s = .next (s.after n (CoreSt.setP pd.toNat (fnTrue fn
      (decide (pa = 0) || (s.chip.core n).pr pa.toNat) (decide (pb = 0) || (s.chip.core n).pr pb.toNat)))) := by
  rw [← plogSource_eq, ← plogSource_eq]
  exact Chip.next_issue_of_issues (op := .plog fn pd pa pb) h (Bool.or_eq_false_iff.mpr ⟨decide_eq_false hfn, decide_eq_false hpd⟩)

theorem exec_movsGetPred_of_issues {gd : GReg} (hgd : gd ≠ 15) :
    exec (.movsGetPred n p false gd) s = .next (s.after n (CoreSt.setG gd
      (w32 (b2n (s.chip.core n).p3 * 8 + b2n (s.chip.core n).p2 * 4 + b2n (s.chip.core n).p1 * 2)))) :=
  Chip.next_issue_of_issues (op := .getPred gd) h (decide_eq_false hgd)

theorem exec_movsSetPred_of_issues (ga : GReg) :
    exec (.movsSetPred n p false ga) s = .next (s.after n fun k => { k with
      p1 := tb ((s.chip.core n).gr ga) 1, p2 := tb ((s.chip.core n).gr ga) 2, p3 := tb ((s.chip.core n).gr ga) 3 }) :=
  Chip.next_issue_of_issues (op := .setPred ga) h rfl

/-- In S mode movs reads the U copy of g13 (R184). -/
theorem exec_movsGetUsp_of_issues (hS : (s.chip.core n).mode = .S) {gd : GReg} (hgd : gd ≠ 15) :
    exec (.movsGetUsp n p false gd) s = .next (s.after n (CoreSt.setG gd (s.chip.core n).usp)) :=
  Chip.next_issue_of_issues (op := .getUsp gd) h (by simp [Chip.inU, hS, hgd])

/-- In S mode movs writes the U copy of g13 (R184). -/
theorem exec_movsSetUsp_of_issues (hS : (s.chip.core n).mode = .S) (ga : GReg) :
    exec (.movsSetUsp n p false ga) s = .next (s.after n fun k => { k with usp := (s.chip.core n).gr ga }) :=
  Chip.next_issue_of_issues (op := .setUsp ga) h (by simp [Chip.inU, hS])

theorem exec_nop_of_issues : exec (.nop n p false) s = .next (s.after n id) :=
  Chip.next_issue_of_issues (op := .nop) h rfl

end

/-- A bit's place value, by the bit. -/
theorem b2n_mul (b : Bool) (v : Nat) : b2n b * v = if b then v else 0 := by
  cases b <;> simp [b2n]

/-- Settles O11: each clause is the rule of its instruction, its value in the words of R183 and R184. -/
theorem predicatesCompareAndMove : Obligations.PredicatesCompareAndMove := by
  unfold Obligations.PredicatesCompareAndMove
  intro n p s h k
  refine ⟨?compare, fun fn pd pa pb hfn hpd => ?plog, fun gd hgd => ?getPred, fun ga => ?setPred,
    fun hS g => ⟨exec_movsGetUsp_of_issues h hS, exec_movsSetUsp_of_issues h hS g⟩, exec_nop_of_issues h⟩
  case compare =>
    intro cc pd ga gb i hcc hpd holds
    have hholds (x y : Word) : ccTrue cc x y = holds x y := by
      simp only [holds, bne_eq_decide_ne]
      rfl
    exact ⟨by rw [exec_cmp_of_issues h hcc hpd, hholds], by rw [exec_cmpi_of_issues h hcc hpd, hholds]⟩
  case plog => exact exec_plog_of_issues h hfn hpd pa pb
  case getPred => rw [exec_movsGetPred_of_issues h hgd, b2n_mul, b2n_mul, b2n_mul]
  case setPred => rw [exec_movsSetPred_of_issues h, tb_eq_getLsbD, tb_eq_getLsbD, tb_eq_getLsbD]

/-! ### Where branches, callm and retm continue (R178, R189 to R191) -/

/-- A branch continues at a target that is a multiple of 4. -/
theorem Chip.branch_of_aligned {target : Word} (n : Core) (f : CoreSt → CoreSt) (c : Chip) (ht : target.toNat % 4 = 0) :
    c.branch n target f = c.onCore n fun k => { f k with pc := target } := if_neg (not_not_intro ht)

/-- A branch to any other target traps and changes no register (R178). -/
theorem Chip.branch_of_misaligned {target : Word} (n : Core) (f : CoreSt → CoreSt) (c : Chip) (ht : target.toNat % 4 ≠ 0) :
    c.branch n target f = c.trap n .misalign (some target) := if_pos ht

section
variable {c : Chip} {n : Core} {mask : BitVec 13}

/-- callm to a target that is no multiple of 4 traps before it stores a word (R190). -/
theorem Chip.callm_of_misaligned {ga : GReg} (ht : ((c.core n).gr ga).toNat % 4 ≠ 0) :
    c.callm n ga mask = c.trap n .misalign (some ((c.core n).gr ga)) := if_pos ht

/-- callm whose target and base are aligned and whose stores are permitted makes them, the core gone on (R190). -/
theorem Chip.callm_of_permitted {ga : GReg} {base : Word} (hbase : base = (c.core n).gr 13 - w32 (4 * ((maskRegs mask).length + 1)))
    (ht : ((c.core n).gr ga).toNat % 4 = 0) (hb : base.toNat % 4 = 0)
    (hstores : c.firstDenied n .w (wordAddrs base ((maskRegs mask).length + 1)) = none) :
    c.callm n ga mask =
      forEach ((wordAddrs base ((maskRegs mask).length + 1)).zip ((maskRegs mask).map (c.core n).gr ++ [(c.core n).gr 14]))
        (fun e c' => c'.putWord n (c.inU n) e.1 e.2)
        (c.onCore n fun k => { (k.setG 13 base).setG 14 ((c.core n).pc + 4) with pc := (c.core n).gr ga }) := by
  subst hbase
  rw [Chip.callm, if_neg (not_not_intro ht), if_neg (not_not_intro hb), hstores]

/-- retm whose target is aligned, whose loads are permitted and whose words are all received by a core that goes on loads the
named registers and g14, pops its words and continues at the old g14 (R191). -/
theorem Chip.retm_of_received {vs : List Word} {d : Chip} (ht : ((c.core n).gr 14).toNat % 4 = 0)
    (hloads : c.firstDenied n .r (wordAddrs ((c.core n).gr 13) ((maskRegs mask).length + 1)) = none)
    (hwords : Chip.getWords n (wordAddrs ((c.core n).gr 13) ((maskRegs mask).length + 1)) c = (.ok vs, d))
    (hgoes : d.goesOn n = true) :
    c.retm n mask = d.onCore n fun k => { forEach ((maskRegs mask ++ [14]).zip vs) (fun e k => k.setG e.1 e.2)
      (k.setG 13 ((c.core n).gr 13 + w32 (4 * ((maskRegs mask).length + 1)))) with pc := (c.core n).gr 14 } := by
  simp only [Chip.retm, ht, hloads, hwords, hgoes, ne_eq, not_true_eq_false, if_false, Bool.not_true, Bool.false_eq_true]

end

section
variable {s : State} {n : Core} {p : BitVec 3} (h : s.chip.issues n p)
include h

theorem exec_br_of_issues (off : BitVec 23) :
    exec (.br n p false off) s = .next (s.withChip (s.chip.branch n (brTarget (s.chip.core n).pc off) id)) :=
  Chip.next_issue_of_issues (op := .br off) h rfl

theorem exec_bl_of_issues (off : BitVec 23) :
    exec (.bl n p false off) s = .next (s.withChip (s.chip.branch n (brTarget (s.chip.core n).pc off)
      (CoreSt.setG 14 ((s.chip.core n).pc + 4)))) :=
  Chip.next_issue_of_issues (op := .bl off) h rfl

theorem exec_jr_of_issues (ga : GReg) :
    exec (.jr n p false ga) s = .next (s.withChip (s.chip.branch n ((s.chip.core n).gr ga) id)) :=
  Chip.next_issue_of_issues (op := .jr ga) h rfl

theorem exec_jlr_of_issues {gd : GReg} (hgd : gd ≠ 15) (ga : GReg) :
    exec (.jlr n p false gd ga) s = .next (s.withChip (s.chip.branch n ((s.chip.core n).gr ga)
      (CoreSt.setG gd ((s.chip.core n).pc + 4)))) :=
  Chip.next_issue_of_issues (op := .jlr gd ga) h (decide_eq_false hgd)

theorem exec_callm_of_issues (ga : GReg) (mask : BitVec 13) :
    exec (.callm n p false ga mask) s = .next (s.withChip (s.chip.callm n ga mask)) :=
  Chip.next_issue_of_issues (op := .callm ga mask) h rfl

theorem exec_retm_of_issues (mask : BitVec 13) :
    exec (.retm n p false mask) s = .next (s.withChip (s.chip.retm n mask)) :=
  Chip.next_issue_of_issues (op := .retm mask) h rfl

end

/-- Settles O14: a branch by the alignment of its target; callm and retm where every check passes. -/
theorem branchesCallsAndReturns : Obligations.BranchesCallsAndReturns := by
  unfold Obligations.BranchesCallsAndReturns
  intro n p gd ga off mask s h hgd k goes t rs w
  refine ⟨fun ht => ⟨?br, ?bl⟩, fun ht => ⟨?jr, ?jlr⟩, fun ht => ⟨?jrTrap, ?jlrTrap, ?callmTrap⟩, fun ht hb hstores => ?callm,
    fun ht hloads vs c hwords hgoes => ?retm⟩
  case br => rw [exec_br_of_issues h, Chip.branch_of_aligned n id s.chip (target := brTarget _ off) ht]; rfl
  case bl => rw [exec_bl_of_issues h, Chip.branch_of_aligned n _ s.chip (target := brTarget _ off) ht]; rfl
  case jr => rw [exec_jr_of_issues h, Chip.branch_of_aligned n id s.chip ht]
  case jlr => rw [exec_jlr_of_issues h hgd, Chip.branch_of_aligned n _ s.chip ht]
  case jrTrap => rw [exec_jr_of_issues h, Chip.branch_of_misaligned n id s.chip ht]
  case jlrTrap => rw [exec_jlr_of_issues h hgd, Chip.branch_of_misaligned n _ s.chip ht]
  case callmTrap => rw [exec_callm_of_issues h, Chip.callm_of_misaligned ht]
  case callm => rw [exec_callm_of_issues h, Chip.callm_of_permitted rfl ht hb hstores]; rfl
  case retm => rw [exec_retm_of_issues h, Chip.retm_of_received ht hloads hwords hgoes]; rfl

end Sys2Proof.Machine
end

section
/-! The end of an interrupt and the writes that set pending sources (07, R204, R212, R213, R219): what IRQ_EOI takes from the stack
of the core's own bank, what it leaves through the peer view, and what IRQ_MSI_SET and IRQ_SWSET set. -/

namespace Sys2Proof.Machine

/-! ### IRQ_EOI (R212) -/

theorem exec_irqEoi (n : Core) (v : Word) (s : State) : exec (.irqEoi n v) s = .next (s.withChip (s.chip.irqEoi n v)) := rfl

/-- An empty stack has nothing to pop: EOI_EMPTY sets. -/
theorem Chip.irqEoi_of_empty {c : Chip} {n : Core} (h : (c.core n).stack = []) (v : Word) :
    c.irqEoi n v = c.sb (R.IRQ_STAT n) 1 := by
  simp only [Chip.irqEoi, h]

/-- The top entry is popped: ACT of its source clears and its priority runs again. -/
def Chip.irqPop (n : Core) (x p : Nat) (t : List (Nat × Nat)) (c : Chip) : Chip :=
  (c.wb (R.IRQ_ACT n (x / 32)) (x % 32) false).onCore n fun k => { k with stack := t, runPrio := p }

/-- The SOURCE field of IRQ_EOI. -/
theorem fld_7_0 (v : Word) : fld v 7 0 = v.toNat % 256 := by
  simp [fld]

/-- The entry on top is popped whatever SOURCE names; EOI_MISMATCH sets where it names another source. -/
theorem Chip.irqEoi_of_top {c : Chip} {n : Core} {x p : Nat} {t : List (Nat × Nat)} (h : (c.core n).stack = (x, p) :: t) (v : Word) :
    c.irqEoi n v = if v.toNat % 256 = x then c.irqPop n x p t else (c.irqPop n x p t).sb (R.IRQ_STAT n) 0 := by
  simp only [Chip.irqEoi, h, fld_7_0, Chip.sbIf, bne_iff_ne, ne_eq, ite_not]
  rfl

/-- IRQ_EOI in the peer view answers nothing. -/
theorem Chip.storeReg_peerEoi (c : Chip) (n : Core) (user : Bool) (v : Word) : c.storeReg n user 0x40002404 v = c := rfl

/-! ### IRQ_MSI_SET (R219) -/

theorem exec_irqMsiSet (v : Word) (s : State) : exec (.irqMsiSet v) s = .next (s.withChip (s.chip.msiSet v)) := rfl

theorem Chip.rd_msiSet_same (v : Word) (c : Chip) : (c.msiSet v).rd R.IRQ_MSI_PEND = c.rd R.IRQ_MSI_PEND ||| v := c.rd_wr_same _ _

theorem Chip.sameRegsBut_msiSet (v : Word) (c : Chip) : c.sameRegsBut [R.IRQ_MSI_PEND] (c.msiSet v) :=
  fun a ha => c.rd_wr_ne _ a _ (by simpa using ha)

/-! ### The obligation -/

/-- Settles O19: IRQ_EOI by whether the stack holds an entry, and the bits of IRQ_MSI_PEND as the union of the old and the written. -/
theorem endOfInterruptAndMsiSet : Obligations.EndOfInterruptAndMsiSet := by
  unfold Obligations.EndOfInterruptAndMsiSet
  refine ⟨?pop, ?empty, ?peer, ?msi⟩
  case pop =>
    intro n v x p t s h c
    rw [exec_irqEoi, Chip.irqEoi_of_top h]
    rfl
  case empty =>
    intro n v s h
    rw [exec_irqEoi, Chip.irqEoi_of_empty h]
  case peer =>
    intro n u v s
    have hpage : ylxAt n (0x40002404 : BitVec 32).toNat = none := ylxAt_eq_none (by decide)
    have hstore : s.chip.storeReg n u (0x40002404 : BitVec 32).toNat v = s.chip := s.chip.storeReg_peerEoi n u v
    rw [exec_registerWrite_core_page hpage, hstore, State.withChip_chip]
  case msi =>
    intro v s
    refine ⟨s.chip.msiSet v, exec_irqMsiSet v s, Chip.sameRegsBut_msiSet v s.chip, rfl, fun i => ?_⟩
    rw [Chip.rd_msiSet_same, BitVec.getLsbD_or, Bool.or_comm]

/-! ### Pulse sources (R204, R206) -/

/-- A source inserted is listed, with all that were. -/
theorem mem_insertSorted {a k : Nat} : ∀ l : List Nat, a ∈ insertSorted k l ↔ a = k ∨ a ∈ l
  | [] => by simp [insertSorted]
  | b :: t => by
    rw [insertSorted]
    split
    next hkb => simp [hkb]
    next =>
      split
      next => exact List.mem_cons
      next => rw [List.mem_cons, mem_insertSorted t, List.mem_cons, or_left_comm]

/-- Source k becomes pending in the bank of core n. -/
def Chip.pulseAt (k : Nat) (n : Core) (c : Chip) : Chip := c.onCore n fun b => { b with pulse := insertSorted k b.pulse }

theorem Chip.mem_pulse_pulseAt {a k : Nat} {n m : Core} {c : Chip} :
    a ∈ ((c.pulseAt k n).core m).pulse ↔ (n = m ∧ a = k) ∨ a ∈ (c.core m).pulse := by
  by_cases h : n = m
  · subst h
    simp [Chip.pulseAt, mem_insertSorted]
  · simp [Chip.pulseAt, Chip.core_onCore_ne n m _ c h, h]

/-- What a loop adds to a list of the state is what its rounds add. -/
theorem mem_forEach {α β σ : Type} {f : α → σ → σ} {g : σ → List β} {P : α → β → Prop}
    (hf : ∀ x s b, b ∈ g (f x s) ↔ P x b ∨ b ∈ g s) :
    ∀ (l : List α) (s : σ) (b : β), b ∈ g (forEach l f s) ↔ (∃ x ∈ l, P x b) ∨ b ∈ g s
  | [], s, b => by simp [forEach]
  | x :: l, s, b => by
    have ih : b ∈ g (forEach (x :: l) f s) ↔ (∃ y ∈ l, P y b) ∨ b ∈ g (f x s) := mem_forEach hf l (f x s) b
    rw [ih, hf, List.exists_mem_cons_iff, or_left_comm, or_assoc]

/-- A pulse source that occurs becomes pending in every bank. -/
theorem Chip.mem_pulse_pulse {a k : Nat} {m : Core} {c : Chip} : a ∈ ((c.pulse k).core m).pulse ↔ a = k ∨ a ∈ (c.core m).pulse := by
  have hloop := mem_forEach (f := Chip.pulseAt k) (g := fun d => (d.core m).pulse) (P := fun n b => n = m ∧ b = k)
    (fun n d b => Chip.mem_pulse_pulseAt) (List.finRange 8) c a
  refine hloop.trans (or_congr_left ?_)
  simp

theorem Chip.pulse_regs (k : Nat) (c : Chip) : (c.pulse k).regs = c.regs :=
  forEach_same Chip.regs _ _ c fun _ _ => rfl

theorem Chip.pulse_mem (k : Nat) (c : Chip) : (c.pulse k).mem = c.mem :=
  forEach_same Chip.mem _ _ c fun _ _ => rfl

/-! ### IRQ_SWSET (R204) -/

theorem exec_irqSwset (v : Word) (s : State) : exec (.irqSwset v) s = .next (s.withChip (s.chip.swSet v)) := rfl

theorem mem_setBitsOf_iff {n k : Nat} (v : Word) : k ∈ setBitsOf n v.toNat ↔ k < n ∧ tb v k = true := by
  simp [setBitsOf, tb]

theorem Chip.swSet_regs (v : Word) (c : Chip) : (c.swSet v).regs = c.regs :=
  forEach_same Chip.regs _ _ c Chip.pulse_regs

theorem Chip.swSet_mem (v : Word) (c : Chip) : (c.swSet v).mem = c.mem :=
  forEach_same Chip.mem _ _ c Chip.pulse_mem

/-- IRQ_SWSET adds to the pending pulses of every bank the software sources whose bits are 1. -/
theorem Chip.mem_pulse_swSet {k : Nat} {m : Core} (v : Word) (c : Chip) :
    k ∈ ((c.swSet v).core m).pulse ↔ k ∈ (c.core m).pulse ∨ (k < 8 ∧ tb v k = true) := by
  have hloop := mem_forEach (f := Chip.pulse) (g := fun d => (d.core m).pulse) (P := fun n b => b = n)
    (fun n d b => Chip.mem_pulse_pulse) (setBitsOf 8 v.toNat) c k
  refine hloop.trans ?_
  rw [exists_eq_right', mem_setBitsOf_iff, or_comm]

end Sys2Proof.Machine
end

section
/-! Doorbells and ring bits (09, R16, R234, R258 to R268, R277): what a host's write to MBX_DBn comes to by the lock, the ring's
enable and the host writes that wait, and the commands that write the ring bits. -/

namespace Sys2Proof.Machine

/-! ### The words of MBX_DB (R258, R261, R262) -/

/-- MBX_DB as the host writes it with TAIL_WE. -/
def tailWord (t : BitVec 12) : Word := w32 (t.toNat + 2 ^ 15)

/-- MBX_DB as the host writes it with CQH_WE. -/
def headWord (h : BitVec 12) : Word := w32 (h.toNat * 2 ^ 16 + 2 ^ 31)

/-- MBX_DB as a core writes it: the submission head alone. -/
def sqHeadWord (h : BitVec 12) : Word := w32 (h.toNat * 2 ^ 16)

theorem toNat_tailWord (t : BitVec 12) : (tailWord t).toNat = t.toNat + 2 ^ 15 := by
  have ht := t.isLt
  rw [tailWord, BitVec.toNat_ofNat]
  omega

theorem toNat_headWord (h : BitVec 12) : (headWord h).toNat = h.toNat * 2 ^ 16 + 2 ^ 31 := by
  have hh := h.isLt
  rw [headWord, BitVec.toNat_ofNat]
  omega

theorem tailWord_fields (t : BitVec 12) : tb (tailWord t) 15 = true ∧ tb (tailWord t) 31 = false ∧ fld (tailWord t) 11 0 = t.toNat := by
  have ht := t.isLt
  simp only [tb, fld, toNat_tailWord, beq_iff_eq, beq_eq_false_iff_ne]
  omega

theorem headWord_fields (h : BitVec 12) : tb (headWord h) 15 = false ∧ tb (headWord h) 31 = true ∧ fld (headWord h) 27 16 = h.toNat := by
  have hh := h.isLt
  simp only [tb, fld, toNat_headWord, beq_iff_eq, beq_eq_false_iff_ne]
  omega

theorem fld_sqHeadWord (h : BitVec 12) : fld (sqHeadWord h) 27 16 = h.toNat := by
  have hh := h.isLt
  rw [fld, sqHeadWord, BitVec.toNat_ofNat]
  omega

/-! ### A doorbell by the lock and the ring's enable (R234, R256, R258 to R261) -/

/-- What a doorbell of an enabled ring begins with after ROM_LOCK: the check of the table entry, and the source's occurrence. -/
def Chip.bellRings (n : Ring) (c : Chip) : Chip := (if c.tirbaReady then c.ringCheck n else c).pulse (96 + n.val)

/-- A tail is checked: one out of range or back is an overrun, with a completion that says so (R258, R259). -/
def Chip.tailWrite (n : Ring) (t : Nat) (c : Chip) : Chip :=
  let N := (c.ringN n).1
  let d := (c.ringN n).2
  if N ≤ t ∨ ringDist N (d.sqHead n) t < ringDist N (d.sqHead n) (d.sqTail n) then
    (d.mbxErr 1 n).reply n { tag := 0xFFFFFFFF, status := 0x0A, detail := 0, sqHead := d.sqHead n, result := [], notify := true, cmd := false }
  else d.wf (R.MBX_DB n) 11 0 t

/-- A head is checked: one out of range or past the tail is an overrun (R261). -/
def Chip.headWrite (n : Ring) (h : Nat) (c : Chip) : Chip :=
  let N := (c.ringN n).1
  let d := (c.ringN n).2
  if N ≤ h ∨ ringDist N (d.cqHead n) (d.cqTail n) < ringDist N (d.cqHead n) h then d.mbxErr 2 n
  else d.wf (R.MBX_RST n) 11 0 h

/-- A doorbell before ROM_LOCK: the source occurs, and on ring 0 with RESULT NO_IMAGE a check of a host image begins (R234). -/
def Chip.bellUnlocked (n : Ring) (c : Chip) : Chip :=
  let c := c.pulse (96 + n.val)
  if n = 0 ∧ c.rf R.SYS_BOOT_STAT 3 0 = 4 then c.wf R.SYS_BOOT_STAT 3 0 7 else c

section
variable {c : Chip} {n : Ring} {v : Word}

section
variable (hwe : tb v 15 = true) (hnohead : tb v 31 = false)
include hwe hnohead

theorem Chip.bell_tail_of_on (hlock : c.romLocked = true) (hon : c.ringOn n = true) :
    c.bell n v = (c.bellRings n).tailWrite n (fld v 11 0) := by
  simp only [Chip.bell, hlock, hon, hwe, hnohead, Chip.when, Bool.true_and, Bool.not_true, Bool.not_false, Bool.true_or, if_true,
    Bool.false_eq_true, if_false, not_true_eq_false, false_and, and_false]
  rfl

/-- A tail of a ring that is not enabled is DB_DISABLED (R258). -/
theorem Chip.bell_tail_of_off (hlock : c.romLocked = true) (hoff : c.ringOn n = false) : c.bell n v = c.mbxErr 3 n := by
  simp [Chip.bell, hlock, hoff, hwe, hnohead, Chip.when]

/-- Before ROM_LOCK the tail is stored unchecked (R234). -/
theorem Chip.bell_tail_of_unlocked (hlock : c.romLocked = false) :
    c.bell n v = (c.bellUnlocked n).wf (R.MBX_DB n) 11 0 (fld v 11 0) := by
  simp [Chip.bell, hlock, hwe, hnohead, Chip.when, Chip.bellUnlocked]

end

theorem Chip.bell_head_of_on (hnotail : tb v 15 = false) (hwe : tb v 31 = true) (hlock : c.romLocked = true) (hon : c.ringOn n = true) :
    c.bell n v = (c.bellRings n).headWrite n (fld v 27 16) := by
  simp only [Chip.bell, hlock, hon, hwe, hnotail, Chip.when, Bool.true_and, Bool.not_true, Bool.not_false, Bool.true_or, if_true,
    Bool.false_eq_true, if_false, not_true_eq_false, false_and, and_false]
  rfl

/-! ### Doorbells and the host writes before them (R16) -/

theorem Chip.doorbell_of_landed (h : c.hostWrites = []) : c.doorbell n v = c.bell n v := by
  simp [Chip.doorbell, h]

theorem Chip.doorbell_of_waiting (h : c.hostWrites ≠ []) :
    c.doorbell n v = c.onHost fun k => { k with bells := k.bells ++ [(n, v, c.hostWrites.length)] } := by
  simp [Chip.doorbell, h]

end

/-! ### A core's write of the submission head (R262) -/

theorem Chip.mbxWrite_core_db (n : Ring) (v : Word) (c : Chip) :
    c.mbxWrite false (0x400 + 4 * n.val) v = c.wf (R.MBX_DB n) 27 16 (fld v 27 16) := by
  have hn := n.isLt
  have hbelow : ∀ k < 0x400, 0x400 + 4 * n.val ≠ k := fun k hk => by omega
  have hpage : 0x400 ≤ 0x400 + 4 * n.val ∧ 0x400 + 4 * n.val < 0x500 := by omega
  have haddr : 0x40006000 + (0x400 + 4 * n.val) = R.MBX_DB n := (Nat.add_assoc ..).symm
  simp (disch := decide) only [Chip.mbxWrite, hbelow, hpage, haddr, or_self, and_self, if_true, if_false, Bool.false_eq_true]

/-! ### The commands -/

theorem exec_doorbellTail (n : Ring) (t : BitVec 12) (s : State) :
    exec (.doorbellTail n t) s = .next (s.withChip (s.chip.doorbell n (tailWord t))) := rfl

theorem exec_cqHeadUpdate (n : Ring) (h : BitVec 12) (s : State) :
    exec (.cqHeadUpdate n h) s = .next (s.withChip (s.chip.doorbell n (headWord h))) := rfl

theorem exec_sqHeadSet (n : Ring) (h : BitVec 12) (s : State) :
    exec (.sqHeadSet n h) s = .next (s.withChip (s.chip.mbxWrite false (0x400 + 4 * n.val) (sqHeadWord h))) := rfl

theorem exec_ringEnable (k : Fin 2) (v : Word) (s : State) :
    exec (.ringEnable k v) s = .next (s.withChip (s.chip.ringEnable k v)) := rfl

theorem exec_ringReset (k : Fin 2) (v : Word) (s : State) :
    exec (.ringReset k v) s = .next (s.withChip (s.chip.ringResets k v)) := rfl

theorem exec_resetAll (s : State) : exec .resetAll s = .next (s.withChip s.chip.resetAll) := rfl

/-- Settles O22: a doorbell by what waits before it, the lock and the ring's enable; the other commands by their definitions. -/
theorem doorbellsAndRingBits : Obligations.DoorbellsAndRingBits := by
  unfold Obligations.DoorbellsAndRingBits
  refine ⟨?on, ?off, ?unlocked, ?waiting, ?sqHead, ?ringBits⟩
  case on =>
    intro n t h s hland hlock hon c N d
    obtain ⟨htwe, hnohead, htail⟩ := tailWord_fields t
    obtain ⟨hnotail, hhwe, hhead⟩ := headWord_fields h
    rw [exec_doorbellTail, exec_cqHeadUpdate, Chip.doorbell_of_landed hland, Chip.doorbell_of_landed hland,
      Chip.bell_tail_of_on htwe hnohead hlock hon, Chip.bell_head_of_on hnotail hhwe hlock hon, htail, hhead]
    exact ⟨rfl, rfl⟩
  case off =>
    intro n t s hland hlock hoff
    obtain ⟨hwe, hnohead, _⟩ := tailWord_fields t
    rw [exec_doorbellTail, Chip.doorbell_of_landed hland, Chip.bell_tail_of_off hwe hnohead hlock hoff]
  case unlocked =>
    intro n t s hland hlock c
    obtain ⟨hwe, hnohead, htail⟩ := tailWord_fields t
    rw [exec_doorbellTail, Chip.doorbell_of_landed hland, Chip.bell_tail_of_unlocked hwe hnohead hlock, htail]
    rfl
  case waiting =>
    intro n t s hwait
    rw [exec_doorbellTail, Chip.doorbell_of_waiting hwait]
    rfl
  case sqHead =>
    intro n h s
    rw [exec_sqHeadSet, Chip.mbxWrite_core_db, fld_sqHeadWord]
    rfl
  case ringBits =>
    intro k v s old
    exact ⟨exec_ringEnable k v s, exec_ringReset k v s, exec_resetAll s⟩

end Sys2Proof.Machine
end

section
/-! The bus master's reads of host memory (09, R246, R256, R257; 20, R592): what a completion or a timeout of a read in flight comes to,
by whether the bytes complete it. -/

namespace Sys2Proof.Machine

theorem exec_busMasterCompletion (i : Nat) (data : Option (List Byte)) (s : State) :
    exec (.busMasterCompletion i data) s = .next (s.withChip (s.chip.bmData i data)) := rfl

/-- The read at place i is no longer in flight. -/
def Chip.bmDrop (i : Nat) (c : Chip) : Chip := c.onTirba fun t => { t with bm := dropAt t.bm i }

/-- Advanced Error Reporting holds a Completion Timeout. -/
def Chip.aerTimeout (c : Chip) : Chip := c.onHost fun h => { h with aer := setBit h.aer 14 true }

theorem exec_completionTimeout (i : Nat) (s : State) :
    exec (.completionTimeout i) s = .next (s.withChip ((s.chip.when (decide (i < s.chip.tirba.bm.length)) Chip.aerTimeout).bmData i none)) := rfl

theorem Chip.bmData_of_none {c : Chip} {i : Nat} (h : c.tirba.bm[i]? = none) (data : Option (List Byte)) : c.bmData i data = c := by
  simp only [Chip.bmData, h]

/-- A timeout that names no read reports nothing. -/
theorem exec_completionTimeout_of_none {s : State} {i : Nat} (h : s.chip.tirba.bm[i]? = none) : exec (.completionTimeout i) s = .next s := by
  have hout : ¬i < s.chip.tirba.bm.length := Nat.not_lt.mpr (List.getElem?_eq_none_iff.mp h)
  rw [exec_completionTimeout, decide_eq_false hout, Chip.when, if_neg Bool.false_ne_true, Chip.bmData_of_none h, State.withChip_chip]

section
variable {c : Chip} {i : Nat} {r : BmRead} (h : c.tirba.bm[i]? = some r)
include h

theorem Chip.bmData_of_failed : c.bmData i none = (c.bmDrop i).bmEnd r true := by
  simp only [Chip.bmData, h, Chip.bmDrop]

theorem Chip.bmData_of_part {bs : List Byte} (hlen : r.got.length + bs.length < r.len) :
    c.bmData i (some bs) = c.onTirba fun t => { t with bm := t.bm.set i { r with got := r.got ++ bs } } := by
  simp only [Chip.bmData, h, List.length_append, Nat.not_le.mpr hlen, if_false]

theorem Chip.bmData_of_last {bs : List Byte} (hlen : r.len ≤ r.got.length + bs.length) :
    c.bmData i (some bs) = (c.bmDrop i).bmEnd { r with got := r.got ++ bs } false := by
  simp only [Chip.bmData, h, List.length_append, hlen, if_true, Chip.bmDrop]

end

/-- A read whose completion does not come ends as failed, and Advanced Error Reporting says so (R246, R257). -/
theorem exec_completionTimeout_of_read {s : State} {i : Nat} {r : BmRead} (h : s.chip.tirba.bm[i]? = some r) :
    exec (.completionTimeout i) s = .next (s.withChip ((s.chip.aerTimeout.bmDrop i).bmEnd r true)) := by
  have hin : i < s.chip.tirba.bm.length := (List.getElem?_eq_some_iff.mp h).1
  have hread : s.chip.aerTimeout.tirba.bm[i]? = some r := h
  rw [exec_completionTimeout, decide_eq_true hin, Chip.when, if_pos rfl, Chip.bmData_of_failed hread]

/-- Settles O55: a completion by whether it fails, brings a part or the last byte; a write to IRQ_SWSET by what each pulse adds. -/
theorem busMasterReadsAndSwset : Obligations.BusMasterReadsAndSwset := by
  unfold Obligations.BusMasterReadsAndSwset
  refine ⟨?inFlight, ?noRead, ?swset⟩
  case inFlight =>
    intro i r s h gone
    simp only [exec_busMasterCompletion]
    refine ⟨fun bs hlen => ?part, fun bs hlen => ?last, ?failed, ?timeout⟩
    case part => rw [Chip.bmData_of_part h hlen]
    case last => rw [Chip.bmData_of_last h hlen]; rfl
    case failed => rw [Chip.bmData_of_failed h]; rfl
    case timeout => rw [exec_completionTimeout_of_read h]; rfl
  case noRead =>
    intro i data s h
    refine ⟨?_, exec_completionTimeout_of_none h⟩
    rw [exec_busMasterCompletion, Chip.bmData_of_none h, State.withChip_chip]
  case swset =>
    intro v s
    exact ⟨s.chip.swSet v, exec_irqSwset v s, Chip.swSet_regs v s.chip, Chip.swSet_mem v s.chip,
      fun n k => Chip.mem_pulse_swSet v s.chip⟩

end Sys2Proof.Machine
end

section
/-! The boot ROM (08, R225 to R234): a header read into the work area, the boot that finds no image, the handover, ROM_LOCK and a
recovery check. -/

namespace Sys2Proof.Machine

/-! ### The commands -/

theorem exec_romBoot (bad : List (Nat × Nat)) (a b : FlashSlot) (s : State) :
    exec (.romBoot bad a b) s = .next (s.withChip (s.chip.romBoot bad a b)) := rfl

theorem exec_romLock (n : Core) (s : State) : exec (.romLock n) s = .next (s.withChip (s.chip.romLock n)) := rfl

theorem exec_hostRecovery (he be : Bool) (s : State) : exec (.hostRecovery he be) s = .next (s.withChip (s.chip.recover he be)) := rfl

theorem exec_vioCTimeout (s : State) : exec .vioCTimeout s = .next (s.withChip s.chip.vioCTimeout) := rfl

/-! ### Loops -/

/-- What a loop leaves in two states rests on what it read of them, where its body does. -/
theorem forEach_congr {α β σ : Type} {g : σ → β} (f : α → σ → σ) (hf : ∀ a s t, g s = g t → g (f a s) = g (f a t)) :
    ∀ (l : List α) {s t : σ}, g s = g t → g (forEach l f s) = g (forEach l f t)
  | [], _, _, h => h
  | a :: l, s, t, h => forEach_congr f hf l (hf a s t h)

/-! ### Fields of a word in which a field or a bit is written -/

theorem testBit_fld {n : Nat} (w : BitVec n) (hi lo i : Nat) : (fld w hi lo).testBit i = (decide (i < hi + 1 - lo) && w.getLsbD (i + lo)) := by
  rw [fld, Nat.testBit_mod_two_pow, Nat.testBit_div_two_pow, BitVec.testBit_toNat]

/-- A field rests on its own bits. -/
theorem fld_congr {v w : Word} {hi lo : Nat} (h : ∀ j, lo ≤ j → j ≤ hi → v.getLsbD j = w.getLsbD j) : fld v hi lo = fld w hi lo := by
  apply Nat.eq_of_testBit_eq
  intro i
  rw [testBit_fld, testBit_fld]
  by_cases hi' : i < hi + 1 - lo
  · rw [h _ (by omega) (by omega)]
  · simp [hi']

/-- A bit of a word in which a field is written: the field's, or as it was. -/
theorem getLsbD_setFld {w : Word} {hi lo v j : Nat} (hj : j < 32) :
    (setFld w hi lo v).getLsbD j = if lo ≤ j ∧ j ≤ hi then v.testBit (j - lo) else w.getLsbD j := by
  simp only [setFld, maskW, BitVec.getLsbD_or, BitVec.getLsbD_and, BitVec.getLsbD_not, BitVec.getLsbD_ofNat, Nat.testBit_mul_two_pow,
    Nat.testBit_two_pow_sub_one, Nat.testBit_mod_two_pow, hj, decide_true, Bool.true_and]
  by_cases hlo : lo ≤ j
  · have hin : j - lo < hi + 1 - lo ↔ j ≤ hi := by omega
    by_cases hhi : j ≤ hi <;> simp [hlo, hhi, hin]
  · simp [hlo]

theorem fld_setFld_same {w : Word} {hi lo v : Nat} (hhi : hi < 32) (hv : v < 2 ^ (hi + 1 - lo)) : fld (setFld w hi lo v) hi lo = v := by
  apply Nat.eq_of_testBit_eq
  intro i
  rw [testBit_fld]
  by_cases h : i < hi + 1 - lo
  · rw [getLsbD_setFld (by omega), if_pos (by omega), Nat.add_sub_cancel, decide_eq_true h, Bool.true_and]
  · rw [decide_eq_false h, Bool.false_and, Nat.testBit_lt_two_pow (hv.trans_le (Nat.pow_le_pow_right Nat.two_pos (by omega)))]

theorem fld_setFld_apart {w : Word} {hi lo v hi' lo' : Nat} (hhi : hi < 32) (h : hi < lo' ∨ hi' < lo) :
    fld (setFld w hi' lo' v) hi lo = fld w hi lo :=
  fld_congr fun j hlo hle => by rw [getLsbD_setFld (by omega), if_neg (by omega)]

theorem fld_setBit_apart {w : Word} {hi lo i : Nat} (hhi : hi < 32) (h : hi < i ∨ i < lo) (b : Bool) :
    fld (setBit w i b) hi lo = fld w hi lo :=
  fld_congr fun j hlo hle => by rw [← tb_eq_getLsbD, ← tb_eq_getLsbD, tb_setBit (by omega), if_neg (by omega)]

theorem Chip.rf_wf_same {a hi lo v : Nat} (hhi : hi < 32) (hv : v < 2 ^ (hi + 1 - lo)) (c : Chip) : (c.wf a hi lo v).rf a hi lo = v := by
  rw [Chip.rf, Chip.rd_wf_same, fld_setFld_same hhi hv]

theorem Chip.rf_wf_apart {hi lo hi' lo' : Nat} (hhi : hi < 32) (h : hi < lo' ∨ hi' < lo) (a v : Nat) (c : Chip) :
    (c.wf a hi' lo' v).rf a hi lo = c.rf a hi lo := by
  rw [Chip.rf, Chip.rd_wf_same, fld_setFld_apart hhi h, Chip.rf]

theorem Chip.rf_when_sb_apart {hi lo i : Nat} (hhi : hi < 32) (h : hi < i ∨ i < lo) (a : Nat) (b : Bool) (c : Chip) :
    (c.when b (Chip.sb a i)).rf a hi lo = c.rf a hi lo :=
  Chip.when_same (Chip.rf · a hi lo) b _ c (by rw [Chip.rf, Chip.rd_sb_same, fld_setBit_apart hhi h, Chip.rf])

/-! ### Bytes copied into local memory (R226) -/

/-- What a write of a byte leaves, a write of bytes leaves. -/
theorem Chip.setBytes_same {β : Type} {g : Chip → β} (hg : ∀ a b c, g (Chip.setByte a b c) = g c) :
    ∀ (bs : List Byte) (a : Nat) (c : Chip), g (c.setBytes a bs) = g c
  | [], _, _ => rfl
  | b :: t, a, c => (Chip.setBytes_same hg t (a + 1) (c.setByte a b)).trans (hg a b c)

@[simp] theorem Chip.memWrite_cores (a : Nat) (bs : List Byte) (c : Chip) : (c.memWrite a bs).cores = c.cores :=
  Chip.setBytes_same (g := Chip.cores) (fun _ _ _ => rfl) bs a c

@[simp] theorem Chip.memWrite_out (a : Nat) (bs : List Byte) (c : Chip) : (c.memWrite a bs).out = c.out :=
  Chip.setBytes_same (g := Chip.out) (fun _ _ _ => rfl) bs a c

theorem Chip.byte_memWrite_of_outside {a x : Nat} {bs : List Byte} (h : x < a ∨ a + bs.length ≤ x) (c : Chip) :
    (c.memWrite a bs).byte x = c.byte x := c.byte_setBytes_ne bs a x h

theorem Chip.bytes_congr {c d : Chip} (h : d.mem = c.mem) : ∀ (n a : Nat), d.bytes a n = c.bytes a n
  | 0, _ => rfl
  | n + 1, a => by rw [Chip.bytes, Chip.bytes, Chip.byte_congr h, Chip.bytes_congr h n (a + 1)]

/-- The copy reads back as what was copied. -/
theorem Chip.copyIn_eq (key : Nat) (bs : List Byte) (c : Chip) : c.copyIn key bs = (bs, c.memWrite key bs) := by
  have hcopy : (c.memWrite key bs).bytes key bs.length = bs :=
    (Chip.bytes_congr (c := c.setBytes key bs) (d := c.memWrite key bs) rfl _ _).trans (c.bytes_setBytes bs key)
  rw [Chip.copyIn, hcopy]

/-- The ROM's read of the header of slot i (R226). -/
def Chip.readHeader (i : Nat) (f : FlashSlot) (c : Chip) : Chip := (c.emit (.flashRead (slotAddr i) 0x100)).memWrite (workHeader i) f.header

theorem Chip.flashHeader_eq (i : Nat) (f : FlashSlot) (c : Chip) :
    c.flashHeader i f = (if f.headerErr then 9 else (c.readHeader i f).headerStatus f.header, c.readHeader i f) := by
  simp only [Chip.flashHeader, Chip.copyIn_eq, Chip.readHeader]

theorem Chip.headerStatus_of_badMagic {h : List Byte} (hmagic : hdrField h 0 4 ≠ 0x54424948) (c : Chip) : c.headerStatus h = 2 :=
  if_pos hmagic

theorem Chip.flashHeader_of_badMagic {f : FlashSlot} (herr : f.headerErr = false) (hmagic : hdrField f.header 0 4 ≠ 0x54424948) (i : Nat)
    (c : Chip) : c.flashHeader i f = (2, c.readHeader i f) := by
  rw [Chip.flashHeader_eq, Chip.headerStatus_of_badMagic hmagic, herr]
  rfl

theorem Chip.byte_readHeader_of_outside {i x : Nat} {f : FlashSlot} (hlen : f.header.length = 256)
    (h : x < workHeader i ∨ workHeader i + 256 ≤ x) (c : Chip) : (c.readHeader i f).byte x = c.byte x :=
  Chip.byte_memWrite_of_outside (by rwa [hlen]) _

/-! ### The work area and the end without an image (R228, R232) -/

/-- Free bytes of the work area's length are written to it. -/
theorem Chip.workArea_eq (c : Chip) : ∃ bs : List Byte, bs.length = 0x2000 ∧ c.workArea = c.fresh.2.memWrite (lmBase 0 + 0xE000) bs :=
  ⟨(List.range 0x2000).map fun i => Config.undefByte c.freeCount (lmBase 0 + 0xE000 + i), by rw [List.length_map, List.length_range],
    by rw [Chip.workArea]; rfl⟩

@[simp] theorem Chip.workArea_regs (c : Chip) : c.workArea.regs = c.regs := by
  obtain ⟨bs, -, heq⟩ := c.workArea_eq
  rw [heq, Chip.memWrite_regs]
  rfl

@[simp] theorem Chip.workArea_cores (c : Chip) : c.workArea.cores = c.cores := by
  obtain ⟨bs, -, heq⟩ := c.workArea_eq
  rw [heq, Chip.memWrite_cores]
  rfl

@[simp] theorem Chip.workArea_out (c : Chip) : c.workArea.out = c.out := by
  obtain ⟨bs, -, heq⟩ := c.workArea_eq
  rw [heq, Chip.memWrite_out]
  rfl

theorem Chip.byte_workArea_of_outside {x : Nat} (h : ¬(lmBase 0 + 0xE000 ≤ x ∧ x < lmBase 0 + 0x10000)) (c : Chip) :
    c.workArea.byte x = c.byte x := by
  obtain ⟨bs, hlen, heq⟩ := c.workArea_eq
  rw [heq, Chip.byte_memWrite_of_outside (by omega)]
  rfl

@[simp] theorem Chip.noImage_cores (r : Nat) (c : Chip) : (c.noImage r).cores = c.cores := by
  rw [Chip.noImage, Chip.onRst_cores, Chip.workArea_cores, Chip.wf_cores]

@[simp] theorem Chip.noImage_out (r : Nat) (c : Chip) : (c.noImage r).out = c.out := by
  rw [Chip.noImage, Chip.onRst_out, Chip.workArea_out, Chip.wf_out]

theorem Chip.rd_noImage (r a : Nat) (c : Chip) : (c.noImage r).rd a = (c.wf R.SYS_BOOT_STAT 3 0 r).rd a :=
  Chip.rd_congr (by rw [Chip.noImage, Chip.onRst_regs, Chip.workArea_regs]) a

theorem Chip.rf_noImage_result {r : Nat} (hr : r < 16) (c : Chip) : (c.noImage r).rf R.SYS_BOOT_STAT 3 0 = r := by
  rw [Chip.rf_congr (Chip.rd_noImage _ _ _), Chip.rf_wf_same (by decide) hr]

theorem Chip.rf_noImage_status {hi lo : Nat} (hhi : hi < 32) (hlo : 3 < lo) (r : Nat) (c : Chip) :
    (c.noImage r).rf R.SYS_BOOT_STAT hi lo = c.rf R.SYS_BOOT_STAT hi lo := by
  rw [Chip.rf_congr (Chip.rd_noImage _ _ _), Chip.rf_wf_apart hhi (Or.inr hlo)]

theorem Chip.byte_noImage_of_outside {x : Nat} (h : ¬(lmBase 0 + 0xE000 ≤ x ∧ x < lmBase 0 + 0x10000)) (r : Nat) (c : Chip) :
    (c.noImage r).byte x = c.byte x := by
  rw [Chip.noImage, Chip.byte_congr (Chip.onRst_mem _ _), Chip.byte_workArea_of_outside h, Chip.byte_congr (Chip.wf_mem _ _ _ _ _)]

/-- Steps 5 and 6 of R228: the boot-flash balls driven, the flash reset, and both headers read. -/
def Chip.readHeaders (a b : FlashSlot) (c : Chip) : Chip :=
  ((((c.onSer fun k => { k with flashOn := true }).emit (.flashCode 0x66)).emit (.flashCode 0x99)).readHeader 0 a).readHeader 1 b

/-- What the ROM reports of two slots whose MAGIC is wrong. -/
def Chip.reportBadMagic (a b : FlashSlot) (c : Chip) : Chip :=
  let d := ((c.slotStatus 0 2).slotStatus 1 2).wr R.SYS_BOOT_SEQ_A (w32 (hdrSeq a.header))
  (d.wr R.SYS_BOOT_SEQ_B (w32 (hdrSeq b.header))).when (c.lcyState == 1) (Chip.sb R.SYS_BOOT_STAT 16)

/-- With two wrong MAGICs no slot is ranked, and the boot ends without an image. -/
theorem Chip.romSlots_of_badMagic {c : Chip} {a b : FlashSlot} (hlife : c.lcyState ≠ 6) (ha : a.headerErr = false) (hb : b.headerErr = false)
    (hmagica : hdrField a.header 0 4 ≠ 0x54424948) (hmagicb : hdrField b.header 0 4 ≠ 0x54424948) :
    c.romSlots a b = ((c.readHeaders a b).reportBadMagic a b).noImage 4 := by
  have hranked : (if hdrSeq a.header < hdrSeq b.header then ([] : List (Nat × FlashSlot)) ++ [] else [] ++ []) = [] := ite_self _
  simp only [Chip.romSlots, Chip.flashHeader_of_badMagic ha hmagica, Chip.flashHeader_of_badMagic hb hmagicb,
    show ¬(2 = 1) by decide, if_false, hranked, Chip.loadRanked]
  exact if_neg hlife

section
variable (a b : FlashSlot) (c : Chip)

theorem Chip.reportBadMagic_same {β : Type} {g : Chip → β} (hg : ∀ a v c, g (Chip.wr a v c) = g c) : g (c.reportBadMagic a b) = g c := by
  have hsb (c : Chip) : g (c.sb R.SYS_BOOT_STAT 16) = g c := hg _ _ c
  rw [Chip.reportBadMagic, Chip.when_same g _ _ _ (hsb _), hg, hg, Chip.slotStatus, Chip.wf, hg, Chip.slotStatus, Chip.wf, hg]

/-- The statuses and RESULT stand below the BLANK bit of SYS_BOOT_STAT (R242). -/
theorem Chip.rf_reportBadMagic {hi : Nat} (hhi : hi < 16) (lo : Nat) :
    (c.reportBadMagic a b).rf R.SYS_BOOT_STAT hi lo = ((c.slotStatus 0 2).slotStatus 1 2).rf R.SYS_BOOT_STAT hi lo := by
  rw [Chip.reportBadMagic, Chip.rf_when_sb_apart (by omega) (Or.inl hhi)]
  exact Chip.rf_congr ((Chip.rd_wr_ne _ _ _ _ (by decide)).trans (Chip.rd_wr_ne _ _ _ _ (by decide))) hi lo

theorem Chip.readHeaders_out : (c.readHeaders a b).out =
    c.out ++ [.flashCode 0x66, .flashCode 0x99, .flashRead 0 0x100, .flashRead 0x10000 0x100] := by
  simp only [Chip.readHeaders, Chip.readHeader, Chip.memWrite_out, Chip.emit_out, List.append_assoc]
  rfl

theorem Chip.readHeaders_cores : (c.readHeaders a b).cores = c.cores := by
  simp only [Chip.readHeaders, Chip.readHeader, Chip.memWrite_cores, Chip.emit_cores]
  rfl

theorem Chip.byte_readHeaders_of_outside {x : Nat} (ha : a.header.length = 256) (hb : b.header.length = 256)
    (h : ¬(lmBase 0 + 0xE000 ≤ x ∧ x < lmBase 0 + 0x10000)) : (c.readHeaders a b).byte x = c.byte x := by
  rw [Chip.readHeaders, Chip.byte_readHeader_of_outside hb (by simp only [workHeader]; omega),
    Chip.byte_readHeader_of_outside ha (by simp only [workHeader]; omega)]
  rfl

end

/-- Chip d is chip c after a boot that found no MAGIC in either slot (R228, R242). -/
def Chip.bootedNothing (c d : Chip) : Prop :=
  d.rf R.SYS_BOOT_STAT 3 0 = 4 ∧ d.rf R.SYS_BOOT_STAT 7 4 = 2 ∧ d.rf R.SYS_BOOT_STAT 11 8 = 2 ∧ d.cores = c.cores ∧
    (∀ x, ¬(lmBase 0 + 0xE000 ≤ x ∧ x < lmBase 0 + 0x10000) → d.byte x = c.byte x) ∧
    d.out = c.out ++ [.flashCode 0x66, .flashCode 0x99, .flashRead 0 0x100, .flashRead 0x10000 0x100]

theorem Chip.bootedNothing_of_badMagic {a b : FlashSlot} (ha : a.header.length = 256) (hb : b.header.length = 256) (c : Chip) :
    c.bootedNothing (((c.readHeaders a b).reportBadMagic a b).noImage 4) := by
  refine ⟨?result, ?statusA, ?statusB, ?cores, fun x hx => ?byte, ?out⟩
  case result => exact Chip.rf_noImage_result (by decide) _
  case statusA =>
    rw [Chip.rf_noImage_status (by decide) (by decide), Chip.rf_reportBadMagic _ _ _ (by decide), Chip.slotStatus,
      Chip.rf_wf_apart (by decide) (by decide), Chip.slotStatus, Chip.rf_wf_same (by decide) (by decide)]
  case statusB =>
    rw [Chip.rf_noImage_status (by decide) (by decide), Chip.rf_reportBadMagic _ _ _ (by decide), Chip.slotStatus,
      Chip.rf_wf_same (by decide) (by decide)]
  case cores => rw [Chip.noImage_cores, Chip.reportBadMagic_same a b _ Chip.wr_cores, Chip.readHeaders_cores]
  case byte =>
    rw [Chip.byte_noImage_of_outside hx, Chip.byte_congr (Chip.reportBadMagic_same a b _ Chip.wr_mem),
      Chip.byte_readHeaders_of_outside a b c ha hb hx]
  case out => rw [Chip.noImage_out, Chip.reportBadMagic_same a b _ Chip.wr_out, Chip.readHeaders_out]

/-! ### The handover (R232) -/

/-- What a register reads after a bank's reset rests on what it read before. -/
theorem Chip.rd_bankReset_congr {c d : Chip} {a : Nat} (h : d.rd a = c.rd a) (n : Core) : (d.bankReset n).rd a = (c.bankReset n).rd a := by
  have hwr {c d : Chip} (h : d.rd a = c.rd a) (k : Nat) (v : Word) : (d.wr k v).rd a = (c.wr k v).rd a := by
    rw [Chip.rd_wr, Chip.rd_wr, h]
  simp only [Chip.bankReset]
  refine forEach_congr (g := (Chip.rd · a)) _ ?prio _ (forEach_congr (g := (Chip.rd · a)) _ ?enAct _ (hwr (hwr (hwr h _ _) _ _) _ _))
  case prio => exact fun k _ _ h => hwr h _ _
  case enAct => exact fun k _ _ h => hwr (hwr h _ _) _ _

theorem Chip.rd_romScratch (n : Core) (c : Chip) (a : Nat) : (c.romScratch n).rd a = c.rd a := rfl

theorem Chip.rd_bankStart (n : Core) (c : Chip) (a : Nat) : (c.bankStart n).rd a = (c.bankReset n).rd a := by
  rw [Chip.bankStart, Chip.rd_onCore]

theorem Chip.byte_bankStart (n : Core) (c : Chip) (x : Nat) : (c.bankStart n).byte x = c.byte x := by
  rw [Chip.bankStart, Chip.byte_onCore, Chip.bankReset_same (g := (Chip.byte · x)) fun _ _ _ => rfl]

/-- Core 0, its bank and what Tirba keeps of the image that starts, SYS_BOOT_STAT being stat. -/
def Chip.startImage (slot : Nat) (h : List Byte) (stat : Word) (c : Chip) : Chip :=
  ((((c.romScratch 0).bankStart 0).onCore 0 fun k => { k with
    g := (((k.g.set 0 (w32 slot)).set 1 (w32 (hdrSeq h))).set 2 stat).set 3 0
    pc := 0x7FE0, asleep := false, parked := false }).onRst fun r => { r with rom := 0 }).onTirba fun t => { t with
      runHeader := h, bootSlot := slot, runSlot := slot, runSeq := w32 (hdrSeq h), runEntry := w32 (hdrEntry h), runLoad := hdrLoad h
      runLen := hdrLength h }

/-- The boot registers as a handover writes them. -/
def Chip.bootRegs (h : List Byte) (c : Chip) : Chip := (c.wr (R.YLX_ENTRY 0) (w32 (hdrEntry h))).wr R.SYS_BOOT_TIME c.timeLo

theorem Chip.handover_eq (slot : Nat) (h : List Byte) (c : Chip) :
    c.handover slot h = (c.bootRegs h).workArea.startImage slot h (c.rd R.SYS_BOOT_STAT) := by
  have hstat : (c.wr (R.YLX_ENTRY 0) (w32 (hdrEntry h))).rd R.SYS_BOOT_STAT = c.rd R.SYS_BOOT_STAT := Chip.rd_wr_ne _ _ _ _ (by decide)
  rw [Chip.handover, hstat]
  rfl

theorem Chip.rd_startImage (slot : Nat) (h : List Byte) (stat : Word) (c : Chip) (a : Nat) :
    (c.startImage slot h stat).rd a = (c.bankReset 0).rd a := by
  rw [Chip.startImage, Chip.rd_congr (Chip.onTirba_regs _ _), Chip.rd_congr (Chip.onRst_regs _ _), Chip.rd_onCore, Chip.rd_bankStart,
    Chip.rd_bankReset_congr (Chip.rd_romScratch _ _ _)]

/-- The registers after a handover: the boot registers are written, and core 0's bank is reset. -/
theorem Chip.rd_handover (slot : Nat) (h : List Byte) (c : Chip) (a : Nat) :
    (c.handover slot h).rd a = ((c.bootRegs h).bankReset 0).rd a := by
  rw [Chip.handover_eq, Chip.rd_startImage, Chip.rd_bankReset_congr (Chip.rd_congr (Chip.workArea_regs _) a)]

theorem Chip.rd_handover_of_lt {a : Nat} (ha : a < 0x50000000) (slot : Nat) (h : List Byte) (c : Chip) :
    (c.handover slot h).rd a = (c.bootRegs h).rd a := by
  rw [Chip.rd_handover, Chip.rd_bankReset_of_lt ha]

theorem Chip.sameRegsBut_handover (slot : Nat) (h : List Byte) (c : Chip) :
    (c.bankReset 0).sameRegsBut [R.YLX_ENTRY 0, R.SYS_BOOT_TIME] (c.handover slot h) := fun a ha => by
  rw [List.mem_pair, not_or] at ha
  rw [Chip.rd_handover]
  exact Chip.rd_bankReset_congr ((Chip.rd_wr_ne _ _ _ _ ha.2).trans (Chip.rd_wr_ne _ _ _ _ ha.1)) 0

/-- Core 0 after a handover: what the image is told in g0 to g3, at the handover code of the park window. -/
theorem Chip.core_handover (slot : Nat) (h : List Byte) (c : Chip) : ∃ k : CoreSt, (c.handover slot h).core 0 = { k with
    g := (((k.g.set 0 (w32 slot)).set 1 (w32 (hdrSeq h))).set 2 (c.rd R.SYS_BOOT_STAT)).set 3 0
    pc := 0x7FE0, asleep := false, parked := false } := by
  refine ⟨(((c.bootRegs h).workArea.romScratch 0).bankStart 0).core 0, ?_⟩
  rw [Chip.handover_eq, Chip.startImage, Chip.core_congr (Chip.onTirba_cores _ _), Chip.core_congr (Chip.onRst_cores _ _), Chip.core_onCore]

/-! ### ROM_LOCK (R233) -/

/-- Core 0's bank in its reset state, another core's as it is. -/
def Chip.bankResetOf0 (n : Core) (c : Chip) : Chip := if n = 0 then c.bankReset 0 else c

section
variable {c : Chip} {n : Core} (hruns : (c.sb R.SYS_BOOT_CTRL 0).runs n = true) (hpc : (c.core n).pc = 0x7FE0)
include hruns hpc

/-- A core in the handover code goes on at its YLX_ENTRY. -/
theorem Chip.romLock_of_handoverCode : c.romLock n =
    (((c.sb R.SYS_BOOT_CTRL 0).romScratch n).when (n == 0) (Chip.bankStart 0)).onCore n fun k =>
      { k with pc := c.rd (R.YLX_ENTRY n) } := by
  have hn := n.isLt
  have hentry : (c.sb R.SYS_BOOT_CTRL 0).rd (R.YLX_ENTRY n) = c.rd (R.YLX_ENTRY n) :=
    Chip.rd_sb_ne _ _ _ _ (by simp only [R.YLX_ENTRY, R.SYS_BOOT_CTRL]; omega)
  rw [← hentry]
  exact if_pos ⟨hruns, hpc⟩

theorem Chip.rd_romLock_of_handoverCode (a : Nat) : (c.romLock n).rd a = ((c.sb R.SYS_BOOT_CTRL 0).bankResetOf0 n).rd a := by
  rw [Chip.romLock_of_handoverCode hruns hpc, Chip.rd_onCore, Chip.when, Chip.bankResetOf0]
  by_cases h : n = 0
  · rw [if_pos (beq_iff_eq.mpr h), if_pos h, Chip.rd_bankStart, Chip.rd_bankReset_congr (Chip.rd_romScratch _ _ _)]
  · rw [if_neg (by simpa using h), if_neg h, Chip.rd_romScratch]

theorem Chip.sameMem_romLock_of_handoverCode : c.sameMem (c.romLock n) := fun x => by
  rw [Chip.romLock_of_handoverCode hruns hpc, Chip.byte_onCore, Chip.when_same (Chip.byte · x) _ _ _ (Chip.byte_bankStart _ _ _)]
  rfl

end

theorem Chip.rd_bankResetOf0_of_lt {a : Nat} (h : a < 0x50000000) (n : Core) (c : Chip) : (c.bankResetOf0 n).rd a = c.rd a := by
  rw [Chip.bankResetOf0]
  split
  · exact Chip.rd_bankReset_of_lt h 0 c
  · rfl

theorem Chip.rd_bankResetOf0_congr {c d : Chip} {a : Nat} (h : d.rd a = c.rd a) (n : Core) : (d.bankResetOf0 n).rd a = (c.bankResetOf0 n).rd a := by
  rw [Chip.bankResetOf0, Chip.bankResetOf0]
  split
  · exact Chip.rd_bankReset_congr h 0
  · exact h

/-! ### Host recovery and the VIO_C timeout (R234, R733) -/

theorem Chip.when_beq (x y : Nat) (f : Chip → Chip) (c : Chip) : c.when (x == y) f = if x = y then f c else c := by
  simp only [Chip.when, beq_iff_eq]

/-- RETIRED runs no image (R227). -/
theorem Chip.recover_of_retired {c : Chip} (h : c.lcyState = 6) (he be : Bool) : c.recover he be = c := if_pos (by simp [h])

theorem Chip.vioCTimeout_of_bad {c : Chip} (hrom : c.rst.rom = 2) (hbad : c.vioC = false) :
    c.vioCTimeout = (c.wf R.SYS_BOOT_STAT 3 0 (if c.lcyState = 6 then 5 else 4)).onRst fun r => { r with rom := 0 } :=
  if_pos ⟨hrom, by simp [hbad]⟩

/-- Settles O20: the ROM at its start and at its wait, the two wrong MAGICs, the handover, ROM_LOCK, a recovery check, and the timeout. -/
theorem bootRomAndHandover : Obligations.BootRomAndHandover := by
  unfold Obligations.BootRomAndHandover
  refine ⟨?boot, ?handover, ?lock, ?goesOn, ?recovery, ?timeout⟩
  case boot =>
    intro bad a b s hup hlock
    simp only [exec_romBoot]
    refine ⟨fun hrom => ?_, fun hrom hvio => ?_⟩
    · rw [Chip.romBoot_start hup hlock hrom]
    · rw [Chip.romBoot_slots hup hlock hrom hvio]
      refine ⟨rfl, fun hlife ha hb hlena hlenb hmagica hmagicb => ⟨_, rfl, ?_⟩⟩
      rw [Chip.romSlots_of_badMagic hlife ha hb hmagica hmagicb]
      exact Chip.bootedNothing_of_badMagic hlena hlenb s.chip
  case handover =>
    intro slot h c t
    obtain ⟨k, hcore⟩ := Chip.core_handover slot h c
    have htime : t.rd R.SYS_BOOT_TIME = c.timeLo := by rw [Chip.rd_handover_of_lt (by decide), Chip.bootRegs, Chip.rd_wr_same]
    have hentry : t.rd (R.YLX_ENTRY 0) = w32 (hdrEntry h) := by
      rw [Chip.rd_handover_of_lt (by decide), Chip.bootRegs, Chip.rd_wr_ne _ _ _ _ (by decide), Chip.rd_wr_same]
    refine ⟨hentry, htime, ?_, ?_, ?_, ?_, ?_, ?_, Chip.sameRegsBut_handover slot h c⟩
    all_goals simp [t, hcore]
  case lock =>
    intro n s hpc
    rw [exec_romLock, Chip.romLock_other hpc]
  case goesOn =>
    intro n s hruns hpc
    refine ⟨s.chip.romLock n, exec_romLock n s, ?locked, ?pc, fun a ha => ?regs, Chip.sameMem_romLock_of_handoverCode hruns hpc⟩
    case locked =>
      rw [Chip.romLocked, Chip.rb, Chip.rd_romLock_of_handoverCode hruns hpc, Chip.rd_bankResetOf0_of_lt (by decide), Chip.rd_sb_same,
        tb_setBit (by decide), if_pos rfl]
    case pc => rw [Chip.romLock_of_handoverCode hruns hpc, Chip.core_onCore]
    case regs =>
      rw [Chip.rd_romLock_of_handoverCode hruns hpc]
      exact Chip.rd_bankResetOf0_congr (Chip.rd_sb_ne _ _ _ _ (by simpa using ha)) n
  case recovery =>
    intro he be s hup hlock hres read head sh c rest body sb
    refine ⟨fun hlife => ?_, fun hlife => ?_⟩
    · have hchecks : ¬(s.chip.romLocked || !s.chip.coresUp || !(s.chip.rf R.SYS_BOOT_STAT 3 0 == 4 || s.chip.rf R.SYS_BOOT_STAT 3 0 == 7) ||
          s.chip.lcyState == 6) = true := by simp [hup, hlock, hres, hlife]
      rw [exec_hostRecovery, Chip.recover, if_neg hchecks]
      simp only [Chip.when_beq]
      rfl
    · rw [exec_hostRecovery, Chip.recover_of_retired hlife, State.withChip_chip]
  case timeout =>
    intro s hrom hbad
    rw [exec_vioCTimeout, Chip.vioCTimeout_of_bad hrom hbad]
    rfl

end Sys2Proof.Machine
end

section
/-! Firmware and the life cycle (11, 25: R236 to R238, R341, R342, R345, R709 to R714): the staging of an image and the writing of its
slot, a live activation, and the fuse sequencer. -/

namespace Sys2Proof.Machine

/-! ### The commands -/

theorem exec_fwStage (n : Ring) (fail : Bool) (s : State) : exec (.fwStage n fail) s = .next (s.withChip (s.chip.fwStage n fail)) := rfl

theorem exec_fwActivate (n : Ring) (f : FlashSlot) (e : Bool) (s : State) :
    exec (.fwActivate n f e) s = .next (s.withChip (s.chip.fwActivate n f e)) := rfl

theorem exec_lcyAdvance (n : Ring) (bad : Bool) (s : State) :
    exec (.lcyAdvance n bad) s = .next (s.withChip (s.chip.lcyAdvance n bad)) := rfl

theorem exec_lcyOpGo (v : Word) (bad : Bool) (s : State) :
    exec (.lcyOpGo v bad) s = .next (s.withChip (s.chip.lcyGo (setBit v 31 true) bad)) := rfl

theorem exec_lcyOperationEnd (bad : List (Nat × Nat)) (s : State) :
    exec (.lcyOperationEnd bad) s = .next (s.withChip (s.chip.lcyEnd bad)) := rfl

/-! ### A command's checks and its payload (R281, R306) -/

theorem firstOf_nil : firstOf [] = none := rfl

theorem firstOf_cons_of_pass {b : Bool} (h : b = false) (e : Nat × Nat) (l : List (Bool × Nat × Nat)) : firstOf ((b, e) :: l) = firstOf l := by
  simp only [firstOf, List.find?_cons, h]

theorem firstOf_cons_of_fail {b : Bool} (h : b = true) (e : Nat × Nat) (l : List (Bool × Nat × Nat)) : firstOf ((b, e) :: l) = some e := by
  simp only [firstOf, List.find?_cons, h, Option.map_some]

section
variable {c : Chip} {n : Ring} {op : Nat} {q : Cmd} (hfront : c.front n op (fun _ => true) = some q)
include hfront

/-- A payload in host memory that is all there is worked on. -/
theorem Chip.payloadThen_of_received (hstage : q.stage ≠ 0) (hread : q.readFailed = false) (hlen : q.len ≤ q.payload.length)
    (check : Cmd → Chip → Option (Nat × Nat)) (f : Cmd → List Byte → Chip → Chip) :
    c.payloadThen n op check f = f q (q.payload.take q.len) c := by
  simp only [Chip.payloadThen, hfront, hstage, hread, hlen, if_false, if_true, Bool.false_eq_true]

/-- A payload in Vellum without an uncorrectable word is worked on once the command's checks pass. -/
theorem Chip.payloadThen_of_vellum {bs : List Byte} {d : Chip} (hstage : q.stage = 0) (hhost : q.host = false) (hlen : q.len ≠ 0)
    {check : Cmd → Chip → Option (Nat × Nat)} (hcheck : check q c = none) (hread : c.vRead .core 0 q.addr q.len = (bs, false, d))
    (f : Cmd → List Byte → Chip → Chip) : c.payloadThen n op check f = f q bs d := by
  simp only [Chip.payloadThen, hfront, hstage, hcheck, hhost, hlen, hread, if_false, if_true, Bool.false_and, Bool.false_eq_true]

end

/-! ### FW_STAGE (R236, R237, R341) -/

/-- What FW_STAGE checks when it starts (R341). -/
def Chip.stageChecks (q : Cmd) (c : Chip) : Option (Nat × Nat) :=
  firstOf [(decide (65536 < q.len), 4, 0x13), (decide (1 < q.le 20 1), 4, 0x11),
    (q.le 20 1 == c.tirba.bootSlot || q.le 20 1 == c.tirba.runSlot, 5, 0x15), (c.runsNow 0x101, 5, 0x12), (c.runsNow 0x100, 1, 0x10)]

theorem Chip.fwStage_of_reading {c : Chip} {n : Ring} (h : c.front n 0x100 (fun q => decide (2 ≤ q.stage)) = none) (fail : Bool) :
    c.fwStage n fail = c.payloadThen n 0x100 Chip.stageChecks (Chip.fwImage n) := by
  simp only [Chip.fwStage, h]
  rfl

theorem Chip.fwStage_of_writing {c : Chip} {n : Ring} {q : Cmd} (h : c.front n 0x100 (fun q => decide (2 ≤ q.stage)) = some q) (fail : Bool) :
    c.fwStage n fail = c.fwWrite n fail q := by
  simp only [Chip.fwStage, h]

theorem Chip.stageChecks_eq_none {c : Chip} {q : Cmd} (hlen : q.len ≤ 65536) (hslot : q.le 20 1 ≤ 1) (hboot : q.le 20 1 ≠ c.tirba.bootSlot)
    (hrun : q.le 20 1 ≠ c.tirba.runSlot) (hact : c.runsNow 0x101 = false) (hstage : c.runsNow 0x100 = false) : c.stageChecks q = none := by
  simp only [Chip.stageChecks, firstOf_cons_of_pass, firstOf_nil, hact, hstage, decide_eq_false (Nat.not_lt.mpr hlen),
    decide_eq_false (Nat.not_lt.mpr hslot), beq_eq_false_iff_ne.mpr hboot, beq_eq_false_iff_ne.mpr hrun, Bool.or_self]

/-- The status of an image: its header's, and where that is valid its body's (R225). -/
def Chip.imageCheck (bs : List Byte) (c : Chip) : Nat :=
  if c.headerStatus (bs.take 256) = 1 ∧ ¬bodyOk (bs.take 256) (bs.drop 256) then 8 else c.headerStatus (bs.take 256)

theorem Chip.imageCheck_eq (bs : List Byte) (c : Chip) : c.imageCheck bs =
    if c.headerStatus (bs.take 256) = 1 ∧ bodyOk (bs.take 256) (bs.drop 256) = false then 8 else c.headerStatus (bs.take 256) :=
  if_congr (by rw [Bool.not_eq_true]) rfl rfl

section
variable {n : Ring} {q : Cmd} {bs : List Byte} {c : Chip}

theorem Chip.fwImage_of_badLength (h : bs.length ≠ 256 + hdrLength (bs.take 256)) : c.fwImage n q bs = c.endCmd n 4 0x11 [] := if_pos h

variable (hlen : bs.length = 256 + hdrLength (bs.take 256))
include hlen

theorem Chip.fwImage_of_failed (hst : c.imageCheck bs ≠ 1) : c.fwImage n q bs =
    c.endCmd n (imageStatus (c.imageCheck bs)).1 (imageStatus (c.imageCheck bs)).2
      (res [(8, 4, hdrSeq (bs.take 256)), (12, 1, c.imageCheck bs)]) :=
  (if_neg (not_not.mpr hlen)).trans (if_pos hst)

/-- A valid image has its slot's erase begun. -/
theorem Chip.fwImage_of_valid (hst : c.imageCheck bs = 1) : c.fwImage n q bs =
    ((((c.emit (.flashCode 0x66)).emit (.flashCode 0x99)).emit (.flashCode 0x06)).emit
      (.flashErase (slotAddr (q.le 20 1)))).onFront n fun _ => { q with stage := 2, payload := bs } :=
  (if_neg (not_not.mpr hlen)).trans (if_neg (not_not.mpr hst))

end

/-! The acts of the writing of a slot, by the stage that the command has reached (R237) -/

section
variable {n : Ring} {q : Cmd} {c : Chip}

theorem Chip.fwWrite_of_error : c.fwWrite n true q = c.endCmd n 8 0x11 [] := by
  simp only [Chip.fwWrite, if_true]

theorem Chip.fwWrite_of_erased (h : q.stage = 2) :
    c.fwWrite n false q = (c.emit (.flashProgram (slotAddr (q.le 20 1) + 4) (q.payload.drop 4))).toStage n 3 [] := by
  simp only [Chip.fwWrite, h, Bool.false_eq_true, if_false]

theorem Chip.fwWrite_of_written (h : q.stage = 3) :
    c.fwWrite n false q = (c.emit (.flashProgram (slotAddr (q.le 20 1)) (q.payload.take 4))).toStage n 4 [] := by
  simp only [Chip.fwWrite, h, Bool.false_eq_true, if_false]

theorem Chip.fwWrite_of_marked (h : q.stage = 4) :
    c.fwWrite n false q = (c.emit (.flashRead (slotAddr (q.le 20 1)) 0x10000)).toStage n 5 [] := by
  simp only [Chip.fwWrite, h, Bool.false_eq_true, if_false]

theorem Chip.fwWrite_of_readBack (h : q.stage = 5) :
    c.fwWrite n false q = c.endCmd n 0 0 (res [(8, 4, hdrSeq q.payload), (12, 1, 1)]) := by
  simp only [Chip.fwWrite, h, Bool.false_eq_true, if_false]

end

/-! ### FW_ACTIVATE (R238, R342) -/

section
variable {c : Chip} {n : Ring} {q : Cmd} (hfront : c.front n 0x101 anyOf = some q)
include hfront

theorem Chip.fwActivate_of_running (hstage : q.stage = 0) (hslot : q.le 8 1 ≤ 1) (hrun : q.le 8 1 = c.tirba.runSlot) (f : FlashSlot)
    (e : Bool) : c.fwActivate n f e = c.endCmd n 5 0x15 [] := by
  simp only [Chip.fwActivate, hfront, hstage, if_true, firstOf_cons_of_pass (decide_eq_false (Nat.not_lt.mpr hslot)),
    firstOf_cons_of_fail (beq_iff_eq.mpr hrun)]

section
variable (hstage : q.stage = 0) (hslot : q.le 8 1 ≤ 1) (hrun : q.le 8 1 ≠ c.tirba.runSlot) (hadopt : c.tirba.adopt = none)
  (hfw : (c.runsNow 0x100 || c.runsNow 0x101) = false) {f : FlashSlot} {st : Nat} {d : Chip} (hheader : c.flashHeader (q.le 8 1) f = (st, d))
include hstage hslot hrun hadopt hfw hheader

/-- A slot that may be activated: its header is read, and where it is valid the body too, for the buffers. -/
theorem Chip.fwActivate_of_free (e : Bool) : c.fwActivate n f e =
    if st ≠ 1 then d.endCmd n (imageStatus st).1 (imageStatus st).2 (res [(8, 4, d.tirba.runSeq.toNat), (12, 1, d.tirba.runSlot)])
    else (d.emit (.flashRead (slotAddr (q.le 8 1) + 0x100) 0xFF00)).fwBuffers n f := by
  have hadopted : c.tirba.adopt.isSome = false := by rw [hadopt]; rfl
  simp only [Chip.fwActivate, hfront, hstage, if_true, firstOf_cons_of_pass (decide_eq_false (Nat.not_lt.mpr hslot)),
    firstOf_cons_of_pass (beq_eq_false_iff_ne.mpr hrun), firstOf_cons_of_pass hadopted, firstOf_cons_of_pass hfw, firstOf_nil, hheader]

end

/-- An activation that has stopped the fetch loop goes on once it is alone in flight. -/
theorem Chip.fwActivate_of_started (hstage : q.stage ≠ 0) (f : FlashSlot) (e : Bool) :
    c.fwActivate n f e = if c.inFlight = 1 then c.fwSwitch n q e else c := by
  simp only [Chip.fwActivate, hfront, hstage, if_false]

end

/-! ### The sequencer (R345, R709 to R714) -/

theorem Chip.lcyAdvance_of_ended {c : Chip} {n : Ring} {q : Cmd} (hfront : c.front n 0x111 (fun q => q.stage == 2) = some q)
    (hidle : c.lcyBusy = false) (bad : Bool) : c.lcyAdvance n bad = c.lcyDone n := by
  simp only [Chip.lcyAdvance, hfront, hidle, Bool.false_eq_true, if_false]

/-- A GO while the sequencer runs is ignored (R714). -/
theorem Chip.lcyGo_of_busy {c : Chip} (h : c.lcyBusy = true) (v : Word) (bad : Bool) : c.lcyGo v bad = c := if_pos h

/-- The record that LCY_OP names (R709). -/
def Chip.opRecord (c : Chip) : List Byte := c.vbytes (c.rf R.LCY_OP 25 6 * 64) 192

section
variable {c d : Chip} {v : Word} (hidle : c.lcyBusy = false) (hd : c.store R.LCY_OP v = d)
include hidle hd

theorem Chip.lcyGo_of_failed (hcheck : d.recordCheck d.opRecord ≠ 0) (bad : Bool) :
    c.lcyGo v bad = d.wf R.LCY_OP_STAT 3 0 (d.recordCheck d.opRecord) := by
  subst hd
  exact (if_neg (by simp [hidle])).trans (if_pos hcheck)

variable (hcheck : d.recordCheck d.opRecord = 0)
include hcheck

/-- The intent record is written, and the operation starts (R711). -/
theorem Chip.lcyGo_of_passed : c.lcyGo v false =
    (d.setLcJournal (d.intent d.opRecord (d.opOf d.opRecord))).onLcy fun l => { l with op := some (d.opOf d.opRecord) } := by
  subst hd
  exact (if_neg (by simp [hidle])).trans (if_neg (not_not.mpr hcheck))

/-- A journal that does not read back stops the operation before its first fuse (R711). -/
theorem Chip.lcyGo_of_badJournal : c.lcyGo v true =
    (d.fresh.2.setLcJournal ((List.range 64).map (Config.badJournal d.fresh.1))).wf R.LCY_OP_STAT 3 0 7 := by
  subst hd
  exact (if_neg (by simp [hidle])).trans (if_neg (not_not.mpr hcheck))

end

/-- The fuses of an operation blown, and whether all came out set (R711, R712). -/
def Chip.blowOp (bad : List Fuse) (o : LcyOp) (c : Chip) : Bool × Chip :=
  let hs := c.hashFuses o
  let d := forEach (hs.takeWhile fun f => !bad.contains f) Chip.blowFuse c
  if hs.any bad.contains then (false, d) else d.blowGroups bad o.groups

/-- The RESULT of an operation that has ended, and the journal cleared where it succeeded (R711, R712). -/
def Chip.opResult (ok : Bool) (c : Chip) : Chip :=
  if ok then ((c.setLcJournal []).wf R.LCY_OP_STAT 3 0 0).sb R.LCY_OP_STAT 8 else (c.wf R.LCY_OP_STAT 3 0 8).sb R.LCY_STICKY 3

theorem Chip.lcyEnd_of_op {c : Chip} {o : LcyOp} (h : c.lcy.op = some o) (bad : List Fuse) : c.lcyEnd bad =
    let d := ((c.blowOp bad o).2.onLcy fun l => { l with op := none }).opResult (c.blowOp bad o).1
    if d.access = 3 then d.grantEnd else d := by
  simp only [Chip.lcyEnd, h]
  rfl

/-- Settles O32: the staging by its payload and its image, the writing by its act, the activation by its slot, and the sequencer by the
record's check and by what its fuses come to. -/
theorem tirbaFirmwareAndLifeCycle : Obligations.TirbaFirmwareAndLifeCycle := by
  unfold Obligations.TirbaFirmwareAndLifeCycle
  intro n q s ends
  refine ⟨?stage, ?write, ?activate, ?switch, ?advance, ?goBusy, ?go, ?opEnd⟩
  case stage =>
    intro fail bs c hreading hfront hpayload h st
    have himage : s.chip.fwStage n fail = c.fwImage n q bs := by
      rw [Chip.fwStage_of_reading hreading]
      obtain ⟨hstage, hread, hlen, rfl, rfl⟩ | ⟨hstage, hhost, hpos, hlen, hslot, hboot, hrun, hact, hstages, hread⟩ := hpayload
      · exact Chip.payloadThen_of_received hfront hstage hread hlen _ _
      · exact Chip.payloadThen_of_vellum hfront hstage hhost hpos.ne' (Chip.stageChecks_eq_none hlen hslot hboot hrun hact hstages) hread _
    have hcheck : c.imageCheck bs = st := c.imageCheck_eq bs
    rw [exec_fwStage, himage]
    refine ⟨fun hlen => ?badLength, fun hlen hst => ?failed, fun hlen hst => ?valid⟩
    case badLength => rw [Chip.fwImage_of_badLength hlen]
    case failed => rw [Chip.fwImage_of_failed hlen (hcheck ▸ hst), hcheck]
    case valid => rw [Chip.fwImage_of_valid hlen (hcheck.trans hst)]; rfl
  case write =>
    intro hfront a acts
    simp only [exec_fwStage, Chip.fwStage_of_writing hfront]
    refine ⟨by rw [Chip.fwWrite_of_error], fun h => ?erased, fun h => ?written, fun h => ?marked, fun h => ?readBack⟩
    case erased => rw [Chip.fwWrite_of_erased h]; rfl
    case written => rw [Chip.fwWrite_of_written h]; rfl
    case marked => rw [Chip.fwWrite_of_marked h]; rfl
    case readBack => rw [Chip.fwWrite_of_readBack h]
  case activate =>
    intro hfront hstage f e
    rw [exec_fwActivate]
    refine ⟨fun hslot hrun => ?_, fun hslot hrun hadopt hfw => ?_⟩
    · rw [Chip.fwActivate_of_running hfront hstage hslot hrun]
    · intro st c
      have hheader : s.chip.flashHeader (q.le 8 1) f = (st, c) := rfl
      rw [Chip.fwActivate_of_free hfront hstage hslot hrun hadopt hfw hheader]
      exact ⟨fun hst => by rw [if_pos hst], fun hst => by rw [if_neg (not_not.mpr hst)]; rfl⟩
  case switch =>
    intro hfront hstage f e
    rw [exec_fwActivate, Chip.fwActivate_of_started hfront hstage]
    exact ⟨fun h => by rw [if_neg h, State.withChip_chip], fun h => by rw [if_pos h]⟩
  case advance =>
    intro hfront hidle bad st
    rw [exec_lcyAdvance, Chip.lcyAdvance_of_ended hfront hidle]
    rfl
  case goBusy =>
    intro v bad hbusy
    rw [exec_lcyOpGo, Chip.lcyGo_of_busy hbusy, State.withChip_chip]
  case go =>
    intro v bad hidle c r
    simp only [exec_lcyOpGo]
    refine ⟨fun hcheck => ?failed, fun hcheck => ?passed, fun hcheck => ?badJournal⟩
    case failed => rw [Chip.lcyGo_of_failed hidle rfl hcheck]; rfl
    case passed => rw [Chip.lcyGo_of_passed hidle rfl hcheck]; rfl
    case badJournal => rw [Chip.lcyGo_of_badJournal hidle rfl hcheck]
  case opEnd =>
    intro bad o ok d hop hblown c c'
    have hblow : s.chip.blowOp bad o = (ok, d) := hblown
    rw [exec_lcyOperationEnd, Chip.lcyEnd_of_op hop, hblow]
    rfl

end Sys2Proof.Machine
end

section
/-! Commands that do their work at once (10, R287, R288): what such a command, and one with checks of its own, comes to where it may
start. -/

namespace Sys2Proof.Machine

/-- A command that does its work at once ends as its work comes out. -/
theorem Chip.once_of_front {c d : Chip} {n : Ring} {op : Nat} {sel : Cmd → Bool} {q : Cmd} (hfront : c.front n op sel = some q)
    {f : Cmd → Chip → Ans} {status detail : Nat} {r : List Byte} (h : f q c = ((status, detail, r), d)) :
    c.once n op sel f = d.endCmd n status detail r := by
  simp only [Chip.once, hfront, h, Chip.finish]

theorem Chip.checked_of_pass {l : List (Bool × Nat × Nat)} (h : firstOf l = none) (c : Chip) (f : Chip → Ans) :
    Chip.checked l c f = f c := by
  simp only [Chip.checked, h]

theorem Chip.checked_of_fail {l : List (Bool × Nat × Nat)} {status detail : Nat} (h : firstOf l = some (status, detail)) (c : Chip)
    (f : Chip → Ans) : Chip.checked l c f = c.no status detail := by
  simp only [Chip.checked, h]

end Sys2Proof.Machine
end

section
/-! Sessions and queries of the protocol (10, R282, R292 to R294, R300, R310 to R313): what SESSION_OPEN comes to by the rings that it
claims, the versions and the sessions that are free, RING_STATUS by the ring that it names, and PARAM_QUERY by its page. -/

namespace Sys2Proof.Machine

/-! ### The commands -/

theorem exec_nopCommand (n : Ring) (s : State) :
    exec (.nopCommand n) s = .next (s.withChip (s.chip.once n 0x000 anyOf fun _ c => c.ok [])) := rfl

theorem exec_sessionOpen (n : Ring) (s : State) :
    exec (.sessionOpen n) s = .next (s.withChip (s.chip.once n 0x001 anyOf (Chip.sessionOpen n))) := rfl

theorem exec_sessionClose (n : Ring) (s : State) :
    exec (.sessionClose n) s = .next (s.withChip (s.chip.once n 0x002 anyOf fun _ => Chip.sessionClose n)) := rfl

theorem exec_ringStatus (n : Ring) (s : State) :
    exec (.ringStatus n) s = .next (s.withChip (s.chip.once n 0x003 anyOf (Chip.ringStatus n))) := rfl

theorem exec_paramQuery (n : Ring) (s : State) :
    exec (.paramQuery n) s = .next (s.withChip (s.chip.once n 0x010 anyOf Chip.paramQuery)) := rfl

/-! ### SESSION_OPEN (R292, R293, R310) -/

/-- The rings that a SESSION_OPEN on ring n claims: its own and those of its mask. -/
def Cmd.claims (q : Cmd) (n : Ring) : List Nat := (List.range 64).filter fun m => m == n.val || q.le 16 8 / 2 ^ m % 2 == 1

/-- The version of a session: the highest that both sides support (R293). -/
def Cmd.version (q : Cmd) (c : Chip) : Nat := min (q.le 10 2) c.cmdset

/-- The fields of the answer that name the versions supported. -/
def Chip.versionFields (c : Chip) : List (Nat × Nat × Nat) := [(12, 2, cmdsetMin), (14, 2, c.cmdset)]

/-- The lowest session that is free. -/
def Chip.freeSession (c : Chip) : Option (Fin 8) := (List.finRange 8).find? fun i => (c.tirba.sessions[i]).isNone

/-- Session i opened on ring n for the rings that q claims; the commands fetched on them join it (R294). -/
def Chip.openSession (n : Ring) (q : Cmd) (i : Fin 8) (c : Chip) : Chip :=
  (c.onTirba fun t => { t with
    sessions := t.sessions.set i.val (some { version := q.version c, rings := q.claims n, closing := false, aborted := 0 })
      i.isLt }).sessionJoin n i (q.claims n)

theorem Chip.freeSession_eq_some {c : Chip} {i : Fin 8} (hfree : c.tirba.sessions[i] = none)
    (hlow : ∀ j : Fin 8, j < i → c.tirba.sessions[j] ≠ none) : c.freeSession = some i := by
  rw [Chip.freeSession, ← Fin.find?_eq_find?_finRange, Fin.find?_eq_some_iff]
  exact ⟨Option.isNone_iff_eq_none.mpr hfree, fun j hj => Option.isNone_eq_false_iff.mpr (Option.isSome_iff_ne_none.mpr (hlow j hj))⟩

theorem Chip.freeSession_eq_none {c : Chip} (hfull : ∀ i : Fin 8, c.tirba.sessions[i] ≠ none) : c.freeSession = none := by
  rw [Chip.freeSession, ← Fin.find?_eq_find?_finRange, Fin.find?_eq_none_iff]
  exact fun i => Option.isNone_eq_false_iff.mpr (Option.isSome_iff_ne_none.mpr (hfull i))

section
variable {n : Ring} {q : Cmd} {c : Chip}

theorem Chip.sessionOpen_of_claimed (h : ∃ m ∈ q.claims n, (c.sessionOf m).isSome = true) : c.sessionOpen n q = c.no 5 2 :=
  if_pos (List.any_eq_true.mpr h)

variable (hunclaimed : ∀ m ∈ q.claims n, c.sessionOf m = none)
include hunclaimed

/-- A SESSION_OPEN whose rings are all free comes to its versions, and then to the sessions. -/
theorem Chip.sessionOpen_of_unclaimed : c.sessionOpen n q =
    if q.version c < max (q.le 8 2) cmdsetMin then ((5, 3, res c.versionFields), c)
    else match c.freeSession with
      | none => c.no 5 4
      | some i => (c.openSession n q i).ok (res ([(8, 1, i.val), (10, 2, q.version c)] ++ c.versionFields)) := by
  have hclaims : ¬((q.claims n).any fun m => (c.sessionOf m).isSome) = true := by
    rw [List.any_eq_true]
    rintro ⟨m, hm, hsome⟩
    simp [hunclaimed m hm] at hsome
  exact if_neg hclaims

theorem Chip.sessionOpen_of_noVersion (h : q.version c < max (q.le 8 2) cmdsetMin) :
    c.sessionOpen n q = ((5, 3, res c.versionFields), c) := by
  rw [Chip.sessionOpen_of_unclaimed hunclaimed, if_pos h]

variable (hversion : max (q.le 8 2) cmdsetMin ≤ q.version c)
include hversion

theorem Chip.sessionOpen_of_free {i : Fin 8} (hfree : c.freeSession = some i) : c.sessionOpen n q =
    (c.openSession n q i).ok (res ([(8, 1, i.val), (10, 2, q.version c)] ++ c.versionFields)) := by
  rw [Chip.sessionOpen_of_unclaimed hunclaimed, if_neg (Nat.not_lt.mpr hversion), hfree]

theorem Chip.sessionOpen_of_full (hfull : c.freeSession = none) : c.sessionOpen n q = c.no 5 4 := by
  rw [Chip.sessionOpen_of_unclaimed hunclaimed, if_neg (Nat.not_lt.mpr hversion), hfull]

end

/-! ### SESSION_CLOSE (R294, R311) -/

theorem Chip.sessionClose_of_open {c : Chip} {n : Ring} {i : Fin 8} {k : Session} (hring : c.sessionOf n = some i)
    (hopen : c.tirba.sessions[i] = some k) : c.sessionClose n =
    (c.onTirba fun t => { t with sessions := t.sessions.set i.val none i.isLt }).ok (res [(8, 1, k.rings.length), (12, 4, k.aborted)]) := by
  simp only [Chip.sessionClose, hring, hopen]

/-! ### RING_STATUS (R300, R312) -/

/-- A RING_STATUS on ring n may ask for ring m: itself, or a ring of its own session. -/
def Chip.mayAsk (c : Chip) (n m : Ring) : Prop := m = n ∨ (c.sessionOf n ≠ none ∧ c.sessionOf m = c.sessionOf n)

/-- What RING_STATUS answers of ring m, with its records from the given one on. -/
def Chip.ringRecords (c : Chip) (m : Ring) (first : Nat) : List Byte :=
  let l := (((c.ring m).history).drop first).take 8
  res ([(8, 1, m.val), (9, 1, (c.ring m).history.length),
    (10, 1, b2n (c.ringOn m) + b2n (c.ringBit R.MBX_FRAYED m) * 2 + b2n (c.ringBit R.MBX_RESET m) * 4),
    (12, 2, c.sqHead m), (14, 2, c.sqTail m), (56, 1, ofBits (l.map EndRecord.discarded))] ++
    ((List.range l.length).map fun i => (16 + 4 * i, 4, ((l.map EndRecord.tag).getD i 0).toNat)) ++
    ((List.range l.length).map fun i => (48 + i, 1, (l.map EndRecord.status).getD i 0)))

section
variable {n : Ring} {q : Cmd} {c : Chip}

theorem Chip.ringStatus_of_noRing (h : 64 ≤ q.le 8 1) : c.ringStatus n q = c.no 5 2 := dif_neg (Nat.not_lt.mpr h)

/-- A RING_STATUS that names a ring comes to FIRST, and then to the ring's session. -/
theorem Chip.ringStatus_of_ring {m : Ring} (hm : m.val = q.le 8 1) : c.ringStatus n q =
    if q.le 9 1 ≠ 0 ∧ q.le 9 1 ≠ 8 then c.no 4 0x11
    else if m ≠ n ∧ (c.sessionOf n = none ∨ c.sessionOf m ≠ c.sessionOf n) then c.no 5 2
    else c.ok (c.ringRecords m (q.le 9 1)) := by
  obtain ⟨r, hr⟩ := m
  subst hm
  exact dif_pos hr

variable {m : Ring} (hm : m.val = q.le 8 1)
include hm

theorem Chip.ringStatus_of_badFirst (h0 : q.le 9 1 ≠ 0) (h8 : q.le 9 1 ≠ 8) : c.ringStatus n q = c.no 4 0x11 := by
  rw [Chip.ringStatus_of_ring hm, if_pos ⟨h0, h8⟩]

variable (hfirst : q.le 9 1 = 0 ∨ q.le 9 1 = 8)
include hfirst

theorem Chip.ringStatus_of_foreign (h : ¬c.mayAsk n m) : c.ringStatus n q = c.no 5 2 := by
  have hforeign : m ≠ n ∧ (c.sessionOf n = none ∨ c.sessionOf m ≠ c.sessionOf n) := by
    unfold Chip.mayAsk at h
    tauto
  rw [Chip.ringStatus_of_ring hm, if_neg (by tauto), if_pos hforeign]

theorem Chip.ringStatus_of_own (h : c.mayAsk n m) : c.ringStatus n q = c.ok (c.ringRecords m (q.le 9 1)) := by
  have hown : ¬(m ≠ n ∧ (c.sessionOf n = none ∨ c.sessionOf m ≠ c.sessionOf n)) := by
    unfold Chip.mayAsk at h
    tauto
  rw [Chip.ringStatus_of_ring hm, if_neg (by tauto), if_neg hown]

end

/-! ### PARAM_QUERY (R313) -/

theorem Chip.paramQuery_of_otherPage {q : Cmd} (h : 2 ≤ q.le 8 1) (c : Chip) : c.paramQuery q = c.no 4 0x11 := by
  obtain ⟨k, hk⟩ := Nat.exists_eq_add_of_le' h
  simp only [Chip.paramQuery, hk]

/-- Settles O25: SESSION_OPEN by its rings, its versions and the free sessions; the queries by what they name. -/
theorem tirbaSessionsAndQueries : Obligations.TirbaSessionsAndQueries := by
  unfold Obligations.TirbaSessionsAndQueries
  intro n q s ends
  refine ⟨?nop, ?sessionOpen, ?sessionClose, ?ringStatus, ?paramQuery⟩
  case nop =>
    intro hfront
    rw [exec_nopCommand, Chip.once_of_front hfront rfl]
  case sessionOpen =>
    intro hfront rings v range
    simp only [exec_sessionOpen]
    refine ⟨fun hclaimed => ?_, fun hunclaimed => ⟨fun hversion => ?_, fun hversion i hfree hlow => ?_, fun hversion hfull => ?_⟩⟩
    · rw [Chip.once_of_front hfront (Chip.sessionOpen_of_claimed hclaimed)]
    · rw [Chip.once_of_front hfront (Chip.sessionOpen_of_noVersion hunclaimed hversion)]
      rfl
    · rw [Chip.once_of_front hfront (Chip.sessionOpen_of_free hunclaimed hversion (Chip.freeSession_eq_some hfree hlow))]
      rfl
    · rw [Chip.once_of_front hfront (Chip.sessionOpen_of_full hunclaimed hversion (Chip.freeSession_eq_none hfull))]
  case sessionClose =>
    intro hfront i k hring hopen
    rw [exec_sessionClose, Chip.once_of_front hfront (Chip.sessionClose_of_open hring hopen)]
  case ringStatus =>
    intro hfront
    simp only [exec_ringStatus]
    refine ⟨fun hring => ?_, fun m hm => ⟨fun h0 h8 => ?_, fun hfirst hforeign => ?_, fun hfirst hown => ?_⟩⟩
    · rw [Chip.once_of_front hfront (Chip.ringStatus_of_noRing hring)]
    · rw [Chip.once_of_front hfront (Chip.ringStatus_of_badFirst hm h0 h8)]
    · rw [Chip.once_of_front hfront (Chip.ringStatus_of_foreign hm hfirst hforeign)]
    · rw [Chip.once_of_front hfront (Chip.ringStatus_of_own hm hfirst hown)]
      rfl
  case paramQuery =>
    intro hfront
    simp only [exec_paramQuery]
    refine ⟨fun hpage => ?_, fun hpage => ?_, fun hpage => ?_⟩
    · rw [Chip.once_of_front hfront (by simp only [Chip.paramQuery, hpage]; rfl)]
      rfl
    · rw [Chip.once_of_front hfront (by simp only [Chip.paramQuery, hpage]; rfl)]
    · rw [Chip.once_of_front hfront (Chip.paramQuery_of_otherPage hpage _)]

end Sys2Proof.Machine
end

section
/-! Blocks and commits (11, R281, R303, R306, R307, R314, R315, R321, R699): BLOCK_COPY by where its source stands, BLOCK_FILL by its
checks, and COMMIT by its mask and stage. -/

namespace Sys2Proof.Machine

/-! ### The commands -/

theorem exec_blockCopy (n : Ring) (s : State) : exec (.blockCopy n) s = .next (s.withChip (s.chip.blockCopy n)) := rfl

theorem exec_blockFill (n : Ring) (s : State) :
    exec (.blockFill n) s = .next (s.withChip (s.chip.once n 0x021 anyOf Chip.blockFill)) := rfl

theorem exec_commit (n : Ring) (s : State) : exec (.commit n) s = .next (s.withChip (s.chip.commitCmd n)) := rfl

/-! ### BLOCK_COPY (R314, R583) -/

theorem Chip.vRead_bytes (cls : VClass) (idx off n : Nat) (c : Chip) : (c.vRead cls idx off n).1 = c.vbytes off n := rfl

@[simp] theorem Chip.length_vbytes (c : Chip) (off n : Nat) : (c.vbytes off n).length = n := c.bytes_length n _

/-- A copy within Vellum that meets no uncorrectable word and does not run into its own source writes the bytes of the source. -/
theorem Chip.copyVellum_of_good {c : Chip} {q : Cmd} (hgood : c.firstBad (vlmBase + q.addr) q.len = none)
    (hapart : ¬(q.addr < q.dst ∧ q.dst < q.addr + q.len)) : c.copyVellum q =
    ((c.vRead .bobbin Config.tirbaBob.toNat q.addr q.len).2.2.vWrite q.dst (c.vbytes q.addr q.len)).ok [] := by
  have hall : (c.vbytes q.addr q.len).take q.len = c.vbytes q.addr q.len := List.take_of_length_le (c.length_vbytes _ _).le
  simp only [Chip.copyVellum, hgood, Option.getD_none, Option.isSome_none, Bool.false_eq_true, if_false, if_neg hapart,
    Chip.vRead_bytes, hall]

section
variable {c : Chip} {n : Ring} {q : Cmd} (hfront : c.front n 0x020 anyOf = some q)
include hfront

theorem Chip.blockCopy_of_received (hstage : q.stage ≠ 0) (hread : q.readFailed = false) (hlen : q.len ≤ q.payload.length) :
    c.blockCopy n = (c.vWrite q.dst (q.payload.take q.len)).endCmd n 0 0 [] := by
  simp only [Chip.blockCopy, hfront, hstage, hread, hlen, if_false, if_true, Bool.false_eq_true]

variable (hstage : q.stage = 0)
include hstage

theorem Chip.blockCopy_of_empty (hlen : q.len = 0) : c.blockCopy n = c.endCmd n 0 0 [] := by
  simp only [Chip.blockCopy, hfront, hstage, hlen, if_true]

theorem Chip.blockCopy_of_vellum (hlen : q.len ≠ 0) (hhost : q.host = false) (hrange : firstOf (rangeChecks q.dst q.len) = none) :
    c.blockCopy n = Chip.finish n (c.copyVellum q) := by
  simp only [Chip.blockCopy, hfront, hstage, hlen, hrange, hhost, if_false, if_true, Bool.false_eq_true]

end

/-! ### BLOCK_FILL (R315) -/

/-- The checks of BLOCK_FILL: both of its fields are multiples of 4, and a range that is not empty may be written. -/
def Cmd.fillChecks (q : Cmd) : List (Bool × Nat × Nat) :=
  (q.le 8 4 % 4 != 0 || q.le 12 4 % 4 != 0, 4, 0x12) :: if q.le 12 4 = 0 then [] else rangeChecks (q.le 8 4) (q.le 12 4)

/-- The bytes that BLOCK_FILL writes: its word, as often as it fits. -/
def Cmd.fillBytes (q : Cmd) : List Byte := (List.replicate (q.le 12 4 / 4) (leBytes 4 (q.le 16 4))).flatten

theorem Chip.blockFill_eq (q : Cmd) (c : Chip) :
    c.blockFill q = Chip.checked q.fillChecks c fun c => (c.vWrite (q.le 8 4) q.fillBytes).ok [] := rfl

section
variable {q : Cmd}

theorem Chip.blockFill_of_unaligned (h : q.le 8 4 % 4 ≠ 0 ∨ q.le 12 4 % 4 ≠ 0) (c : Chip) : c.blockFill q = c.no 4 0x12 := by
  have hfail : firstOf q.fillChecks = some (4, 0x12) := firstOf_cons_of_fail (by simpa only [Bool.or_eq_true, bne_iff_ne] using h) _ _
  rw [Chip.blockFill_eq, Chip.checked_of_fail hfail]

theorem Chip.blockFill_of_aligned (hdst : q.le 8 4 % 4 = 0) (hlen : q.le 12 4 % 4 = 0)
    (hrange : q.le 12 4 = 0 ∨ firstOf (rangeChecks (q.le 8 4) (q.le 12 4)) = none) (c : Chip) :
    c.blockFill q = (c.vWrite (q.le 8 4) q.fillBytes).ok [] := by
  have hpass : firstOf q.fillChecks = none := by
    rw [Cmd.fillChecks, firstOf_cons_of_pass (by simp [hdst, hlen])]
    split
    · exact firstOf_nil
    · next hne => exact hrange.resolve_left hne
  rw [Chip.blockFill_eq, Chip.checked_of_pass hpass]

end

/-! ### COMMIT (R321, R699) -/

/-- The request of a COMMIT for Beam b, where its mask m names the Beam. -/
def Chip.commitAskIn (m : Nat) (b : Beam) (c : Chip) : (Nat × Nat) × Chip :=
  if m / 2 ^ b.val % 2 = 1 then c.commitAsk b else ((0, 0), c)

/-- The transfer that serves Beam b's request of a COMMIT. -/
def Cmd.due (q : Cmd) (b : Beam) : Nat := q.keep.getD b.val 0

/-- The frame that a COMMIT answers for Beam b: that of the transfer that served it, where its mask names the Beam. -/
def Chip.commitFrame (q : Cmd) (b : Beam) (c : Chip) : Nat :=
  if q.le 8 1 / 2 ^ b.val % 2 = 1 then ((c.apq[b]).ends.getD (q.due b - 1) 0).toNat else 0

section
variable {c : Chip} {n : Ring} {q : Cmd} (hfront : c.front n 0x080 anyOf = some q)
include hfront

theorem Chip.commitCmd_of_badMask (hstage : q.stage = 0) {status detail : Nat}
    (hmask : firstOf (maskChecks (q.le 8 1)) = some (status, detail)) : c.commitCmd n = c.endCmd n status detail [] := by
  simp only [Chip.commitCmd, hfront, hstage, hmask, if_true]

/-- A COMMIT asks for the transfer of each of its Beams, Beam A first. -/
theorem Chip.commitCmd_of_mask (hstage : q.stage = 0) (hmask : firstOf (maskChecks (q.le 8 1)) = none) : c.commitCmd n =
    let a := c.commitAskIn (q.le 8 1) 0
    let b := a.2.commitAskIn (q.le 8 1) 1
    b.2.toStage n 2 [a.1.1, b.1.1, a.1.2 + b.1.2 * 2] := by
  simp only [Chip.commitCmd, hfront, hstage, hmask, if_true, Chip.commitAskIn]

/-- A COMMIT whose transfers have all ended starts its Beams and answers their frames. -/
theorem Chip.commitCmd_of_ended (hstage : q.stage ≠ 0) (hended : ∀ b ∈ beamsOf (q.le 8 1), q.due b ≤ c.transfers b) :
    c.commitCmd n = (forEach (beamsOf (q.le 8 1)) Chip.beamFirst c).endCmd n 0 0
      (res [(8, 4, c.commitFrame q 0), (12, 4, c.commitFrame q 1), (16, 1, q.keep.getD 2 0)]) := by
  have hall : ((beamsOf (q.le 8 1)).all fun b => decide (q.due b ≤ c.transfers b)) = true := by
    simpa only [List.all_eq_true, decide_eq_true_eq] using hended
  simp only [Chip.commitCmd, hfront, hstage, if_false]
  exact if_pos hall

end

/-- Settles O26: a copy by its source, a fill by its checks, and a COMMIT by its mask before, and its transfers after, it asks. -/
theorem tirbaBlocksAndCommits : Obligations.TirbaBlocksAndCommits := by
  unfold Obligations.TirbaBlocksAndCommits
  intro n q s ends
  simp only [exec_blockCopy, exec_blockFill, exec_commit]
  refine ⟨?empty, ?vellum, ?received, ?fill, ?unaligned, ?asked, ?ended, ?noBeam⟩
  case empty =>
    intro hfront hstage hlen
    rw [Chip.blockCopy_of_empty hfront hstage hlen]
  case vellum =>
    intro hfront hstage hlen hhost hrange hgood hapart
    rw [Chip.blockCopy_of_vellum hfront hstage hlen hhost hrange, Chip.copyVellum_of_good hgood hapart]
    rfl
  case received =>
    intro hfront hstage hread hlen
    rw [Chip.blockCopy_of_received hfront hstage hread hlen]
    rfl
  case fill =>
    intro hfront hdst hlen hrange
    rw [Chip.once_of_front hfront (Chip.blockFill_of_aligned hdst hlen hrange _)]
    rfl
  case unaligned =>
    intro hfront h
    rw [Chip.once_of_front hfront (Chip.blockFill_of_unaligned h _)]
  case asked =>
    intro hfront hstage hmask
    rw [Chip.commitCmd_of_mask hfront hstage (by rw [hmask]; decide), hmask]
    rfl
  case ended =>
    intro hfront hstage hmask hdue
    have hbeams : beamsOf (q.le 8 1) = [0] := by rw [hmask]; decide
    have hended : ∀ b ∈ beamsOf (q.le 8 1), q.due b ≤ s.chip.transfers b := by
      rw [hbeams]
      exact List.forall_mem_singleton.mpr hdue
    rw [Chip.commitCmd_of_ended hfront hstage hended, hbeams]
    simp only [Chip.commitFrame, hmask]
    rfl
  case noBeam =>
    intro hfront hstage hmask
    have hnone : firstOf (maskChecks (q.le 8 1)) = some (4, 0x11) := by rw [hmask]; decide
    rw [Chip.commitCmd_of_badMask hfront hstage hnone]

end Sys2Proof.Machine
end

section
/-! Answers of the device (11, R281, R334 to R337, R343, R344, R346): the readings, SUPPLY_CONFIG and CHARGER_CONFIG by their limits,
and LOG_READ of the darn log. -/

namespace Sys2Proof.Machine

/-! ### The commands -/

theorem exec_telemetryRead (n : Ring) (tmax tmin vcore vin vbat ichg : Half) (s : State) :
    exec (.telemetryRead n tmax tmin vcore vin vbat ichg) s = .next (s.withChip (s.chip.once n 0x0E0 anyOf fun _ =>
      Chip.telemetry { tmax, tmin, vcore, vin, vbat, ichg })) := rfl

theorem exec_supplyConfig (n : Ring) (s : State) :
    exec (.supplyConfig n) s = .next (s.withChip (s.chip.once n 0x0E1 anyOf Chip.supplyConfig)) := rfl

theorem exec_chargerConfig (n : Ring) (s : State) :
    exec (.chargerConfig n) s = .next (s.withChip (s.chip.once n 0x0E2 anyOf Chip.chargerConfig)) := rfl

theorem exec_darnStatus (n : Ring) (s : State) :
    exec (.darnStatus n) s = .next (s.withChip (s.chip.once n 0x0F0 anyOf fun _ => Chip.darnStatus)) := rfl

theorem exec_fwInfo (n : Ring) (s : State) :
    exec (.fwInfo n) s = .next (s.withChip (s.chip.once n 0x102 anyOf fun _ => Chip.fwInfo)) := rfl

theorem exec_lcyStatus (n : Ring) (s : State) :
    exec (.lcyStatus n) s = .next (s.withChip (s.chip.once n 0x110 anyOf fun _ => Chip.lcyStatus)) := rfl

theorem exec_logRead (n : Ring) (s : State) :
    exec (.logRead n) s = .next (s.withChip (s.chip.once n 0x120 anyOf Chip.logRead)) := rfl

/-! ### SUPPLY_CONFIG and CHARGER_CONFIG (R335, R336) -/

/-- SUPPLY_CONFIG's stores: MARGIN, the shed limit, the voice shed. -/
def Chip.putSupply (q : Cmd) (c : Chip) : Chip :=
  let c := c.storeLtn R.LTN_MARGIN (setFld (c.rd R.LTN_MARGIN) 9 0 (q.le 8 2))
  (c.storeLtn R.LTN_SHED (setFld (c.rd R.LTN_SHED) 11 8 (q.le 10 1))).storeSndPage 0 R.SND_SHED (w32 (q.le 11 1))

/-- CHARGER_CONFIG's stores: the charge current, the input limit, then EMB_CTRL. -/
def Chip.putCharger (q : Cmd) (c : Chip) : Chip :=
  ((c.storeEmb R.EMB_ICHG (w32 (q.le 10 2))).storeEmb R.EMB_VINREG (w32 (q.le 12 2))).storeEmb R.EMB_CTRL
    (w32 (q.le 8 1 + q.le 9 1 * 2 + q.le 14 1 * 4))

/-- The check of CHARGER_CONFIG's fields: each within its limits. -/
def Cmd.chargerBeyond (q : Cmd) : Bool :=
  decide (1 < q.le 8 1) || decide (1 < q.le 9 1) || decide (q.le 10 2 < 5) || decide (150 < q.le 10 2) || decide (q.le 12 2 < 3000) ||
    decide (3300 < q.le 12 2) || decide (2 < q.le 14 1)

theorem Chip.chargerConfig_eq (q : Cmd) (c : Chip) : c.chargerConfig q =
    Chip.checked [(q.chargerBeyond, 4, 0x11), (c.lcyState == 6, 5, 0x13)] c fun c => (c.putCharger q).ok [] := rfl

section
variable {q : Cmd}

theorem Chip.supplyConfig_of_within (hmargin : q.le 8 2 ≤ 1023) (hshed : q.le 10 1 ≤ 15) (hvoice : q.le 11 1 ≤ 15) (c : Chip) :
    c.supplyConfig q = (c.putSupply q).ok [] := by
  refine Chip.checked_of_pass ?_ _ _
  rw [firstOf_cons_of_pass (by simp [hmargin, hshed, hvoice]), firstOf_nil]

theorem Chip.supplyConfig_of_beyond (h : 1023 < q.le 8 2 ∨ 15 < q.le 10 1 ∨ 15 < q.le 11 1) (c : Chip) :
    c.supplyConfig q = c.no 4 0x11 :=
  Chip.checked_of_fail (firstOf_cons_of_fail (by simpa [or_assoc] using h) _ _) _ _

theorem Chip.chargerConfig_of_within {c : Chip} (hen : q.le 8 1 ≤ 1) (hext : q.le 9 1 ≤ 1) (hichgLo : 5 ≤ q.le 10 2)
    (hichgHi : q.le 10 2 ≤ 150) (hvinLo : 3000 ≤ q.le 12 2) (hvinHi : q.le 12 2 ≤ 3300) (hmode : q.le 14 1 ≤ 2)
    (hlife : c.lcyState ≠ 6) : c.chargerConfig q = (c.putCharger q).ok [] := by
  have hwithin : q.chargerBeyond = false := by
    simp only [Cmd.chargerBeyond, Bool.or_eq_false_iff, decide_eq_false_iff_not]
    omega
  rw [Chip.chargerConfig_eq, Chip.checked_of_pass]
  rw [firstOf_cons_of_pass hwithin, firstOf_cons_of_pass (beq_eq_false_iff_ne.mpr hlife), firstOf_nil]

/-! ### LOG_READ (R346) -/

/-- The entry of the darn log that LOG_READ begins with: START, or the log's end where START is past it. -/
def Chip.darnLogFirst (q : Cmd) (c : Chip) : Nat := min (q.le 24 4) c.drn.log.length

/-- The entries of the darn log that LOG_READ has room for. -/
def Chip.darnLogCount (q : Cmd) (c : Chip) : Nat := min (q.len / 32) (c.drn.log.length - c.darnLogFirst q)

/-- The checks of LOG_READ: there are two logs, and the reference holds at least one entry. -/
def Cmd.logChecks (q : Cmd) : List (Bool × Nat × Nat) := [(decide (1 < q.le 20 1), 4, 0x11), (decide (q.len < 32), 4, 0x13)]

theorem Chip.logRead_of_fail {status detail : Nat} (h : firstOf q.logChecks = some (status, detail)) (c : Chip) :
    c.logRead q = c.no status detail := by
  rw [Chip.logRead]
  exact Chip.checked_of_fail h _ _

/-- LOG_READ of the darn log, which keeps every entry, from START on. -/
theorem Chip.logRead_of_darnLog (hlog : q.le 20 1 = 1) (hroom : 32 ≤ q.len) (hstart : q.le 24 4 ≠ 0xFFFFFFFF) (c : Chip) :
    c.logRead q = (c.writeRef q ((c.drn.log.drop (c.darnLogFirst q)).take (c.darnLogCount q)).flatten).ok
      (res [(8, 4, c.darnLogFirst q), (12, 4, c.darnLogCount q), (16, 4, c.darnLogFirst q + c.darnLogCount q), (20, 4, 0)]) := by
  have hpass : firstOf q.logChecks = none := by
    rw [Cmd.logChecks, firstOf_cons_of_pass (decide_eq_false (by omega)), firstOf_cons_of_pass (decide_eq_false (by omega)), firstOf_nil]
  rw [Chip.logRead]
  refine (Chip.checked_of_pass hpass _ _).trans ?_
  simp only [hlog, one_ne_zero, if_false, hstart, Nat.not_lt_zero, or_self, Nat.zero_sub, Bool.false_eq_true, Chip.darnLogFirst,
    Chip.darnLogCount]

end

/-- Settles O30: the readings are their commands' definitions; the configurations and LOG_READ go by their checks. -/
theorem tirbaDeviceAnswers : Obligations.TirbaDeviceAnswers := by
  unfold Obligations.TirbaDeviceAnswers
  intro n q s ends
  refine ⟨?telemetry, ?supply, ?charger, ?darn, ?firmware, ?lifeCycle, ?darnLog, ?badLog⟩
  case telemetry =>
    intro hfront tmax tmin vcore vin vbat ichg
    rw [exec_telemetryRead, Chip.once_of_front hfront rfl]
  case supply =>
    intro hfront
    rw [exec_supplyConfig]
    refine ⟨fun hmargin hshed hvoice => ?_, fun hbeyond => ?_⟩
    · rw [Chip.once_of_front hfront (Chip.supplyConfig_of_within hmargin hshed hvoice _)]
      rfl
    · rw [Chip.once_of_front hfront (Chip.supplyConfig_of_beyond hbeyond _)]
  case charger =>
    intro hfront hen hext hichgLo hichgHi hvinLo hvinHi hmode hlife
    rw [exec_chargerConfig,
      Chip.once_of_front hfront (Chip.chargerConfig_of_within hen hext hichgLo hichgHi hvinLo hvinHi hmode hlife)]
    rfl
  case darn =>
    intro hfront
    rw [exec_darnStatus]
    exact congrArg (fun c => Host.Outcome.next (s.withChip c)) (Chip.once_of_front (f := fun _ => Chip.darnStatus) hfront rfl)
  case firmware =>
    intro hfront
    rw [exec_fwInfo, Chip.once_of_front hfront rfl]
  case lifeCycle =>
    intro hfront
    rw [exec_lcyStatus, Chip.once_of_front hfront rfl]
  case darnLog =>
    intro hfront hlog hroom hstart top first k
    rw [exec_logRead, Chip.once_of_front hfront (Chip.logRead_of_darnLog hlog hroom hstart _)]
    rfl
  case badLog =>
    intro hfront hlog
    have hfail : firstOf q.logChecks = some (4, 0x11) := firstOf_cons_of_fail (decide_eq_true hlog) _ _
    rw [exec_logRead, Chip.once_of_front hfront (Chip.logRead_of_fail hfail _)]

end Sys2Proof.Machine
end

section
/-! What a command of Tirba comes to where it may start (10, R281, R287, R306): its variant, its checks together, and its payload. -/

namespace Sys2Proof.Machine

/-- The front command is of the variant asked for. -/
theorem Chip.sel_of_front {c : Chip} {n : Ring} {op : Nat} {sel : Cmd → Bool} {q : Cmd} (h : c.front n op sel = some q) : sel q = true := by
  unfold Chip.front at h
  split at h
  · cases h
  · split at h
    · cases h
    · split at h
      · next hq =>
          cases h
          exact hq.2.1
      · cases h

/-- The checks pass where each of them does. -/
theorem firstOf_eq_none_iff {l : List (Bool × Nat × Nat)} : firstOf l = none ↔ ∀ e ∈ l, e.1 = false := by
  simp [firstOf, List.find?_eq_none]

/-- A command whose checks all pass does its work. -/
theorem Chip.checked_of_all {l : List (Bool × Nat × Nat)} (h : ∀ e ∈ l, e.1 = false) (c : Chip) (f : Chip → Ans) :
    Chip.checked l c f = f c := Chip.checked_of_pass (firstOf_eq_none_iff.mpr h) c f

section
variable {c : Chip} {n : Ring} {op : Nat} {q : Cmd} (hfront : c.front n op anyOf = some q)
include hfront

/-- A command whose checks fail at its start ends with what they say, its payload untouched. -/
theorem Chip.withPayload_of_fail (hstage : q.stage = 0) {check : Cmd → Chip → Option (Nat × Nat)} {status detail : Nat}
    (hcheck : check q c = some (status, detail)) (f : Cmd → List Byte → Chip → Ans) :
    c.withPayload n op check f = c.endCmd n status detail [] := by
  have hfront' : c.front n op (fun _ => true) = some q := hfront
  simp only [Chip.withPayload, Chip.payloadThen, hfront', hstage, hcheck, if_true]

/-- A command without a reference is worked on at once, with an empty payload. -/
theorem Chip.withPayload_of_noRef (hstage : q.stage = 0) (href : q.ref = false) {check : Cmd → Chip → Option (Nat × Nat)}
    (hcheck : check q c = none) {f : Cmd → List Byte → Chip → Ans} {status detail : Nat} {r : List Byte} {d : Chip}
    (h : f q [] c = ((status, detail, r), d)) : c.withPayload n op check f = d.endCmd n status detail r := by
  have hfront' : c.front n op (fun _ => true) = some q := hfront
  have hhost : q.host = false := by rw [Cmd.host, href, Bool.false_and]
  have hlen : q.len = 0 := by rw [Cmd.len, href]; rfl
  simp only [Chip.withPayload, Chip.payloadThen, hfront', hstage, hcheck, hhost, hlen, if_true, Bool.false_and, Bool.false_eq_true,
    if_false, h, Chip.finish]

/-- A command whose payload from host memory is all there is worked on. -/
theorem Chip.withPayload_of_received (hstage : q.stage ≠ 0) (hread : q.readFailed = false) (hlen : q.len ≤ q.payload.length)
    (check : Cmd → Chip → Option (Nat × Nat)) {f : Cmd → List Byte → Chip → Ans} {status detail : Nat} {r : List Byte} {d : Chip}
    (h : f q (q.payload.take q.len) c = ((status, detail, r), d)) : c.withPayload n op check f = d.endCmd n status detail r := by
  rw [Chip.withPayload, Chip.payloadThen_of_received hfront hstage hread hlen, h, Chip.finish]

end

end Sys2Proof.Machine
end

section
/-! Layers, palettes and signatures (11, R306, R307, R316 to R320, R322 to R324): the stores of each command, and its checks. -/

namespace Sys2Proof.Machine

/-! ### The commands -/

theorem exec_planeSet (n : Ring) (s : State) : exec (.planeSet n) s = .next (s.withChip (s.chip.once n 0x040 anyOf Chip.planeSet)) := rfl

theorem exec_motifConfig (n : Ring) (s : State) :
    exec (.motifConfig n) s = .next (s.withChip (s.chip.once n 0x041 anyOf Chip.motifConfig)) := rfl

theorem exec_windowSet (n : Ring) (s : State) : exec (.windowSet n) s = .next (s.withChip (s.chip.once n 0x042 anyOf Chip.windowSet)) := rfl

theorem exec_layerOrder (n : Ring) (s : State) :
    exec (.layerOrder n) s = .next (s.withChip (s.chip.once n 0x043 anyOf Chip.layerOrder)) := rfl

theorem exec_paletteLoad (n : Ring) (s : State) : exec (.paletteLoad n) s =
    .next (s.withChip (s.chip.withPayload n 0x048 (fun q _ => firstOf (paletteChecks q)) Chip.paletteLoad)) := rfl

theorem exec_sigRegionSet (n : Ring) (s : State) :
    exec (.sigRegionSet n) s = .next (s.withChip (s.chip.once n 0x090 anyOf Chip.sigRegionSet)) := rfl

theorem exec_sigRead (n : Ring) (s : State) : exec (.sigRead n) s = .next (s.withChip (s.chip.sigRead n)) := rfl

/-- A Beam named by its number. -/
theorem beamNo_of_val {k : Nat} {b : Beam} (h : k = b.val) : beamNo k = b := by
  subst h
  fin_cases b <;> rfl

/-! ### The stores of each command -/

/-- The configuration of Beam b's motifs that MOTIF_CONFIG gives (R317). -/
def Cmd.motifWord (q : Cmd) (b : Nat) : Word := w32 (q.le 12 4 + q.bit 9 b * 2 + q.bit 8 b)

/-- MOTIF_CONFIG's stores (R317). -/
def Chip.putMotifs (q : Cmd) (c : Chip) : Chip :=
  (c.storeMtf 0 R.MTF_SH_CFGA (q.motifWord 0)).storeMtf 0 R.MTF_SH_CFGB (q.motifWord 1)

/-- WINDOW_SET's stores: the window's control, then its position (R318). -/
def Chip.putWindow (q : Cmd) (c : Chip) : Chip :=
  (c.storeEyePage (R.EYE_WIN_SH_CTRL (q.le 8 1)) (w32 (q.bit 10 0 + q.le 9 1 * 2 + q.bit 10 1 * 4 + q.le 11 1 * 256))).storeEyePage
    (R.EYE_WIN_SH_POS (q.le 8 1)) (w32 (q.le 12 4))

/-- Byte i of the order words that LAYER_ORDER gives (R319). -/
def Cmd.orderByte (q : Cmd) (i : Nat) : Nat := if i < 17 then q.le (12 + i) 1 else 0xFF

/-- Order word k that LAYER_ORDER gives (R319). -/
def Cmd.orderWord (q : Cmd) (k : Nat) : Word :=
  w32 (q.orderByte (4 * k) + q.orderByte (4 * k + 1) * 2 ^ 8 + q.orderByte (4 * k + 2) * 2 ^ 16 + q.orderByte (4 * k + 3) * 2 ^ 24)

/-- LAYER_ORDER's stores for Beam b: the mode, the backdrop, then the five order words (R319). -/
def Chip.putOrder (b : Beam) (q : Cmd) (c : Chip) : Chip :=
  forEach (List.range 5) (fun k c => c.storeApq b (R.APQ_SH_ORDER b k) (q.orderWord k))
    ((c.storeApq b (R.APQ_SH_MODE b) (w32 (q.le 9 1 + q.le 10 1 * 2))).storeApq b (R.APQ_SH_BACKDROP b) (w32 (q.le 32 3)))

/-- The entries of PALETTE_LOAD's payload, put into Beam b's shadow palettes (R320, R459). -/
def Chip.putPalette (b : Beam) (q : Cmd) (bs : List Byte) (c : Chip) : Chip :=
  forEach (List.range (q.len / 4)) (fun i c => c.spalPut b (q.le 21 1 * 256 + q.le 22 2 + i) (w32 (leNat ((bs.drop (4 * i)).take 4)))) c

/-- SIG_REGION_SET's stores for Beam b: the region's position, then its size (R322). -/
def Chip.putRegion (b : Beam) (q : Cmd) (c : Chip) : Chip :=
  (c.storeApq b (R.APQ_SIG_SH_POS b (q.le 9 1)) (w32 (sat13 (q.le 12 2) + sat13 (q.le 14 2) * 2 ^ 16))).storeApq b
    (R.APQ_SIG_SH_SIZE b (q.le 9 1)) (w32 (sat13 (q.le 16 2) + sat13 (q.le 18 2) * 2 ^ 16 + q.bit 10 0 * 2 ^ 31))

/-! ### A command whose checks pass -/

section
variable {c : Chip} {q : Cmd}

theorem Chip.planeSet_of_pass (h : firstOf (c.planeChecks q) = none) : c.planeSet q = (forEach q.planeRecs Chip.putPlane c).ok [] :=
  Chip.checked_of_pass h _ _

theorem Chip.planeSet_of_fail {status detail : Nat} (h : firstOf (c.planeChecks q) = some (status, detail)) :
    c.planeSet q = c.no status detail := Chip.checked_of_fail h _ _

theorem Chip.motifConfig_of_pass (h : firstOf (baseChecks (q.le 12 4) 0x8000) = none) : c.motifConfig q = (c.putMotifs q).ok [] := by
  rw [Chip.motifConfig]
  exact Chip.checked_of_pass h c _

/-- A window may be set where no other Beam's shadow enables it, and enabled on a configured port only. -/
theorem Chip.windowSet_of_pass (hwindow : q.le 8 1 ≤ 7) (hbeam : q.le 9 1 ≤ 1) (hfree : tb (c.rd (R.EYE_WIN_SH_CTRL (q.le 8 1))) 0 = false)
    (hport : q.bit 10 0 = 0 ∨ c.tirba.ports.contains (q.le 8 1) = true) : c.windowSet q = (c.putWindow q).ok [] := by
  have hconfigured : q.bit 10 0 = 1 → q.le 8 1 ∈ c.tirba.ports := fun hen => by simpa [hen] using hport
  rw [Chip.windowSet]
  refine Chip.checked_of_all ?_ c _
  simpa [hwindow, hbeam, hfree] using hconfigured

section
variable {b : Beam}

/-- An ORDER of mode 0 is taken as it is, whatever it names. -/
theorem Chip.layerOrder_of_pass (hb : q.le 8 1 = b.val) (hmode : q.le 9 1 = 0) (hdither : q.le 10 1 ≤ 1) :
    c.layerOrder q = (c.putOrder b q).ok [] := by
  have hbeam : b.val ≤ 1 := Nat.le_of_lt_succ b.isLt
  rw [← beamNo_of_val hb]
  rw [Chip.layerOrder]
  refine Chip.checked_of_all ?_ c _
  simp [hb, hbeam, hmode, hdither]

theorem Chip.paletteLoad_eq (hb : q.le 20 1 = b.val) (bs : List Byte) : c.paletteLoad q bs = (c.putPalette b q bs).ok [] := by
  rw [← beamNo_of_val hb]
  rfl

theorem Chip.sigRegionSet_of_pass (hb : q.le 8 1 = b.val) (hregion : q.le 9 1 ≤ 15) : c.sigRegionSet q = (c.putRegion b q).ok [] := by
  have hbeam : b.val ≤ 1 := Nat.le_of_lt_succ b.isLt
  rw [← beamNo_of_val hb]
  rw [Chip.sigRegionSet]
  refine Chip.checked_of_all ?_ c _
  simp [hb, hbeam, hregion]

/-- SIG_READ without a reference, of a frame that is kept: its answer names the frame and one region's signature. -/
theorem Chip.sigRead_of_kept {n : Ring} {f : SigFrame} (hfront : c.front n 0x091 anyOf = some q) (href : q.ref = false)
    (hb : q.le 20 1 = b.val) (hregion : q.le 21 1 ≤ 15) (hkept : c.sigFind b (w32 (q.le 24 4)) = .frame f) : c.sigRead n =
    c.endCmd n 0 0 (res [(8, 4, f.frame.toNat), (12, 2, f.enabled.toNat), (14, 2, f.uncertain.toNat), (16, 2, f.mismatch q),
      (20, 4, (f.raw.getD (q.le 21 1) 0).toNat), (24, 4, (f.folded.getD (q.le 21 1) 0).toNat)]) := by
  have hbeam : b.val ≤ 1 := Nat.le_of_lt_succ b.isLt
  have hpass : firstOf [(decide (1 < q.le 20 1), 4, 0x10), (!q.ref && decide (15 < q.le 21 1), 4, 0x11),
      (q.ref && decide (q.len < 144), 4, 0x13)] = none := firstOf_eq_none_iff.mpr (by simp [hb, hbeam, href, hregion])
  simp only [Chip.sigRead, hfront, hpass, beamNo_of_val hb, hkept]
  rw [if_neg (by simp [href])]
  rfl

end

end

/-- Settles O27: the stores of each command where its checks pass, and no effect where they fail. -/
theorem tirbaLayersAndSignatures : Obligations.TirbaLayersAndSignatures := by
  unfold Obligations.TirbaLayersAndSignatures
  intro n q s ends
  refine ⟨?planes, ?motifs, ?window, ?order, ?palette, ?badPalette, ?region, ?signature⟩
  case planes =>
    intro hfront
    rw [exec_planeSet]
    refine ⟨fun hpass => ?_, fun status detail hfail => ?_⟩
    · rw [Chip.once_of_front hfront (Chip.planeSet_of_pass hpass)]
    · rw [Chip.once_of_front hfront (Chip.planeSet_of_fail hfail)]
  case motifs =>
    intro hfront hpass
    rw [exec_motifConfig, Chip.once_of_front hfront (Chip.motifConfig_of_pass hpass)]
    rfl
  case window =>
    intro hfront hwindow hbeam hfree hport
    rw [exec_windowSet, Chip.once_of_front hfront (Chip.windowSet_of_pass hwindow hbeam hfree hport)]
    rfl
  case order =>
    intro hfront b hb hmode hdither id
    rw [exec_layerOrder, Chip.once_of_front hfront (Chip.layerOrder_of_pass hb hmode hdither), Chip.putOrder, hmode, Nat.zero_add]
    rfl
  case palette =>
    intro hfront hstage hread hlen b hb
    rw [exec_paletteLoad, Chip.withPayload_of_received hfront hstage hread hlen _ (Chip.paletteLoad_eq hb _)]
    rfl
  case badPalette =>
    intro hfront hstage status detail hfail
    rw [exec_paletteLoad, Chip.withPayload_of_fail hfront hstage hfail]
  case region =>
    intro hfront b hb hregion
    rw [exec_sigRegionSet, Chip.once_of_front hfront (Chip.sigRegionSet_of_pass hb hregion)]
    rfl
  case signature =>
    intro hfront href b hb hregion f hkept
    rw [exec_sigRead, Chip.sigRead_of_kept hfront href hb hregion hkept]

end Sys2Proof.Machine
end

section
/-! Eyelet ports and I2C (11, R306, R307, R325 to R329, R416): the configuration of a port, its start and stop, its policy and its
counters, and a transaction of an I2C master. -/

namespace Sys2Proof.Machine

/-! ### The commands -/

theorem exec_portConfig (n : Ring) (s : State) :
    exec (.portConfig n) s = .next (s.withChip (s.chip.once n 0x0A0 anyOf Chip.portConfig)) := rfl

theorem exec_portStart (n : Ring) (s : State) :
    exec (.portStart n) s = .next (s.withChip (s.chip.once n 0x0A1 (fun q => q.le 9 1 != 0) Chip.portStart)) := rfl

theorem exec_portStop (n : Ring) (s : State) : exec (.portStop n) s = .next (s.withChip (s.chip.portStop n)) := rfl

theorem exec_portPolicy (n : Ring) (s : State) :
    exec (.portPolicy n) s = .next (s.withChip (s.chip.once n 0x0A2 anyOf Chip.portPolicy)) := rfl

theorem exec_portStatus (n : Ring) (s : State) :
    exec (.portStatus n) s = .next (s.withChip (s.chip.once n 0x0A3 anyOf Chip.portStatus)) := rfl

theorem exec_i2cTransfer (n : Ring) (s : State) : exec (.i2cTransfer n) s = .next (s.withChip (s.chip.i2cTransfer n)) := rfl

/-- A port named by its number. -/
theorem portNo_of_val {k : Nat} {p : Port} (h : k = p.val) : portNo k = p := by
  subst h
  exact Fin.ext (Nat.mod_eq_of_lt p.isLt)

theorem port_le_of_val {k : Nat} {p : Port} (h : k = p.val) : k ≤ 7 := h ▸ Nat.le_of_lt_succ p.isLt

/-- An I2C master named by its number. -/
theorem i2cNo_of_val {k : Nat} {m : Fin 4} (h : k = m.val) : i2cNo k = m := by
  subst h
  exact Fin.ext (Nat.mod_eq_of_lt m.isLt)

/-! ### PORT_CONFIG (R325, R416) -/

/-- EYE_CTRL as PORT_CONFIG gives it, EN 0 (R325). -/
def Cmd.portCtrl (q : Cmd) : Word :=
  w32 (q.le 14 1 * 2 + q.le 23 1 * 8 + q.bit 22 0 * 16 + q.le 9 1 * 32 + q.le 12 1 * 256 + q.le 13 1 * 2 ^ 16 + q.le 15 1 * 2 ^ 24)

/-- EYE_LANE as PORT_CONFIG gives it (R325). -/
def Cmd.portLane (q : Cmd) : Word := w32 (q.le 10 1 + q.le 11 1 % 32 * 2 ^ 8 + q.le 36 2 * 2 ^ 16)

/-- PORT_CONFIG's stores to the registers of port p (R325). -/
def Chip.putPortRegs (p : Port) (q : Cmd) (c : Chip) : Chip :=
  forEach [(R.EYE_CTRL p, q.portCtrl), (R.EYE_LANE p, q.portLane), (R.EYE_BUF p, w32 (q.le 16 4)), (R.EYE_STRIDE p, w32 (q.le 20 2)),
    (R.EYE_CROP_POS p, q.pair13 24), (R.EYE_CROP_SIZE p, q.pair13 28), (R.EYE_OUT_SIZE p, q.pair13 32)]
    (fun e c => c.storeEyePage e.1 e.2) c

/-- Both coefficient tables of port p, for the sizes that PORT_CONFIG gives (R416). -/
def Chip.putCoefs (p : Port) (q : Cmd) (c : Chip) : Chip :=
  (c.loadCoefs p 0 (sat13 (q.le 28 2)) (sat13 (q.le 32 2))).loadCoefs p 1 (sat13 (q.le 30 2)) (sat13 (q.le 34 2))

/-- PORT_CONFIG's work: registers, coefficients, the FSYNC settings, and the port marked configured (R325). -/
def Chip.putPort (p : Port) (q : Cmd) (c : Chip) : Chip :=
  ((((c.putPortRegs p q).putCoefs p q).storePrk 0 (R.PRK_FS_POS p) (w32 (q.le 40 4))).storePrk 0 (R.PRK_FS_CTRL p)
    (w32 (q.le 44 4))).onTirba fun t => { t with ports := if t.ports.contains p.val then t.ports else t.ports ++ [p.val] }

/-- The checks of PORT_CONFIG for port p (R325, R307). -/
def Chip.portChecks (p : Port) (q : Cmd) (c : Chip) : List (Bool × Nat × Nat) :=
  portFieldChecks q ++ rangeChecks (q.le 16 4) (portBytes q) ++ [(c.eyeBusy p, 5, 0x11)]

theorem Chip.portConfig_of_pass {c : Chip} {q : Cmd} {p : Port} (hp : q.le 8 1 = p.val) (h : firstOf (c.portChecks p q) = none) :
    c.portConfig q = (c.putPort p q).ok [] := by
  obtain rfl := portNo_of_val hp
  rw [Chip.portConfig]
  exact Chip.checked_of_pass h c _

/-! ### PORT_CONTROL (R326) -/

/-- The input rate that the ports would have together with port p started. -/
def Chip.inputRate (p : Port) (c : Chip) : Rat :=
  (((List.finRange 8).filter fun m => m ≠ p ∧ c.eyeBusy m).map c.portRate).foldl (· + ·) (c.portRate p)

section
variable {c : Chip} {q : Cmd} {p : Port} (hp : q.le 8 1 = p.val)
include hp

section
variable (hstart : q.le 9 1 = 1) (hconfigured : c.tirba.ports.contains p.val = true)
include hstart hconfigured

/-- A start of a configured port comes to its EN, and then to the rate limit. -/
theorem Chip.portStart_of_configured : c.portStart q =
    if c.rb (R.EYE_CTRL p) 0 then c.ok []
    else if 2400 < c.inputRate p then c.no 4 0x11
    else (c.storeEyePage (R.EYE_CTRL p) (setBit (c.rd (R.EYE_CTRL p)) 0 true)).ok [] := by
  have hport := port_le_of_val hp
  obtain rfl := portNo_of_val hp
  have hpass : firstOf [(decide (7 < q.le 8 1), 4, 0x10), (decide (1 < q.le 9 1), 4, 0x11),
      (!c.tirba.ports.contains (portNo (q.le 8 1)).val, 5, 0x11)] = none :=
    firstOf_eq_none_iff.mpr (by simpa [hport, hstart] using hconfigured)
  simp only [Chip.portStart, hpass]
  rfl

theorem Chip.portStart_of_on (hon : c.rb (R.EYE_CTRL p) 0 = true) : c.portStart q = c.ok [] := by
  rw [Chip.portStart_of_configured hp hstart hconfigured, if_pos hon]

theorem Chip.portStart_of_off (hoff : c.rb (R.EYE_CTRL p) 0 = false) (hrate : c.inputRate p ≤ 2400) :
    c.portStart q = (c.storeEyePage (R.EYE_CTRL p) (setBit (c.rd (R.EYE_CTRL p)) 0 true)).ok [] := by
  rw [Chip.portStart_of_configured hp hstart hconfigured, hoff, if_neg Bool.false_ne_true, if_neg (not_lt.mpr hrate)]

end

section
variable {n : Ring} (hfront : c.front n 0x0A1 (fun q => q.le 9 1 == 0) = some q)
include hfront

/-- A stop of a port that stands still ends at once, and so does one that has waited for it. -/
theorem Chip.portStop_of_still (hstill : c.eyeRunning p = false) : c.portStop n = c.endCmd n 0 0 [] := by
  have hport := port_le_of_val hp
  simp only [Chip.portStop, hfront, portNo_of_val hp, hstill, if_neg (Nat.not_lt.mpr hport), Bool.not_false, if_true, ite_self]

/-- A stop of a port that runs clears its EN, and waits where it goes on. -/
theorem Chip.portStop_of_running (hstage : q.stage = 0) (hrun : c.eyeRunning p = true) : c.portStop n =
    let d := c.storeEyePage (R.EYE_CTRL p) (setBit (c.rd (R.EYE_CTRL p)) 0 false)
    if d.eyeRunning p then d.toStage n 2 [d.time.toNat] else d.endCmd n 0 0 [] := by
  have hport := port_le_of_val hp
  simp only [Chip.portStop, hfront, portNo_of_val hp, hrun, hstage, if_neg (Nat.not_lt.mpr hport), if_true, Bool.not_true,
    Bool.false_eq_true, if_false]

/-- A stop that has waited for 100 ms aborts its port (assumption 109). -/
theorem Chip.portStop_of_late (hstage : q.stage ≠ 0) (hrun : c.eyeRunning p = true) (hlate : q.keep.getD 0 0 + 9600000 ≤ c.time.toNat) :
    c.portStop n = (c.eyeAbort p).endCmd n 0 0 [] := by
  simp only [Chip.portStop, hfront, portNo_of_val hp, hrun, if_neg hstage, if_pos hlate, Bool.not_true, Bool.false_eq_true, if_false]

end

end

/-! ### PORT_POLICY and PORT_STATUS (R327, R328) -/

/-- The policy that PORT_POLICY gives port p, kept for its next frame start (R327). -/
def Chip.putPolicy (p : Port) (q : Cmd) (c : Chip) : Chip :=
  c.onEye p fun k => { k with policy := some (w32 (q.le 9 1 + q.le 12 1 * 2 ^ 8 + q.le 13 1 * 2 ^ 10 + q.le 14 1 * 2 ^ 12 +
    q.le 15 1 * 2 ^ 16), w32 (q.le 10 2)) }

/-- The checks of PORT_POLICY's fields, but for its port and its fallback plane. -/
def Cmd.policyBeyond (q : Cmd) : Bool :=
  q.le 9 1 == 1 || decide (1000 < q.le 10 2) || decide (2 < q.le 12 1) || decide (2 < q.le 13 1) || decide (2 < q.le 14 1)

/-- What PORT_STATUS answers of port p. -/
def Chip.portAnswer (p : Port) (c : Chip) : List Byte :=
  res [(8, 1, (c.readEye (R.EYE_STAT p)).1.toNat % 16), (12, 4, (c.rd (R.EYE_FRAMES p)).toNat), (16, 2, (c.rd (R.EYE_FNUM p)).toNat),
    (20, 4, (c.rd (R.PRK_FS_CAP p)).toNat), (24, 4, (c.rd (R.EYE_PKTERR p)).toNat), (28, 4, (c.rd (R.EYE_EVCNT p)).toNat)]

section
variable {c : Chip} {q : Cmd} {p : Port} (hp : q.le 8 1 = p.val)
include hp

/-- PORT_POLICY takes its values at once on a port that does not run (assumption 41). -/
theorem Chip.portPolicy_of_pass (hbeyond : q.policyBeyond = false) (hplane : q.le 15 1 ≤ 7)
    (hfallback : q.le 12 1 = 2 ∨ q.le 13 1 = 2 ∨ q.le 14 1 = 2 →
      c.rb (R.GND_SH_CTRL (q.le 15 1)) 1 = c.rb (R.EYE_WIN_SH_CTRL p) 1) :
    c.portPolicy q = (if c.eyeRunning p then c.putPolicy p q else (c.putPolicy p q).policyTake p).ok [] := by
  have hport := port_le_of_val hp
  have hplane' : q.le 15 1 % 8 = q.le 15 1 := Nat.mod_eq_of_lt (Nat.lt_succ_of_le hplane)
  obtain rfl := portNo_of_val hp
  rw [Chip.portPolicy]
  refine Chip.checked_of_all ?_ c _
  simp only [List.forall_mem_cons, hplane']
  refine ⟨by simp [hport, hplane], hbeyond, ?_, by simp⟩
  simpa [or_assoc] using hfallback

theorem Chip.portStatus_of_port : c.portStatus q = c.ok (c.portAnswer p) := by
  have hport := port_le_of_val hp
  obtain rfl := portNo_of_val hp
  exact if_neg (Nat.not_lt.mpr hport)

end

/-! ### I2C_TRANSFER (R329) -/

/-- A master's registers loaded for a transaction, and the transaction started. -/
def Chip.i2cLoad (m : Fin 4) (q : Cmd) (c : Chip) : Chip :=
  let c := (c.storeSer (R.I2C_CTRL m) (w32 (1 + q.le 10 1 * 2))).storeSer (R.I2C_STAT m) 0x7E
  let c := forEach (List.range ((q.le 11 1 + 3) / 4)) (fun k c => c.storeSer (R.I2C_WBUF m k) (w32 (q.le (16 + 4 * k) 4))) c
  c.storeSer (R.I2C_XFER m) (w32 (q.le 9 1 + q.le 11 1 * 2 ^ 8 + q.le 12 1 * 2 ^ 16 + 2 ^ 31))

/-- The first k bytes that a master has read. -/
def Chip.i2cBytes (m : Fin 4) (k : Nat) (c : Chip) : List Byte :=
  ((List.range 8).flatMap fun i => leBytes 4 (c.rd (R.I2C_RBUF m i)).toNat).take k

section
variable {c : Chip} {n : Ring} {q : Cmd} {m : Fin 4} (hfront : c.front n 0x0A8 anyOf = some q) (hm : q.le 8 1 = m.val)
include hfront hm

theorem Chip.i2cTransfer_of_free (hstage : q.stage = 0) (haddr : q.le 9 1 ≤ 127) (hspeed : q.le 10 1 ≤ 2) (hwrite : q.le 11 1 ≤ 32)
    (hread : q.le 12 1 ≤ 32) (hfree : c.rb (R.I2C_STAT m) 0 = false) : c.i2cTransfer n = (c.i2cLoad m q).toStage n 2 [] := by
  have hmaster : q.le 8 1 ≤ 3 := hm ▸ Nat.le_of_lt_succ m.isLt
  have hpass : firstOf [(decide (3 < q.le 8 1) || decide (127 < q.le 9 1) || decide (2 < q.le 10 1) || decide (32 < q.le 11 1) ||
      decide (32 < q.le 12 1), 4, 0x11), (c.rb (R.I2C_STAT m) 0, 5, 0x12)] = none :=
    firstOf_eq_none_iff.mpr (by simp [hmaster, haddr, hspeed, hwrite, hread, hfree])
  simp only [Chip.i2cTransfer, hfront, hstage, i2cNo_of_val hm, hpass, if_true]
  rfl

/-- A transaction that has ended without an error answers what it has read. -/
theorem Chip.i2cTransfer_of_done (hstage : q.stage ≠ 0) (hidle : c.rb (R.I2C_STAT m) 0 = false) (hack : c.rb (R.I2C_STAT m) 2 = false)
    (hdone : c.rb (R.I2C_STAT m) 1 = true) :
    c.i2cTransfer n = c.endCmd n 0 0 (res [(16, q.le 12 1, leNat (c.i2cBytes m (q.le 12 1)))]) := by
  simp only [Chip.i2cTransfer, hfront, i2cNo_of_val hm, hidle, hack, hdone, if_neg hstage, if_true, Bool.false_eq_true, if_false]
  rfl

end

/-- Settles O28: a port's commands by its checks and by whether it runs, and a transaction of I2C at its start and at its end. -/
theorem tirbaPortsAndI2c : Obligations.TirbaPortsAndI2c := by
  unfold Obligations.TirbaPortsAndI2c
  intro n q s ends
  refine ⟨?config, ?start, ?stop, ?stopping, ?policy, ?status, ?i2c⟩
  case config =>
    intro hfront p hp hpass ctrl lane c d
    rw [exec_portConfig, Chip.once_of_front hfront (Chip.portConfig_of_pass hp hpass)]
    rfl
  case start =>
    intro hfront p hp hstart hconfigured
    rw [exec_portStart]
    refine ⟨fun hon => ?_, fun hoff hrate => ?_⟩
    · rw [Chip.once_of_front hfront (Chip.portStart_of_on hp hstart hconfigured hon)]
    · rw [Chip.once_of_front hfront (Chip.portStart_of_off hp hstart hconfigured hoff hrate)]
  case stop =>
    intro hfront hstage p hp
    rw [exec_portStop]
    refine ⟨fun hstill => ?_, fun hrun => ?_⟩
    · rw [Chip.portStop_of_still hp hfront hstill]
    · rw [Chip.portStop_of_running hp hfront hstage hrun]
      exact apply_ite (fun d => Host.Outcome.next (s.withChip d)) _ _ _
  case stopping =>
    intro hfront hstage p hp
    rw [exec_portStop]
    refine ⟨fun hstill => ?_, fun hrun hlate => ?_⟩
    · rw [Chip.portStop_of_still hp hfront hstill]
    · rw [Chip.portStop_of_late hp hfront hstage hrun hlate]
  case policy =>
    intro hfront p hp hkind hlost hact0 hact1 hact2 hplane hfallback c
    have hbeyond : q.policyBeyond = false := by simp [Cmd.policyBeyond, hkind, hlost, hact0, hact1, hact2]
    rw [exec_portPolicy, Chip.once_of_front hfront (Chip.portPolicy_of_pass hp hbeyond hplane hfallback)]
    exact ⟨fun hstill => by rw [if_neg (by simp [hstill])]; rfl, fun hrun => by rw [if_pos hrun]; rfl⟩
  case status =>
    intro hfront p hp
    rw [exec_portStatus, Chip.once_of_front hfront (Chip.portStatus_of_port hp)]
    rfl
  case i2c =>
    intro hfront m hm
    rw [exec_i2cTransfer]
    refine ⟨fun hstage haddr hspeed hwrite hread hfree => ?_, fun hstage hidle hack hdone => ?_⟩
    · rw [Chip.i2cTransfer_of_free hfront hm hstage haddr hspeed hwrite hread hfree]
      rfl
    · rw [Chip.i2cTransfer_of_done hfront hm hstage hidle hack hdone]
      rfl

end Sys2Proof.Machine
end

section
/-! Sound (11, R306, R307, R330 to R333, R515): a voice armed and controlled, a bus configured without an effect block, and an audio
port that is off. -/

namespace Sys2Proof.Machine

/-! ### The commands -/

theorem exec_voicePlay (n : Ring) (s : State) : exec (.voicePlay n) s = .next (s.withChip (s.chip.once n 0x0C0 anyOf Chip.voicePlay)) := rfl

theorem exec_voiceControlStop (n : Ring) (s : State) : exec (.voiceControlStop n) s = .next (s.withChip
    (s.chip.once n 0x0C1 (actionIs 9 0 3 true) fun q => Chip.voiceAct q false false fun v => Chip.voiceStop v)) := rfl

theorem exec_voiceControlRelease (n : Ring) (s : State) : exec (.voiceControlRelease n) s = .next (s.withChip
    (s.chip.once n 0x0C1 (actionIs 9 1 3 false) fun q => Chip.voiceAct q false false fun v => Chip.voiceRelease v)) := rfl

theorem exec_voiceControlGain (n : Ring) (s : State) : exec (.voiceControlGain n) s = .next (s.withChip
    (s.chip.once n 0x0C1 (actionIs 9 2 3 false) fun q => Chip.voiceAct q true (badGain (q.le 14 1) (q.le 16 2)) fun v =>
      Chip.voiceGain v (gainWord (q.le 12 2) (q.le 14 1) (q.le 16 2)))) := rfl

theorem exec_voiceControlPitch (n : Ring) (s : State) : exec (.voiceControlPitch n) s = .next (s.withChip
    (s.chip.once n 0x0C1 (actionIs 9 3 3 false) fun q => Chip.voiceAct q true false fun v =>
      Chip.store (R.V_PITCH v) (w32 (q.le 20 4)))) := rfl

theorem exec_busConfig (n : Ring) (s : State) : exec (.busConfig n) s =
    .next (s.withChip (s.chip.withPayload n 0x0C2 (fun q c => firstOf (c.busChecks q)) Chip.busConfig)) := rfl

theorem exec_audioPort (n : Ring) (s : State) : exec (.audioPort n) s = .next (s.withChip (s.chip.once n 0x0C3 anyOf Chip.audioPort)) := rfl

/-! ### VOICE_PLAY (R330) -/

/-- Bytes of the sample that VOICE_PLAY names. -/
def Cmd.voiceBytes (q : Cmd) : Nat := q.le 16 4 * fmtBytes (q.le 10 1)

/-- A field of VOICE_PLAY is past its limit. -/
def Cmd.voiceBeyond (q : Cmd) : Bool :=
  decide (7 < q.le 9 1) || decide (5 < q.le 10 1) || decide (15 < q.le 11 1) || badGain (q.le 34 1) (q.le 36 2)
    || decide (10000 < q.le 44 2) || decide (10000 < q.le 46 2)

/-- The sample of VOICE_PLAY is empty or too long, or its loop passes its end. -/
def Cmd.sampleBeyond (q : Cmd) : Bool :=
  q.le 16 4 == 0 || decide (2 ^ 25 ≤ q.le 16 4) || decide (vlmSize < q.le 12 4 + q.voiceBytes)
    || decide (q.le 16 4 < q.le 20 4 + q.le 24 4)

/-- The checks of VOICE_PLAY (R330). -/
def Chip.voiceChecks (q : Cmd) (c : Chip) : List (Bool × Nat × Nat) :=
  [(decide (95 < q.le 8 1), 4, 0x10), (q.voiceBeyond, 4, 0x11), (q.le 12 4 % 8 != 0, 4, 0x12), (q.sampleBeyond, 4, 0x11),
    (inTirba (q.le 12 4) q.voiceBytes, 4, 0x15), (c.vState (q.le 8 1) != 0, 5, 0x12)]

/-- The registers of voice v that VOICE_PLAY stores. -/
def Chip.putVoiceRegs (v : Nat) (q : Cmd) (c : Chip) : Chip :=
  forEach [(R.V_BASE v, q.le 12 4), (R.V_LENGTH v, q.le 16 4), (R.V_LOOP_START v, q.le 20 4), (R.V_LOOP_LEN v, q.le 24 4),
    (R.V_PITCH v, q.le 28 4), (R.V_ENV v, q.le 44 2 + q.le 46 2 * 2 ^ 16), (R.V_START v, q.le 40 4)] (fun e c => c.store e.1 (w32 e.2)) c

/-- The control word that arms the voice of VOICE_PLAY. -/
def Cmd.voiceWord (q : Cmd) : Word :=
  w32 (q.le 10 1 + q.le 9 1 * 2 ^ 4 + q.le 11 1 * 2 ^ 8 + 2 ^ 16 + (if q.le 40 4 = 0 then 0 else 2 ^ 20))

/-- VOICE_PLAY's work: the registers, the gain, and the voice armed (R330). -/
def Chip.putVoice (v : Nat) (q : Cmd) (c : Chip) : Chip :=
  ((c.putVoiceRegs v q).voiceGain v (gainWord (q.le 32 2) (q.le 34 1) (q.le 36 2))).voiceCtrl v q.voiceWord

theorem Chip.voicePlay_of_pass {c : Chip} {q : Cmd} (h : firstOf (c.voiceChecks q) = none) :
    c.voicePlay q = (c.putVoice (q.le 8 1) q).ok [] := by
  rw [Chip.voicePlay]
  exact Chip.checked_of_pass h c _

/-! ### VOICE_CONTROL (R331) -/

section
variable {c : Chip} {q : Cmd}

/-- An action of VOICE_CONTROL on a voice that is in one of the states that it needs. -/
theorem Chip.voiceAct_of_pass (hvoice : q.le 8 1 ≤ 95) (hact : q.le 9 1 ≤ 3) {needs bad : Bool}
    (hneeds : needs = true → c.vState (q.le 8 1) ≠ 0) (hbad : bad = false) (f : Nat → Chip → Chip) :
    Chip.voiceAct q needs bad f c = (f (q.le 8 1) c).ok [] := by
  rw [Chip.voiceAct]
  refine Chip.checked_of_all ?_ c _
  simpa [hvoice, hact, hbad] using hneeds

theorem Chip.voiceAct_of_noVoice (hvoice : 95 < q.le 8 1) (needs bad : Bool) (f : Nat → Chip → Chip) :
    Chip.voiceAct q needs bad f c = c.no 4 0x10 := by
  rw [Chip.voiceAct]
  exact Chip.checked_of_fail (firstOf_cons_of_fail (decide_eq_true hvoice) _ _) c _

end

/-! ### BUS_CONFIG (R332) -/

/-- A bus named by its number. -/
theorem busNo_of_val {k : Nat} {b : Bus} (h : k = b.val) : busNo k = b := by
  subst h
  exact Fin.ext (Nat.mod_eq_of_lt b.isLt)

/-- The control word that BUS_CONFIG gives a bus, but for its effect bits. -/
def Cmd.busWord (q : Cmd) : Nat := 1 + q.le 21 1 * 2 + (if q.le 28 1 = 0xFF then 3 else q.le 28 1) * 4 + q.le 29 1 * 16

/-- BUS_CONFIG's stores without an effect block: the gain, then the bus enabled, its effect left as it was (R332). -/
def Chip.putBus (b : Bus) (q : Cmd) (c : Chip) : Chip :=
  let c := c.storeSnd 0 (R.SND_BUS_GAIN b) (gainWord (q.le 22 2) (q.le 24 1) (q.le 26 2))
  c.storeSnd 0 (R.SND_BUS_CTRL b) (w32 (q.busWord + b2n (c.rb (R.SND_BUS_CTRL b) 8) * 0x100))

theorem Chip.busConfig_of_noRef {c : Chip} {q : Cmd} {b : Bus} (hb : q.le 20 1 = b.val) (href : q.ref = false) (bs : List Byte) :
    c.busConfig q bs = (c.putBus b q).ok [] := by
  obtain rfl := busNo_of_val hb
  exact if_neg (Bool.eq_false_iff.mp href)

/-! ### AUDIO_PORT (R333) -/

/-- AUD_CLK as AUDIO_PORT gives it: the rate, and of a port that is not master the port as the source (assumption 45). -/
def Cmd.audioClock (q : Cmd) : Word :=
  w32 (q.le 12 1 + (1 - q.bit 13 0) * 4 + (if q.bit 13 0 = 1 then 0 else q.le 8 1 * 16))

/-- A field of AUDIO_PORT names nothing that the port has. -/
def Cmd.audioBeyond (q : Cmd) : Bool :=
  decide (2 < q.le 8 1) || decide (1 < q.le 9 1) || decide (q.le 10 1 < 1) || decide (8 < q.le 10 1)
    || !([16, 24, 32].contains (q.le 11 1)) || decide (2 < q.le 12 1) || (q.bit 13 1 == 1 && q.le 10 1 != 2)

section
variable {q : Cmd}

/-- On a port that is off, whatever it was set to, the clock is set and then the port (assumption 45). -/
theorem Chip.audioPort_of_off {c : Chip} (hbeyond : q.audioBeyond = false) (hoff : c.rb (R.AUD_PCTRL (q.le 8 1)) 0 = false) :
    c.audioPort q = ((c.storeAud R.AUD_CLK q.audioClock).storeAud (R.AUD_PCTRL (q.le 8 1)) (w32 (audFields q + q.le 9 1))).ok [] := by
  rw [Chip.audioPort]
  refine (Chip.checked_of_all ?_ c _).trans ?_
  · simp only [List.forall_mem_cons]
    exact ⟨hbeyond, by simp [hoff], by simp⟩
  · simp only [hoff, Bool.false_eq_true, if_false]
    rfl

/-- The fields of slots of 24 bits that are no I2S. -/
theorem audFields_of_24 (hwidth : q.le 11 1 = 24) (hi2s : q.bit 13 1 = 0) : audFields q = q.bit 13 0 * 2 + (q.le 10 1 - 1) * 8 + 64 := by
  simp only [audFields, hwidth, hi2s, Nat.zero_mul, Nat.add_zero, Nat.one_mul]

end

/-- Settles O29: a voice, a bus and an audio port by the checks of their commands. -/
theorem tirbaSoundCommands : Obligations.TirbaSoundCommands := by
  unfold Obligations.TirbaSoundCommands
  intro n q s ends v
  refine ⟨?play, ?stop, ?noVoice, ?release, ?gain, ?pitch, ?bus, ?audio⟩
  case play =>
    intro hfront hvoice hbus hfmt hslot hgain hattack hrelease halign hlen hlong hend hloop htirba hidle c
    have hfields : q.voiceBeyond = false := by simp [Cmd.voiceBeyond, hbus, hfmt, hslot, hgain, hattack, hrelease]
    have hsample : q.sampleBeyond = false := by
      simp only [Cmd.sampleBeyond, Bool.or_eq_false_iff]
      exact ⟨⟨⟨beq_eq_false_iff_ne.mpr hlen, decide_eq_false (Nat.not_le.mpr hlong)⟩, decide_eq_false (Nat.not_lt.mpr hend)⟩,
        decide_eq_false (Nat.not_lt.mpr hloop)⟩
    have hplace : inTirba (q.le 12 4) q.voiceBytes = false := htirba
    have hpass : firstOf (s.chip.voiceChecks q) = none :=
      firstOf_eq_none_iff.mpr (by simpa [Chip.voiceChecks, hfields, hsample, halign, hplace] using ⟨hvoice, hidle⟩)
    rw [exec_voicePlay, Chip.once_of_front hfront (Chip.voicePlay_of_pass hpass)]
    rfl
  case stop =>
    intro hfront hact hvoice
    rw [exec_voiceControlStop, Chip.once_of_front hfront (Chip.voiceAct_of_pass hvoice hact Bool.false_ne_true.elim rfl _)]
  case noVoice =>
    intro hfront hvoice
    rw [exec_voiceControlStop, Chip.once_of_front hfront (Chip.voiceAct_of_noVoice hvoice _ _ _)]
  case release =>
    intro hfront hact hvoice
    rw [exec_voiceControlRelease, Chip.once_of_front hfront (Chip.voiceAct_of_pass hvoice hact Bool.false_ne_true.elim rfl _)]
  case gain =>
    intro hfront hact hvoice hplays hgain
    rw [exec_voiceControlGain, Chip.once_of_front hfront (Chip.voiceAct_of_pass hvoice hact (fun _ => hplays) hgain _)]
    rfl
  case pitch =>
    intro hfront hact hvoice hplays
    rw [exec_voiceControlPitch, Chip.once_of_front hfront (Chip.voiceAct_of_pass hvoice hact (fun _ => hplays) rfl _)]
  case bus =>
    intro hfront hstage href hpass b hb c port
    rw [exec_busConfig, Chip.withPayload_of_noRef hfront hstage href hpass (Chip.busConfig_of_noRef hb href [])]
    rfl
  case audio =>
    intro hfront hport hon hslot1 hslot8 hwidth hrate hi2s hoff master
    have hbeyond : q.audioBeyond = false := by
      have hport' : q.le 8 1 ≤ 2 := hport
      simp [Cmd.audioBeyond, hport', hon, Nat.one_le_iff_ne_zero.mp hslot1, hslot8, hwidth, hrate, hi2s]
    rw [exec_audioPort, Chip.once_of_front hfront (Chip.audioPort_of_off hbeyond hoff), audFields_of_24 hwidth hi2s, hon]
    rfl

end Sys2Proof.Machine
end

section
/-! Darning by request, the glass hold and the device's reset (11, R338 to R340, R486, R489, R680, R699). -/

namespace Sys2Proof.Machine

/-! ### The commands -/

theorem exec_darnRequest (n : Ring) (s : State) : exec (.darnRequest n) s = .next (s.withChip (s.chip.darnRequest n)) := rfl

theorem exec_glassHoldEnter (n : Ring) (s : State) : exec (.glassHoldEnter n) s = .next (s.withChip (s.chip.glassEnter n)) := rfl

theorem exec_glassHoldRelease (n : Ring) (s : State) : exec (.glassHoldRelease n) s = .next (s.withChip (s.chip.glassRelease n)) := rfl

theorem exec_glassHoldAdopt (n : Ring) (s : State) :
    exec (.glassHoldAdopt n) s = .next (s.withChip (s.chip.once n 0x0F8 (actionIs 9 2 2 false) Chip.glassAdopt)) := rfl

theorem exec_deviceResetWarm (n : Ring) (s : State) :
    exec (.deviceResetWarm n) s = .next (s.withChip (s.chip.deviceReset n (actionIs 8 0 1 true))) := rfl

theorem exec_deviceResetCold (n : Ring) (s : State) :
    exec (.deviceResetCold n) s = .next (s.withChip (s.chip.deviceReset n (actionIs 8 1 1 false))) := rfl

/-- A variant that takes no other byte takes its own action. -/
theorem actionIs_false_iff {byte act last : Nat} {q : Cmd} : actionIs byte act last false q = true ↔ q.le byte 1 = act := by
  simp [actionIs]

/-! ### DARN_REQUEST (R338) -/

/-- The checks of DARN_REQUEST: there is such a kind, and such a unit of it. -/
def Cmd.darnChecks (q : Cmd) : List (Bool × Nat × Nat) :=
  [(decide (5 < q.le 8 1), 4, 0x11), (q.le 8 1 == 5 && (decide (q.le 10 2 < 1) || decide (6 < q.le 10 2)), 4, 0x11),
    (decide (q.le 8 1 < 5) && decide (darnUnits (q.le 8 1) ≤ q.le 10 2), 4, 0x10)]

/-- A unit of a kind that is no core passes the checks of DARN_REQUEST. -/
theorem Cmd.darnChecks_pass {q : Cmd} (hkind : q.le 8 1 < 5) (hunit : q.le 10 2 < darnUnits (q.le 8 1)) : firstOf q.darnChecks = none :=
  firstOf_eq_none_iff.mpr (by simp [Cmd.darnChecks, hkind, hkind.le, hkind.ne, hunit])

section
variable {c : Chip} {n : Ring} {q : Cmd} (hfront : c.front n 0x0F1 anyOf = some q)
include hfront

theorem Chip.darnRequest_of_pass (hstage : q.stage = 0) (hpass : firstOf q.darnChecks = none) :
    c.darnRequest n = c.darnBegin n (q.le 8 1) (q.le 10 2) := by
  rw [Cmd.darnChecks] at hpass
  simp only [Chip.darnRequest, hfront, hstage, hpass, if_true]

theorem Chip.darnRequest_of_waiting (hstage : q.stage ≠ 0) : c.darnRequest n = c.darnWait n (q.le 8 1) (q.le 10 2) q := by
  simp only [Chip.darnRequest, hfront, if_neg hstage]

end

section
variable {c : Chip} {u : Nat}

theorem Chip.darnBegin_of_served (h : c.physBank u ≠ u) (n : Ring) : c.darnBegin n 0 u = c.endCmd n 5 0x12 [] := if_pos h

theorem Chip.darnWait_of_served (h : c.physBank u ≠ u) (n : Ring) (q : Cmd) : c.darnWait n 0 u q = c.endCmd n 0 0 [] := if_pos h

section
variable (hown : c.physBank u = u)
include hown

theorem Chip.darnBegin_of_copying (hcopy : c.copyActive = true) (n : Ring) : c.darnBegin n 0 u = c.endCmd n 1 0x11 [] :=
  (if_neg (not_not.mpr hown)).trans (if_pos hcopy)

/-- Without a free spare nothing is copied: Tirba posts NO_SPARE (R675). -/
theorem Chip.darnBegin_of_noSpare (hidle : c.copyActive = false) (hspares : c.freeSpares = []) (n : Ring) :
    c.darnBegin n 0 u = c.noSpare n u := by
  simp only [Chip.darnBegin, hown, ne_eq, not_true_eq_false, if_false, hidle, Bool.false_eq_true, Chip.darnBank, hspares]

end

theorem Chip.darnBegin_of_freeSlice (hfree : c.motif.spareFor = none) (n : Ring) :
    c.darnBegin n 2 u = (c.storeVlm R.DRN_SLICE (w32 (u + 2 ^ 9))).endCmd n 0 0 [] := by
  simp only [Chip.darnBegin, hfree]

end

/-! ### GLASS_HOLD (R339, R486, R489, R699) -/

/-- Fields of GLASS_HOLD that name Beams and one of its actions pass their checks. -/
theorem holdFields_pass {q : Cmd} (hmask : q.le 8 1 ≤ 3) (hbeam : q.le 8 1 ≠ 0) (hact : q.le 9 1 ≤ 2) : ∀ e ∈ holdFields q, e.1 = false := by
  simp [holdFields, maskChecks, hmask, hbeam, hact]

/-- The frame that a hold of GLASS_HOLD shows on Beam b, 0 where its mask does not name the Beam. -/
def Chip.heldFrame (q : Cmd) (b : Beam) (c : Chip) : Nat :=
  if (beamsOf (q.le 8 1)).contains b then (c.rd (R.BMO_HOLD_FRAME b)).toNat else 0

section
variable {c : Chip} {n : Ring} {q : Cmd}

section
variable (hfront : c.front n 0x0F8 (actionIs 9 0 2 true) = some q)
include hfront

/-- An entry on Beams that run and are set up for it starts the hold on each. -/
theorem Chip.glassEnter_of_ready (hstage : q.stage = 0) (hfields : ∀ e ∈ holdFields q, e.1 = false)
    (hready : ∀ b ∈ beamsOf (q.le 8 1), c.running b = true ∧ c.holdUnset b = false ∧ c.holdSt b = 0) :
    c.glassEnter n = (forEach (beamsOf (q.le 8 1)) Chip.holdEnter c).toStage n 2 [] := by
  have hpass : firstOf (holdFields q ++ [((beamsOf (q.le 8 1)).any fun b => !c.running b || c.holdUnset b, 5, 0x11),
      ((beamsOf (q.le 8 1)).any fun b => c.holdSt b != 0, 5, 0x12)]) = none := by
    refine firstOf_eq_none_iff.mpr (List.forall_mem_append.mpr ⟨hfields, ?_⟩)
    simp only [List.forall_mem_cons, List.any_eq_false]
    refine ⟨fun b hb => ?_, fun b hb => ?_, by simp⟩ <;> simp [hready b hb]
  simp only [Chip.glassEnter, hfront, hstage, hpass, if_true]

/-- An entry ends once every one of its Beams is held, and Tirba keeps the holds on record. -/
theorem Chip.glassEnter_of_held (hstage : q.stage ≠ 0) (hheld : ∀ b ∈ beamsOf (q.le 8 1), c.holdSt b = 2) : c.glassEnter n =
    (forEach (beamsOf (q.le 8 1)) (fun b c => c.holdMark b true) c).endCmd n 0 0 (res [(8, 4, c.heldFrame q 0), (12, 4, c.heldFrame q 1)]) := by
  have hnone : ((beamsOf (q.le 8 1)).any fun b => c.holdSt b == 0) = false :=
    List.any_eq_false.mpr fun b hb => by simp [hheld b hb]
  have hall : ((beamsOf (q.le 8 1)).all fun b => c.holdSt b == 2) = true :=
    List.all_eq_true.mpr fun b hb => beq_iff_eq.mpr (hheld b hb)
  simp only [Chip.glassEnter, hfront, if_neg hstage, hnone, hall, Bool.false_eq_true, if_false, if_true]
  rfl

end

section
variable (hfront : c.front n 0x0F8 (actionIs 9 1 2 false) = some q)
include hfront

/-- A release of held Beams starts it on each, and clears the records. -/
theorem Chip.glassRelease_of_held (hstage : q.stage = 0) (hfields : ∀ e ∈ holdFields q, e.1 = false)
    (hheld : ∀ b ∈ beamsOf (q.le 8 1), c.running b = true ∧ c.holdSt b = 2) :
    c.glassRelease n = (forEach (beamsOf (q.le 8 1)) (fun b c => (c.holdRelease b).holdMark b false) c).toStage n 2 [] := by
  have hpass : firstOf (holdFields q ++ [((beamsOf (q.le 8 1)).any fun b => !c.running b, 5, 0x11),
      ((beamsOf (q.le 8 1)).any fun b => c.holdSt b != 2, 5, 0x12)]) = none := by
    refine firstOf_eq_none_iff.mpr (List.forall_mem_append.mpr ⟨hfields, ?_⟩)
    simp only [List.forall_mem_cons, List.any_eq_false]
    refine ⟨fun b hb => ?_, fun b hb => ?_, by simp⟩ <;> simp [hheld b hb]
  simp only [Chip.glassRelease, hfront, hstage, hpass, if_true]

/-- A release ends once every one of its Beams shows video again. -/
theorem Chip.glassRelease_of_video (hstage : q.stage ≠ 0) (hfree : ∀ b ∈ beamsOf (q.le 8 1), c.holdSt b = 0)
    (hvideo : ∀ b ∈ beamsOf (q.le 8 1), c.link b = 2) : c.glassRelease n = c.endCmd n 0 0 [] := by
  have hend : ((beamsOf (q.le 8 1)).all fun b => c.holdSt b == 0) = true :=
    List.all_eq_true.mpr fun b hb => beq_iff_eq.mpr (hfree b hb)
  have hlink : ((beamsOf (q.le 8 1)).all fun b => c.link b == 2) = true :=
    List.all_eq_true.mpr fun b hb => beq_iff_eq.mpr (hvideo b hb)
  simp only [Chip.glassRelease, hfront, if_neg hstage, hend, hlink, if_true]

end

/-- Beams that have not run since the reset take their holds over from before it. -/
theorem Chip.glassAdopt_of_fresh (hfields : ∀ e ∈ holdFields q, e.1 = false)
    (hfresh : ∀ b ∈ beamsOf (q.le 8 1), c.tirba.started[b] = false ∧ c.running b = false) :
    c.glassAdopt q = (forEach (beamsOf (q.le 8 1)) (fun b c => (c.wb (R.BMO_HOLD b) 2 true).holdMark b true) c).ok [] := by
  rw [Chip.glassAdopt]
  refine Chip.checked_of_all (List.forall_mem_append.mpr ⟨hfields, ?_⟩) c _
  rw [List.forall_mem_singleton, List.any_eq_false]
  exact fun b hb => by simp [hfresh b hb]

end

/-! ### DEVICE_RESET (R340) -/

/-- A DEVICE_RESET with its key, while no firmware command runs, ends with its reset on its completion. -/
theorem Chip.deviceReset_of_pass {c : Chip} {n : Ring} {sel : Cmd → Bool} {q : Cmd} (hfront : c.front n 0x0F9 sel = some q)
    (hkind : q.le 8 1 ≤ 1) (hkey : q.le 12 4 = 0x52535444) (hfw : (c.runsNow 0x100 || c.runsNow 0x101) = false) :
    c.deviceReset n sel = (c.endFront n 0 0 [] (some (q.le 8 1 == 1))).settleAll := by
  have hpass : firstOf [(decide (1 < q.le 8 1) || q.le 12 4 != 0x52535444, 4, 0x11), (c.runsNow 0x100 || c.runsNow 0x101, 5, 0x12)] = none :=
    firstOf_eq_none_iff.mpr (by simpa [hkind, hkey] using hfw)
  simp only [Chip.deviceReset, hfront, hpass]

/-- Settles O31: a request by its unit and its spares, a hold by the state of its Beams, and a reset by its key. -/
theorem tirbaDarningHoldAndReset : Obligations.TirbaDarningHoldAndReset := by
  unfold Obligations.TirbaDarningHoldAndReset
  intro n q s ends
  have hbeams : beamsOf 1 = [0] := by decide
  have hfields : q.le 8 1 = 1 → q.le 9 1 ≤ 2 → ∀ e ∈ holdFields q, e.1 = false := fun hmask hact =>
    holdFields_pass (by omega) (by omega) hact
  refine ⟨?darn, ?darnWait, ?enter, ?release, ?adopt, ?reset⟩
  case darn =>
    intro hfront hstage
    simp only [exec_darnRequest]
    have hbank : q.le 8 1 = 0 → q.le 10 2 < 96 → s.chip.darnRequest n = s.chip.darnBegin n 0 (q.le 10 2) := fun hkind hunit => by
      rw [Chip.darnRequest_of_pass hfront hstage (Cmd.darnChecks_pass (by omega) (by rw [hkind]; exact hunit)), hkind]
    refine ⟨fun hkind hunit hserved => ?served, fun hkind hunit hown hcopy => ?copying, fun hkind hunit hown hidle hspares => ?noSpare,
      fun hkind hunit hfree => ?slice⟩
    case served => rw [hbank hkind hunit, Chip.darnBegin_of_served hserved]
    case copying => rw [hbank hkind hunit, Chip.darnBegin_of_copying hown hcopy]
    case noSpare => rw [hbank hkind hunit, Chip.darnBegin_of_noSpare hown hidle hspares]; rfl
    case slice =>
      rw [Chip.darnRequest_of_pass hfront hstage (Cmd.darnChecks_pass (by omega) (by rw [hkind]; exact hunit)), hkind,
        Chip.darnBegin_of_freeSlice hfree]
  case darnWait =>
    intro hfront hstage hkind hserved
    rw [exec_darnRequest, Chip.darnRequest_of_waiting hfront hstage, hkind, Chip.darnWait_of_served hserved]
  case enter =>
    intro hfront hmask hact
    rw [exec_glassHoldEnter]
    refine ⟨fun hstage hrun hset hfree => ?_, fun hstage hheld => ?_⟩
    · rw [Chip.glassEnter_of_ready hfront hstage (hfields hmask (by omega)) (by simp [hmask, hbeams, hrun, hset, hfree]), hmask, hbeams]
      rfl
    · rw [Chip.glassEnter_of_held hfront hstage (by simp [hmask, hbeams, hheld])]
      simp only [Chip.heldFrame, hmask, hbeams]
      rfl
  case release =>
    intro hfront hmask
    have hact := actionIs_false_iff.mp (Chip.sel_of_front hfront)
    rw [exec_glassHoldRelease]
    refine ⟨fun hstage hrun hheld => ?_, fun hstage hfree hvideo => ?_⟩
    · rw [Chip.glassRelease_of_held hfront hstage (hfields hmask (by omega)) (by simp [hmask, hbeams, hrun, hheld]), hmask, hbeams]
      rfl
    · rw [Chip.glassRelease_of_video hfront hstage (by simp [hmask, hbeams, hfree]) (by simp [hmask, hbeams, hvideo])]
  case adopt =>
    intro hfront hmask hfresh hstopped
    have hact := actionIs_false_iff.mp (Chip.sel_of_front hfront)
    rw [exec_glassHoldAdopt, Chip.once_of_front hfront (Chip.glassAdopt_of_fresh (hfields hmask (by omega))
      (by simpa [hmask, hbeams, hstopped] using hfresh)), hmask, hbeams]
    rfl
  case reset =>
    intro hkey hfw
    refine ⟨fun hfront hkind => ?_, fun hfront hkind => ?_⟩
    · rw [exec_deviceResetWarm, Chip.deviceReset_of_pass hfront (by omega) hkey hfw, hkind]
      rfl
    · rw [exec_deviceResetCold, Chip.deviceReset_of_pass hfront (by omega) hkey hfw, hkind]
      rfl

end Sys2Proof.Machine
end

section
/-! Raster programs and the repair of cores (11, 24, R155, R347 to R350, R689 to R693): a program loaded, stopped and started, the
self-test of a faulted beam core, its adoption by core 7, and the faults of cores 7 and 0. -/

namespace Sys2Proof.Machine

/-! ### The commands -/

theorem exec_rasterLoad (n : Ring) (s : State) : exec (.rasterLoad n) s =
    .next (s.withChip (s.chip.withPayload n 0x130 (fun q c => firstOf (c.loadChecks q)) Chip.rasterLoad)) := rfl

theorem exec_rasterStop (n : Ring) (s : State) :
    exec (.rasterStop n) s = .next (s.withChip (s.chip.once n 0x131 (fun q => q.le 9 1 != 1) Chip.rasterStop)) := rfl

theorem exec_rasterStart (n : Ring) (s : State) :
    exec (.rasterStart n) s = .next (s.withChip (s.chip.once n 0x131 (fun q => q.le 9 1 == 1) Chip.rasterStart)) := rfl

theorem exec_rasterStatus (n : Ring) (s : State) :
    exec (.rasterStatus n) s = .next (s.withChip (s.chip.once n 0x132 anyOf Chip.rasterStatus)) := rfl

theorem exec_coreSelfTest (n : Core) (pass : Bool) (s : State) :
    exec (.coreSelfTest n pass) s = .next (s.withChip (s.chip.selfTest n pass)) := rfl

theorem exec_adoption (n : Core) (s : State) : exec (.adoption n) s = .next (s.withChip (s.chip.adoption n)) := rfl

theorem exec_adoptedProgramStart (s : State) : exec .adoptedProgramStart s = .next (s.withChip s.chip.adoptStart) := rfl

theorem exec_core7Fault (s : State) : exec .core7Fault s = .next (s.withChip s.chip.core7Fault) := rfl

theorem exec_core0Restart (s : State) : exec .core0Restart s = .next (s.withChip s.chip.core0Restart) := rfl

/-! ### The number of a beam core (R306) -/

theorem coreChecks_pass {k : Nat} (hlo : 1 ≤ k) (hhi : k ≤ 6) : ∀ e ∈ coreChecks k, e.1 = false := by
  have h0 : k ≠ 0 := Nat.ne_of_gt hlo
  have h7 : k ≠ 7 := Nat.ne_of_lt (Nat.lt_succ_of_le hhi)
  simp [coreChecks, hhi.trans (by decide : 6 ≤ 7), h0, h7]

/-- Cores 0 and 7 are no beam cores. -/
theorem firstOf_coreChecks_of_other {k : Nat} (h : k = 0 ∨ k = 7) (l : List (Bool × Nat × Nat)) :
    firstOf (coreChecks k ++ l) = some (4, 0x11) := by
  obtain rfl | rfl := h <;> rfl

/-! ### RASTER_LOAD (R347, R348) -/

/-- A program as RASTER_LOAD leaves it: loaded, at its places, with its parameters (R347). -/
def Chip.loadedRaster (q : Cmd) (bs : List Byte) (pl : Placing) (c : Chip) : RasterSt :=
  { c.raster (coreNo (q.le 20 1)) with
    state := 1, traps := 0, cover := c.unitCover (beamOf (coreNo (q.le 20 1))), codeBase := pl.code, dataBase := pl.data
    pc2 := pl.codeLog, pd2 := pl.dataLog, entry := q.le 30 2, code := bs.take (q.le 24 2), data := bs.drop (q.le 24 2)
    dataSize := q.le 28 2, params := (List.range 4).map fun i => w32 (q.le (32 + 4 * i) 4)
    wdg := if w32 (q.le 48 4) = 0 then c.frameLineTicks (beamOf (coreNo (q.le 20 1))) else w32 (q.le 48 4) }

/-- RASTER_LOAD's work: the program installed, placed in memory, and its regions set (R347, R348). -/
def Chip.putRaster (q : Cmd) (bs : List Byte) (pl : Placing) (c : Chip) : Chip :=
  ((c.onRaster (coreNo (q.le 20 1)) fun _ => c.loadedRaster q bs pl).putProgram (c.loadedRaster q bs pl) (coreNo (q.le 20 1))).putRegions
    (coreNo (q.le 20 1)) (coreNo (q.le 20 1))

theorem Chip.rasterLoad_of_placed {c : Chip} {q : Cmd} {pl : Placing} (hpass : firstOf (c.loadChecks q) = none)
    (hplace : placing 0x00104000 (q.le 24 2) (q.le 28 2) = some pl) (hstart : q.bit 21 0 = 0) (bs : List Byte) :
    c.rasterLoad q bs = (c.putRaster q bs pl).ok (res [(8, 4, pl.code), (12, 4, pl.data), (16, 1, pl.codeLog), (17, 1, pl.dataLog)]) := by
  rw [Chip.rasterLoad]
  refine (Chip.checked_of_pass hpass c _).trans ?_
  simp only [hplace, hstart]
  rfl

/-! ### RASTER_CONTROL and RASTER_STATUS (R349, R350) -/

/-- What writes of registers leave, a store of a core leaves. -/
theorem Chip.store_same {β : Type} {g : Chip → β} (hg : ∀ a v c, g (Chip.wr a v c) = g c) (a : Nat) (v : Word) (c : Chip) :
    g (c.store a v) = g c := by
  unfold Chip.store
  split
  · exact hg _ _ _
  · rfl

theorem Chip.coreRestart_tirba (n : Core) (c : Chip) : (c.coreRestart n).tirba = c.tirba := by
  rw [Chip.coreRestart, Chip.coreRelease_eq, Chip.onCore_tirba, Chip.bankReset_same (g := Chip.tirba) fun _ _ _ => rfl,
    Chip.releaseYlx_same (g := Chip.tirba) fun _ _ _ => rfl]
  rfl

/-- A core brought to its stub leaves what Tirba keeps. -/
theorem Chip.toStub_tirba (n : Core) (c : Chip) : (c.toStub n).tirba = c.tirba := by
  have hwdg : ∀ (v : Word) (d : Chip), (d.storeYlx n 0x040 v).tirba = d.tirba := fun v d => by
    show (if d.rb (R.YLX_WDG_CTRL n) 2 then d else d.store _ v).tirba = d.tirba
    split
    · rfl
    · exact Chip.store_same (g := Chip.tirba) (fun _ _ _ => rfl) _ _ _
  rw [Chip.toStub, hwdg, Chip.onCore_tirba, Chip.coreRestart_tirba]

/-- A program that runs, is trapped or is held is stopped by its core's restart; without an adoption there is none to end. -/
theorem Chip.stopProgram_of_core {c : Chip} {r run : Core} (hstate : 2 ≤ (c.raster r).state) (hcore : c.runCore r = some run)
    (hadopt : c.tirba.adopt = none) : c.stopProgram r = (c.toStub run).onRaster r fun p => { p with state := 1 } := by
  have hkept : ((c.toStub run).onRaster r fun p => { p with state := 1 }).tirba.adopt = none :=
    (congrArg TirbaSt.adopt (c.toStub_tirba run)).trans hadopt
  simp only [Chip.stopProgram, if_pos hstate, hcore, hkept, Option.any_none]
  rfl

section
variable {c : Chip} {q : Cmd}

theorem Chip.rasterStop_of_noBeamCore (h : q.le 8 1 = 0 ∨ q.le 8 1 = 7) : c.rasterStop q = c.no 4 0x11 :=
  Chip.checked_of_fail (firstOf_coreChecks_of_other h _) c _

variable (hlo : 1 ≤ q.le 8 1) (hhi : q.le 8 1 ≤ 6)
include hlo hhi

theorem Chip.rasterStop_of_beamCore (hact : q.le 9 1 ≤ 1) : c.rasterStop q = (c.stopProgram (coreNo (q.le 8 1))).ok [] := by
  refine Chip.checked_of_all (List.forall_mem_append.mpr ⟨coreChecks_pass hlo hhi, ?_⟩) c _
  simpa using hact

/-- A program that is loaded starts on the core that runs it; one that core 7 has adopted counts as started. -/
theorem Chip.rasterStart_of_stopped {run : Core} (hstate : (c.raster (coreNo (q.le 8 1))).state = 1)
    (hcore : c.runCore (coreNo (q.le 8 1)) = some run) : c.rasterStart q =
    ((c.startProgram (coreNo (q.le 8 1)) run ((List.range 4).map fun i => w32 (q.le (12 + 4 * i) 4))).onTirba fun t =>
      { t with adopt := t.adopt.map fun a => if a.core = coreNo (q.le 8 1) then { a with started := true } else a }).ok [] := by
  rw [Chip.rasterStart]
  refine (Chip.checked_of_all (List.forall_mem_append.mpr ⟨coreChecks_pass hlo hhi, ?_⟩) c _).trans ?_
  · simp [hstate, hcore]
  · simp only [hcore]

/-- The core that RASTER_STATUS names. -/
def Chip.statusCore (r : Core) (c : Chip) : Nat := if c.runCore r = some 7 then 7 else r.val

theorem Chip.rasterStatus_of_beamCore : c.rasterStatus q = c.ok (res [(8, 1, (c.raster (coreNo (q.le 8 1))).state),
    (9, 1, (c.raster (coreNo (q.le 8 1))).cause), (10, 1, c.statusCore (coreNo (q.le 8 1))),
    (12, 4, (c.raster (coreNo (q.le 8 1))).epc.toNat), (16, 4, (c.raster (coreNo (q.le 8 1))).faddr.toNat),
    (20, 4, (c.raster (coreNo (q.le 8 1))).traps)]) := by
  rw [Chip.rasterStatus]
  exact Chip.checked_of_all (coreChecks_pass hlo hhi) c _

end

/-! ### The self-test and adoption (R689 to R691) -/

section
variable {c : Chip} {n : Core} (hup : c.tirbaUp = true) (hbeam : c.beamCore n = true)
include hup hbeam

theorem Chip.selfTest_of_fault (hheld : c.heldCore n = true) (hfault : c.coreFault n = true) (pass : Bool) : c.selfTest n pass =
    if pass then (c.clearFault n).toStub n
    else (c.clearFault n).onDrn fun d => { d with selfFail := insertSorted n.val d.selfFail } := by
  rw [Chip.selfTest]
  exact if_neg (by simp [hup, hbeam, hheld, hfault])

theorem Chip.adoption_of_failed (hfail : c.drn.selfFail.contains n.val = true) : c.adoption n = c.adoptCore n (c.raster n).faultAt := by
  rw [Chip.adoption]
  exact if_pos (by rw [hup, hbeam, hfail]; rfl)

end

/-- An adopted program starts at the first VB0 of its Beam from 1 ms after the fault (R690). -/
theorem Chip.adoptStart_of_due {c : Chip} {a : AdoptSt} (hadopt : c.tirba.adopt = some a) (hstarts : a.starts = true)
    (hnew : a.started = false) (hfree : c.heldCore 7 = false) (hlater : a.since.toNat + 96000 ≤ c.time.toNat)
    (hline : c.atLine a.beam (c.beam a.beam).vactive = true) : c.adoptStart =
    (c.onTirba fun t => { t with adopt := some { a with started := true } }).startProgram a.core 7 (c.raster a.core).params := by
  simp only [Chip.adoptStart, hadopt]
  exact if_pos ⟨hstarts, by simp [hnew], by simp [hfree], hlater, hline⟩

/-! ### Core 7 and core 0 (R692, R693) -/

theorem Chip.core7Fault_of_fault {c : Chip} (hup : c.tirbaUp = true) (hfault : c.coreFault 7 = true) :
    c.core7Fault = (((c.coreHold 7).clearFault 7).onTirba fun t => { t with core7Lost := true }).adoptEnd := by
  rw [Chip.core7Fault]
  exact if_pos (by rw [hup, hfault]; rfl)

/-- Core 0 started again on the image that runs, with READY dropped. -/
def Chip.restart0 (c : Chip) : Chip :=
  ((((c.wr (R.YLX_ENTRY 0) c.tirba.runEntry).coreRestart 0).clearFault 0).onCore 0 fun k => { k with latch := true }).wb R.MBX_STAT 0 false

/-- Every ring off, neither frayed nor in reset. -/
def Chip.ringsOff (c : Chip) : Chip :=
  (((((c.wr (R.MBX_RING_EN 0) 0).wr (R.MBX_RING_EN 1) 0).wr (R.MBX_FRAYED 0) 0).wr (R.MBX_FRAYED 1) 0).wr (R.MBX_RESET 0) 0).wr
    (R.MBX_RESET 1) 0

/-- A bus-master read that is a Bobbin's outlasts core 0. -/
def BmRead.ofBobbin (b : BmRead) : Bool := match b.owner with
  | .bobbin _ => true
  | _ => false

/-- The commands of every ring lost, the sessions kept. -/
def Chip.commandsLost (c : Chip) : Chip :=
  c.onTirba fun t => { t with
    rings := t.rings.map RingSt.lost, bm := t.bm.filter BmRead.ofBobbin
    sessions := t.sessions.map fun s => s.map fun s => { s with closing := false, aborted := 0 } }

theorem Chip.commandsLost_regs (c : Chip) : c.commandsLost.regs = c.regs := rfl

theorem Chip.rd_countFlight_ne {a : Nat} (ha : a ≠ R.MBX_INFLIGHT) (c : Chip) : c.countFlight.rd a = c.rd a := by
  rw [Chip.countFlight, Chip.rd_wf_ne _ _ _ _ _ _ ha]

section
variable {c : Chip} (hfault : c.coreFault 0 = true) (hfirst : c.drn.core0Restarted = false) (h7 : c.tirba.core7Lost = false)
  (hfree : c.heldCore 7 = false)
include hfault hfirst h7 hfree

theorem Chip.core0Restart_of_fault : c.core0Restart =
    (c.restart0.ringsOff.commandsLost.countFlight.onDrn fun d => { d with core0Restarted := true }).journal 0x0A 0x09 0 0 0 0 := by
  have hchecks : ¬(!c.coreFault 0 || c.drn.core0Restarted || c.tirba.core7Lost || c.heldCore 7) = true := by
    simp [hfault, hfirst, h7, hfree]
  simp only [Chip.core0Restart, if_neg hchecks, Chip.restart0, Chip.ringsOff, Chip.commandsLost]
  rfl

theorem Chip.core0Restarted_core0Restart : c.core0Restart.drn.core0Restarted = true := by
  rw [Chip.core0Restart_of_fault hfault hfirst h7 hfree, Chip.journal_drn, Chip.onDrn_drn]

/-- Of the registers, what follows the rings' disabling writes MBX_INFLIGHT alone. -/
theorem Chip.rd_core0Restart_ne {a : Nat} (ha : a ≠ R.MBX_INFLIGHT) : c.core0Restart.rd a = c.restart0.ringsOff.rd a := by
  have hlog : c.core0Restart.regs = c.restart0.ringsOff.commandsLost.countFlight.regs := by
    rw [Chip.core0Restart_of_fault hfault hfirst h7 hfree, Chip.journal_regs, Chip.onDrn_regs]
  rw [Chip.rd_congr hlog, Chip.rd_countFlight_ne ha, Chip.rd_congr (Chip.commandsLost_regs _)]

theorem Chip.ready_core0Restart : c.core0Restart.rb R.MBX_STAT 0 = false := by
  have hstat : c.restart0.ringsOff.rd R.MBX_STAT = c.restart0.rd R.MBX_STAT := by
    simp [Chip.ringsOff, Chip.rd_wr, R.MBX_STAT, R.MBX_RING_EN, R.MBX_FRAYED, R.MBX_RESET]
  rw [Chip.rb, Chip.rd_core0Restart_ne hfault hfirst h7 hfree (by decide), hstat, Chip.restart0, Chip.rd_wb_same, tb_setBit (by decide),
    if_pos rfl]

theorem Chip.ringEn_core0Restart (i : Fin 2) : c.core0Restart.rd (R.MBX_RING_EN i) = 0 := by
  rw [Chip.rd_core0Restart_ne hfault hfirst h7 hfree (by fin_cases i <;> decide)]
  fin_cases i <;> simp [Chip.ringsOff, Chip.rd_wr]

end

/-- Settles O50: the programs by their checks and their cores, the repair by the fault, and core 0's restart by what it leaves. -/
theorem rasterProgramsAndAdoption : Obligations.RasterProgramsAndAdoption := by
  unfold Obligations.RasterProgramsAndAdoption
  refine ⟨?commands, fun n s hup hbeam => ⟨fun hheld hfault => ?selfTest, fun hfail => ?adoption⟩, ?adopted, ?core7, ?core0⟩
  case' commands =>
    intro n q s ends
    refine ⟨?load, ?stop, ?start, ?status⟩
  case load =>
    intro hfront
    simp only [exec_rasterLoad]
    refine ⟨fun status detail hstage hfail => ?_, fun pl hstage hread hlen hpass hplace hstart => ?_⟩
    · rw [Chip.withPayload_of_fail hfront hstage hfail]
    · rw [Chip.withPayload_of_received hfront hstage hread hlen _ (Chip.rasterLoad_of_placed hpass hplace hstart _)]
      rfl
  case stop =>
    intro hfront
    simp only [exec_rasterStop]
    refine ⟨fun hother => ?_, fun run hlo hhi hact hstate hcore hadopt => ?_⟩
    · rw [Chip.once_of_front hfront (Chip.rasterStop_of_noBeamCore hother)]
    · rw [Chip.once_of_front hfront (Chip.rasterStop_of_beamCore hlo hhi (by omega)), Chip.stopProgram_of_core hstate hcore hadopt]
  case start =>
    intro hfront run hlo hhi hstate hcore
    rw [exec_rasterStart, Chip.once_of_front hfront (Chip.rasterStart_of_stopped hlo hhi hstate hcore)]
  case status =>
    intro hfront hlo hhi r p
    rw [exec_rasterStatus, Chip.once_of_front hfront (Chip.rasterStatus_of_beamCore hlo hhi)]
    rfl
  case selfTest =>
    simp only [exec_coreSelfTest, Chip.selfTest_of_fault hup hbeam hheld hfault, Bool.false_eq_true, if_false, if_true, and_self]
  case adoption => rw [exec_adoption, Chip.adoption_of_failed hup hbeam hfail]
  case adopted =>
    intro a s hadopt hstarts hnew hfree hlater hline
    rw [exec_adoptedProgramStart, Chip.adoptStart_of_due hadopt hstarts hnew hfree hlater hline]
  case core7 =>
    intro s hup hfault
    rw [exec_core7Fault, Chip.core7Fault_of_fault hup hfault]
  case core0 =>
    intro s hfault hfirst h7 hfree
    exact ⟨s.chip.core0Restart, exec_core0Restart s, Chip.core0Restarted_core0Restart hfault hfirst h7 hfree,
      Chip.ready_core0Restart hfault hfirst h7 hfree, Chip.ringEn_core0Restart hfault hfirst h7 hfree 0,
      Chip.ringEn_core0Restart hfault hfirst h7 hfree 1⟩

end Sys2Proof.Machine
end

section
/-! Eyelet ports (14, R409 to R438): what a packet, a deskew sequence and LOST come to on a running port, where an output row of the
oldest frame is written, and how a port starts, stops and aborts. -/

namespace Sys2Proof.Machine

/-! ### The commands that act on any port -/

theorem exec_outputRowLand (n : Port) (fail : Bool) (s : State) :
    exec (.outputRowLand n fail) s = .next (s.withChip ((s.chip.rowLand n fail).eyePrune n)) := rfl

theorem exec_eyeRunStart (n : Port) (s : State) : exec (.eyeRunStart n) s = .next (s.withChip (s.chip.eyeRun n)) := rfl

theorem exec_eyeRunStop (n : Port) (s : State) : exec (.eyeRunStop n) s = .next (s.withChip (s.chip.eyeHalt n)) := rfl

theorem exec_eyeAbort (n : Port) (s : State) :
    exec (.eyeAbort n) s = .next (s.withChip ((s.chip.eyeAbort n).wb (R.EYE_CTRL n) 0 false)) := rfl

/-! ### A port changed -/

/-- A port changed is that port's state changed. -/
@[simp] theorem Chip.eye_onEye (n : Port) (f : EyePort → EyePort) (c : Chip) : (c.onEye n f).eye[n] = f c.eye[n] := upd_same _ _ _

/-! ### Packets (R409 to R411) -/

/-- What a packet of a running port comes to: an uncorrectable header is counted, another virtual channel is passed over, and `act`
is the packet's own work (R409). -/
def Chip.onPacket (n : Port) (vc : Fin 4) (hdrBad : Bool) (act : Chip → Chip) (c : Chip) : Chip :=
  if hdrBad then c.hdrErr n else if c.rf (R.EYE_CTRL n) 9 8 ≠ vc.val then c else act c

section
variable {c : Chip} {n : Port} {vc : Fin 4} {act : Chip → Chip}

theorem Chip.onPacket_of_badHeader : c.onPacket n vc true act = c.hdrErr n := rfl

theorem Chip.onPacket_of_otherChannel (h : c.rf (R.EYE_CTRL n) 9 8 ≠ vc.val) : c.onPacket n vc false act = c := if_pos h

theorem Chip.onPacket_of_ownChannel (h : c.rf (R.EYE_CTRL n) 9 8 = vc.val) : c.onPacket n vc false act = act c := if_neg (not_not.mpr h)

end

section
variable {s : State} {n : Port} (hrun : s.chip.eyeRunning n = true)
include hrun

theorem exec_frameStartPacket_of_running (vc : Fin 4) (hdrBad : Bool) (fnum : Half) (pixel : BitVec 14) :
    exec (.frameStartPacket n vc hdrBad fnum pixel) s =
      .next (s.withChip (s.chip.onPacket n vc hdrBad fun c => (c.frameStart n fnum pixel.toNat).eyePrune n)) := by
  show execFrameStartPacket n vc hdrBad fnum pixel s = _
  simp only [execFrameStartPacket, Chip.onPacket, hrun, not_true_eq_false, if_false]
  split_ifs <;> rfl

theorem exec_longPacket_of_running (vc : Fin 4) (dt : BitVec 6) (hdrBad crcBad : Bool) (bs : List Byte) (lost : List Nat) :
    exec (.longPacket n vc dt hdrBad crcBad bs lost) s =
      .next (s.withChip (s.chip.onPacket n vc hdrBad (Chip.longPacket n dt.toNat bs crcBad lost))) := by
  show execLongPacket n vc dt hdrBad crcBad bs lost s = _
  simp only [execLongPacket, Chip.onPacket, hrun, not_true_eq_false, if_false]
  split_ifs <;> rfl

theorem exec_frameEndPacket_of_running (vc : Fin 4) (hdrBad : Bool) :
    exec (.frameEndPacket n vc hdrBad) s = .next (s.withChip (s.chip.onPacket n vc hdrBad fun c => (c.frameEnd n).eyePrune n)) := by
  show execFrameEndPacket n vc hdrBad s = _
  simp only [execFrameEndPacket, Chip.onPacket, hrun, not_true_eq_false, if_false]
  split_ifs <;> rfl

theorem exec_deskewSequence_of_running : exec (.deskewSequence n) s = .next (s.withChip (s.chip.deskew n)) := if_pos hrun

/-- LOST_MS runs out on a port whose LOST_MS is not 0 (R432). -/
theorem exec_lostTimeout_of_running (hms : s.chip.rf (R.EYE_LOST n) 9 0 ≠ 0) :
    exec (.lostTimeout n) s = .next (s.withChip (s.chip.eyeRaise n 2)) := if_pos ⟨hrun, hms⟩

end

/-- The payload's checksum noted: a failure is counted and sets CRC_ERR (R409). -/
def Chip.crcNoted (n : Port) (crcBad : Bool) (c : Chip) : Chip :=
  if crcBad then (c.incSat (R.EYE_PKTERR n)).sb (R.EYE_STICKY n) 7 else c

section
variable {c : Chip} {n : Port} {dt : Nat} {bs : List Byte} {crcBad : Bool} {lost : List Nat}

/-- A packet of embedded data, type 0x12, is passed over (R410). -/
theorem Chip.longPacket_of_embedded (hdt : dt = 0x12) : c.longPacket n dt bs crcBad lost = c := if_pos hdt

theorem Chip.longPacket_of_stray (hdt : dt ≠ 0x12) (hcur : (c.eye[n]).current = none) :
    c.longPacket n dt bs crcBad lost = (c.crcNoted n crcBad).sb (R.EYE_STICKY n) 11 := by
  rw [Chip.longPacket, if_neg hdt]
  cases crcBad <;> simp only [Chip.crcNoted, Bool.false_eq_true, if_false, if_true, Chip.sb_eye, Chip.incSat_eye, hcur]

theorem Chip.longPacket_of_current {f : EyeFrame} (hdt : dt ≠ 0x12) (hcur : (c.eye[n]).current = some f) :
    c.longPacket n dt bs crcBad lost =
      if dt = f.geom.dt then (c.crcNoted n crcBad).inputRow n f bs lost else (c.crcNoted n crcBad).sb (R.EYE_STICKY n) 11 := by
  rw [Chip.longPacket, if_neg hdt]
  cases crcBad <;> simp only [Chip.crcNoted, Bool.false_eq_true, if_false, if_true, Chip.sb_eye, Chip.incSat_eye, hcur]

theorem Chip.deskew_of_current (hcur : (c.eye[n]).current ≠ none) : c.deskew n = c.sb (R.EYE_STICKY n) 10 :=
  if_pos (Option.isSome_iff_ne_none.mpr hcur)

theorem Chip.deskew_of_noCurrent (hcur : (c.eye[n]).current = none) : c.deskew n = c.onEye n fun p => { p with deskewPend := true } :=
  if_neg (by rw [hcur]; decide)

end

/-! ### Events (R432, R433) -/

theorem Chip.eyeRaise_of_clear {c : Chip} {n : Port} {e : Nat} (h : c.rb (R.EYE_STAT n) (1 + e) = false) :
    c.eyeRaise n e =
      let d := ((c.sb (R.EYE_STAT n) (1 + e)).sb (R.EYE_STICKY n) (16 + e)).incSat (R.EYE_EVCNT n)
      d.journal 0x04 (16 + e) n.val (d.rd (R.EYE_STAT n)) 0 0 := if_neg (by rw [h]; exact Bool.false_ne_true)

/-! ### Output rows (R417, R420, R423) -/

/-- Where the frame's next output row is written: its slot of the ring, or its place in the frame's buffer (R417, R421, R423). -/
def EyeFrame.rowOff (f : EyeFrame) : Nat :=
  if f.geom.mode = 2 then f.geom.base + f.next % f.geom.ring * f.geom.stride
  else f.geom.base + f.buf * f.geom.stride * f.geom.outH + f.next * f.geom.stride

/-- The frame's next output row written to Vellum; bytes past its end reach no memory (assumption 8). -/
def Chip.putRow (n : Port) (f : EyeFrame) (c : Chip) : Chip :=
  c.vWrite f.rowOff ((eyeBytes f.geom.argb (c.eyeRow n f f.next)).take (vlmSize - f.rowOff))

@[simp] theorem Chip.ringTag_mem (n : Port) (f : EyeFrame) (slot : Nat) (c : Chip) : (c.ringTag n f slot).mem = c.mem := by
  simp only [Chip.ringTag, Chip.onEye_mem]
  split <;> rfl

/-- Beside the row itself, its landing writes no memory. -/
theorem Chip.rowLand_mem_of_ready {c : Chip} {n : Port} {f : EyeFrame} {t : List EyeFrame} (hframes : (c.eye[n]).frames = f :: t)
    (hnext : f.next < f.geom.outH) (hrows : (c.rowDeps n f f.next).all (fun y => (f.source y).any Option.isSome) = true)
    (hlive : f.dead = false) : (c.rowLand n false).mem = (c.putRow n f).mem := by
  have hready : ¬(f.geom.outH ≤ f.next ∨ ¬(c.rowDeps n f f.next).all (fun y => (f.source y).any Option.isSome) = true) :=
    not_or.mpr ⟨Nat.not_le.mpr hnext, not_not.mpr hrows⟩
  simp only [Chip.rowLand, hframes, if_neg hready, hlive, Bool.false_eq_true, if_false, false_and, Chip.onEye_mem,
    apply_ite Chip.mem, Chip.wb_mem, Chip.wf_mem, Chip.ringTag_mem, ite_self]
  rfl

/-! ### Start, stop and abort (R436) -/

section
variable {c : Chip} {n : Port}

theorem Chip.eyeRun_of_running (hrun : c.eyeRunning n = true) : c.eyeRun n = c.sb (R.EYE_CTRL n) 0 := if_pos hrun

theorem Chip.eyeRun_of_stopped (hstop : c.eyeRunning n = false) : c.eyeRun n = c.eyeStart n :=
  if_neg (by rw [hstop]; exact Bool.false_ne_true)

/-- A start sets RUN and clears the port's counts. -/
theorem Chip.regs_eyeStart (c : Chip) (n : Port) : (c.eyeStart n).rb (R.EYE_CTRL n) 0 = true ∧ (c.eyeStart n).rd (R.EYE_FRAMES n) = 0 ∧
    (c.eyeStart n).rd (R.EYE_PKTERR n) = 0 ∧ (c.eyeStart n).rd (R.EYE_EVCNT n) = 0 ∧ (c.eyeStart n).rd (R.EYE_SKIP n) = 0 := by
  have honEye (f : EyePort → EyePort) (d : Chip) (a : Nat) : (d.onEye n f).rd a = d.rd a := Chip.rd_congr (Chip.onEye_regs n f d) a
  simp [Chip.eyeStart, Chip.eyeClear, Chip.wf, Chip.wb, Chip.sb, Chip.rb, honEye, Chip.rd_wr, tb_setBit]

/-- A start forgets the frames and the newest buffer of the port's last run. -/
theorem Chip.port_eyeStart (c : Chip) (n : Port) : ((c.eyeStart n).eye[n]).frames = [] ∧ ((c.eyeStart n).eye[n]).newest = none := by
  simp only [Chip.eyeStart, Chip.eye_onEye, and_self]

theorem Chip.eyeHalt_of_current (hcur : (c.eye[n]).current ≠ none) : c.eyeHalt n = c.wb (R.EYE_CTRL n) 0 false :=
  if_pos (Option.isSome_iff_ne_none.mpr hcur)

theorem Chip.eyeHalt_of_noCurrent (hcur : (c.eye[n]).current = none) : c.eyeHalt n = (c.wb (R.EYE_CTRL n) 0 false).eyeStopped n :=
  if_neg (by rw [Chip.wb_eye, hcur]; decide)

/-- The frame in progress, where there is one, ended incomplete (R436). -/
def Chip.frameCut (n : Port) (c : Chip) : Chip :=
  match (c.eye[n]).current with
  | some f => (c.frameOver n f).sb (R.EYE_STICKY n) 8
  | none => c

theorem Chip.frameCut_of_noCurrent (hcur : (c.eye[n]).current = none) : c.frameCut n = c := by
  rw [Chip.frameCut, hcur]

theorem Chip.eyeAbort_of_running (hrun : c.eyeRunning n = true) :
    c.eyeAbort n = ((c.frameCut n).onEye n fun p => { p with frames := [] }).eyeStopped n := if_pos hrun

/-- An abort of a running port leaves it stopped, with RUN 0 and no frame (R436, assumptions 46 and 109). -/
theorem Chip.eyeAbort_leaves (hrun : c.eyeRunning n = true) :
    let e := (c.eyeAbort n).wb (R.EYE_CTRL n) 0 false
    (e.eye[n]).frames = [] ∧ e.rb (R.EYE_STAT n) 0 = false ∧ e.rb (R.EYE_CTRL n) 0 = false := by
  have hne : R.EYE_STAT n ≠ R.EYE_CTRL n := by simp
  refine ⟨?_, ?_, ?_⟩
  · rw [Chip.eyeAbort_of_running hrun, Chip.wb_eye, Chip.eyeStopped, Chip.wb_eye, Chip.eye_onEye]
  · rw [Chip.rb, Chip.rd_wb_ne _ _ _ _ _ hne, Chip.eyeAbort_of_running hrun, Chip.eyeStopped, Chip.rd_wb_same,
      tb_setBit (by decide), if_pos rfl]
  · rw [Chip.rb, Chip.rd_wb_same, tb_setBit (by decide), if_pos rfl]

end

/-! ### The obligation -/

/-- Settles O34: on a running port by the command and the frame in progress, then the row that lands, and a start. -/
theorem eyeletFramesAndPackets : Obligations.EyeletFramesAndPackets := by
  unfold Obligations.EyeletFramesAndPackets
  intro n s
  refine ⟨fun hrun => ⟨?startBad, ?startOther, ?start, ?longBad, ?longOther, ?long, ?endBad, ?frameEnd, ?deskewIn, ?deskewOut, ?lost,
    ?runAgain, ?stopNow, ?stopLater, ?abortIdle, ?abort⟩, ?row, ?fresh⟩
  case startBad => intro vc fnum pixel; rw [exec_frameStartPacket_of_running hrun, Chip.onPacket_of_badHeader]; rfl
  case startOther =>
    intro vc fnum pixel hvc
    rw [exec_frameStartPacket_of_running hrun, Chip.onPacket_of_otherChannel hvc, State.withChip_chip]
  case start =>
    intro vc fnum pixel hvc
    rw [exec_frameStartPacket_of_running hrun, Chip.onPacket_of_ownChannel hvc]
  case longBad => intro vc dt bad bs lost; rw [exec_longPacket_of_running hrun, Chip.onPacket_of_badHeader]; rfl
  case longOther =>
    intro vc dt bad bs lost hvc
    rw [exec_longPacket_of_running hrun, Chip.onPacket_of_otherChannel hvc, State.withChip_chip]
  case long =>
    intro vc dt bad bs lost hvc
    have htype (h : dt ≠ 0x12) : dt.toNat ≠ 0x12 := fun heq => h (BitVec.eq_of_toNat_eq heq)
    simp only [exec_longPacket_of_running hrun, Chip.onPacket_of_ownChannel hvc]
    refine ⟨fun h => ?_, fun h hcur => ?_, fun f h hcur => ?_⟩
    · rw [Chip.longPacket_of_embedded (congrArg BitVec.toNat h), State.withChip_chip]
    · rw [Chip.longPacket_of_stray (htype h) hcur]
      rfl
    · rw [Chip.longPacket_of_current (htype h) hcur]
      rfl
  case endBad => intro vc; rw [exec_frameEndPacket_of_running hrun, Chip.onPacket_of_badHeader]; rfl
  case frameEnd =>
    intro vc hvc
    rw [exec_frameEndPacket_of_running hrun, Chip.onPacket_of_ownChannel hvc]
  case deskewIn => intro hcur; rw [exec_deskewSequence_of_running hrun, Chip.deskew_of_current hcur]
  case deskewOut => intro hcur; rw [exec_deskewSequence_of_running hrun, Chip.deskew_of_noCurrent hcur]
  case lost => intro hms hclear; rw [exec_lostTimeout_of_running hrun hms, Chip.eyeRaise_of_clear hclear]
  case runAgain => rw [exec_eyeRunStart, Chip.eyeRun_of_running hrun]
  case stopNow => intro hcur; rw [exec_eyeRunStop, Chip.eyeHalt_of_noCurrent hcur]; rfl
  case stopLater => intro hcur; rw [exec_eyeRunStop, Chip.eyeHalt_of_current hcur]
  case abortIdle =>
    intro hcur
    rw [exec_eyeAbort, Chip.eyeAbort_of_running hrun, Chip.frameCut_of_noCurrent hcur]
    rfl
  case abort => exact ⟨_, exec_eyeAbort n s, Chip.eyeAbort_leaves hrun⟩
  case row =>
    intro f t hframes hnext hrows hlive
    exact ⟨_, exec_outputRowLand n false s, Chip.rowLand_mem_of_ready hframes hnext hrows hlive⟩
  case fresh =>
    intro hstop
    obtain ⟨hctrl, hframes, hpkterr, hevcnt, hskip⟩ := Chip.regs_eyeStart s.chip n
    refine ⟨s.chip.eyeStart n, ?_, hctrl, hframes, hpkterr, hevcnt, hskip, Chip.port_eyeStart s.chip n⟩
    rw [exec_eyeRunStart, Chip.eyeRun_of_stopped hstop]

end Sys2Proof.Machine
end

section
/-! Every command answers a next state (95): the state before with another chip, whose register file and memory are in canonical form
where they were. One lemma goes over the commands, each by what its operation keeps. -/

namespace Sys2Proof.Machine

/-! ### Answers that are a next state -/

/-- The outcome is a next state that differs from s in the chip alone, and whose chip is in canonical form if the chip of s is. -/
def Answers (s : State) (o : Out) : Prop := ∃ c, o = .next (s.withChip c) ∧ (s.chip.canon → c.canon)

section
variable {s : State} {c : Chip} {p : Prop} [Decidable p]

theorem Answers.next (h : s.chip.canon → c.canon) : Answers s (c.next s) := ⟨c, rfl, h⟩

theorem Answers.same : Answers s (s.chip.next s) := .next id

theorem Answers.ite {x y : Out} (hx : Answers s x) (hy : Answers s y) : Answers s (if p then x else y) := by
  split
  · exact hx
  · exact hy

/-- A command that acts only where its premise holds. -/
theorem Answers.guard (h : s.chip.canon → c.canon) : Answers s (if p then c.next s else s.chip.next s) := .ite (.next h) .same

/-- A command that acts only where a condition does not hold. -/
theorem Answers.unless (h : s.chip.canon → c.canon) : Answers s (if p then s.chip.next s else c.next s) := .ite .same (.next h)

/-- A packet on a port: one with a bad header is counted, one of another channel is left (R409 to R411). -/
theorem Answers.packet {n : Port} {hdrBad : Bool} {q : Prop} [Decidable q] (h : s.chip.canon → c.canon) :
    Answers s (if ¬s.chip.eyeRunning n then s.chip.next s else if hdrBad then (s.chip.hdrErr n).next s
      else if q then s.chip.next s else c.next s) :=
  .ite .same (.ite (.next fun h => Chip.hdrErr_canon _ _ h) (.unless h))

/-- A Tirba command that does its work at once (R287, R288). -/
theorem Answers.once {n : Ring} {code : Nat} {w : Cmd → Bool} {f : Cmd → Chip → Ans} (h : ∀ q c, c.canon → (f q c).2.canon) :
    Answers s ((s.chip.once n code w f).next s) :=
  .next fun hc => Chip.once_canon _ _ _ _ _ h hc

/-- A Tirba command with a payload (R281, R306). -/
theorem Answers.withPayload {n : Ring} {code : Nat} {g : Cmd → Chip → Option (Nat × Nat)} {f : Cmd → List Byte → Chip → Ans}
    (h : ∀ q bs c, c.canon → (f q bs c).2.canon) : Answers s ((s.chip.withPayload n code g f).next s) :=
  .next fun hc => Chip.withPayload_canon _ _ _ _ _ h hc

/-- An instruction of the JTAG port (R716). -/
theorem Answers.jtag {f : Chip → Chip} (h : ∀ c, c.canon → (f c).canon) : Answers s ((s.chip.when s.chip.jtagOn f).next s) :=
  .next fun hc => Chip.when_canon _ _ _ h hc

/-- A command of DBG_CMD (R722). -/
theorem Answers.dbgCmd {n : Core} {halt : Bool} {f : Chip → Chip} (h : ∀ c, c.canon → (f c).canon) :
    Answers s ((s.chip.dbgCmd n halt f).next s) :=
  .next fun hc => Chip.dbgCmd_canon _ _ _ _ h hc

/-- A frame of the QSPI slave (R270). -/
theorem Answers.frame {gap : Bool} {f : Chip → Chip} (h : ∀ c, c.canon → (f c).canon) : Answers s ((s.chip.frame gap f).next s) :=
  .next fun hc => Chip.frame_canon _ _ _ h hc

end

/-! ### Every command -/

/-- A register write, by who makes it (R146). -/
theorem answers_registerWrite (who : Who) (user : Bool) (a : BitVec 32) (v : Word) (s : State) :
    Answers s (exec (.registerWrite who user a v) s) := by
  cases who with
  | host => exact .next fun h => Chip.cfgRequest_canon _ _ _ _ _ h
  | bobbin k => exact .next fun h => Chip.storeReg_canon _ _ _ _ _ h
  | core n =>
    show Answers s (execRegisterWrite (.core n) user a v s)
    unfold execRegisterWrite
    refine .next fun h => ?_
    split
    · exact Chip.when_canon _ _ _ (fun _ h => Chip.storeYlx_canon _ _ _ _ h) h
    · exact Chip.storeReg_canon _ _ _ _ _ h

/-- A read of the local scrubber, of its own next word or of a word named (R144). -/
theorem answers_lmScrubRead (n : Core) (e : Option Ecc) (w : Option (BitVec 14)) (s : State) :
    Answers s (exec (.lmScrubRead n e w) s) := by
  cases w with
  | none => exact .next fun h => Chip.lmScrub_canon _ _ _ h
  | some w => exact .next fun h => Chip.lmFinds_canon _ _ _ _ h

/-- An instruction of a core (R171). -/
theorem answers_issue (n : Core) (p : BitVec 3) (u : Bool) (op : YOp) (s : State) : Answers s ((s.chip.issue n p u op).next s) :=
  .next fun h => Chip.issue_canon _ _ _ _ _ h

/-- Every command answers a next state with the queue as it was, and keeps the canonical form. -/
theorem exec_answers (i : Instr) (s : State) : Answers s (exec i s) := by
  cases i with
  | registerWrite => exact answers_registerWrite _ _ _ _ s
  | storeLand => exact .next fun h => Chip.land_canon _ _ h
  | speedUpdate => exact .next fun h => Chip.wf_canon _ _ _ _ _ h
  | runWrite => exact .next fun h => Chip.runSet_canon _ _ h
  | counterStart => exact .next fun h => Chip.startLocked_canon _ _ _ _ h
  | runClear => exact .next fun h => Chip.runClr_canon _ _ h
  | beamStop => exact .guard fun h => Chip.beamStop_canon _ _ _ _ h
  | synUnlock => exact .next fun h => Chip.synUnlock_canon _ _ _ h
  | lockReturn => exact .next fun h => Chip.lockReturn_canon _ _ _ _ h
  | lineStart => exact .next fun h => Chip.lineStart_canon _ _ h
  | frameAdvance => exact .next fun h => Chip.frameAdvance_canon _ _ h
  | hs => exact .guard fun h => Chip.raiseEv_canon _ _ _ _ (Chip.setPos_canon _ _ _ _ h)
  | vs => exact .guard fun h => Chip.raiseEv_canon _ _ _ _ (Chip.setPos_canon _ _ _ _ h)
  | vb0 => exact .guard fun h => Chip.vb0_canon _ _ _ h
  | commitPoint => exact .guard fun h => Chip.commitEv_canon _ _ _ h
  | pfs => exact .next fun h => Chip.pfs_canon _ _ _ h
  | genlockEdge => exact .guard fun h => Chip.glkEdge_canon _ _ _ h
  | genlockLoss => exact .guard fun h => Chip.glkLoss_canon _ _ h
  | fsyncPulseStart => exact .next fun h => Chip.fsStart_canon _ _ h
  | fsyncPulseEnd => exact .next fun h => Chip.fsEnd_canon _ _ h
  | vellumRead => exact .guard fun h => Chip.issueRead_canon _ _ _ _ _ h
  | vellumWrite => exact .guard fun h => Chip.issueWrite_canon _ _ _ _ _ _ h
  | tokenAcquire => exact .next fun h => Chip.acquire_canon _ h
  | writeAccept => exact .next fun h => Chip.acceptWrite_canon _ _ h
  | bankGrant => exact .next fun h => Chip.bankGrant_canon _ _ h
  | vlmReadComplete => exact .next fun h => Chip.readDone_canon _ _ _ _ h
  | cntClr => exact .next fun h => Chip.cntClr_canon _ h
  | scrubSlotOpen => exact .guard fun h => Chip.slotOpen_canon _ (Chip.slotCount_canon _ h)
  | scrubPromote => exact .guard fun h => Chip.slotPromote_canon _ h
  | scrubSlotComplete => exact .next fun h => Chip.slotDone_canon _ _ _ h
  | darnCopyGranule => exact .next fun h => Chip.copyGranule_canon _ _ h
  | coreHold => exact .next fun h => Chip.coreHold_canon _ _ h
  | coreRelease => exact .guard fun h => Chip.coreRelease_canon _ _ h
  | coreRestart => exact .next fun h => Chip.coreRestart_canon _ _ h
  | lmScrubRead => exact answers_lmScrubRead _ _ _ s
  | interruptEntry => exact .guard fun h => Chip.irqTake_canon _ _ (Chip.onCore_canon _ _ _ h)
  | wdgKick => exact .next fun h => Chip.wdgKick_canon _ _ _ h
  | wdgLock => exact .next fun h => Chip.sb_canon _ _ _ h
  | wdgStage1 => exact .next fun h => Chip.wdgStage1_canon _ _ h
  | wdgStage2 => exact .next fun h => Chip.wdgStage2_canon _ _ h
  | add | sub | and | or | xor | shl | shr | sar | mul | mulhs | mulhu | divs | divu | rems | remu | min | max | minu | maxu
  | addi | andi | ori | xori | shli | shri | sari | movi | movhi | cmp | cmpi | plog | movsGetPred | movsSetPred
  | movsGetUsp | movsSetUsp | ldw | ldh | ldhu | ldb | ldbu | stw | sth | stb | xchg | br | bl | jr | jlr | callm | retm
  | sev | wfe | waituntil | trap | eret | brk | nop => exact answers_issue _ _ _ _ s
  | wfeWake => exact .next fun h => Chip.wake_canon _ _ _ h
  | waituntilMatch => exact .guard fun h => Chip.waitMatch_canon _ _ h
  | irqEoi => exact .next fun h => Chip.irqEoi_canon _ _ _ h
  | irqSwset => exact .next fun h => Chip.swSet_canon _ _ h
  | irqMsiSet => exact .next fun h => Chip.msiSet_canon _ _ h
  | msiSend => exact .next fun h => Chip.msiSend_canon _ _ h
  | romBoot => exact .next fun h => Chip.romBoot_canon _ _ _ _ h
  | romLock => exact .next fun h => Chip.romLock_canon _ _ h
  | hostRecovery => exact .next fun h => Chip.recover_canon _ _ _ h
  | hostBar0Request => exact .ite (.next fun h => Chip.cfgRequest_canon _ _ _ _ _ h) (.next fun h => Chip.bar0Request_canon _ _ _ _ _ _ h)
  | bar2Access => exact .next fun h => Chip.bar2Access_canon _ _ _ _ h
  | d3hotEntry => exact .guard fun h => Chip.onHost_canon _ _ h
  | d0Return => exact .guard fun h => Chip.onHost_canon _ _ h
  | linkReset => exact .next fun h => Chip.linkReset_canon _ h
  | doorbellTail => exact .next fun h => Chip.doorbell_canon _ _ _ h
  | cqHeadUpdate => exact .next fun h => Chip.doorbell_canon _ _ _ h
  | sqHeadSet => exact .next fun h => Chip.mbxWrite_canon _ _ _ _ h
  | ringEnable => exact .next fun h => Chip.ringEnable_canon _ _ _ h
  | ringReset => exact .next fun h => Chip.ringResets_canon _ _ _ h
  | resetAll => exact .next fun h => Chip.resetAll_canon _ h
  | qspiBar0Read =>
    exact .frame fun _ h => ite_canon (Chip.frameReply_canon _ _ _ (Chip.bar0Hole_canon _ _ h))
      (Chip.frameReply_canon _ _ _ (Chip.bar0Hole_canon _ _ h))
  | qspiBar0Write =>
    exact .frame fun _ h => Chip.qspiEnd_canon _ _ (ite_canon (Chip.bar0Write_canon _ _ _ (Chip.bar0Hole_canon _ _ h))
      (Chip.bar0Hole_canon _ _ h))
  | qspiVellumRead =>
    exact .frame fun _ h => ite_canon (Chip.frameReply_canon _ _ _ (Chip.vRead_canon _ _ _ _ _ h))
      (Chip.frameReply_canon _ _ _ h)
  | qspiVellumWrite => exact .frame fun _ h => Chip.qspiEnd_canon _ _ (ite_canon (Chip.hostVWrite_canon _ _ _ h) h)
  | qspiFrameStatus => exact .frame fun _ h => ite_canon (Chip.emit_canon _ _ h) (ite_canon h (Chip.onHost_canon _ _ h))
  | descriptorFetch => exact .next fun h => Chip.fetchDescriptor_canon _ h
  | completionPost => exact .next fun h => Chip.post_canon _ _ h
  | commandTimeout => exact .next fun h => Chip.deadline_canon _ _ h
  | heartbeat => exact .guard fun h => Chip.incWrap_canon _ _ h
  | sessionOpen => exact .once fun _ _ h => Chip.sessionOpen_canon _ _ _ h
  | sessionClose => exact .once fun _ _ h => Chip.sessionClose_canon _ _ h
  | ringStatus => exact .once fun _ _ h => Chip.ringStatus_canon _ _ _ h
  | paramQuery => exact .once fun _ _ h => Chip.paramQuery_canon _ _ h
  | blockCopy => exact .next fun h => Chip.blockCopy_canon _ _ h
  | blockFill => exact .once fun _ _ h => Chip.blockFill_canon _ _ h
  | planeSet => exact .once fun _ _ h => Chip.planeSet_canon _ _ h
  | motifConfig => exact .once fun _ _ h => Chip.motifConfig_canon _ _ h
  | windowSet => exact .once fun _ _ h => Chip.windowSet_canon _ _ h
  | layerOrder => exact .once fun _ _ h => Chip.layerOrder_canon _ _ h
  | paletteLoad => exact .withPayload fun _ _ _ h => Chip.paletteLoad_canon _ _ _ h
  | commit => exact .next fun h => Chip.commitCmd_canon _ _ h
  | sigRegionSet => exact .once fun _ _ h => Chip.sigRegionSet_canon _ _ h
  | sigRead => exact .next fun h => Chip.sigRead_canon _ _ h
  | portConfig => exact .once fun _ _ h => Chip.portConfig_canon _ _ h
  | portStart => exact .once fun _ _ h => Chip.portStart_canon _ _ h
  | portStop => exact .next fun h => Chip.portStop_canon _ _ h
  | portPolicy => exact .once fun _ _ h => Chip.portPolicy_canon _ _ h
  | portStatus => exact .once fun _ _ h => Chip.portStatus_canon _ _ h
  | i2cTransfer => exact .next fun h => Chip.i2cTransfer_canon _ _ h
  | voicePlay => exact .once fun _ _ h => Chip.voicePlay_canon _ _ h
  | voiceControlStop => exact .once fun _ _ h => Chip.voiceAct_canon _ _ _ _ _ (fun _ _ h => Chip.voiceStop_canon _ _ h) h
  | voiceControlRelease => exact .once fun _ _ h => Chip.voiceAct_canon _ _ _ _ _ (fun _ _ h => Chip.voiceRelease_canon _ _ h) h
  | voiceControlGain => exact .once fun _ _ h => Chip.voiceAct_canon _ _ _ _ _ (fun _ _ h => Chip.voiceGain_canon _ _ _ h) h
  | voiceControlPitch => exact .once fun _ _ h => Chip.voiceAct_canon _ _ _ _ _ (fun _ _ h => Chip.store_canon _ _ _ h) h
  | busConfig => exact .withPayload fun _ _ _ h => Chip.busConfig_canon _ _ _ h
  | audioPort => exact .once fun _ _ h => Chip.audioPort_canon _ _ h
  | telemetryRead => exact .once fun _ _ h => Chip.telemetry_canon _ _ h
  | supplyConfig => exact .once fun _ _ h => Chip.supplyConfig_canon _ _ h
  | chargerConfig => exact .once fun _ _ h => Chip.chargerConfig_canon _ _ h
  | darnStatus => exact .once fun _ _ h => Chip.darnStatus_canon _ h
  | darnRequest => exact .next fun h => Chip.darnRequest_canon _ _ h
  | glassHoldEnter => exact .next fun h => Chip.glassEnter_canon _ _ h
  | glassHoldRelease => exact .next fun h => Chip.glassRelease_canon _ _ h
  | glassHoldAdopt => exact .once fun _ _ h => Chip.glassAdopt_canon _ _ h
  | deviceResetWarm => exact .next fun h => Chip.deviceReset_canon _ _ _ h
  | deviceResetCold => exact .next fun h => Chip.deviceReset_canon _ _ _ h
  | fwStage => exact .next fun h => Chip.fwStage_canon _ _ _ h
  | fwActivate => exact .next fun h => Chip.fwActivate_canon _ _ _ _ h
  | fwInfo => exact .once fun _ _ h => Chip.fwInfo_canon _ h
  | lcyStatus => exact .once fun _ _ h => Chip.lcyStatus_canon _ h
  | lcyAdvance => exact .next fun h => Chip.lcyAdvance_canon _ _ _ h
  | logRead => exact .once fun _ _ h => Chip.logRead_canon _ _ h
  | rasterLoad => exact .withPayload fun _ _ _ h => Chip.rasterLoad_canon _ _ _ h
  | rasterStop => exact .once fun _ _ h => Chip.rasterStop_canon _ _ h
  | rasterStart => exact .once fun _ _ h => Chip.rasterStart_canon _ _ h
  | rasterStatus => exact .once fun _ _ h => Chip.rasterStatus_canon _ _ h
  | planeFetchComplete => exact .next fun h => Chip.planeFetch_canon _ _ _ _ _ h
  | tileInval => exact .next fun h => Chip.tileInval_canon _ _ h
  | livePaletteWrite => exact .next fun h => Chip.livePalData_canon _ _ _ _ _ h
  | shadowPaletteWrite => exact .next fun h => Chip.shadowPalData_canon _ _ _ _ h
  | motifLoadEnd => exact .next fun h => Chip.motifLoadEnd_canon _ _ h
  | motifEvaluation => exact .next fun h => Chip.motifStart_canon _ _ h
  | motifLineComplete => exact .next fun h => Chip.motifLine_canon _ _ _ _ h
  | liveAttributeWrite => exact .next fun h => Chip.liveAttr_canon _ _ _ _ h
  | mtfInval => exact .next fun h => Chip.mtfInval_canon _ _ h
  | mtfReloadEnd => exact .next fun h => Chip.motifReloadEnd_canon _ h
  | frameStartPacket => exact .packet fun h => Chip.eyePrune_canon _ _ (Chip.frameStart_canon _ _ _ _ h)
  | longPacket => exact .packet fun h => Chip.longPacket_canon _ _ _ _ _ _ h
  | frameEndPacket => exact .packet fun h => Chip.eyePrune_canon _ _ (Chip.frameEnd_canon _ _ h)
  | deskewSequence => exact .guard fun h => Chip.deskew_canon _ _ h
  | outputRowLand => exact .next fun h => Chip.eyePrune_canon _ _ (Chip.rowLand_canon _ _ _ h)
  | lostTimeout => exact .guard fun h => Chip.eyeRaise_canon _ _ _ h
  | eyeRunStart => exact .next fun h => Chip.eyeRun_canon _ _ h
  | eyeRunStop => exact .next fun h => Chip.eyeHalt_canon _ _ h
  | eyeAbort => exact .next fun h => Chip.wb_canon _ _ _ _ (Chip.eyeAbort_canon _ _ h)
  | compositeStart => exact .next fun h => Chip.compositeStart_canon _ _ _ h
  | spanDue => exact .next fun h => Chip.spanDue_canon _ _ _ h
  | commitRequest => exact .next fun h => Chip.commitReq_canon _ _ h
  | transferEnd => exact .next fun h => Chip.transferEnd_canon _ _ h
  | linkStop => exact .next fun h => Chip.linkStop_canon _ _ h
  | syncPacket => exact .next fun h => Chip.syncPacket_canon _ _ _ h
  | pixelPacket => exact .next fun h => Chip.pixelPacket_canon _ _ h
  | cmdFifoWrite => exact .next fun h => Chip.cmdWord_canon _ _ _ h
  | cmdSend => exact .next fun h => Chip.cmdSend_canon _ _ h
  | commandPacketSend => exact .next fun h => Chip.commandSend_canon _ _ h
  | teEdge => exact .guard fun h => Chip.teEdge_canon _ _ _ h
  | teMiss => exact .next fun h => Chip.teMiss_canon _ _ h
  | ulpsWrite => exact .next fun h => Chip.ulpsWrite_canon _ _ _ h
  | mark1End => exact .next fun h => Chip.markEnd_canon _ _ h
  | holdEnter => exact .next fun h => Chip.holdEnter_canon _ _ h
  | holdRelease => exact .next fun h => Chip.holdRelease_canon _ _ h
  | fsEdge => exact .next fun h => Chip.fsEdge_canon _ _ _ _ _ h
  | voiceArm => exact .next fun h => Chip.voiceArm_canon _ _ h
  | voiceCmdRelease => exact .next fun h => Chip.voiceRelease_canon _ _ h
  | voiceCmdStop => exact .next fun h => Chip.voiceStop_canon _ _ h
  | voiceGainWrite => exact .next fun h => Chip.voiceGain_canon _ _ _ h
  | busGainWrite => exact .next fun h => Chip.busGain_canon _ _ _ h
  | efxLoad => exact .next fun h => Chip.efxLoad_canon _ _ h
  | efxLoadComplete => exact .next fun h => Chip.efxDone_canon _ _ h
  | audioPortEnable => exact .next fun h => Chip.audEnable_canon _ _ _ h
  | audioSynthLock => exact .next fun h => Chip.audLock_canon _ h
  | slaveFsEdge => exact .next fun h => Chip.slaveEdge_canon _ _ _ _ _ h
  | timeCompareMatch => exact .next fun h => Chip.compareNow_canon _ h
  | tcmpHiWrite => exact .next fun h => Chip.tcmpWrite_canon _ _ h
  | channelTick => exact .unless fun h => Chip.channelTick_canon _ _ h
  | channelStart => exact .next fun h => Chip.chEnable_canon _ _ h
  | channelStop => exact .next fun h => Chip.chDisable_canon _ _ h
  | cntWrite => exact .next fun h => Chip.cntWrite_canon _ _ _ h
  | lpStep => exact .next fun h => Chip.rtcTick_canon _ (Chip.lpStep_canon _ h)
  | chkInit => exact .next fun h => Chip.chkInit_canon _ _ h
  | chkCheck => exact .next fun h => Chip.chkCheck_canon _ _ h
  | chkDataW => exact .next fun h => Chip.chkFeed_canon _ _ _ h
  | chkDataH => exact .next fun h => Chip.chkFeed_canon _ _ _ h
  | chkDataB => exact .next fun h => Chip.chkFeed_canon _ _ _ h
  | chkStateWrite => exact .next fun h => Chip.chkState_canon _ _ _ h
  | bobStart => exact .next fun h => Chip.bobStart_canon _ _ h
  | bobStop => exact .next fun h => Chip.bobStop_canon _ _ h
  | bobAbort => exact .next fun h => Chip.bobAbort_canon _ _ h
  | bobDescriptorFetch => exact .next fun h => Chip.bobFetch_canon _ _ h
  | bobTrigger => exact .guard fun h => Chip.when_canon _ _ _ (fun _ h => Chip.bobTrigger_canon _ _ h) (Chip.ack_canon _ _ h)
  | bobDescriptorEnd => exact .next fun h => Chip.bobMove_canon _ _ h
  | uartDataWrite => exact .next fun h => Chip.uartWrite_canon _ _ _ h
  | uartDataRead => exact .next fun h => Chip.uartRead_canon _ _ h
  | uartCharSent => exact .next fun h => Chip.uartSent_canon _ _ h
  | uartCharReceived => exact .next fun h => Chip.uartReceived_canon _ _ _ _ h
  | uartRxTimeout => exact .next fun h => Chip.uartTimeout_canon _ _ h
  | qspiGo => exact .next fun h => Chip.qspiGo_canon _ _ h
  | qspiDone => exact .next fun h => Chip.qspiDone_canon _ _ h
  | i2cGo => exact .next fun h => Chip.i2cGo_canon _ _ _ h
  | i2cDone => exact .next fun h => Chip.i2cDone_canon _ _ _ h
  | i2cSclTimeout => exact .next fun h => Chip.i2cTimeout_canon _ _ h
  | adcTrigger => exact .guard fun h => Chip.when_canon _ _ _ (fun _ h => Chip.adcTrigger_canon _ h) (Chip.ack_canon _ _ h)
  | adcStart => exact .next fun h => Chip.adcTrigger_canon _ h
  | adcSequenceEnd => exact .next fun h => Chip.adcEnd_canon _ _ h
  | adcCal => exact .next fun h => Chip.adcCal_canon _ h
  | adcCalAuto => exact .guard fun h => Chip.adcCal_canon _ h
  | gpioSet => exact .next fun h => Chip.gpioSet_canon _ _ _ h
  | gpioClr => exact .next fun h => Chip.gpioClr_canon _ _ _ h
  | gpioInputChange => exact .next fun h => Chip.gpioInput_canon _ _ _ _ h
  | lanternDecision => exact .guard fun h => Chip.decision_canon _ _ _ h
  | shedLimitAdvance => exact .guard fun h => Chip.onLtn_canon _ _ (Chip.shedAdvance_canon _ h)
  | vsetStep => exact .next fun h => Chip.vsetStep_canon _ h
  | phaseCurrentLimit =>
    exact .ite (.next fun h => ite_canon (Chip.limitNote_canon _ (Chip.onLtn_canon _ _ h)) h)
      (.next fun h => Chip.limitNote_canon _ (Chip.onLtn_canon _ _ h))
  | phaseOpen => exact .next fun h => Chip.phaseFault_canon _ _ _ h
  | phaseShort => exact .next fun h => Chip.phaseFault_canon _ _ _ h
  | blindDetect => exact .next fun h => Chip.blindDetect_canon _ _ _ _ _ h
  | spareEngaged => exact .next fun h => Chip.spareCarries_canon _ _ h
  | ltnIsolate => exact .next fun h => Chip.ltnIsolate_canon _ _ h
  | shedEnWrite => exact .next fun h => Chip.storeLtn_canon _ _ _ h
  | supplySwitch => exact .next fun h => Chip.vinChange_canon _ _ h
  | aonPor => exact .next fun h => Chip.aonPor_canon _ h
  | chargerRecompute => exact .next fun h => Chip.chargerStep_canon _ _ h
  | tempSample => exact .next fun h => Chip.tempSample_canon _ _ h
  | chargeProbeEnd => exact .guard fun h => Chip.probeEnd_canon _ _ h
  | preToFast => exact .guard fun h => Chip.setCharge_canon _ _ h
  | preTimeout => exact .guard fun h => Chip.setCharge_canon _ _ (Chip.sb_canon _ _ _ h)
  | fastTimeout => exact .guard fun h => Chip.setCharge_canon _ _ (Chip.sb_canon _ _ _ h)
  | cvEntry => exact .guard fun h => Chip.setCharge_canon _ _ h
  | chargeTermination => exact .guard fun h => Chip.setCharge_canon _ _ (Chip.sb_canon _ _ _ h)
  | rechargeStart => exact .guard fun h => Chip.setCharge_canon _ _ h
  | noCellReprobe => exact .guard fun h => Chip.setCharge_canon _ _ h
  | cellOvp => exact .unless fun h => Chip.setCharge_canon _ _ (Chip.sb_canon _ _ _ h)
  | embCtrlWrite => exact .next fun h => Chip.embCtrl_canon _ _ h
  | rtcSecond => exact .guard fun h => Chip.rtcSecond_canon _ h
  | rtcCalibrate => exact .guard fun h => Chip.onEmb_canon _ _ (Chip.rtcCal_canon _ h)
  | rtcSecWrite => exact .next fun h => Chip.rtcSet_canon _ _ h
  | powerRequest => exact .next fun h => Chip.pwrRequest_canon _ _ h
  | powerStateEntry => exact .next fun h => Chip.powerEntry_canon _ h
  | wakeInput => exact .next fun h => Chip.wakeInput_canon _ _ _ _ _ h
  | wakeEvent => exact .guard fun h => Chip.wakeEvent_canon _ _ h
  | wakeStart => exact .next fun h => Chip.wakeStart_canon _ h
  | drnCopyGo => exact .next fun h => Chip.storeDrnCopy_canon _ _ h
  | drnCopyNocopy => exact .next fun h => Chip.storeDrnCopy_canon _ _ h
  | drnCopyAbort => exact .next fun h => Chip.copyAbort_canon _ h
  | sliceCheckVisit => exact .next fun h => Chip.sliceVisit_canon _ _ h
  | sliceMark => exact .next fun h => Chip.storeSlice_canon _ _ h
  | sliceAssign => exact .next fun h => Chip.storeSlice_canon _ _ h
  | voiceFailMark => exact .next fun h => Chip.voiceMark_canon _ _ _ h
  | coreSelfTest => exact .next fun h => Chip.selfTest_canon _ _ _ h
  | adoption => exact .next fun h => Chip.adoption_canon _ _ h
  | adoptedProgramStart => exact .next fun h => Chip.adoptStart_canon _ h
  | core7Fault => exact .next fun h => Chip.core7Fault_canon _ h
  | core0Restart => exact .next fun h => Chip.core0Restart_canon _ h
  | darnRecordApply => exact .next fun h => Chip.tirbaStart_canon _ h
  | journalEntryWrite => exact .next fun h => Chip.jrnWrite_canon _ h
  | jrnPost => exact .next fun h => Chip.jrnPost_canon _ _ h
  | lcyOpGo => exact .next fun h => Chip.lcyGo_canon _ _ _ h
  | lcyOperationEnd => exact .next fun h => Chip.lcyEnd_canon _ _ h
  | tapReset => exact .jtag fun _ h => Chip.setIr_canon _ _ h
  | jtagExtest => exact .jtag fun _ h => Chip.extest_canon _ _ h
  | jtagSamplePreload => exact .jtag fun _ h => Chip.boundaryScan_canon _ _ _ (Chip.setIr_canon _ _ h)
  | jtagIdcode => exact .jtag fun _ h => Chip.emit_canon _ _ (Chip.setIr_canon _ _ h)
  | jtagClamp => exact .jtag fun _ h => Chip.setIr_canon _ _ h
  | jtagHighz => exact .jtag fun _ h => Chip.setIr_canon _ _ h
  | jtagBypass => exact .jtag fun _ h => Chip.setIr_canon _ _ h
  | dbgChal => exact .jtag fun _ h => Chip.newChallenge_canon _ h
  | dbgResp => exact .jtag fun _ h => Chip.response_canon _ _ h
  | dbgResponseCheckEnd => exact .next fun h => Chip.responseEnd_canon _ h
  | dbgRevoke => exact .next fun h => Chip.grantEnd_canon _ h
  | dbgNop => exact .dbgCmd fun _ h => Chip.dbgEnd_canon _ _ h
  | dbgHalt => exact .dbgCmd fun _ h => Chip.dbgHaltCore_canon _ _ h
  | dbgResume => exact .dbgCmd fun _ h => Chip.dbgResumeCore_canon _ _ h
  | dbgStep => exact .dbgCmd fun _ h => Chip.dbgStepCore_canon _ _ h
  | dbgReadG => exact .dbgCmd fun _ h => Chip.dbgReadG_canon _ _ _ h
  | dbgWriteG => exact .dbgCmd fun _ h => Chip.dbgWriteG_canon _ _ _ _ h
  | dbgLoad => exact .dbgCmd fun _ h => Chip.dbgLoadWord_canon _ _ _ h
  | dbgStore => exact .dbgCmd fun _ h => Chip.dbgStoreWord_canon _ _ _ _ h
  | vinPowerOn => exact .next fun h => Chip.onDbg_canon _ _ (Chip.coldCause_canon _ _ _ h)
  | nresetFall => exact .next fun h => Chip.coldAnyway_canon _ _ _ h
  | startSequence => exact .next fun h => Chip.startSequence_canon _ _ h
  | vioCTimeout => exact .next fun h => Chip.vioCTimeout_canon _ h
  | vinBrownout => exact .next fun h => Chip.coldAnyway_canon _ _ _ h
  | coreBrownout => exact .guard fun h => Chip.coldCause_canon _ _ _ h
  | thermalTrip => exact .next fun h => Chip.coldCause_canon _ _ _ h
  | fatalFault => exact .next fun h => Chip.fatalFault_canon _ _ _ h
  | sysResetWarm => exact .next fun h => Chip.sysReset_canon _ _ _ _ _ h
  | sysResetCold => exact .next fun h => Chip.sysReset_canon _ _ _ _ _ h
  | vioBankChange => exact .next fun h => Chip.vioChange_canon _ _ _ h
  | nopCommand => exact .once fun _ _ h => Chip.ok_canon _ _ h
  | busMasterCompletion => exact .next fun h => Chip.bmData_canon _ _ _ h
  | completionTimeout => exact .next fun h => Chip.bmData_canon _ _ _ (Chip.when_canon _ _ _ (fun _ h => Chip.onHost_canon _ _ h) h)
  | adcCalEnd => exact .unless fun h => Chip.wb_canon _ _ _ _ h

/-! ### Queues -/

/-- With a command in front, a step is that command on the rest of the queue; with none, a tick (assumption 9). -/
theorem step_front (i : Instr) (rest : List Instr) (c : Chip) :
    step { chip := c, pending := i :: rest } = exec i { chip := c, pending := rest } := rfl

theorem step_empty (c : Chip) : step { chip := c, pending := [] } = .next { chip := c.tick, pending := [] } := rfl

/-- Settles O56: both clauses are the two cases of `step`. -/
theorem stepRunsTheFrontCommand : Obligations.StepRunsTheFrontCommand :=
  ⟨fun c i rest => step_front i rest c, step_empty⟩

/-- The first commands of a queue run in order, one step each, and leave the rest. -/
theorem runs_front : ∀ (l r : List Instr) (c : Chip),
    ∃ d, State.runs l.length { chip := c, pending := l ++ r } { chip := d, pending := r }
  | [], _, c => ⟨c, rfl⟩
  | i :: t, r, c => by
    obtain ⟨e, he, _⟩ := exec_answers i { chip := c, pending := t ++ r }
    obtain ⟨d, hd⟩ := runs_front t r e
    exact ⟨d, _, (step_front i (t ++ r) c).trans he, hd⟩

/-- Settles O57, by `exec_answers` for one command and induction over the queue. -/
theorem everyCommandEndsInANextState : Obligations.EveryCommandEndsInANextState := by
  unfold Obligations.EveryCommandEndsInANextState
  refine ⟨fun i s => ?_, runs_front, fun s => ?_⟩
  · obtain ⟨c, hc, _⟩ := exec_answers i s
    exact ⟨c, hc⟩
  · have h := runs_front s.pending [] s.chip
    rwa [List.append_nil] at h

/-- Settles O58: a tick keeps the canonical form, and so does the command in front, which leaves the rest of the queue. -/
theorem canonicalFormIsKept : Obligations.CanonicalFormIsKept := by
  unfold Obligations.CanonicalFormIsKept
  rintro ⟨c, queue⟩ t hc hq hstep
  cases queue with
  | nil =>
    cases hstep
    exact ⟨Chip.tick_canon c hc, hq⟩
  | cons i rest =>
    rw [step_front] at hstep
    obtain ⟨d, hd, hkeeps⟩ := exec_answers i { chip := c, pending := rest }
    rw [hd] at hstep
    cases hstep
    exact ⟨hkeeps hc, fun j hj => hq j (List.mem_cons_of_mem _ hj)⟩

end Sys2Proof.Machine
end

section
/-! Bits and fields of a register after a write of it or of another register (R6). -/

namespace Sys2Proof.Machine

theorem Chip.rb_wb_same {i : Nat} (hi : i < 32) (a : Nat) (v : Bool) (c : Chip) : (c.wb a i v).rb a i = v := by
  rw [Chip.rb, Chip.rd_wb_same, tb_setBit hi, if_pos rfl]

theorem Chip.rb_sb_same {i : Nat} (hi : i < 32) (a : Nat) (c : Chip) : (c.sb a i).rb a i = true := Chip.rb_wb_same hi a true c

theorem Chip.rb_wb_apart {i j : Nat} (hj : j < 32) (h : i ≠ j) (a : Nat) (v : Bool) (c : Chip) : (c.wb a i v).rb a j = c.rb a j := by
  rw [Chip.rb, Chip.rd_wb_same, tb_setBit hj, if_neg h, Chip.rb]

theorem Chip.rb_wf_apart {hi lo i : Nat} (hj : i < 32) (h : i < lo ∨ hi < i) (a v : Nat) (c : Chip) : (c.wf a hi lo v).rb a i = c.rb a i := by
  rw [Chip.rb, Chip.rd_wf_same, tb_eq_getLsbD, getLsbD_setFld hj, if_neg (by omega), Chip.rb, tb_eq_getLsbD]

theorem Chip.rf_wb_apart {hi lo i : Nat} (hhi : hi < 32) (h : hi < i ∨ i < lo) (a : Nat) (v : Bool) (c : Chip) :
    (c.wb a i v).rf a hi lo = c.rf a hi lo := by
  rw [Chip.rf, Chip.rd_wb_same, fld_setBit_apart hhi h, Chip.rf]

theorem Chip.rb_wb_ne {a b : Nat} (h : b ≠ a) (i j : Nat) (v : Bool) (c : Chip) : (c.wb a i v).rb b j = c.rb b j :=
  Chip.rb_congr (c.rd_wb_ne a b i v h) j

theorem Chip.rf_wb_ne {a b : Nat} (h : b ≠ a) (i hi lo : Nat) (v : Bool) (c : Chip) : (c.wb a i v).rf b hi lo = c.rf b hi lo :=
  Chip.rf_congr (c.rd_wb_ne a b i v h) hi lo

theorem Chip.rb_wf_ne {a b : Nat} (h : b ≠ a) (hi lo v j : Nat) (c : Chip) : (c.wf a hi lo v).rb b j = c.rb b j :=
  Chip.rb_congr (c.rd_wf_ne a b hi lo v h) j

theorem Chip.rf_wf_ne {a b : Nat} (h : b ≠ a) (hi lo v hi' lo' : Nat) (c : Chip) : (c.wf a hi lo v).rf b hi' lo' = c.rf b hi' lo' :=
  Chip.rf_congr (c.rd_wf_ne a b hi lo v h) hi' lo'

theorem Chip.rb_wr_ne {a b : Nat} (h : b ≠ a) (v : Word) (j : Nat) (c : Chip) : (c.wr a v).rb b j = c.rb b j :=
  Chip.rb_congr (c.rd_wr_ne a b v h) j

theorem Chip.rf_wr_ne {a b : Nat} (h : b ≠ a) (v : Word) (hi lo : Nat) (c : Chip) : (c.wr a v).rf b hi lo = c.rf b hi lo :=
  Chip.rf_congr (c.rd_wr_ne a b v h) hi lo

/-! A unit changed leaves the registers. -/

@[simp] theorem Chip.rd_onBeam (b : Beam) (f : PrkBeam → PrkBeam) (c : Chip) (a : Nat) : (c.onBeam b f).rd a = c.rd a := rfl
@[simp] theorem Chip.rd_onApq (b : Beam) (f : ApqBeam → ApqBeam) (c : Chip) (a : Nat) : (c.onApq b f).rd a = c.rd a := rfl
@[simp] theorem Chip.rd_onBmo (b : Beam) (f : BmoBeam → BmoBeam) (c : Chip) (a : Nat) : (c.onBmo b f).rd a = c.rd a := rfl
@[simp] theorem Chip.rd_onBob (n : BobCh) (f : BobSt → BobSt) (c : Chip) (a : Nat) : (c.onBob n f).rd a = c.rd a := rfl
@[simp] theorem Chip.rd_onEye (n : Port) (f : EyePort → EyePort) (c : Chip) (a : Nat) : (c.onEye n f).rd a = c.rd a := rfl
@[simp] theorem Chip.rd_onRing (n : Ring) (f : RingSt → RingSt) (c : Chip) (a : Nat) : (c.onRing n f).rd a = c.rd a := rfl
@[simp] theorem Chip.rd_onTmr (f : TmrSt → TmrSt) (c : Chip) (a : Nat) : (c.onTmr f).rd a = c.rd a := rfl
@[simp] theorem Chip.rd_onSer (f : SerSt → SerSt) (c : Chip) (a : Nat) : (c.onSer f).rd a = c.rd a := rfl
@[simp] theorem Chip.rd_onSnd (f : SndSt → SndSt) (c : Chip) (a : Nat) : (c.onSnd f).rd a = c.rd a := rfl
@[simp] theorem Chip.rd_onEmb (f : EmbSt → EmbSt) (c : Chip) (a : Nat) : (c.onEmb f).rd a = c.rd a := rfl
@[simp] theorem Chip.rd_onLtn (f : LtnSt → LtnSt) (c : Chip) (a : Nat) : (c.onLtn f).rd a = c.rd a := rfl
@[simp] theorem Chip.rd_onLcy (f : LcySt → LcySt) (c : Chip) (a : Nat) : (c.onLcy f).rd a = c.rd a := rfl
@[simp] theorem Chip.rd_onDbg (f : DbgSt → DbgSt) (c : Chip) (a : Nat) : (c.onDbg f).rd a = c.rd a := rfl
@[simp] theorem Chip.rd_onDrn (f : DrnSt → DrnSt) (c : Chip) (a : Nat) : (c.onDrn f).rd a = c.rd a := rfl
@[simp] theorem Chip.rd_onRst (f : RstSt → RstSt) (c : Chip) (a : Nat) : (c.onRst f).rd a = c.rd a := rfl
@[simp] theorem Chip.rd_onHost (f : HostSt → HostSt) (c : Chip) (a : Nat) : (c.onHost f).rd a = c.rd a := rfl
@[simp] theorem Chip.rd_onTirba (f : TirbaSt → TirbaSt) (c : Chip) (a : Nat) : (c.onTirba f).rd a = c.rd a := rfl
@[simp] theorem Chip.rd_emit (o : Output) (c : Chip) (a : Nat) : (c.emit o).rd a = c.rd a := rfl
@[simp] theorem Chip.rd_journal (src ev u : Nat) (d0 d1 d2 : Word) (c : Chip) (a : Nat) : (c.journal src ev u d0 d1 d2).rd a = c.rd a := rfl

end Sys2Proof.Machine
end

section
/-! Composition, commits and the stop of a link (15, R453 to R461; 16, R474): the start of a line's composite, a span that falls due, a
request by the state of APQ_COMMIT, and the end of a transfer. -/

namespace Sys2Proof.Machine

/-! ### The commands -/

theorem exec_compositeStart (b : Beam) (slack : Option Int) (s : State) :
    exec (.compositeStart b slack) s = .next (s.withChip (s.chip.compositeStart b slack)) := rfl

theorem exec_spanDue (b : Beam) (complete : Bool) (s : State) :
    exec (.spanDue b complete) s = .next (s.withChip (s.chip.spanDue b complete)) := rfl

theorem exec_commitRequest (b : Beam) (s : State) : exec (.commitRequest b) s = .next (s.withChip (s.chip.commitReq b)) := rfl

theorem exec_transferEnd (b : Beam) (s : State) : exec (.transferEnd b) s = .next (s.withChip (s.chip.transferEnd b)) := rfl

theorem exec_linkStop (b : Beam) (s : State) : exec (.linkStop b) s = .next (s.withChip (s.chip.linkStop b)) := rfl

/-! ### The Appliqué changed -/

@[simp] theorem Chip.apq_onApq (b : Beam) (f : ApqBeam → ApqBeam) (c : Chip) : (c.onApq b f).apq[b] = f c.apq[b] := upd_same _ _ _

theorem upd_congr {α : Type} {n : Nat} (v : Vector α n) (i : Fin n) {f g : α → α} (h : f v[i] = g v[i]) : upd v i f = upd v i g := by
  rw [upd, upd, h]

/-- What the Appliqué becomes rests on what it is. -/
theorem Chip.onApq_congr {b : Beam} {f g : ApqBeam → ApqBeam} {c : Chip} (h : f c.apq[b] = g c.apq[b]) : c.onApq b f = c.onApq b g := by
  rw [Chip.onApq, Chip.onApq, upd_congr _ _ h]

/-! ### The composite of a line (R453, R454) -/

/-- The composite of a line that is ready starts; a line that was output before is dropped with its capture. -/
theorem Chip.compositeStart_of_ready {c : Chip} {b : Beam} {x : ApqSnap} (hrun : c.running b = true)
    (hline : c.apq[b].started < (c.beam b).vactive) (hready : c.layersReady b c.apq[b].started = true)
    (hsnap : c.apq[b].snap c.apq[b].started = some x) (slack : Option Int) :
    ∃ d : Chip, c.compositeStart b slack = d.onApq b (fun q => { q with
      started := c.apq[b].started + 1
      snaps := if x.late.isSome then q.snaps.filter fun s => s.line != c.apq[b].started else q.snaps }) ∧ (slack = none → d = c) := by
  unfold Chip.compositeStart
  simp only [hsnap]
  rw [if_pos ⟨hrun, hline, hready⟩]
  exact ⟨_, rfl, fun h => by rw [h]⟩

/-! ### A span that falls due (R453 to R455) -/

/-- A span of the present line falls due at its pixel; the line's last span ends it. -/
theorem Chip.spanDue_of_present {c : Chip} {b : Beam} (hrun : c.running b = true) (hactive : c.apq[b].outLine < (c.beam b).vactive)
    (hline : c.line b = c.apq[b].outLine) (hpixel : 64 * c.apq[b].outSpan + 128 < (c.beam b).htotal) (hover : c.apq[b].overtook = [])
    (complete : Bool) :
    c.spanDue b complete =
      let d := (c.setPos b c.apq[b].outLine (64 * c.apq[b].outSpan + 128)).spanSend b c.apq[b].outLine c.apq[b].outSpan complete
      if (c.beam b).hactive ≤ 64 * (c.apq[b].outSpan + 1) then d.lineSent b c.apq[b].outLine else d := by
  unfold Chip.spanDue
  rw [if_pos ⟨hrun, hactive, Nat.le_of_eq hline.symm, .inl hline⟩]
  simp only [hline, hpixel, hover, and_self, if_true, List.contains_nil, Bool.false_eq_true, and_false, if_false]

/-! ### Requests for a commit (R456, R457, R461) -/

/-- The frame in which a request landed that arms. -/
def Chip.armIn (b : Beam) (c : Chip) : Chip := c.onApq b fun q => { q with armOf := c.rd (R.PRK_FRAME b) }

theorem Chip.armIn_request (b : Beam) (c : Chip) : (c.sb (R.APQ_COMMIT b) 0).armIn b =
    (c.sb (R.APQ_COMMIT b) 0).onApq b fun q => { q with armOf := c.rd (R.PRK_FRAME b) } := by
  have hne : R.PRK_FRAME b ≠ R.APQ_COMMIT b := by simp only [R.PRK_FRAME, R.APQ_COMMIT]; omega
  rw [Chip.armIn, Chip.rd_sb_ne _ _ _ _ hne]

/-- REQ leaves the Beam where it stands. -/
theorem Chip.place_armIn_request (b : Beam) (c : Chip) :
    ((c.sb (R.APQ_COMMIT b) 0).armIn b).running b = c.running b ∧ ((c.sb (R.APQ_COMMIT b) 0).armIn b).line b = c.line b := by
  have hstat : R.PRK_STAT b ≠ R.APQ_COMMIT b := by simp only [R.PRK_STAT, R.APQ_COMMIT]; omega
  have hpos : R.PRK_POS b ≠ R.APQ_COMMIT b := by simp only [R.PRK_POS, R.APQ_COMMIT]; omega
  simp only [Chip.running, Chip.line, Chip.rb, Chip.rf, Chip.armIn, Chip.rd_onApq, Chip.rd_sb_ne _ _ _ _ hstat,
    Chip.rd_sb_ne _ _ _ _ hpos, and_self]

/-- A request during a transfer for which one waits already. -/
theorem Chip.commitReq_of_waiting {c : Chip} {b : Beam} (hst : c.rf (R.APQ_COMMIT b) 5 4 = 2) (harm : c.apq[b].armAfter = true) :
    c.commitReq b = (c.sb (R.APQ_COMMIT b) 0).onApq b fun q => { q with armAfter := true } := by
  unfold Chip.commitReq
  simp only [hst, Chip.sb_apq, harm]
  rfl

/-- The first request during a transfer. -/
theorem Chip.commitReq_of_transfer {c : Chip} {b : Beam} (hst : c.rf (R.APQ_COMMIT b) 5 4 = 2) (harm : c.apq[b].armAfter = false) :
    c.commitReq b = ((c.sb (R.APQ_COMMIT b) 0).armIn b).onApq b fun q => { q with armAfter := true } := by
  unfold Chip.commitReq
  simp only [hst, Chip.sb_apq, harm]
  rfl

/-- A request while one is held. -/
theorem Chip.commitReq_of_held {c : Chip} {b : Beam} (hst : c.rf (R.APQ_COMMIT b) 5 4 = 1 ∨ c.rf (R.APQ_COMMIT b) 5 4 = 3) :
    c.commitReq b = c.sb (R.APQ_COMMIT b) 0 := by
  rcases hst with hst | hst <;> simp [Chip.commitReq, hst]

/-- A request that finds none held: a stopped Beam transfers, a running one waits for its commit point. -/
theorem Chip.commitReq_of_idle {c : Chip} {b : Beam} (hst : c.rf (R.APQ_COMMIT b) 5 4 = 0) :
    c.commitReq b = let d := (c.sb (R.APQ_COMMIT b) 0).armIn b
      if c.running b = false then d.transfer b
      else d.commitState b (if c.line b < (c.beam b).commitLine then 1 else 3) := by
  obtain ⟨hrun, hline⟩ := Chip.place_armIn_request b c
  unfold Chip.commitReq
  simp only [hst, true_or, if_true]
  rw [if_neg (by omega), if_neg (by omega)]
  change (if ¬((c.sb (R.APQ_COMMIT b) 0).armIn b).running b = true then _
    else if ((c.sb (R.APQ_COMMIT b) 0).armIn b).line b < (c.beam b).commitLine then _ else _) = _
  rw [hrun, hline]
  cases c.running b
  · rfl
  · simp only [not_true_eq_false, if_false, Bool.true_eq_false]
    split <;> rfl

/-! ### The end of a transfer (R458, R459) -/

/-- The registers after a transfer whose frame is shown from the next on, with or without a request that armed meanwhile. -/
def Chip.transferDone (b : Beam) (arm : Bool) (c : Chip) : Chip :=
  (((c.wr (R.APQ_COMMIT_FRAME b) (c.rd (R.PRK_FRAME b) + 1)).commitState b (if arm then 3 else 0)).wb (R.APQ_COMMIT b) 0 arm).onApq b
    fun q => { q with held := [], armAfter := false, ends := q.ends ++ [c.rd (R.PRK_FRAME b) + 1] }

/-- Nothing is held. -/
theorem Chip.transferEnd_of_unheld {c : Chip} {b : Beam} (hst : c.rf (R.APQ_COMMIT b) 5 4 = 2) (hheld : c.apq[b].held = [])
    (harm : c.apq[b].armAfter = false) : c.transferEnd b = c.transferDone b false := by
  have htr : c.inTransfer b = true := by simp [Chip.inTransfer, hst]
  unfold Chip.transferEnd
  rw [if_pos htr]
  simp only [hheld, harm]
  rfl

theorem Chip.rd_transferDone_ne {b : Beam} {a : Nat} (h : a ≠ R.APQ_COMMIT b) (hf : a ≠ R.APQ_COMMIT_FRAME b) (arm : Bool) (c : Chip) :
    (c.transferDone b arm).rd a = c.rd a := by
  rw [Chip.transferDone, Chip.rd_onApq, Chip.rd_wb_ne _ _ _ _ _ h, Chip.commitState, Chip.rd_wf_ne _ _ _ _ _ _ h, Chip.rd_wr_ne _ _ _ _ hf]

theorem Chip.rd_transferDone_frame (b : Beam) (arm : Bool) (c : Chip) :
    (c.transferDone b arm).rd (R.APQ_COMMIT_FRAME b) = c.rd (R.PRK_FRAME b) + 1 := by
  have hne : R.APQ_COMMIT_FRAME b ≠ R.APQ_COMMIT b := by simp only [R.APQ_COMMIT_FRAME, R.APQ_COMMIT]; omega
  rw [Chip.transferDone, Chip.rd_onApq, Chip.rd_wb_ne _ _ _ _ _ hne, Chip.commitState, Chip.rd_wf_ne _ _ _ _ _ _ hne, Chip.rd_wr_same]

/-- STATE and REQ after a transfer with a request that armed meanwhile. -/
theorem Chip.rd_transferDone_commit (b : Beam) (c : Chip) : (c.transferDone b true).rf (R.APQ_COMMIT b) 5 4 = 3 ∧
    (c.transferDone b true).rb (R.APQ_COMMIT b) 0 = true := by
  rw [Chip.rf, Chip.rb, Chip.transferDone, Chip.rd_onApq, Chip.rd_wb_same, Chip.commitState, Chip.rd_wf_same]
  exact ⟨(fld_setBit_apart (by decide) (by decide) true).trans (fld_setFld_same (by decide) (by decide)), tb_setBit (by decide) true⟩

/-- A held write of a shadow palette entry lands; the request that armed meanwhile waits on a running Beam. -/
theorem Chip.transferEnd_of_spal {c : Chip} {b : Beam} {k : Nat} {v : Word} (hst : c.rf (R.APQ_COMMIT b) 5 4 = 2)
    (hheld : c.apq[b].held = [.spal k v]) (harm : c.apq[b].armAfter = true) (hrun : c.running b = true) :
    c.transferEnd b = { c.transferDone b true with palShadow := Sparse.set 0 c.palShadow k v } := by
  have htr : c.inTransfer b = true := by simp [Chip.inTransfer, hst]
  have hrun' : ({ c.transferDone b true with palShadow := Sparse.set 0 c.palShadow k v } : Chip).running b = true := by
    have hd := Chip.rd_transferDone_ne (b := b) (a := R.PRK_STAT b) (by simp only [R.PRK_STAT, R.APQ_COMMIT]; omega)
      (by simp only [R.PRK_STAT, R.APQ_COMMIT_FRAME]; omega) true c
    exact (Chip.rb_congr ((Chip.rd_congr (c := c.transferDone b true) rfl _).trans hd) 0).trans hrun
  unfold Chip.transferEnd
  rw [if_pos htr]
  simp only [hheld, harm, Bool.true_and]
  exact if_neg (by
    rw [Bool.not_eq_true, Bool.not_eq_false']
    exact hrun')

/-! ### The obligation -/

/-- A link whose frame has ended stops with EN at 0 (R474). -/
theorem Chip.linkStop_of_ended {c : Chip} {b : Beam} (hlink : c.link b = 2) (hen : c.rb (R.BMO_CTRL b) 0 = false) (hhold : c.holdSt b = 0)
    (hframe : c.bmo[b].inFrame = false) : c.linkStop b = c.linkLp b := 
  if_pos ⟨hlink, ne_true_of_eq_false hen, hhold, ne_true_of_eq_false hframe⟩

/-- Settles O35: each clause is the rule of its command in the state that the clause names. -/
theorem compositionAndCommits : Obligations.CompositionAndCommits := by
  unfold Obligations.CompositionAndCommits
  intro b s c k q
  refine ⟨?composite, ?span, ⟨?waiting, ?transfer, ?held, ?stopped, ?running⟩, ?unheld, ?spal, ?stop⟩
  case composite =>
    intro x hrun hline hready hsnap
    refine ⟨fun slack => ?_, fun hlate => ?_⟩
    · obtain ⟨d, hd, _⟩ := Chip.compositeStart_of_ready hrun hline hready hsnap slack
      exact ⟨_, (exec_compositeStart b slack s).trans (by rw [hd]), by rw [Chip.apq_onApq]⟩
    · obtain ⟨d, hd, hdc⟩ := Chip.compositeStart_of_ready hrun hline hready hsnap none
      rw [exec_compositeStart, hd, hdc rfl]
      exact congrArg (fun d => Host.Outcome.next (s.withChip d)) (Chip.onApq_congr (by simp [hlate, c]))
  case span =>
    intro complete hrun hactive hline hpixel hover
    rw [exec_spanDue, Chip.spanDue_of_present hrun hactive hline hpixel hover]
  case waiting =>
    intro hst harm
    rw [exec_commitRequest, Chip.commitReq_of_waiting hst harm]
  case transfer =>
    intro hst harm
    rw [exec_commitRequest, Chip.commitReq_of_transfer hst harm, Chip.armIn_request]
  case held =>
    intro hst
    rw [exec_commitRequest, Chip.commitReq_of_held hst]
  case stopped =>
    intro hst hrun
    rw [exec_commitRequest, Chip.commitReq_of_idle hst, Chip.armIn_request, if_pos hrun]
  case running =>
    intro hst hrun
    rw [exec_commitRequest, Chip.commitReq_of_idle hst, Chip.armIn_request, if_neg (fun h => Bool.false_ne_true (h.symm.trans hrun))]
    rfl
  case unheld =>
    intro hst hheld harm
    rw [exec_transferEnd, Chip.transferEnd_of_unheld hst hheld harm]
    rfl
  case spal =>
    intro k v hst hheld harm hrun
    obtain ⟨hstate, hreq⟩ := Chip.rd_transferDone_commit b c
    have hregs (a : Nat) : ({ c.transferDone b true with palShadow := Sparse.set 0 c.palShadow k v } : Chip).rd a = (c.transferDone b true).rd a :=
      Chip.rd_congr rfl a
    refine ⟨{ c.transferDone b true with palShadow := Sparse.set 0 c.palShadow k v }, ?_, rfl, ?_, ?_, ?_⟩
    · rw [exec_transferEnd, Chip.transferEnd_of_spal hst hheld harm hrun]
    · rw [Chip.rf_congr (hregs _), hstate]
    · rw [Chip.rb_congr (hregs _), hreq]
    · rw [hregs, Chip.rd_transferDone_frame]
  case stop =>
    intro hlink hen hhold hframe
    rw [exec_linkStop, Chip.linkStop_of_ended hlink hen hhold hframe]

end Sys2Proof.Machine
end

section
/-! The DSI links, their command queue, tearing effect, ULPS and the hold (16, R475 to R491): what each command comes to by the state
of the link, of the queue and of the hold. -/

namespace Sys2Proof.Machine

/-! ### The commands -/

theorem exec_syncPacket (b : Beam) (vss : Bool) (s : State) :
    exec (.syncPacket b vss) s = .next (s.withChip (s.chip.syncPacket b vss)) := rfl

theorem exec_pixelPacket (b : Beam) (s : State) : exec (.pixelPacket b) s = .next (s.withChip (s.chip.pixelPacket b)) := rfl

theorem exec_cmdFifoWrite (b : Beam) (v : Word) (s : State) :
    exec (.cmdFifoWrite b v) s = .next (s.withChip (s.chip.cmdWord b v)) := rfl

theorem exec_cmdSend (b : Beam) (s : State) : exec (.cmdSend b) s = .next (s.withChip (s.chip.cmdSend b)) := rfl

theorem exec_commandPacketSend (b : Beam) (s : State) :
    exec (.commandPacketSend b) s = .next (s.withChip (s.chip.commandSend b)) := rfl

/-- A TE edge is one of a ball in its TE function (R617). -/
theorem exec_teEdge_of_func {b : Beam} {s : State} (h : s.chip.rf (R.GPIO_PAD (9 + b.val)) 2 0 = 1) (pixel : BitVec 14) :
    exec (.teEdge b pixel) s = .next (s.withChip (s.chip.teEdge b pixel.toNat)) := by
  show execTeEdge b pixel s = _
  exact if_pos h

theorem exec_teMiss (b : Beam) (s : State) : exec (.teMiss b) s = .next (s.withChip (s.chip.teMiss b)) := rfl

theorem exec_ulpsWrite (b : Beam) (v : Bool) (s : State) : exec (.ulpsWrite b v) s = .next (s.withChip (s.chip.ulpsWrite b v)) := rfl

theorem exec_mark1End (b : Beam) (s : State) : exec (.mark1End b) s = .next (s.withChip (s.chip.markEnd b)) := rfl

theorem exec_holdEnter (b : Beam) (s : State) : exec (.holdEnter b) s = .next (s.withChip (s.chip.holdEnter b)) := rfl

theorem exec_holdRelease (b : Beam) (s : State) : exec (.holdRelease b) s = .next (s.withChip (s.chip.holdRelease b)) := rfl

/-! ### Packets of a running link (R475, R477) -/

section
variable {c : Chip} {b : Beam}

/-- The sync packet that is due leaves at the pixel of HS. -/
theorem Chip.syncPacket_of_due (hrun : c.running b = true) (hlink : c.link b = 2) (hvideo : c.cmdMode b = false) {vss : Bool}
    (hdue : vss = c.isVss b) :
    c.syncPacket b vss =
      let d := c.setPos b (c.line b) (max (c.pixel b) ((c.beam b).hactive + (c.beam b).hfront))
      (d.onLinks b (.dsiSync · (d.dsiVc b) vss)).bllp b :=
  if_pos ⟨hrun, hlink, ne_true_of_eq_false hvideo, hdue⟩

theorem Chip.syncPacket_of_other {vss : Bool} (hdue : vss ≠ c.isVss b) : c.syncPacket b vss = c := if_neg fun h => hdue h.2.2.2

/-- A line of a frame that has begun and is not the held one: its last line ends the frame only where the Beam has none left. -/
theorem Chip.pixelPacket_of_later (hlink : c.link b = 2) (hrun : c.running b = true) (hline : 2 ≤ c.line b)
    (hactive : c.line b < (c.beam b).vactive) (hon : c.bmo[b].frameOn = true) (hin : c.bmo[b].inFrame = true) :
    c.pixelPacket b = c.sendLine b (c.line b - 1) c.apq[b].store := by
  have hlater : c.line b - 1 ≠ 0 := by omega
  have hmore : c.line b - 1 + 1 ≠ (c.beam b).vactive := by omega
  unfold Chip.pixelPacket
  rw [if_pos ⟨hlink, by omega, by omega, .inl hrun⟩]
  simp only [hlater, hmore, hon, hin, if_false, not_true_eq_false, and_false, or_self]

/-! ### The command queue (R480 to R482) -/

theorem Chip.cmdWord_of_room (h : c.bmo[b].level < 64) (v : Word) : c.cmdWord b v = c.onBmo b fun q => { q with fifo := q.fifo ++ [v] } :=
  if_neg (by omega)

theorem Chip.cmdWord_of_full (h : 64 ≤ c.bmo[b].level) (v : Word) : c.cmdWord b v = c.sb (R.BMO_STICKY b) 4 := if_pos h

/-- SEND releases the whole packets of the queue; one that is bad takes the rest with it. -/
theorem Chip.cmdSend_of_split {ps : List (List Word)} {rest : List Word} {bad : Bool} (h : splitPackets 64 c.bmo[b].fifo = (ps, rest, bad)) :
    c.cmdSend b = (if bad then c.sb (R.BMO_STICKY b) 5 else c).onBmo b fun q => { q with fifo := rest, ready := q.ready ++ ps } := by
  unfold Chip.cmdSend
  simp only [h]
  rfl

/-- On a link at LP-11 the oldest released packet leaves by LPDT. -/
theorem Chip.commandSend_of_lp {p : List Word} {t : List (List Word)} (hlink : c.link b = 1) (hlist : c.bmo[b].list = [])
    (hready : c.bmo[b].ready = p :: t) :
    c.commandSend b = (c.onLinks b (.dsiCommand · (c.dsiVc b) false p)).onBmo b fun q => { q with ready := t } := by
  unfold Chip.commandSend Chip.packetOut
  simp only [hlist, hready, hlink]
  rfl

/-! ### Tearing effect (R483) -/

/-- TE captures the position where TE_EN asks for it; without TE_LOCK it steers nothing. -/
theorem Chip.teEdge_of_capture (hen : c.rb (R.BMO_CTRL b) 13 = true) (hlock : c.rb (R.BMO_CTRL b) 14 = false) (pixel : Nat) :
    c.teEdge b pixel = c.wr (R.BMO_TE_CAP b) (w32 (2 ^ 31 + c.line b % 8192 * 16384 + pixel % 16384)) := by
  have hne : R.BMO_CTRL b ≠ R.BMO_TE_CAP b := by simp only [R.BMO_CTRL, R.BMO_TE_CAP]; omega
  unfold Chip.teEdge
  simp only [hen, if_true, Chip.teSteers, Chip.rb_wr_ne hne, hlock, Bool.false_and, Bool.false_eq_true, if_false]

theorem Chip.teMiss_of_capture (hen : c.rb (R.BMO_CTRL b) 13 = true) (hlock : c.rb (R.BMO_CTRL b) 14 = false) :
    c.teMiss b = c.sb (R.BMO_STICKY b) 2 := by
  have hne : R.BMO_CTRL b ≠ R.BMO_STICKY b := by simp only [R.BMO_CTRL, R.BMO_STICKY]; omega
  unfold Chip.teMiss
  simp only [hen, if_true, Chip.teSteers, Chip.sb, Chip.rb_wb_ne hne, hlock, Bool.false_and, Bool.false_eq_true, if_false]

/-! ### ULPS (R484) -/

/-- BMO_CTRL.ULPS stands apart from the link's state. -/
theorem Chip.link_wb_BMO_CTRL (c : Chip) (b : Beam) (i : Nat) (v : Bool) : (c.wb (R.BMO_CTRL b) i v).link b = c.link b :=
  Chip.rf_wb_ne (by simp only [R.BMO_STAT, R.BMO_CTRL]; omega) _ _ _ _ c

theorem Chip.ulpsWrite_of_lp (hfree : c.holdSt b = 0) (hlink : c.link b = 1) :
    c.ulpsWrite b true = (c.wb (R.BMO_CTRL b) 15 true).setLink b 3 := by
  unfold Chip.ulpsWrite
  rw [if_neg (not_not.mpr hfree)]
  exact if_pos ⟨rfl, (c.link_wb_BMO_CTRL b 15 true).trans hlink⟩

theorem Chip.ulpsWrite_of_ulps (hfree : c.holdSt b = 0) (hlink : c.link b = 3) :
    c.ulpsWrite b false = (c.wb (R.BMO_CTRL b) 15 false).setLink b 4 := by
  unfold Chip.ulpsWrite
  rw [if_neg (not_not.mpr hfree)]
  exact (if_neg fun h => Bool.false_ne_true h.1).trans
    (if_pos ⟨Bool.false_ne_true, (c.link_wb_BMO_CTRL b 15 false).trans hlink⟩)

/-! What the end of Mark-1 emits leaves the output blocks. -/

theorem Chip.onLinks_bmo (f : Fin 4 → Output) : (c.onLinks b f).bmo = c.bmo := forEach_same Chip.bmo _ _ c fun _ _ => rfl

theorem Chip.setLink_bmo (v : Nat) : (c.setLink b v).bmo = c.bmo := rfl

theorem Chip.deskewLinks_bmo (c : Chip) (b : Beam) : (c.deskewLinks b).bmo = c.bmo := by
  unfold Chip.deskewLinks
  split
  · exact Chip.onLinks_bmo _
  · rfl

/-- Outside a release Mark-1 ends at LP-11, with the deskew of a fast link. -/
theorem Chip.markEnd_of_unheld (hlink : c.link b = 4) (hfree : c.bmo[b].marking = false) : c.markEnd b = (c.setLink b 1).deskewLinks b := by
  unfold Chip.markEnd
  rw [if_neg (not_not.mpr hlink)]
  exact if_neg (ne_true_of_eq_false (by rw [Chip.deskewLinks_bmo, Chip.setLink_bmo, hfree]))

/-! ### The hold (R486, R490, R491) -/

theorem Chip.holdEnter_of_refused (h : c.holdSt b ≠ 0 ∨ c.link b ≠ 2) : c.holdEnter b = c.sb (R.BMO_STICKY b) 6 := if_pos h

/-- An entry of a running link that is not held, whose list is good. -/
theorem Chip.holdEnter_of_list (hfree : c.holdSt b = 0) (hlink : c.link b = 2) {ps : List (List Word)} {d : Chip}
    (h : c.holdList b (c.rd (R.BMO_ENTER_BASE b)).toNat (c.rf (R.BMO_ENTER_LEN b) 8 0) = (some ps, d)) :
    c.holdEnter b = (d.setHold b 1).onBmo b fun q => { q with list := ps, listDone := ps.isEmpty, heldFrame := none } := by
  unfold Chip.holdEnter
  rw [if_neg (by rw [not_or, not_not, not_not]; exact ⟨hfree, hlink⟩), h]

theorem Chip.holdEnter_of_badList (hfree : c.holdSt b = 0) (hlink : c.link b = 2) {d : Chip}
    (h : c.holdList b (c.rd (R.BMO_ENTER_BASE b)).toNat (c.rf (R.BMO_ENTER_LEN b) 8 0) = (none, d)) :
    c.holdEnter b = d.sb (R.BMO_STICKY b) 5 := by
  unfold Chip.holdEnter
  rw [if_neg (by rw [not_or, not_not, not_not]; exact ⟨hfree, hlink⟩), h]

theorem Chip.holdRelease_of_refused (h : c.holdSt b ≠ 2) : c.holdRelease b = c.sb (R.BMO_STICKY b) 6 := if_pos h

theorem Chip.holdRelease_of_held (h : c.holdSt b = 2) : c.holdRelease b =
    (((c.setHold b 3).wb (R.BMO_HOLD b) 2 false).setLink b 4).onBmo b fun q => { q with marking := true } := if_neg (not_not.mpr h)

end

/-! ### The obligation -/

/-- Settles O36: each clause is the rule of its command in the state that the clause names. -/
theorem linksCommandsAndHolding : Obligations.LinksCommandsAndHolding := by
  unfold Obligations.LinksCommandsAndHolding
  intro b s c k q
  refine ⟨?sync, ?pixel, ?word, ?send, ?packet, ?edge, ?miss, ?ulps, ?mark, ?refused, ?enter, ?badList, ?unheld, ?release⟩
  case sync =>
    intro hrun hlink hvideo d vss
    have hdue : vss = c.isVss b := rfl
    constructor
    · rw [exec_syncPacket, Chip.syncPacket_of_due hrun hlink hvideo hdue]
    · rw [exec_syncPacket, Chip.syncPacket_of_other (by rw [hdue]; exact Bool.not_ne_self _), State.withChip_chip]
  case pixel =>
    intro hlink hrun hline hactive hon hin _
    rw [exec_pixelPacket, Chip.pixelPacket_of_later hlink hrun hline hactive hon hin]
  case word =>
    intro v
    constructor
    · intro h
      rw [exec_cmdFifoWrite, Chip.cmdWord_of_room h]
    · intro h
      rw [exec_cmdFifoWrite, Chip.cmdWord_of_full h]
  case send =>
    intro ps rest bad h
    rw [exec_cmdSend, Chip.cmdSend_of_split h]
  case packet =>
    intro p t hlink hlist hready
    rw [exec_commandPacketSend, Chip.commandSend_of_lp hlink hlist hready]
  case edge =>
    intro pixel hfunc hen hlock
    rw [exec_teEdge_of_func hfunc, Chip.teEdge_of_capture hen hlock]
  case miss =>
    intro hen hlock
    rw [exec_teMiss, Chip.teMiss_of_capture hen hlock]
  case ulps =>
    intro hfree
    constructor
    · intro hlink
      rw [exec_ulpsWrite, Chip.ulpsWrite_of_lp hfree hlink]
    · intro hlink
      rw [exec_ulpsWrite, Chip.ulpsWrite_of_ulps hfree hlink]
  case mark =>
    intro hlink hfree
    rw [exec_mark1End, Chip.markEnd_of_unheld hlink hfree]
  case refused =>
    intro h
    rw [exec_holdEnter, Chip.holdEnter_of_refused h]
  case enter =>
    intro ps d hfree hlink hlist
    rw [exec_holdEnter, Chip.holdEnter_of_list hfree hlink hlist]
    rfl
  case badList =>
    intro d hfree hlink hlist
    rw [exec_holdEnter, Chip.holdEnter_of_badList hfree hlink hlist]
  case unheld =>
    intro h
    rw [exec_holdRelease, Chip.holdRelease_of_refused h]
  case release =>
    intro h
    rw [exec_holdRelease, Chip.holdRelease_of_held h]
    rfl

end Sys2Proof.Machine
end

section
/-! Sound (17, R493 to R524): frames, voice commands, gains, effect blocks and the audio ports. -/

namespace Sys2Proof.Machine

/-! ### The commands -/

theorem exec_fsEdge (late : Bool) (under : List Voice) (rx : List Word) (bad : Bool) (s : State) :
    exec (.fsEdge late under rx bad) s = .next (s.withChip (s.chip.fsEdge late under rx bad)) := rfl

theorem exec_voiceArm (v : Voice) (s : State) : exec (.voiceArm v) s = .next (s.withChip (s.chip.voiceArm v)) := rfl

theorem exec_voiceCmdRelease (v : Voice) (s : State) : exec (.voiceCmdRelease v) s = .next (s.withChip (s.chip.voiceRelease v)) := rfl

theorem exec_voiceCmdStop (v : Voice) (s : State) : exec (.voiceCmdStop v) s = .next (s.withChip (s.chip.voiceStop v)) := rfl

theorem exec_voiceGainWrite (v : Voice) (w : Word) (s : State) :
    exec (.voiceGainWrite v w) s = .next (s.withChip (s.chip.voiceGain v w)) := rfl

theorem exec_busGainWrite (b : Bus) (w : Word) (s : State) :
    exec (.busGainWrite b w) s = .next (s.withChip (s.chip.busGain b w)) := rfl

theorem exec_efxLoad (b : Bus) (s : State) : exec (.efxLoad b) s = .next (s.withChip (s.chip.efxLoad b)) := rfl

theorem exec_efxLoadComplete (b : Bus) (s : State) : exec (.efxLoadComplete b) s = .next (s.withChip (s.chip.efxDone b)) := rfl

theorem exec_audioPortEnable (p : Fin 3) (v : Bool) (s : State) :
    exec (.audioPortEnable p v) s = .next (s.withChip (s.chip.audEnable p v)) := rfl

theorem exec_audioSynthLock (s : State) : exec .audioSynthLock s = .next (s.withChip s.chip.audLock) := rfl

theorem exec_slaveFsEdge (p : Fin 3) (ticks bclks : Nat) (rx : List Word) (s : State) :
    exec (.slaveFsEdge p ticks bclks rx) s = .next (s.withChip (s.chip.slaveEdge p ticks bclks rx)) := rfl

/-! ### Voice commands (R499 to R507) -/

section
variable {c : Chip} {v : Nat}

theorem Chip.voiceArm_of_busy (h : c.vState v ≠ 0) : c.voiceArm v = c.sb R.SND_STICKY 0 := if_pos h

theorem Chip.voiceArm_of_refused (h : c.vState v = 0) (hcause : c.armCause v ≠ 0) :
    c.voiceArm v = (c.sb R.SND_STICKY 0).wf (R.V_STAT v) 9 8 (c.armCause v) :=
  (if_neg (not_not.mpr h)).trans (if_pos hcause)

/-- What ARM latches of a voice's registers (R499). -/
def Chip.armed (c : Chip) (v : Nat) : VoiceSt :=
  let g := c.rd (R.V_GAIN v)
  let start := if tb g 31 then 0 else fld g 15 0
  { c.voice v with
    base := (c.rd (R.V_BASE v)).toNat, length := c.rf (R.V_LENGTH v) 24 0
    loopStart := c.rf (R.V_LOOP_START v) 24 0, loopLen := c.rf (R.V_LOOP_LEN v) 24 0
    format := c.rf (R.V_CTRL v) 3 0, bus := c.rf (R.V_CTRL v) 6 4
    attackMs := c.rf (R.V_ENV v) 13 0, releaseMs := c.rf (R.V_ENV v) 29 16
    pos := 0, env := 0, na := 0, step := 0, outL := 0, outR := 0
    gain := { l := start, r := start }, startRamp := tb g 31 }

theorem Chip.voiceArm_of_idle (h : c.vState v = 0) (hcause : c.armCause v = 0) :
    c.voiceArm v = (c.setVoice v (c.armed v)).setVState v 1 :=
  (if_neg (not_not.mpr h)).trans (if_neg (not_not.mpr hcause))

theorem Chip.voiceRelease_of_armed (h : c.vState v = 1) : c.voiceRelease v = c.voiceIdle v := by
  unfold Chip.voiceRelease
  rw [h]
  rfl

theorem Chip.voiceRelease_of_playing (h : c.vState v = 2) (hms : c.frames (c.voice v).releaseMs ≠ 0) :
    c.voiceRelease v =
      (c.setVoice v { c.voice v with na := 0, step := ceilDiv (c.voice v).env (c.frames (c.voice v).releaseMs) }).setVState v 3 := by
  unfold Chip.voiceRelease
  rw [h]
  exact if_neg hms

theorem Chip.voiceStop_of_busy (h : c.vState v ≠ 0) : c.voiceStop v = c.voiceIdle v := if_neg h

theorem Chip.voiceStop_of_idle (h : c.vState v = 0) : c.voiceStop v = c := if_pos h

theorem Chip.voiceGain_of_idle {w : Word} (h : (c.store (R.V_GAIN v) w).vState v = 0) : c.voiceGain v w = c.store (R.V_GAIN v) w := if_pos h

theorem Chip.voiceGain_of_busy {w : Word} {d : Chip} (hd : d = c.store (R.V_GAIN v) w) (h : d.vState v ≠ 0) :
    c.voiceGain v w =
      (d.setVoice v { d.voice v with startRamp := false, gain := d.gainChange (d.rd (R.V_GAIN v)) (d.voice v).gain }).sb (R.V_STAT v) 3 := by
  subst hd
  exact if_neg h

end

/-! ### A read of Vellum that finds nothing new (R107, R114) -/

section
/-- What writes of registers and changes of the Vellum and darning units and of the journal's queue leave. -/
structure OutsideVellum {β : Type} (g : Chip → β) : Prop where
  wr (a : Nat) (v : Word) (c : Chip) : g (c.wr a v) = g c
  vlm (x : Vlm) (c : Chip) : g { c with vlm := x } = g c
  jrn (source event u : Nat) (d0 d1 d2 : Word) (c : Chip) : g (c.journal source event u d0 d1 d2) = g c
  drn (kind u : Nat) (c : Chip) : g (c.wantDarn kind u) = g c

variable {β : Type} {g : Chip → β} (hg : OutsideVellum g)
include hg

theorem Chip.suspect_same (n : Nat) (c : Chip) : g (c.suspect n) = g c := by
  have hmark (a i : Nat) : g ((c.sb a i).sb R.DRN_STICKY 0) = g c := (hg.wr ..).trans (hg.wr ..)
  unfold Chip.suspect
  extract_lets a i c1 c2
  have hjrn : g c2 = g c := (hg.jrn ..).trans (hmark a i)
  split
  · exact hg.wr ..
  · split
    · exact hjrn
    · split
      · exact (hg.jrn ..).trans hjrn
      · exact (hg.drn ..).trans hjrn

theorem Chip.vUe_same (bank : Nat) (cls : VClass) (idx off : Nat) (syn : Byte) (c : Chip) : g (c.vUe bank cls idx off syn) = g c := by
  have hrecord : g (c.errRecord true syn bank cls idx off) = g c := by
    unfold Chip.errRecord
    split
    · rfl
    · exact (hg.wr ..).trans (hg.wr ..)
  exact (Chip.suspect_same hg ..).trans ((hg.vlm ..).trans ((hg.wr ..).trans ((hg.wr ..).trans hrecord)))

theorem Chip.vRead_same (cls : VClass) (idx off n : Nat) (c : Chip) : g (c.vRead cls idx off n).2.2 = g c := by
  have htouch (c : Chip) : g (c.tokTouch cls) = g c := by
    unfold Chip.tokTouch
    split
    · exact hg.wr ..
    · rfl
  have hfind (off : Nat) (c : Chip) : g (c.vFind cls idx off none) = g c := by
    unfold Chip.vFind Chip.vFindIn
    split
    · exact Chip.vUe_same hg ..
    · rfl
  exact (forEach_same g _ _ _ fun _ d => hfind _ d).trans (Chip.when_same g _ _ _ (htouch c))

end

/-! ### Buses (R510, R515, R516) -/

section
variable {c d : Chip} {b : Bus} {w : Word}

theorem Chip.busGain_of_enabled (hd : d = c.store (R.SND_BUS_GAIN b) w) (h : d.rb (R.SND_BUS_CTRL b) 0 = true) :
    c.busGain b w =
      (d.onBus b fun k => { k with gain := d.gainChange (d.rd (R.SND_BUS_GAIN b)) k.gain }).sb (R.SND_BUS_STAT b) 8 := by
  subst hd
  exact if_pos h

theorem Chip.busGain_of_disabled (hd : d = c.store (R.SND_BUS_GAIN b) w) (h : d.rb (R.SND_BUS_CTRL b) 0 = false) :
    c.busGain b w = (d.onBus b fun k => { k with gain := { l := fld w 15 0, r := fld w 15 0 } }).wb (R.SND_BUS_STAT b) 8 false := by
  subst hd
  exact if_neg (ne_true_of_eq_false h)

theorem Chip.sbIf_snd (v : Bool) (a i : Nat) (c : Chip) : (c.sbIf v a i).snd = c.snd := by
  unfold Chip.sbIf
  split <;> rfl

/-- The base that a bus's load has noted. -/
def Chip.loading (c : Chip) (b : Bus) : Option Nat := (c.snd.buses[b]).loading

theorem Chip.loading_congr (h : d.snd = c.snd) : d.loading b = c.loading b := by simp only [Chip.loading, h]

theorem Chip.loading_onBus (f : BusSt → BusSt) (c : Chip) : (c.onBus b f).loading b = (f c.snd.buses[b]).loading :=
  congrArg BusSt.loading (upd_same ..)

theorem Chip.vRead_snd (cls : VClass) (idx off n : Nat) (c : Chip) : (c.vRead cls idx off n).2.2.snd = c.snd :=
  Chip.vRead_same ⟨fun _ _ _ => rfl, fun _ _ => rfl, fun _ _ _ _ _ _ _ => rfl, fun _ _ _ => rfl⟩ cls idx off n c

/-- A block that passes the end of Vellum is refused. -/
theorem Chip.efxDone_of_past {off : Nat} (h : c.snd.buses[b].loading = some off) (hoff : vlmSize < off + 128) :
    c.efxDone b = (c.onBus b fun k => { k with loading := none }).sb R.SND_STICKY 4 := by
  unfold Chip.efxDone
  rw [h]
  exact if_pos hoff

/-- The load's end clears the note, whether the block is taken or refused. -/
theorem Chip.loading_efxDone {off : Nat} (h : c.snd.buses[b].loading = some off) : (c.efxDone b).loading b = none := by
  unfold Chip.efxDone
  rw [h]
  extract_lets c1
  have hnote : c1.loading b = none := Chip.loading_onBus ..
  have hread : (c1.vRead .sound 0 off 128).2.2.loading b = none := (Chip.loading_congr (Chip.vRead_snd ..)).trans hnote
  dsimp only
  split
  · exact hnote
  · split
    · exact hread
    · rw [Chip.loading_onBus]
      split <;> exact (Chip.loading_congr (Chip.sbIf_snd ..)).trans hread

end

/-! ### Frames (R494, R495) -/

/-- The frame received on port 2: from the pins at the engine's own edges, else from the port's FIFO. -/
def Chip.micFrame (rx : List Word) (c : Chip) : List Int × Chip :=
  if c.audRunning 2 = false then ([], c)
  else if c.onEngineEdge 2 then ((rx.map (slotIn (c.slotWidth 2))).take (c.slots 2), c)
  else c.audPop 2

theorem Chip.micFrame_eq (rx : List Word) (c : Chip) :
    (if !c.audRunning 2 then ([], c)
      else if c.onEngineEdge 2 then ((rx.map (slotIn (c.slotWidth 2))).take (c.slots 2), c) else c.audPop 2) = c.micFrame rx := by
  unfold Chip.micFrame
  cases c.audRunning 2 <;> rfl

theorem Chip.audRunning_slip (p : Nat) (c : Chip) : (c.slip p).audRunning p = c.audRunning p := Chip.rb_wf_apart (by omega) (by omega) ..

theorem Chip.audRunning_audPop (p : Fin 3) (c : Chip) : (c.audPop p).2.audRunning p = c.audRunning p := by
  unfold Chip.audPop
  split
  · rfl
  · exact Chip.audRunning_slip ..

theorem Chip.audRunning_micFrame (rx : List Word) (c : Chip) : (c.micFrame rx).2.audRunning 2 = c.audRunning 2 := by
  unfold Chip.micFrame
  split
  · rfl
  · split
    · rfl
    · exact Chip.audRunning_audPop 2 c

/-- With no port running no frame exists. -/
theorem Chip.fsEdge_of_none {c : Chip} (h : c.framesExist = false) (late : Bool) (under : List Voice) (rx : List Word) (bad : Bool) :
    c.fsEdge late under rx bad = c := if_pos (by rw [h]; rfl)

/-- With a port running an edge sends the frame computed before, takes the received one and computes the next. -/
theorem Chip.fsEdge_of_exist {c : Chip} (h : c.framesExist = true) (late : Bool) (under : List Voice) (rx : List Word) (bad : Bool) :
    c.fsEdge late under rx bad =
      let d := (c.wr R.AUD_FS_TIME c.timeLo).incWrap R.AUD_FRAME
      let d := if late then (d.sb R.AUD_STICKY 0).incSat R.AUD_LATE_COUNT else d.onSnd fun s => { s with prev0 := s.next0, prev1 := s.next1 }
      let mute := d.rb R.AUD_CLK 2 && !d.rb R.AUD_CLK 8
      let e := d.audOut 0 (if mute then [] else d.snd.prev0)
      let e := e.audOut 1 (if mute then [] else e.snd.prev1)
      let r := e.micFrame rx
      let f := (if r.2.audRunning 2 then r.2.capture r.1 else r.2).computeFrame under r.1
      if f.engineOn then f.voiceCheck bad else f := by
  unfold Chip.fsEdge
  rw [if_neg (by rw [h]; exact Bool.noConfusion)]
  extract_lets c1 c2 mute c3 c4
  rw [Chip.micFrame_eq rx c4]

/-! ### Ports (R522 to R524) -/

section
variable {c : Chip} {p : Fin 3}

theorem Chip.audEnable_on (h : c.rb (R.AUD_PCTRL p) 0 = false) : c.audEnable p true = (c.sb (R.AUD_PCTRL p) 0).audStart p :=
  (if_neg (by rw [h]; exact Bool.noConfusion)).trans (if_pos rfl)

theorem Chip.audEnable_same {v : Bool} (h : c.rb (R.AUD_PCTRL p) 0 = v) : c.audEnable p v = c := if_pos h.symm

/-- A port disabled: it stops, and its outputs are not driven. -/
def Chip.audOff (p : Fin 3) (c : Chip) : Chip := ((c.wb (R.AUD_PCTRL p) 0 false).wb (R.AUD_PSTAT p) 0 false).emit (.audioPins p 0)

/-- Some port is enabled. -/
def Chip.audEnabled (c : Chip) : Bool := c.rb (R.AUD_PCTRL 0) 0 || c.rb (R.AUD_PCTRL 1) 0 || c.rb (R.AUD_PCTRL 2) 0

theorem Chip.audEnable_off (h : c.rb (R.AUD_PCTRL p) 0 = true) :
    c.audEnable p false = if (c.audOff p).audEnabled then c.audOff p
      else ((c.audOff p).wb R.AUD_CLK 8 false).onSnd fun s => { s with lockIn := 0, lockOut := 0 } :=
  (if_neg (by rw [h]; exact Bool.noConfusion)).trans (if_neg Bool.false_ne_true)

theorem Chip.rb_audOff_ctrl (p : Fin 3) (c : Chip) : (c.audOff p).rb (R.AUD_PCTRL p) 0 = false := by
  have hne : R.AUD_PCTRL p ≠ R.AUD_PSTAT p := by simp only [R.AUD_PCTRL, R.AUD_PSTAT]; omega
  exact (Chip.rb_wb_ne hne ..).trans (Chip.rb_wb_same (by omega) ..)

theorem Chip.rb_audOff_stat (p : Fin 3) (c : Chip) : (c.audOff p).rb (R.AUD_PSTAT p) 0 = false := Chip.rb_wb_same (by omega) ..

theorem Chip.rb_audEnable_off (h : c.rb (R.AUD_PCTRL p) 0 = true) :
    (c.audEnable p false).rb (R.AUD_PCTRL p) 0 = false ∧ (c.audEnable p false).rb (R.AUD_PSTAT p) 0 = false := by
  have hctrl : R.AUD_PCTRL p ≠ R.AUD_CLK := by simp only [R.AUD_PCTRL, R.AUD_CLK]; omega
  have hstat : R.AUD_PSTAT p ≠ R.AUD_CLK := by simp only [R.AUD_PSTAT, R.AUD_CLK]; omega
  rw [Chip.audEnable_off h]
  split
  · exact ⟨Chip.rb_audOff_ctrl .., Chip.rb_audOff_stat ..⟩
  · exact ⟨(Chip.rb_wb_ne hctrl ..).trans (Chip.rb_audOff_ctrl ..), (Chip.rb_wb_ne hstat ..).trans (Chip.rb_audOff_stat ..)⟩

/-- An edge of a slave port that is not the reference: a frame leaves from its FIFO. -/
theorem Chip.slaveEdge_of_out (hclk : c.rb R.AUD_CLK 2 = true) (hrun : c.audRunning p = true) (hedge : c.onEngineEdge p = false) (hp : p.val ≠ 2)
    (ticks bclks : Nat) (rx : List Word) :
    c.slaveEdge p ticks bclks rx =
      let d := if bclks = c.slots p * c.slotWidth p then c else c.sb R.AUD_STICKY 3
      (d.audPop p).2.audSend p (d.audPop p).1 := by
  have hflag : c.sbIf (bclks != c.slots p * c.slotWidth p) R.AUD_STICKY 3 =
      if bclks = c.slots p * c.slotWidth p then c else c.sb R.AUD_STICKY 3 := by
    unfold Chip.sbIf
    by_cases h : bclks = c.slots p * c.slotWidth p <;> simp [h]
  have hedge' : (if bclks = c.slots p * c.slotWidth p then c else c.sb R.AUD_STICKY 3).onEngineEdge p = false := by
    split
    · exact hedge
    · rw [Chip.onEngineEdge, Chip.sb, Chip.rb_wb_ne (by decide), Chip.rf_wb_ne (by decide)]
      exact hedge
  unfold Chip.slaveEdge
  rw [if_neg (by rw [hclk, hrun]; exact Bool.noConfusion), hflag]
  dsimp only
  rw [if_neg (ne_true_of_eq_false hedge'), if_neg hp]

/-! The lock starts every enabled port that may run (R522). -/

/-- The registers that say whether an enabled port may run. -/
def Chip.mayRun (c : Chip) (p : Fin 3) : Bool := c.rb (R.AUD_PCTRL p) 0 && c.audOk p

theorem Chip.rd_audGo_ne {a : Nat} (h : a ≠ R.AUD_PSTAT p) (c : Chip) : (c.audGo p).rd a = c.rd a :=
  (Chip.rd_emit ..).trans (Chip.rd_wb_ne _ _ _ _ _ h)

theorem Chip.mayRun_congr {d : Chip} (hctrl : d.rd (R.AUD_PCTRL p) = c.rd (R.AUD_PCTRL p)) (hclk : d.rb R.AUD_CLK 2 = c.rb R.AUD_CLK 2) :
    d.mayRun p = c.mayRun p := by
  simp only [Chip.mayRun, Chip.audOk, Chip.slots, Chip.rb_congr hctrl, Chip.rf_congr hctrl, hclk]

/-- One step of the lock's loop. -/
def Chip.lockStep (p : Fin 3) (c : Chip) : Chip := if c.mayRun p then c.audGo p else c

theorem Chip.rd_lockStep_ne {a : Nat} (h : a ≠ R.AUD_PSTAT p) (c : Chip) : (c.lockStep p).rd a = c.rd a := by
  unfold Chip.lockStep
  split
  · exact Chip.rd_audGo_ne h c
  · rfl


/-- With a port enabled the master's synthesizer locks, and every enabled port that may run does. -/
theorem Chip.audLock_of_enabled (hclk : c.rb R.AUD_CLK 2 = false) (hen : c.audEnabled = true) :
    c.audLock = forEach (List.finRange 3) Chip.lockStep (c.sb R.AUD_CLK 8) :=
  if_neg (by
    rw [hclk]
    intro h
    exact Bool.false_ne_true ((Bool.not_eq_true' _ ▸ h).symm.trans hen))

theorem Chip.rb_audLock_clk (hclk : c.rb R.AUD_CLK 2 = false) (hen : c.audEnabled = true) : c.audLock.rb R.AUD_CLK 8 = true := by
  rw [Chip.audLock_of_enabled hclk hen]
  refine forEach_keeps (fun d : Chip => d.rb R.AUD_CLK 8 = true) _ _ _ (fun q d hd => ?_) (Chip.rb_sb_same (by decide) ..)
  exact (Chip.rb_congr (Chip.rd_lockStep_ne (p := q) (by simp only [R.AUD_CLK, R.AUD_PSTAT]; omega) d) 8).trans hd

theorem Chip.mayRun_lockStep (p q : Fin 3) (c : Chip) : (c.lockStep q).mayRun p = c.mayRun p :=
  Chip.mayRun_congr (Chip.rd_lockStep_ne (by simp only [R.AUD_PCTRL, R.AUD_PSTAT]; omega) c)
    (Chip.rb_congr (Chip.rd_lockStep_ne (by simp only [R.AUD_CLK, R.AUD_PSTAT]; omega) c) 2)

theorem Chip.audRunning_lockStep_of_mayRun (h : c.mayRun p = true) : (c.lockStep p).audRunning p = true := by
  unfold Chip.lockStep
  rw [if_pos h]
  exact Chip.rb_sb_same (by omega) ..

theorem Chip.audRunning_lockStep {q : Fin 3} (h : c.audRunning p = true) : (c.lockStep q).audRunning p = true := by
  unfold Chip.lockStep
  split
  · by_cases hq : q = p
    · subst hq
      exact Chip.rb_sb_same (by omega) ..
    · have hne : R.AUD_PSTAT p ≠ R.AUD_PSTAT q := by
        have := Fin.val_ne_of_ne hq
        simp only [R.AUD_PSTAT]
        omega
      exact (Chip.rb_congr (Chip.rd_audGo_ne hne c) 0).trans h
  · exact h

/-- The loop comes to port p with its condition as it was, and leaves it running. -/
theorem Chip.audRunning_audLock (hclk : c.rb R.AUD_CLK 2 = false) (hen : c.audEnabled = true) (hmay : c.mayRun p = true) :
    c.audLock.audRunning p = true := by
  have hstart : (c.sb R.AUD_CLK 8).mayRun p = true :=
    (Chip.mayRun_congr (Chip.rd_sb_ne _ _ _ _ (by simp only [R.AUD_CLK, R.AUD_PCTRL]; omega)) (Chip.rb_wb_apart (by omega) (by omega) ..)).trans hmay
  rw [Chip.audLock_of_enabled hclk hen]
  refine forEach_reaches (fun d : Chip => d.mayRun p = true → d.audRunning p = true) (a := p) (fun d h => ?_) (fun q d hd h => ?_)
    (List.finRange 3) _ (List.mem_finRange p) ((forEach_same (Chip.mayRun · p) _ _ _ (Chip.mayRun_lockStep p)).trans hstart)
  · exact Chip.audRunning_lockStep_of_mayRun ((Chip.mayRun_lockStep p p d).symm.trans h)
  · exact Chip.audRunning_lockStep (hd ((Chip.mayRun_lockStep p q d).symm.trans h))

end

/-! ### The obligation -/

/-- Settles O37: each clause is the rule of its command in the state that the clause names. -/
theorem voicesBusesAndAudioPorts : Obligations.VoicesBusesAndAudioPorts := by
  unfold Obligations.VoicesBusesAndAudioPorts
  intro s c
  refine ⟨?frame, ?noFrame, ?voice, ?bus, ?effect, ?port, ?lock⟩
  case frame =>
    intro late under rx bad h
    rw [exec_fsEdge, Chip.fsEdge_of_exist h]
    dsimp only
    rw [Chip.audRunning_micFrame]
    rfl
  case noFrame =>
    intro late under rx bad h
    rw [exec_fsEdge, Chip.fsEdge_of_none h, State.withChip_chip]
  case voice =>
    intro v
    refine ⟨?busy, ?refused, ?armed, ?released, ?releasing, ?stop, ?stopIdle, ?gainIdle, ?gain⟩
    case busy =>
      intro h
      rw [exec_voiceArm, Chip.voiceArm_of_busy h]
    case refused =>
      intro h hcause
      rw [exec_voiceArm, Chip.voiceArm_of_refused h hcause]
    case armed =>
      intro h hcause
      exact ⟨c.armed v, _, (exec_voiceArm v s).trans (by rw [Chip.voiceArm_of_idle h hcause]), rfl, rfl, rfl, rfl, rfl, rfl, rfl, rfl, rfl,
        rfl, rfl⟩
    case released =>
      intro h
      rw [exec_voiceCmdRelease, Chip.voiceRelease_of_armed h]
    case releasing =>
      intro h hms
      rw [exec_voiceCmdRelease, Chip.voiceRelease_of_playing h hms]
    case stop =>
      intro h
      rw [exec_voiceCmdStop, Chip.voiceStop_of_busy h]
    case stopIdle =>
      intro h
      rw [exec_voiceCmdStop, Chip.voiceStop_of_idle h, State.withChip_chip]
    case gainIdle =>
      intro w _ h
      rw [exec_voiceGainWrite, Chip.voiceGain_of_idle h]
    case gain =>
      intro w d hd h
      rw [exec_voiceGainWrite, Chip.voiceGain_of_busy hd h]
  case bus =>
    intro b w d hd
    constructor
    · intro h
      rw [exec_busGainWrite, Chip.busGain_of_enabled hd h]
    · intro h
      rw [exec_busGainWrite, Chip.busGain_of_disabled hd h]
  case effect =>
    intro b
    refine ⟨exec_efxLoad b s, fun off h hoff => ?_, fun off h => ?_⟩
    · rw [exec_efxLoadComplete, Chip.efxDone_of_past h hoff]
    · exact ⟨_, exec_efxLoadComplete b s, Chip.loading_efxDone h⟩
  case port =>
    intro p
    refine ⟨?enable, ?disable, ?off, ?slave⟩
    case enable =>
      intro h
      rw [exec_audioPortEnable, Chip.audEnable_on h]
    case disable =>
      intro d h hd hother
      rw [exec_audioPortEnable, Chip.audEnable_off h]
      subst hd
      rw [if_pos (show (c.audOff p).audEnabled = true from hother)]
      rfl
    case off =>
      refine ⟨_, exec_audioPortEnable p false s, ?_⟩
      cases h : c.rb (R.AUD_PCTRL p) 0 with
      | true => exact ⟨(Chip.rb_audEnable_off h).1, fun _ => (Chip.rb_audEnable_off h).2⟩
      | false => exact ⟨by rw [Chip.audEnable_same h]; exact h, Bool.noConfusion⟩
    case slave =>
      intro ticks bclks rx hclk hrun hedge hp
      rw [exec_slaveFsEdge, Chip.slaveEdge_of_out hclk hrun hedge hp]
  case lock =>
    intro hclk hen
    refine ⟨_, exec_audioSynthLock s, Chip.rb_audLock_clk hclk hen, fun p hctrl hok => Chip.audRunning_audLock hclk hen ?_⟩
    rw [Chip.mayRun, hctrl, hok]
    rfl

end Sys2Proof.Machine
end

section
/-! The timers (18, R536 to R553): the compare, the channels' ticks, starts and stops, and the time that the LP stepper keeps. -/

namespace Sys2Proof.Machine

/-! ### The commands -/

theorem exec_timeCompareMatch (s : State) : exec .timeCompareMatch s = .next (s.withChip s.chip.compareNow) := rfl

theorem exec_tcmpHiWrite (v : Word) (s : State) : exec (.tcmpHiWrite v) s = .next (s.withChip (s.chip.tcmpWrite v)) := rfl

theorem exec_channelTick_of_tick {s : State} (h : s.chip.tickLost = false) (n : TmrCh) :
    exec (.channelTick n) s = .next (s.withChip (s.chip.channelTick n)) := by
  show execChannelTick n s = _
  exact if_neg (ne_true_of_eq_false h)

theorem exec_channelStart (n : TmrCh) (s : State) : exec (.channelStart n) s = .next (s.withChip (s.chip.chEnable n)) := rfl

theorem exec_channelStop (n : TmrCh) (s : State) : exec (.channelStop n) s = .next (s.withChip (s.chip.chDisable n)) := rfl

theorem exec_cntWrite (n : TmrCh) (v : Word) (s : State) : exec (.cntWrite n v) s = .next (s.withChip (s.chip.cntWrite n v)) := rfl

theorem exec_lpStep (s : State) : exec .lpStep s = .next (s.withChip s.chip.lpStep.rtcTick) := rfl

/-! ### The time compare (R538) -/

section
variable {c : Chip}

theorem Chip.compareNow_of_reached (hen : c.rb R.TMR_TCTRL 0 = true) (hahead : c.tmr.passed = false) (htime : c.tmr.tcmp ≤ c.time) :
    c.compareNow = ((c.sb R.TMR_TSTAT 0).onTmr fun t => { t with passed := true }).raiseTmr (-1) [32] :=
  if_pos ⟨hen, ne_true_of_eq_false hahead, htime⟩

theorem Chip.compareNow_of_off (h : c.rb R.TMR_TCTRL 0 = false) : c.compareNow = c := if_neg fun k => ne_true_of_eq_false h k.1

/-! ### A channel's ticks (R539 to R542) -/

variable {n : TmrCh}

theorem Chip.channelTick_of_early (hev : c.rb (R.TMR_CTRL n) 8 = false) (h : c.tmr.pre[n] < c.rf (R.TMR_PRES n) 15 0 + 1) :
    c.channelTick n = c :=
  (if_neg (ne_true_of_eq_false hev)).trans (if_neg fun k => Nat.not_le_of_lt h k.2)

theorem Chip.channelTick_of_due (hev : c.rb (R.TMR_CTRL n) 8 = false) (hrun : c.chRun n = true)
    (h : c.rf (R.TMR_PRES n) 15 0 + 1 ≤ c.tmr.pre[n]) :
    c.channelTick n =
      let r := (c.setPre n (c.tmr.pre[n] - (c.rf (R.TMR_PRES n) 15 0 + 1))).chTick n
      r.2.raiseTmr n.val r.1 :=
  (if_neg (ne_true_of_eq_false hev)).trans (if_pos ⟨hrun, h⟩)

theorem Chip.sbIf_beq {α : Type} [BEq α] [LawfulBEq α] [DecidableEq α] (x y : α) (a i : Nat) (c : Chip) :
    c.sbIf (x == y) a i = if x = y then c.sb a i else c := by
  unfold Chip.sbIf
  by_cases h : x = y
  · rw [if_pos h, if_pos (beq_iff_eq.mpr h)]
  · rw [if_neg h, if_neg (fun k => h (beq_iff_eq.mp k))]

theorem Chip.rf_sbIf_ne {a b : Nat} (h : b ≠ a) (v : Bool) (i hi lo : Nat) (c : Chip) : (c.sbIf v a i).rf b hi lo = c.rf b hi lo := by
  unfold Chip.sbIf
  split
  · exact Chip.rf_wb_ne h ..
  · rfl

/-- The control register is none of those that a tick writes before its one-shot stop. -/
theorem Chip.rf_ctrl_chTick (v : Word) (mat wrap : Bool) (c : Chip) :
    (((c.wr (R.TMR_CNT n) v).sbIf mat (R.TMR_STAT n) 0).sbIf wrap (R.TMR_STAT n) 1).rf (R.TMR_CTRL n) 2 1 = c.rf (R.TMR_CTRL n) 2 1 := by
  have hstat : R.TMR_CTRL n ≠ R.TMR_STAT n := by simp only [R.TMR_CTRL, R.TMR_STAT]; omega
  have hcnt : R.TMR_CTRL n ≠ R.TMR_CNT n := by simp only [R.TMR_CTRL, R.TMR_CNT]; omega
  rw [Chip.rf_sbIf_ne hstat, Chip.rf_sbIf_ne hstat, Chip.rf_wr_ne hcnt]

theorem Chip.chTick_eq {v : Word} (hv : v = if c.rd (R.TMR_CNT n) = c.rd (R.TMR_TOP n) then 0 else c.rd (R.TMR_CNT n) + 1) :
    c.chTick n =
      ((if v = c.rd (R.TMR_CMP n) then [2 * n.val] else []) ++ (if v = 0 then [2 * n.val + 1] else []),
        let d := c.wr (R.TMR_CNT n) v
        let d := if v = c.rd (R.TMR_CMP n) then d.sb (R.TMR_STAT n) 0 else d
        let d := if v = 0 then d.sb (R.TMR_STAT n) 1 else d
        if v = 0 ∧ c.rf (R.TMR_CTRL n) 2 1 = 1 then (d.wb (R.TMR_CTRL n) 0 false).wb (R.TMR_STAT n) 3 false else d) := by
  simp only [Chip.chTick, chCount, ← hv, Chip.rf_ctrl_chTick]
  simp only [Chip.sbIf_beq, Bool.and_eq_true, beq_iff_eq]

/-! ### Starts, stops and writes of the counter (R543, R544) -/

theorem Chip.rd_sb_ctrl_stat (c : Chip) : (c.sb (R.TMR_CTRL n) 0).rd (R.TMR_STAT n) = c.rd (R.TMR_STAT n) :=
  Chip.rd_sb_ne _ _ _ _ (by simp only [R.TMR_CTRL, R.TMR_STAT]; omega)

theorem Chip.chEnable_of_running (h : c.chRun n = true) : c.chEnable n = c.sb (R.TMR_CTRL n) 0 :=
  if_pos ((Chip.rb_congr (Chip.rd_sb_ctrl_stat c) 3).trans h)

/-- START_EV outlasts the write of EN. -/
theorem Chip.chEnable_of_stopped (h : c.chRun n = false) :
    c.chEnable n = if c.rb (R.TMR_CTRL n) 24 then (c.sb (R.TMR_CTRL n) 0).sb (R.TMR_STAT n) 4 else (c.sb (R.TMR_CTRL n) 0).chStart n := by
  have hrun : (c.sb (R.TMR_CTRL n) 0).chRun n = false := (Chip.rb_congr (Chip.rd_sb_ctrl_stat c) 3).trans h
  have hev : (c.sb (R.TMR_CTRL n) 0).rb (R.TMR_CTRL n) 24 = c.rb (R.TMR_CTRL n) 24 := Chip.rb_wb_apart (by omega) (by omega) ..
  unfold Chip.chEnable
  dsimp only
  rw [if_neg (ne_true_of_eq_false hrun), hev]

theorem Chip.chDisable_regs (n : TmrCh) (c : Chip) :
    (c.chDisable n).rb (R.TMR_CTRL n) 0 = false ∧ (c.chDisable n).rb (R.TMR_STAT n) 3 = false ∧ (c.chDisable n).rb (R.TMR_STAT n) 4 = false ∧
      (c.chDisable n).rd (R.TMR_CNT n) = c.rd (R.TMR_CNT n) := by
  have hstat : R.TMR_CTRL n ≠ R.TMR_STAT n := by simp only [R.TMR_CTRL, R.TMR_STAT]; omega
  have hcnt : R.TMR_CNT n ≠ R.TMR_STAT n := by simp only [R.TMR_CNT, R.TMR_STAT]; omega
  have hcnt' : R.TMR_CNT n ≠ R.TMR_CTRL n := by simp only [R.TMR_CNT, R.TMR_CTRL]; omega
  refine ⟨?_, ?_, Chip.rb_wb_same (by omega) .., ?_⟩
  · exact (Chip.rb_wb_ne hstat ..).trans ((Chip.rb_wb_ne hstat ..).trans (Chip.rb_wb_same (by omega) ..))
  · exact (Chip.rb_wb_apart (by omega) (by omega) ..).trans (Chip.rb_wb_same (by omega) ..)
  · rw [Chip.chDisable, Chip.rd_wb_ne _ _ _ _ _ hcnt, Chip.rd_wb_ne _ _ _ _ _ hcnt, Chip.rd_wb_ne _ _ _ _ _ hcnt']

end

/-- Settles O38: each clause is the rule of its command in the state that the clause names. -/
theorem timersCountAndStart : Obligations.TimersCountAndStart := by
  unfold Obligations.TimersCountAndStart
  intro n s c
  refine ⟨?reached, ?off, ?written, ?early, ?due, ?running, ?armed, ?started, ?stop, ?count⟩
  case reached =>
    intro hen hahead htime
    rw [exec_timeCompareMatch, Chip.compareNow_of_reached hen hahead htime]
  case off =>
    intro v hen
    rw [exec_tcmpHiWrite, Chip.tcmpWrite, Chip.compareNow_of_off ((Chip.rb_congr (Chip.rd_onTmr ..) 0).trans hen)]
  case written =>
    intro v hen htime d
    rw [exec_tcmpHiWrite, Chip.tcmpWrite, Chip.compareNow_of_reached (c := d) ((Chip.rb_congr (Chip.rd_onTmr ..) 0).trans hen) rfl htime]
  case early =>
    intro htick hev h
    rw [exec_channelTick_of_tick htick, Chip.channelTick_of_early hev h, State.withChip_chip]
  case due =>
    intro htick hev hrun h v
    have hcount := Chip.chTick_eq (c := c.setPre n (c.tmr.pre[n] - (c.rf (R.TMR_PRES n) 15 0 + 1))) (n := n) (v := v) rfl
    rw [exec_channelTick_of_tick htick, Chip.channelTick_of_due hev hrun h]
    dsimp only
    rw [hcount]
    rfl
  case running =>
    intro h
    rw [exec_channelStart, Chip.chEnable_of_running h]
  case armed =>
    intro h hev
    rw [exec_channelStart, Chip.chEnable_of_stopped h, if_pos hev]
  case started =>
    intro h hev
    rw [exec_channelStart, Chip.chEnable_of_stopped h, if_neg (ne_true_of_eq_false hev)]
    rfl
  case stop => exact ⟨_, exec_channelStop n s, Chip.chDisable_regs n _⟩
  case count =>
    intro v
    exact exec_cntWrite n v s

/-! ### The LP stepper (R549 to R553) -/

/-- The RTC's part of an LP edge leaves the time counter and the stepper. -/
theorem sameTime_rtcTick (c : Chip) : SameTime c c.rtcTick :=
  (sameTime_wr c R.AON_RTC_SUB _ (by decide) (by decide)).trans ⟨rfl, rfl, rfl, rfl, rfl, fun _ => rfl⟩

/-- The LP stepper's part of an LP edge, by the accumulator. -/
theorem Chip.lpEdge_of_lost {c : Chip} (htick : c.tickLost = true) (hlp : c.tmr.lp = true) :
    c.lpStep.rtcTick.tickLost = true ∧ c.lpStep.rtcTick.tmr.lp = true ∧ c.lpStep.rtcTick.tmr.acc = (c.tmr.acc + 11) % 16 ∧
      c.lpStep.rtcTick.time = c.time + BitVec.ofNat 64 (if 16 ≤ c.tmr.acc + 11 then 2930 else 2929) := by
  have hsame := (sameTime_lpStep c htick hlp _ rfl _ rfl).trans (sameTime_rtcTick _)
  have hlost := hsame.tickLost
  obtain ⟨htime, hlp', hacc, _, _, _⟩ := hsame
  exact ⟨hlost.trans htick, hlp', hacc, htime⟩

theorem lpStep_of_lost {s : State} (htick : s.chip.tickLost = true) (hlp : s.chip.tmr.lp = true) : ∃ t, exec .lpStep s = .next t ∧
    t.chip.tickLost = true ∧ t.chip.tmr.lp = true ∧ t.chip.tmr.acc = (s.chip.tmr.acc + 11) % 16 ∧
    t.chip.time = s.chip.time + BitVec.ofNat 64 (if 16 ≤ s.chip.tmr.acc + 11 then 2930 else 2929) :=
  ⟨_, exec_lpStep s, Chip.lpEdge_of_lost htick hlp⟩

/-- n edges from accumulator a add 11 n to it and 2,929 n ticks, and one tick for each time it passes 16. -/
theorem lpEdges {edge : Out → Out} (hedge : ∀ t, edge (.next t) = exec .lpStep t) {s : State} (htick : s.chip.tickLost = true)
    (hlp : s.chip.tmr.lp = true) (hacc : s.chip.tmr.acc < 16) : ∀ n : Nat, ∃ t, edge^[n] (.next s) = .next t ∧ t.chip.tickLost = true ∧
      t.chip.tmr.lp = true ∧ t.chip.tmr.acc = (s.chip.tmr.acc + 11 * n) % 16 ∧
      t.chip.time = s.chip.time + BitVec.ofNat 64 (2929 * n + (s.chip.tmr.acc + 11 * n) / 16)
  | 0 => ⟨s, rfl, htick, hlp, (Nat.mod_eq_of_lt hacc).symm, by
      rw [show 2929 * 0 + (s.chip.tmr.acc + 11 * 0) / 16 = 0 by omega]
      exact (BitVec.add_zero _).symm⟩
  | n + 1 => by
    obtain ⟨t, hrun, htick', hlp', hacc', htime⟩ := lpEdges hedge htick hlp hacc n
    obtain ⟨u, hexec, hlost, hin, hnext, hstep⟩ := lpStep_of_lost htick' hlp'
    refine ⟨u, by rw [Function.iterate_succ_apply', hrun, hedge, hexec], hlost, hin, ?_, ?_⟩
    · refine hnext.trans ?_
      rw [hacc']
      omega
    · refine hstep.trans ?_
      rw [htime, hacc', BitVec.add_assoc, ← BitVec.ofNat_add]
      congr 2
      split <;> omega

/-- Settles O39: the sum of the sixteen edges is that of the closed form at n = 16. -/
theorem lpStepperKeepsTime : Obligations.LpStepperKeepsTime := by
  unfold Obligations.LpStepperKeepsTime
  refine ⟨fun s htick hlp => ?_, fun s htick hlp hacc => ?_⟩
  · obtain ⟨t, hexec, hlost, hin, hnext, hstep⟩ := lpStep_of_lost htick hlp
    refine ⟨t, hexec, hlost, hin, hnext, hstep.trans ?_⟩
    split <;> rfl
  · intro edge
    obtain ⟨t, hrun, _, _, hend, htime⟩ := lpEdges (edge := edge) (fun _ => rfl) htick hlp hacc 16
    refine ⟨t, hrun, ?_, by omega⟩
    rw [htime, show 2929 * 16 + (s.chip.tmr.acc + 11 * 16) / 16 = 46875 by omega]
    rfl

end Sys2Proof.Machine
end

section
/-! The check units (19, R557 to R565): what INIT, a data store, a STATE write and CHECK leave. -/

namespace Sys2Proof.Machine

@[simp] theorem State.chip_withChip (s : State) (c : Chip) : (s.withChip c).chip = c := rfl

@[simp] theorem State.withChip_withChip (s : State) (c d : Chip) : (s.withChip c).withChip d = s.withChip d := rfl

theorem forEach_nil {α σ : Type} (f : α → σ → σ) (s : σ) : forEach [] f s = s := rfl

theorem forEach_cons {α σ : Type} (f : α → σ → σ) (x : α) (t : List α) (s : σ) : forEach (x :: t) f s = forEach t f (f x s) := rfl

/-! ### The commands -/

theorem exec_chkInit (n : ChkCh) (s : State) : exec (.chkInit n) s = .next (s.withChip (s.chip.chkInit n)) := rfl

theorem exec_chkCheck (n : ChkCh) (s : State) : exec (.chkCheck n) s = .next (s.withChip (s.chip.chkCheck n)) := rfl

theorem exec_chkDataW (n : ChkCh) (v : Word) (s : State) :
    exec (.chkDataW n v) s = .next (s.withChip (s.chip.chkFeed n (leBytes 4 v.toNat))) := rfl

theorem exec_chkDataH (n : ChkCh) (v : Word) (s : State) :
    exec (.chkDataH n v) s = .next (s.withChip (s.chip.chkFeed n (leBytes 2 v.toNat))) := rfl

theorem exec_chkDataB (n : ChkCh) (v : Word) (s : State) :
    exec (.chkDataB n v) s = .next (s.withChip (s.chip.chkFeed n (leBytes 1 v.toNat))) := rfl

theorem exec_chkStateWrite (n : ChkCh) (v : Word) (s : State) :
    exec (.chkStateWrite n v) s = .next (s.withChip (s.chip.chkState n v)) := rfl

/-! ### The bytes of a word, low byte first -/

/-- Byte k of a word. -/
def wordByte (v : Word) (k : Nat) : Byte := (v >>> (8 * k)).setWidth 8

theorem wordByte_eq (v : Word) (k : Nat) : BitVec.ofNat 8 (v.toNat / 256 ^ k % 256) = wordByte v k := by
  apply BitVec.eq_of_toNat_eq
  rw [wordByte, BitVec.toNat_setWidth, BitVec.toNat_ushiftRight, Nat.shiftRight_eq_div_pow, BitVec.toNat_ofNat, Nat.pow_mul, Nat.mod_mod]

/-- The low n bytes of a word. -/
theorem leBytes_toNat (v : Word) : ∀ n k : Nat, leBytes n (v.toNat / 256 ^ k) = (List.range' k n).map (wordByte v)
  | 0, _ => rfl
  | n + 1, k => by
    rw [leBytes, wordByte_eq, Nat.div_div_eq_div_mul, ← Nat.pow_succ, leBytes_toNat v n (k + 1)]
    rfl

/-! ### The CRC stays within its width (R557) -/

theorem chkShift_lt (k : ChkSt) (r : Nat) : chkShift k r < 2 ^ k.w := by
  have hpos : 0 < 2 ^ k.w := Nat.two_pow_pos _
  have hshift : r * 2 % 2 ^ k.w < 2 ^ k.w := Nat.mod_lt _ hpos
  unfold chkShift
  dsimp only
  split
  · exact Nat.xor_lt_two_pow hshift (Nat.mod_lt _ hpos)
  · exact hshift

/-- A byte's last shift leaves the state within the width. -/
theorem chkByte_lt (k : ChkSt) (r : Nat) (b : Byte) : chkByte k r b < 2 ^ k.w := chkShift_lt k _

theorem chkByte_lt_word {k : ChkSt} (h : k.w ≤ 32) (r : Nat) (b : Byte) : chkByte k r b < 2 ^ 32 :=
  Nat.lt_of_lt_of_le (chkByte_lt k r b) (Nat.pow_le_pow_right (by decide) h)

/-- No byte read from the state register lies outside a register. -/
theorem toNat_w32_chkByte {k : ChkSt} (h : k.w ≤ 32) (r : Nat) (b : Byte) : (w32 (chkByte k r b)).toNat = chkByte k r b := by
  rw [w32, BitVec.toNat_ofNat, Nat.mod_eq_of_lt (chkByte_lt_word h r b)]

/-! ### What a feed leaves (R560) -/

section
variable {n : ChkCh}

theorem chk_state_ne_count (n : ChkCh) : R.CHK_STATE n ≠ R.CHK_COUNT n := by simp only [R.CHK_STATE, R.CHK_COUNT]; omega

theorem Chip.chk_chkFeed (bs : List Byte) (c : Chip) : (c.chkFeed n bs).chk = c.chk := rfl

theorem Chip.rd_chkFeed_count (bs : List Byte) (c : Chip) : (c.chkFeed n bs).rd (R.CHK_COUNT n) = c.rd (R.CHK_COUNT n) + w32 bs.length :=
  Chip.rd_wr_same ..

theorem Chip.rd_chkFeed_state (bs : List Byte) (c : Chip) :
    (c.chkFeed n bs).rd (R.CHK_STATE n) = w32 (bs.foldl (chkByte c.chk[n]) (c.rd (R.CHK_STATE n)).toNat) :=
  (Chip.rd_wr_ne _ _ _ _ (chk_state_ne_count n)).trans (Chip.rd_wr_same ..)

theorem Chip.rd_chkFeed_ne {a : Nat} (hstate : a ≠ R.CHK_STATE n) (hcount : a ≠ R.CHK_COUNT n) (bs : List Byte) (c : Chip) :
    (c.chkFeed n bs).rd a = c.rd a :=
  (Chip.rd_wr_ne _ _ _ _ hcount).trans (Chip.rd_wr_ne _ _ _ _ hstate)

/-- Fed in two parts or at once, every register comes to the same. -/
theorem Chip.rd_chkFeed_append {c : Chip} (h : c.chk[n].w ≤ 32) (b : Byte) (bs : List Byte) (a : Nat) :
    ((c.chkFeed n [b]).chkFeed n bs).rd a = (c.chkFeed n (b :: bs)).rd a := by
  by_cases hstate : a = R.CHK_STATE n
  · subst hstate
    rw [Chip.rd_chkFeed_state, Chip.rd_chkFeed_state, Chip.rd_chkFeed_state]
    simp only [Chip.chk_chkFeed, List.foldl_cons, List.foldl_nil, toNat_w32_chkByte h]
  · by_cases hcount : a = R.CHK_COUNT n
    · subst hcount
      rw [Chip.rd_chkFeed_count, Chip.rd_chkFeed_count, Chip.rd_chkFeed_count, BitVec.add_assoc]
      congr 1
      rw [w32, w32, w32, ← BitVec.ofNat_add, List.length_singleton, List.length_cons, Nat.add_comm]
    · rw [Chip.rd_chkFeed_ne hstate hcount, Chip.rd_chkFeed_ne hstate hcount, Chip.rd_chkFeed_ne hstate hcount]

/-- One store for each byte, and one for all. -/
theorem Chip.rd_chkFeed_each (a : Nat) (bs : List Byte) {c : Chip} (h : c.chk[n].w ≤ 32) (b : Byte) :
    (forEach bs (fun x c => c.chkFeed n [x]) (c.chkFeed n [b])).rd a = (c.chkFeed n (b :: bs)).rd a := by
  induction bs generalizing c b with
  | nil => rfl
  | cons x t ih =>
    have hw : (c.chkFeed n [b]).chk[n].w ≤ 32 := by
      simp only [Chip.chk_chkFeed]
      exact h
    rw [forEach_cons, ih hw x, Chip.rd_chkFeed_append h b (x :: t) a]

/-! ### INIT and CHECK (R559, R565) -/

theorem Chip.chk_chkInit (n : ChkCh) (c : Chip) : (c.chkInit n).chk[n] = c.chkParams n := upd_same ..

theorem Chip.rd_chkInit_count (n : ChkCh) (c : Chip) : (c.chkInit n).rd (R.CHK_COUNT n) = 0 := Chip.rd_wr_same ..

theorem Chip.rd_chkInit_state (n : ChkCh) (c : Chip) :
    (c.chkInit n).rd (R.CHK_STATE n) = w32 ((c.chkParams n).init % 2 ^ (c.chkParams n).w) :=
  (Chip.rd_wr_ne _ _ _ _ (chk_state_ne_count n)).trans (Chip.rd_wr_same ..)

/-- Channels 4 to 7 are fixed (R558). -/
theorem Chip.chkParams_of_fixed (h : 4 ≤ n.val) (c : Chip) : c.chkParams n = {} := if_pos h

theorem Chip.chkCheck_done (n : ChkCh) (c : Chip) : (c.chkCheck n).rb (R.CHK_STAT n) 0 = true := by
  have hdone : (c.sb (R.CHK_STAT n) 0).rb (R.CHK_STAT n) 0 = true := Chip.rb_sb_same (by decide) ..
  unfold Chip.chkCheck
  extract_lets v
  unfold Chip.sbIf
  split
  · exact (Chip.rb_wb_apart (by decide) (by decide) ..).trans hdone
  · exact hdone

theorem Chip.chkCheck_mismatch (n : ChkCh) (c : Chip) : (c.chkCheck n).rb (R.CHK_STAT n) 1 = (c.rb (R.CHK_STAT n) 1 ||
    decide ((if c.rb (R.CHK_CTRL n) 6 then c.chkFold n else c.chkRes n) ≠ (c.rd (R.CHK_EXPECT n)).toNat)) := by
  unfold Chip.chkCheck
  extract_lets v
  rw [Chip.sbIf]
  by_cases h : v ≠ (c.rd (R.CHK_EXPECT n)).toNat
  · rw [if_pos (bne_iff_ne.mpr h), decide_eq_true h, Chip.rb_sb_same (by decide), Bool.or_true]
  · rw [if_neg fun k => h (bne_iff_ne.mp k), decide_eq_false h, Bool.or_false, Chip.sb, Chip.rb_wb_apart (by decide) (by decide)]

end

/-- Settles O40: each clause is the rule of its command; the check value is that of the fixed channels' parameters. -/
theorem checkUnitsFeedAndCompare : Obligations.CheckUnitsFeedAndCompare := by
  unfold Obligations.CheckUnitsFeedAndCompare
  intro n s c
  have hbytes (v : Word) (k : Nat) : leBytes k v.toNat = (List.range' 0 k).map (wordByte v) := by
    rw [← leBytes_toNat, Nat.pow_zero, Nat.div_one]
  refine ⟨?init, ?count, ?word, ?half, ?byte, ?parts, ?state, ?check, ?value⟩
  case init => exact ⟨_, exec_chkInit n s, Chip.chk_chkInit n c, Chip.rd_chkInit_count n c, Chip.rd_chkInit_state n c⟩
  case count =>
    intro v
    exact ⟨_, exec_chkDataW n v s, Chip.rd_chkFeed_count _ c⟩
  case word =>
    intro v
    rw [exec_chkDataW, hbytes]
    rfl
  case half =>
    intro v
    rw [exec_chkDataH, hbytes]
    rfl
  case byte =>
    intro v
    rw [exec_chkDataB, hbytes]
    rfl
  case parts =>
    intro v hw b
    have hbyte (k : Nat) (t : State) : b k (.next t) = .next (t.withChip (t.chip.chkFeed n [wordByte v k])) := by
      show exec (.chkDataB n (v >>> (8 * k))) t = _
      rw [exec_chkDataB, hbytes]
      rfl
    have hfour : b 3 (b 2 (b 1 (b 0 (.next s)))) = .next (s.withChip
        (forEach [wordByte v 1, wordByte v 2, wordByte v 3] (fun x c => c.chkFeed n [x]) (s.chip.chkFeed n [wordByte v 0]))) := by
      simp only [hbyte, State.chip_withChip, State.withChip_withChip, forEach_cons, forEach_nil]
    have hword : leBytes 4 v.toNat = [wordByte v 0, wordByte v 1, wordByte v 2, wordByte v 3] := hbytes v 4
    refine ⟨_, _, exec_chkDataW n v s, hfour, fun a => ?_, ?_⟩
    · rw [State.chip_withChip, State.chip_withChip, hword]
      have hwidth : c.chk[n].w ≤ 32 := by omega
      exact Chip.rd_chkFeed_each a [wordByte v 1, wordByte v 2, wordByte v 3] hwidth (wordByte v 0)
    · simp only [State.chip_withChip, forEach_cons, forEach_nil, Chip.chk_chkFeed]
  case state =>
    intro v
    exact exec_chkStateWrite n v s
  case check => exact ⟨_, exec_chkCheck n s, Chip.chkCheck_done n c, Chip.chkCheck_mismatch n c⟩
  case value =>
    intro h
    refine ⟨_, exec_chkInit n s, ?_⟩
    have hchk : (c.chkInit n).chk[n] = {} := (Chip.chk_chkInit n c).trans (Chip.chkParams_of_fixed h c)
    have hstate : (c.chkInit n).rd (R.CHK_STATE n) = 0xFFFFFFFF := by
      rw [Chip.rd_chkInit_state, Chip.chkParams_of_fixed h]
      rfl
    rw [Chip.chkRes, Chip.chk_chkFeed, Chip.rd_chkFeed_state, hchk, hstate]
    decide +kernel

end Sys2Proof.Machine
end

section
/-! Start, stop, abort, fetch and triggers of a Bobbin (20, R577 to R592). -/

namespace Sys2Proof.Machine

/-! ### The commands -/

theorem exec_bobStart (n : BobCh) (s : State) : exec (.bobStart n) s = .next (s.withChip (s.chip.bobStart n)) := rfl

theorem exec_bobStop (n : BobCh) (s : State) : exec (.bobStop n) s = .next (s.withChip (s.chip.bobStop n)) := rfl

theorem exec_bobAbort (n : BobCh) (s : State) : exec (.bobAbort n) s = .next (s.withChip (s.chip.bobAbort n)) := rfl

theorem exec_bobDescriptorFetch (n : BobCh) (s : State) :
    exec (.bobDescriptorFetch n) s = .next (s.withChip (s.chip.bobFetch n)) := rfl

theorem exec_bobTrigger_of_none {n : BobCh} {src : BitVec 2} {sel : BitVec 6} {s : State}
    (h : s.chip.reqs.contains { dst := some n, src := src.toNat, sel := sel.toNat } = false) : exec (.bobTrigger n src sel) s = .next s := by
  show execBobTrigger n src sel s = _
  exact if_neg (ne_true_of_eq_false h)

theorem exec_bobTrigger_of_held {n : BobCh} {src : BitVec 2} {sel : BitVec 6} {s : State} {r : EvReq}
    (hr : r = { dst := some n, src := src.toNat, sel := sel.toNat }) (h : s.chip.reqs.contains r = true)
    (hsel : s.chip.bobTrigOf n src.toNat sel.toNat = true) :
    exec (.bobTrigger n src sel) s = .next (s.withChip ((s.chip.ack r).bobTrigger n)) := by
  subst hr
  show execBobTrigger n src sel s = _
  unfold execBobTrigger
  dsimp only
  rw [if_pos h, hsel]
  rfl

section
variable {c : Chip} {n : BobCh}

/-! ### Start (R589) -/

theorem Chip.bobStart_of_running (h : c.bobRunning n = true) : c.bobStart n = c := if_pos h

theorem fld_one_lt (w : Word) (i : Nat) : fld w i i < 2 := by
  rw [fld, Nat.add_sub_cancel_left]
  exact Nat.mod_lt _ (by decide)

/-- What a start leaves of a stopped channel whose TRIG_OVF is ovf: RUNNING, and the chain at BOB_DESC. -/
def Chip.bobBegun (n : BobCh) (ovf : Nat) (c : Chip) : Chip :=
  let c := (c.sb (R.BOB_CTRL n) 0).wr (R.BOB_STAT n) (w32 (ovf * 32 + 1))
  ((((c.wr (R.BOB_CUR n) (c.rd (R.BOB_DESC n))).wr (R.BOB_ROW n) 0).wr (R.BOB_OFF n) 0).wr (R.BOB_TOTAL n) 0).onBob n
    fun _ => { phase := .fetch, desc := none }

theorem Chip.bobStart_of_stopped (h : c.bobRunning n = false) : c.bobStart n = c.bobBegun n (c.rf (R.BOB_STAT n) 5 5) :=
  if_neg (ne_true_of_eq_false h)

theorem Chip.rd_bobBegun_ctrl (ovf : Nat) (c : Chip) : (c.bobBegun n ovf).rd (R.BOB_CTRL n) = (c.sb (R.BOB_CTRL n) 0).rd (R.BOB_CTRL n) := by
  rw [Chip.bobBegun, Chip.rd_onBob, Chip.rd_wr_ne, Chip.rd_wr_ne, Chip.rd_wr_ne, Chip.rd_wr_ne, Chip.rd_wr_ne] <;>
    simp only [R.BOB_CTRL, R.BOB_STAT, R.BOB_CUR, R.BOB_ROW, R.BOB_OFF, R.BOB_TOTAL] <;> omega

theorem Chip.rd_bobBegun_stat (ovf : Nat) (c : Chip) : (c.bobBegun n ovf).rd (R.BOB_STAT n) = w32 (ovf * 32 + 1) := by
  rw [Chip.bobBegun, Chip.rd_onBob, Chip.rd_wr_ne, Chip.rd_wr_ne, Chip.rd_wr_ne, Chip.rd_wr_ne, Chip.rd_wr_same] <;>
    simp only [R.BOB_STAT, R.BOB_CUR, R.BOB_ROW, R.BOB_OFF, R.BOB_TOTAL] <;> omega

theorem Chip.rd_bobBegun_cur (ovf : Nat) (c : Chip) : (c.bobBegun n ovf).rd (R.BOB_CUR n) = c.rd (R.BOB_DESC n) := by
  rw [Chip.bobBegun, Chip.rd_onBob, Chip.rd_wr_ne, Chip.rd_wr_ne, Chip.rd_wr_ne, Chip.rd_wr_same, Chip.rd_wr_ne, Chip.rd_sb_ne] <;>
    simp only [R.BOB_CTRL, R.BOB_DESC, R.BOB_STAT, R.BOB_CUR, R.BOB_ROW, R.BOB_OFF, R.BOB_TOTAL] <;> omega

theorem Chip.rd_bobBegun_total (ovf : Nat) (c : Chip) : (c.bobBegun n ovf).rd (R.BOB_TOTAL n) = 0 := Chip.rd_wr_same ..

theorem startStatus {ovf : Nat} (h : ovf < 2) : tb (w32 (ovf * 32 + 1)) 0 = true ∧ fld (w32 (ovf * 32 + 1)) 4 1 = 0 ∧
    fld (w32 (ovf * 32 + 1)) 11 8 = 0 ∧ fld (w32 (ovf * 32 + 1)) 19 16 = 0 := by
  interval_cases ovf <;> decide

/-- The registers and the state that a start leaves. -/
theorem Chip.bobStart_regs (h : c.bobRunning n = false) : (c.bobStart n).rb (R.BOB_CTRL n) 0 = true ∧ (c.bobStart n).bobRunning n = true ∧
    (c.bobStart n).rf (R.BOB_STAT n) 4 1 = 0 ∧ (c.bobStart n).rf (R.BOB_STAT n) 11 8 = 0 ∧ (c.bobStart n).rf (R.BOB_STAT n) 19 16 = 0 ∧
    (c.bobStart n).rd (R.BOB_CUR n) = c.rd (R.BOB_DESC n) ∧ (c.bobStart n).rd (R.BOB_TOTAL n) = 0 ∧
    (c.bobStart n).bob[n] = { phase := .fetch, desc := none } := by
  obtain ⟨hrun, hdone, hcode, hpend⟩ := startStatus (fld_one_lt (c.rd (R.BOB_STAT n)) 5)
  rw [Chip.bobStart_of_stopped h, Chip.bobRunning]
  simp only [Chip.rb, Chip.rf, Chip.rd_bobBegun_stat, Chip.rd_bobBegun_ctrl, Chip.rd_bobBegun_cur, Chip.rd_bobBegun_total]
  exact ⟨Chip.rb_sb_same (by decide) _ c, hrun, hdone, hcode, hpend, trivial, trivial, upd_same ..⟩

/-! ### Stop and abort (R590, R591) -/

theorem Chip.bobStop_of_fetch (hrun : c.bobRunning n = true) (h : (c.bob[n]).phase = .fetch) :
    c.bobStop n = (c.bobStopped n).sb (R.BOB_STAT n) 3 :=
  (if_neg (by rw [hrun]; exact Bool.noConfusion)).trans (if_pos h)

theorem Chip.bobStop_of_busy (hrun : c.bobRunning n = true) (h : (c.bob[n]).phase ≠ .fetch) : c.bobStop n = c.sb (R.BOB_STAT n) 2 :=
  (if_neg (by rw [hrun]; exact Bool.noConfusion)).trans (if_neg h)

theorem Chip.bobAbort_of_stopped (h : c.bobRunning n = false) : c.bobAbort n = c := if_pos (by rw [h]; rfl)

/-- An error that is not of the source or of the host is not journaled. -/
theorem Chip.bobErr_of_quiet {code : Nat} (h5 : code ≠ 5) (h6 : code ≠ 6) (addr : Nat) (c : Chip) :
    c.bobErr n code addr = ((c.bobStopped n).sb (R.BOB_STAT n) 4).wf (R.BOB_STAT n) 11 8 code :=
  if_neg (not_or.mpr ⟨h5, h6⟩)

theorem Chip.bobAbort_of_free (hrun : c.bobRunning n = true) (habort : (c.bob[n]).phase ≠ .abort) (hhost : ∀ k, (c.bob[n]).phase ≠ .host k) :
    c.bobAbort n = ((c.bobStopped n).sb (R.BOB_STAT n) 4).wf (R.BOB_STAT n) 11 8 7 := by
  rw [← Chip.bobErr_of_quiet (by decide) (by decide) 0, Chip.bobAbort, if_neg (by rw [hrun]; exact Bool.noConfusion)]
  cases h : (c.bob[n]).phase with
  | host k => exact absurd h (hhost k)
  | abort => exact absurd h habort
  | idle | fetch | wait | move => rfl

theorem Chip.bobAbort_of_host {k : Nat} (hrun : c.bobRunning n = true) (h : (c.bob[n]).phase = .host k) :
    c.bobAbort n = (c.sb (R.BOB_CTRL n) 1).onBob n fun b => { b with phase := .abort } := by
  rw [Chip.bobAbort, if_neg (by rw [hrun]; exact Bool.noConfusion), h]
  rfl

/-! ### The fetch of a descriptor in local memory, with no word marked (R577 to R579) -/

theorem Chip.firstBad_nil (h : c.ue = []) (a len : Nat) : c.firstBad a len = none := by
  rw [Chip.firstBad, h]
  rfl

/-- A read of local memory with no word marked finds nothing. -/
theorem Chip.bobRead_of_clean {a : Nat} (hue : c.ue = []) (ha : ¬vlmBase ≤ a) (len : Nat) : c.bobRead n a len = c := by
  unfold Chip.bobRead
  rw [if_neg ha, Chip.firstBad_nil hue]

section
variable (hphase : (c.bob[n]).phase = .fetch) (hpower : c.power = 0) (hue : c.ue = [])
include hphase hpower

theorem Chip.bobFetch_of_outside (hlocal : ¬(0x00200000 ≤ (c.rd (R.BOB_CUR n)).toNat ∧ (c.rd (R.BOB_CUR n)).toNat < 0x00280000))
    (hvellum : bobTarget (c.rd (R.BOB_CUR n)).toNat ≠ .vellum) :
    c.bobFetch n = ((((c.wr (R.BOB_ROW n) 0).wr (R.BOB_OFF n) 0).bobStopped n).sb (R.BOB_STAT n) 4).wf (R.BOB_STAT n) 11 8 1 := by
  have hout : (bobTarget (c.rd (R.BOB_CUR n)).toNat == .vellum ||
      (decide (0x00200000 ≤ (c.rd (R.BOB_CUR n)).toNat) && decide ((c.rd (R.BOB_CUR n)).toNat < 0x00280000))) = false := by
    rw [beq_false_of_ne hvellum, ← Bool.decide_and, decide_eq_false hlocal]
    rfl
  rw [← Chip.bobErr_of_quiet (by decide) (by decide) 0, Chip.bobFetch, if_neg (by rw [not_or, not_not, not_not]; exact ⟨hphase, hpower⟩)]
  extract_lets a d inMem
  rw [if_pos (by rw [show inMem = false from hout]; rfl)]

include hue in
/-- The descriptor is read where it lies and decides what comes of it. -/
theorem Chip.bobFetch_of_local {x : BobDesc} (hlow : 0x00200000 ≤ (c.rd (R.BOB_CUR n)).toNat) (hhigh : (c.rd (R.BOB_CUR n)).toNat < 0x00280000)
    (hdesc : bobDesc (c.bytes (c.rd (R.BOB_CUR n)).toNat 32) = some x) :
    c.bobFetch n =
      let d := (c.wr (R.BOB_ROW n) 0).wr (R.BOB_OFF n) 0
      if x.null then d.bobEnd n x
      else if x.check (d.rb R.SYS_STRAP 0) ≠ 0 then d.bobErr n (x.check (d.rb R.SYS_STRAP 0)) 0
      else (d.onBob n fun s => { s with desc := some x }).bobRowStart n (x.trig || x.rowTrig) := by
  have hin : (bobTarget (c.rd (R.BOB_CUR n)).toNat == .vellum ||
      (decide (0x00200000 ≤ (c.rd (R.BOB_CUR n)).toNat) && decide ((c.rd (R.BOB_CUR n)).toNat < 0x00280000))) = true := by
    rw [decide_eq_true hlow, decide_eq_true hhigh]
    exact Bool.or_true _
  have hbelow : ¬vlmBase ≤ (c.rd (R.BOB_CUR n)).toNat := by
    rw [vlmBase]
    omega
  rw [Chip.bobFetch, if_neg (by rw [not_or, not_not, not_not]; exact ⟨hphase, hpower⟩)]
  extract_lets a d inMem e
  have hclean : d.ue = [] := by rw [Chip.wr_ue, Chip.wr_ue, hue]
  have hread : e = d := Chip.bobRead_of_clean hclean hbelow 32
  have hbytes : d.bytes a 32 = c.bytes a 32 := Chip.bytes_congr (by rw [Chip.wr_mem, Chip.wr_mem]) 32 a
  rw [if_neg (by rw [show inMem = true from hin]; exact Bool.noConfusion), hread, Chip.firstBad_nil hclean, hbytes, hdesc]
  simp only [Option.isSome_none, Bool.false_eq_true, if_false, d]

end

theorem upd_upd {α : Type} {m : Nat} (v : Vector α m) (i : Fin m) (f g : α → α) : upd (upd v i f) i g = upd v i (g ∘ f) := by
  rw [upd, upd_same, upd, upd, Vector.set_set]
  rfl

theorem Chip.onBob_onBob (f g : BobSt → BobSt) (c : Chip) : (c.onBob n f).onBob n g = c.onBob n (g ∘ f) :=
  congrArg (fun b => ({ c with bob := b } : Chip)) (upd_upd c.bob n f g)

/-- A channel that needs no trigger moves at once. -/
theorem Chip.bobRowStart_free (x : BobDesc) (d : Chip) :
    (d.onBob n fun s => { s with desc := some x }).bobRowStart n false = d.onBob n fun _ => { phase := .move, desc := some x } :=
  Chip.onBob_onBob ..

/-! ### Triggers (R587) -/

section
variable (hen : c.rb (R.BOB_CTRL n) 0 = true)
include hen

theorem Chip.bobTrigger_of_wait (h : (c.bob[n]).phase = .wait) :
    c.bobTrigger n = (c.wb (R.BOB_STAT n) 1 false).onBob n fun b => { b with phase := .move } :=
  (if_neg (by rw [hen]; exact Bool.noConfusion)).trans (if_pos h)

theorem Chip.bobTrigger_of_full (h : (c.bob[n]).phase ≠ .wait) (hfull : c.rf (R.BOB_STAT n) 19 16 = 15) :
    c.bobTrigger n = c.sb (R.BOB_STAT n) 5 :=
  (if_neg (by rw [hen]; exact Bool.noConfusion)).trans ((if_neg h).trans (if_pos hfull))

theorem Chip.bobTrigger_of_room (h : (c.bob[n]).phase ≠ .wait) (hroom : c.rf (R.BOB_STAT n) 19 16 ≠ 15) :
    c.bobTrigger n = c.wf (R.BOB_STAT n) 19 16 (c.rf (R.BOB_STAT n) 19 16 + 1) :=
  (if_neg (by rw [hen]; exact Bool.noConfusion)).trans ((if_neg h).trans (if_neg hroom))

end

end

/-- Settles O41: each clause is the rule of its command in the state that the clause names. -/
theorem bobbinsStartStopAndTrigger : Obligations.BobbinsStartStopAndTrigger := by
  unfold Obligations.BobbinsStartStopAndTrigger
  intro n s c
  refine ⟨?running, ?start, ?stopFetch, ?stopBusy, ?abortIdle, ?abort, ?abortHost, ?fetch, ?none, ?trigger⟩
  case running =>
    intro h
    rw [exec_bobStart, Chip.bobStart_of_running h, State.withChip_chip]
  case start =>
    intro h
    exact ⟨_, exec_bobStart n s, Chip.bobStart_regs h⟩
  case stopFetch =>
    intro hrun h
    rw [exec_bobStop, Chip.bobStop_of_fetch hrun h]
  case stopBusy =>
    intro hrun h
    rw [exec_bobStop, Chip.bobStop_of_busy hrun h]
  case abortIdle =>
    intro h
    rw [exec_bobAbort, Chip.bobAbort_of_stopped h, State.withChip_chip]
  case abort =>
    intro hrun habort hhost
    rw [exec_bobAbort, Chip.bobAbort_of_free hrun habort hhost]
  case abortHost =>
    intro k hrun h
    rw [exec_bobAbort, Chip.bobAbort_of_host hrun h]
  case fetch =>
    intro hphase hpower hue a d
    refine ⟨fun hlocal hvellum => ?_, fun x hlow hhigh hdesc hnull => ?_, fun x hlow hhigh hdesc hnull hcheck htrig hrow => ?_⟩
    · rw [exec_bobDescriptorFetch, Chip.bobFetch_of_outside hphase hpower hlocal hvellum]
    · rw [exec_bobDescriptorFetch, Chip.bobFetch_of_local hphase hpower hue hlow hhigh hdesc]
      dsimp only
      rw [if_pos hnull]
    · have hstrap : d.rb R.SYS_STRAP 0 = c.rb R.SYS_STRAP 0 := by
        rw [Chip.rb_wr_ne (by simp only [R.SYS_STRAP, R.BOB_OFF]; omega), Chip.rb_wr_ne (by simp only [R.SYS_STRAP, R.BOB_ROW]; omega)]
      rw [exec_bobDescriptorFetch, Chip.bobFetch_of_local hphase hpower hue hlow hhigh hdesc]
      dsimp only
      rw [if_neg (ne_true_of_eq_false hnull), if_neg (by rw [not_not]; exact hstrap ▸ hcheck), htrig, hrow, Bool.or_false, Chip.bobRowStart_free]
  case none =>
    intro src sel h
    exact exec_bobTrigger_of_none h
  case trigger =>
    intro src sel r hr hheld hsel hen d
    refine ⟨fun h => ?_, fun h hfull => ?_, fun h hroom => ?_⟩
    · rw [exec_bobTrigger_of_held hr hheld hsel, Chip.bobTrigger_of_wait (c := c.ack r) hen h]
      rfl
    · rw [exec_bobTrigger_of_held hr hheld hsel, Chip.bobTrigger_of_full (c := c.ack r) hen h hfull]
      rfl
    · rw [exec_bobTrigger_of_held hr hheld hsel, Chip.bobTrigger_of_room (c := c.ack r) hen h hroom]
      rfl

end Sys2Proof.Machine
end

section
/-! A Bobbin's copy between ranges of Vellum (20, R576 to R585): the bytes that arrive, and what the channel is left as. -/

namespace Sys2Proof.Machine

theorem exec_bobDescriptorEnd (n : BobCh) (s : State) : exec (.bobDescriptorEnd n) s = .next (s.withChip (s.chip.bobMove n)) := rfl

/-! ### Bytes of a range -/

theorem Chip.getElem?_bytes {i : Nat} (c : Chip) : ∀ (n a : Nat), i < n → (c.bytes a n)[i]? = some (c.byte (a + i))
  | 0, _, h => absurd h (Nat.not_lt_zero _)
  | n + 1, a, h => by
    cases i with
    | zero => rfl
    | succ i =>
      rw [Chip.bytes, List.getElem?_cons_succ, Chip.getElem?_bytes c n (a + 1) (by omega)]
      congr 2
      omega

/-- Byte i of a range written is byte i of what was written. -/
theorem Chip.byte_memWrite_inside {a i : Nat} {bs : List Byte} {b : Byte} (h : bs[i]? = some b) (c : Chip) :
    (c.memWrite a bs).byte (a + i) = b := by
  have hi : i < bs.length := (List.getElem?_eq_some_iff.mp h).1
  have hback := Chip.getElem?_bytes (c.setBytes a bs) bs.length a hi
  rw [Chip.bytes_setBytes, h] at hback
  exact (Option.some.inj hback).symm

/-! ### A read that meets no mark -/

theorem Chip.rd_vRead_of_clean {c : Chip} {a : Nat} (hue : c.ue = []) (ha : a ≠ R.VLM_TOK_PEAK) (cls : VClass) (idx off len : Nat) :
    (c.vRead cls idx off len).2.2.rd a = c.rd a := by
  have htouch : (c.tokTouch cls).rd a = c.rd a ∧ (c.tokTouch cls).ue = c.ue := by
    unfold Chip.tokTouch
    split
    · exact ⟨Chip.rd_wf_ne _ _ _ _ _ _ ha, Chip.wf_ue ..⟩
    · exact ⟨rfl, rfl⟩
  have hfind (off : Nat) (d : Chip) (hd : d.rd a = c.rd a ∧ d.ue = []) : (d.vFind cls idx off none).rd a = c.rd a ∧
      (d.vFind cls idx off none).ue = [] := by
    unfold Chip.vFind Chip.vFindIn Chip.vBad
    rw [hd.2]
    exact hd
  refine (forEach_keeps (fun d : Chip => d.rd a = c.rd a ∧ d.ue = []) _ _ _ (fun _ d hd => hfind _ d hd) ?_).1
  unfold Chip.when
  split
  · exact ⟨htouch.1, htouch.2.trans hue⟩
  · exact ⟨rfl, hue⟩

theorem Chip.byte_vRead (cls : VClass) (idx off len : Nat) (c : Chip) (x : Nat) : (c.vRead cls idx off len).2.2.byte x = c.byte x :=
  Chip.byte_congr (Chip.vRead_same ⟨fun _ _ _ => rfl, fun _ _ => rfl, fun _ _ _ _ _ _ _ => rfl, fun _ _ _ => rfl⟩ cls idx off len c) x

/-! ### The row and the descriptor -/

section
variable {c : Chip} {n : BobCh} {d : BobDesc}

/-- A descriptor of one row that moves bytes between ranges of Vellum, neither overlapping upwards (R576, R583). -/
structure BobDesc.CopiesVellum (d : BobDesc) : Prop where
  srcHost : d.srcHost = false
  dstHost : d.dstHost = false
  srcFix : d.srcFix = false
  dstFix : d.dstFix = false
  d2 : d.d2 = false
  last : d.last = true
  srcLow : vlmBase ≤ d.src
  srcHigh : d.src + d.count ≤ vlmBase + vlmSize
  dstLow : vlmBase ≤ d.dst
  dstHigh : d.dst + d.count ≤ vlmBase + vlmSize
  count : 0 < d.count
  apart : d.dst ≤ d.src ∨ d.src + d.count ≤ d.dst

/-- The bytes read and put, with the point reached moved on. -/
def Chip.bobCopied (n : BobCh) (d : BobDesc) (c : Chip) : Chip :=
  ((c.vRead .bobbin n (d.src - vlmBase) d.count).2.2.memWrite d.dst (c.bytes d.src d.count)).bobAdvance n d.count

theorem bobTarget_of_vellum {a : Nat} (hlow : vlmBase ≤ a) (hhigh : a < vlmBase + vlmSize) : bobTarget a = .vellum := if_pos ⟨hlow, hhigh⟩

/-- A put that begins at the start of the only row. -/
theorem Chip.bobPut_of_vellum (hd : d.CopiesVellum) (hoff : (c.rd (R.BOB_OFF n)).toNat = 0) {bs : List Byte} (hbs : bs.length = d.count) :
    c.bobPut n d 0 bs = (c.memWrite d.dst bs).bobAdvance n d.count := by
  have hcount := hd.count
  have hhigh := hd.dstHigh
  have hsome : bs ≠ [] := by
    rintro rfl
    exact absurd hbs (by simp only [List.length_nil]; omega)
  have hregs : bobTarget d.dst ≠ .regs := by
    rw [bobTarget_of_vellum hd.dstLow (by omega)]
    exact BobTarget.noConfusion
  have hrow : d.dstRow 0 = d.dst := by simp only [BobDesc.dstRow, hd.d2, Bool.not_false, Bool.or_true, if_true]
  unfold Chip.bobPut
  simp only [hoff, hrow, hd.dstFix, hd.dstHost, hregs, hsome, hbs, if_false, Bool.false_eq_true, Nat.add_zero]

theorem Chip.bobRow_of_vellum (hd : d.CopiesVellum) (hoff : (c.rd (R.BOB_OFF n)).toNat = 0) (hue : c.ue = []) :
    c.bobRow n d 0 = (none, c.bobCopied n d) := by
  have hcount := hd.count
  have hhigh := hd.srcHigh
  have hregs : bobTarget d.src ≠ .regs := by
    rw [bobTarget_of_vellum hd.srcLow (by omega)]
    exact BobTarget.noConfusion
  have hsrc : d.srcRow 0 = d.src := by simp only [BobDesc.srcRow, hd.d2, Bool.not_false, Bool.or_true, if_true]
  have hdst : d.dstRow 0 = d.dst := by simp only [BobDesc.dstRow, hd.d2, Bool.not_false, Bool.or_true, if_true]
  have hread : c.bobRead n d.src d.count = (c.vRead .bobbin n (d.src - vlmBase) d.count).2.2 := if_pos hd.srcLow
  have hover : (decide (d.src < d.dst) && decide (d.dst < d.src + d.count)) = false := by
    rw [← Bool.decide_and]
    exact decide_eq_false (by have := hd.apart; omega)
  have hoff' : ((c.vRead .bobbin n (d.src - vlmBase) d.count).2.2.rd (R.BOB_OFF n)).toNat = 0 := by
    rw [Chip.rd_vRead_of_clean hue (by simp only [R.BOB_OFF, R.VLM_TOK_PEAK]; omega)]
    exact hoff
  unfold Chip.bobRow
  simp only [hoff, hsrc, hdst, hd.srcFix, hd.dstFix, hd.dstHost, hregs, hread, Chip.firstBad_nil hue, if_false, Bool.false_eq_true,
    Nat.add_zero, Nat.sub_zero, Bool.not_false, Bool.true_and, hover, Option.map_none,
    Chip.bobPut_of_vellum hd hoff' (c.bytes_length _ _)]
  rfl

/-- The channel after the copy's only row. -/
def Chip.bobRowDone (n : BobCh) (d : BobDesc) (c : Chip) : Chip := ((c.bobCopied n d).wr (R.BOB_ROW n) (w32 (0 + 1))).wr (R.BOB_OFF n) 0

theorem Chip.bobMove_of_vellum (hd : d.CopiesVellum) (hphase : (c.bob[n]).phase = .move) (hdesc : (c.bob[n]).desc = some d) (hpower : c.power = 0)
    (hrow : c.rf (R.BOB_ROW n) 15 0 = 0) (hoff : (c.rd (R.BOB_OFF n)).toNat = 0) (hue : c.ue = []) :
    c.bobMove n = (c.bobRowDone n d).bobEnd n d := by
  have hrows : d.nRows = 1 := by
    rw [BobDesc.nRows, hd.d2]
    rfl
  have hwaits : c.bobHostWaits d 0 = false := by
    rw [Chip.bobHostWaits, hd.srcHost, hd.dstHost]
    rfl
  have hgo : ¬((c.bob[n]).phase ≠ .move ∨ c.bobHostWaits d 0 = true) := by
    rw [hwaits, not_or, not_not]
    exact ⟨hphase, Bool.false_ne_true⟩
  unfold Chip.bobMove
  rw [hdesc]
  dsimp only
  rw [if_pos hpower]
  unfold Chip.bobRows
  simp only [hrow, hoff]
  rw [if_neg hgo]
  simp only [hd.srcHost, Bool.false_eq_true, false_and, if_false, Chip.bobRow_of_vellum hd hoff hue, hrows]
  rfl

/-- A last descriptor ends the channel with DONE. -/
theorem Chip.bobEnd_of_last (h : d.last = true) (c : Chip) : c.bobEnd n d = ((c.sbIf d.irq (R.BOB_STAT n) 3).bobStopped n).sb (R.BOB_STAT n) 3 := by
  unfold Chip.bobEnd
  rw [h]
  rfl

theorem Chip.bobRunning_bobStopped (n : BobCh) (c : Chip) : (c.bobStopped n).bobRunning n = false := by
  unfold Chip.bobStopped
  extract_lets d
  rw [Chip.bobRunning, Chip.rb_congr (Chip.rd_onBob ..), Chip.rb_wb_apart (by decide) (by decide), Chip.rb_wb_apart (by decide) (by decide),
    Chip.rb_wb_same (by decide)]

theorem Chip.byte_bobStopped (n : BobCh) (c : Chip) (x : Nat) : (c.bobStopped n).byte x = c.byte x := rfl

theorem Chip.byte_bobEnd (h : d.last = true) (c : Chip) (x : Nat) : (c.bobEnd n d).byte x = c.byte x := by
  rw [Chip.bobEnd_of_last h, Chip.byte_congr (Chip.sb_mem ..), Chip.byte_bobStopped, Chip.sbIf]
  split
  · exact Chip.byte_congr (Chip.sb_mem ..) x
  · rfl

/-- Of memory the row changes the destination only. -/
theorem Chip.byte_bobRowDone (n : BobCh) (d : BobDesc) (c : Chip) (x : Nat) :
    (c.bobRowDone n d).byte x = ((c.vRead .bobbin n (d.src - vlmBase) d.count).2.2.memWrite d.dst (c.bytes d.src d.count)).byte x := by
  rw [Chip.bobRowDone, Chip.byte_wr, Chip.byte_wr, Chip.bobCopied, Chip.bobAdvance, Chip.byte_wr, Chip.byte_wr]

end

/-- Settles O42: the row's put writes the bytes that its read found, and the end writes no memory. -/
theorem bobbinCopiesVellum : Obligations.BobbinCopiesVellum := by
  unfold Obligations.BobbinCopiesVellum
  intro n d s hphase hdesc hpower hsh hdh hsf hdf h2 hlast hrow hoff hue hsl hsr hdl hdr hcount hapart
  have hd : d.CopiesVellum := ⟨hsh, hdh, hsf, hdf, h2, hlast, hsl, hsr, hdl, hdr, hcount, hapart⟩
  have hoff' : (s.chip.rd (R.BOB_OFF n)).toNat = 0 := by rw [hoff]; rfl
  have hmove := Chip.bobMove_of_vellum hd hphase hdesc hpower hrow hoff' hue
  refine ⟨_, (exec_bobDescriptorEnd n s).trans (by rw [hmove]), fun i hi => ?_, fun a ha => ?_, ?_, ?_⟩
  · rw [Chip.byte_bobEnd hlast, Chip.byte_bobRowDone, Chip.byte_memWrite_inside (Chip.getElem?_bytes _ _ _ hi)]
  · rw [Chip.byte_bobEnd hlast, Chip.byte_bobRowDone, Chip.byte_memWrite_of_outside (by rwa [Chip.bytes_length]), Chip.byte_vRead]
  · rw [Chip.bobEnd_of_last hlast, Chip.bobRunning, Chip.sb, Chip.rb_wb_apart (by decide) (by decide)]
    exact Chip.bobRunning_bobStopped ..
  · rw [Chip.bobEnd_of_last hlast]
    exact Chip.rb_sb_same (by decide) ..

end Sys2Proof.Machine
end

section
/-! The service UARTs (21, R598 to R604): characters written, read, sent and received. -/

namespace Sys2Proof.Machine

/-! ### The commands -/

theorem exec_uartDataWrite (u : Fin 2) (v : Byte) (s : State) : exec (.uartDataWrite u v) s = .next (s.withChip (s.chip.uartWrite u v)) := rfl

theorem exec_uartDataRead (u : Fin 2) (s : State) : exec (.uartDataRead u) s = .next (s.withChip (s.chip.uartRead u).2) := rfl

theorem exec_uartCharSent (u : Fin 2) (s : State) : exec (.uartCharSent u) s = .next (s.withChip (s.chip.uartSent u)) := rfl

theorem exec_uartCharReceived (u : Fin 2) (early : Bool) (samples : List (BitVec 3)) (s : State) :
    exec (.uartCharReceived u early samples) s = .next (s.withChip (s.chip.uartReceived u early samples)) := rfl

theorem exec_uartRxTimeout (u : Fin 2) (s : State) : exec (.uartRxTimeout u) s = .next (s.withChip (s.chip.uartTimeout u)) := rfl

section
variable {c : Chip} {u : Fin 2}

/-! ### The data register (R599, R603) -/

theorem Chip.uartWrite_of_room (h : (c.uart u).tx.length < 32) (v : Byte) :
    c.uartWrite u v = (c.onUart u fun s => { s with tx := s.tx ++ [v] }).uartNext u := if_neg (by omega)

theorem Chip.uartWrite_of_full (h : 32 ≤ (c.uart u).tx.length) (v : Byte) : c.uartWrite u v = c.sb (R.UART_STAT u) 21 := if_pos h

theorem Chip.uartRead_of_some {w : Word} {t : List Word} (h : (c.uart u).rx = w :: t) :
    c.uartRead u = (w, c.onUart u fun s => { s with rx := t }) := by
  unfold Chip.uartRead
  rw [h]

theorem Chip.uartRead_of_empty (h : (c.uart u).rx = []) : c.uartRead u = (bitW 31, c) := by
  unfold Chip.uartRead
  rw [h]

/-! ### A character sent (R599, R604) -/

theorem Chip.uartSent_of_sending {ctrl baud : Word} {b : Byte} {t : List Byte} (hsend : (c.uart u).sending = some (ctrl, baud))
    (htx : (c.uart u).tx = b :: t) :
    c.uartSent u =
      let d := (c.emit (.uart u (uartBits ctrl b) (uartPeriod baud))).onUart u fun s => { s with tx := t, sending := none }
      (if t.length = c.rf (R.UART_FIFO u) 12 8 then d.unitReq (7 + 2 * u.val) else d).uartNext u := by
  unfold Chip.uartSent
  rw [hsend, htx]
  rfl

/-! ### A character received (R601 to R604) -/

/-- The three samples of a bit that agree. -/
def cleanSample (b : Bool) : BitVec 3 := if b then 7 else 0

theorem sampleMajority_clean (b : Bool) : sampleMajority (cleanSample b) = b := by
  cases b <;> rfl

theorem sampleNoise_clean (b : Bool) : sampleNoise (cleanSample b) = false := by
  cases b <;> rfl

theorem uart_onUart (f : UartSt → UartSt) (c : Chip) : (c.onUart u f).uart u = f (c.uart u) := upd_same ..

theorem rd_onUart (f : UartSt → UartSt) (c : Chip) (a : Nat) : (c.onUart u f).rd a = c.rd a := rfl

theorem Chip.sbIf_uart (v : Bool) (a i : Nat) (c : Chip) : (c.sbIf v a i).uart u = c.uart u := by
  unfold Chip.sbIf
  split <;> rfl

/-- The error bits of a character, and the time since it. -/
def Chip.uartFlags (u : Fin 2) (fe pe brk : Bool) (c : Chip) : Chip :=
  (((c.sbIf fe (R.UART_STAT u) 16).sbIf pe (R.UART_STAT u) 17).sbIf brk (R.UART_STAT u) 18).onUart u fun s => { s with timedOut := false }

theorem Chip.rx_uartFlags (fe pe brk : Bool) (c : Chip) : ((c.uartFlags u fe pe brk).uart u).rx = (c.uart u).rx := by
  rw [Chip.uartFlags, uart_onUart, Chip.sbIf_uart, Chip.sbIf_uart, Chip.sbIf_uart]

theorem Chip.rf_uartFlags (fe pe brk : Bool) (c : Chip) : (c.uartFlags u fe pe brk).rf (R.UART_FIFO u) 4 0 = c.rf (R.UART_FIFO u) 4 0 := by
  have hne : R.UART_FIFO u ≠ R.UART_STAT u := by simp only [R.UART_FIFO, R.UART_STAT]; omega
  rw [Chip.uartFlags, Chip.rf_congr (rd_onUart ..), Chip.rf_sbIf_ne hne, Chip.rf_sbIf_ne hne, Chip.rf_sbIf_ne hne]

/-- The character with its flags, as the FIFO holds it (R603). -/
def uartEntry (d : Nat) (fe pe brk : Bool) : Word := w32 (d + b2n fe * 2 ^ 8 + b2n pe * 2 ^ 9 + b2n brk * 2 ^ 10)

/-- Clean samples give the frame of their bits, and what it brings goes by the FIFO's room. -/
theorem Chip.uartReceived_of_frame {bits : List Bool} {d : Nat} {fe pe brk : Bool}
    (h : uartFrame (c.rd (R.UART_CTRL u)) bits = some (d, fe, pe, brk)) :
    c.uartReceived u false ((false :: bits).map cleanSample) =
      let e := c.uartFlags u fe pe brk
      if 32 ≤ (c.uart u).rx.length then e.sb (R.UART_STAT u) 20
      else
        let g := e.onUart u fun s => { s with rx := s.rx ++ [uartEntry d fe pe brk] }
        if (c.uart u).rx.length + 1 = c.rf (R.UART_FIFO u) 4 0 then g.unitReq (6 + 2 * u.val) else g := by
  have hquiet : ((false :: bits).map cleanSample).any sampleNoise = false := by
    rw [List.any_map, List.any_eq_false]
    exact fun b _ => ne_true_of_eq_false (sampleNoise_clean b)
  have hbits : ((false :: bits).map cleanSample).map sampleMajority = false :: bits := by
    rw [List.map_map, show sampleMajority ∘ cleanSample = id from funext sampleMajority_clean, List.map_id]
  unfold Chip.uartReceived
  rw [hquiet, hbits]
  dsimp only
  rw [show c.sbIf false (R.UART_STAT u) 19 = c from rfl, if_neg Bool.false_ne_true, h]
  dsimp only
  rw [← Chip.uartFlags, Chip.rx_uartFlags, Chip.rf_congr (rd_onUart ..), Chip.rf_uartFlags]
  rfl

theorem Chip.uartTimeout_of_waiting (hrx : (c.uart u).rx ≠ []) (hfirst : (c.uart u).timedOut = false) :
    c.uartTimeout u = (c.unitReq (6 + 2 * u.val)).onUart u fun s => { s with timedOut := true } :=
  if_pos ⟨hrx, ne_true_of_eq_false hfirst⟩

end

/-- Settles O43: each clause is the rule of its command in the state that the clause names. -/
theorem uartsMoveCharacters : Obligations.UartsMoveCharacters := by
  unfold Obligations.UartsMoveCharacters
  intro u s c x
  refine ⟨?room, ?full, ?read, ?empty, ?sent, ?received, ?timeout⟩
  case room =>
    intro v h
    rw [exec_uartDataWrite, Chip.uartWrite_of_room h]
  case full =>
    intro v h
    rw [exec_uartDataWrite, Chip.uartWrite_of_full h]
  case read =>
    intro w t h
    rw [exec_uartDataRead, Chip.uartRead_of_some h]
    exact ⟨rfl, rfl⟩
  case empty =>
    intro h
    rw [exec_uartDataRead, Chip.uartRead_of_empty h]
    exact ⟨rfl, rfl⟩
  case sent =>
    intro ctrl baud b t hsend htx d
    rw [exec_uartCharSent, Chip.uartSent_of_sending hsend htx]
  case received =>
    intro bits d fe pe brk hframe e e' samples
    have hreceived := Chip.uartReceived_of_frame hframe
    refine ⟨fun h => ?_, fun h => ?_⟩
    · rw [exec_uartCharReceived]
      exact congrArg (fun d => Host.Outcome.next (s.withChip d)) (hreceived.trans (if_pos h))
    · rw [exec_uartCharReceived]
      exact congrArg (fun d => Host.Outcome.next (s.withChip d)) (hreceived.trans (if_neg (Nat.not_le_of_lt h)))
  case timeout =>
    intro hrx hfirst
    rw [exec_uartRxTimeout, Chip.uartTimeout_of_waiting hrx hfirst]

end Sys2Proof.Machine
end

section
/-! The boot-flash master, the I2C masters, the telemetry ADC and the GPIO (21, R605 to R620). -/

namespace Sys2Proof.Machine

/-! ### The commands -/

theorem exec_qspiGo (v : Word) (s : State) : exec (.qspiGo v) s = .next (s.withChip (s.chip.qspiGo v)) := rfl

theorem exec_qspiDone (rx : List Byte) (s : State) : exec (.qspiDone rx) s = .next (s.withChip (s.chip.qspiDone rx)) := rfl

theorem exec_i2cGo (m : Fin 4) (v : Word) (s : State) : exec (.i2cGo m v) s = .next (s.withChip (s.chip.i2cGo m v)) := rfl

theorem exec_i2cDone (m : Fin 4) (e : I2cEnd) (s : State) : exec (.i2cDone m e) s = .next (s.withChip (s.chip.i2cDone m e)) := rfl

theorem exec_i2cSclTimeout (m : Fin 4) (s : State) : exec (.i2cSclTimeout m) s = .next (s.withChip (s.chip.i2cTimeout m)) := rfl

theorem exec_adcStart (s : State) : exec .adcStart s = .next (s.withChip s.chip.adcTrigger) := rfl

theorem exec_adcTrigger_of_none {e : BitVec 6} {s : State} (h : s.chip.reqs.contains { dst := none, src := 1, sel := e.toNat } = false) :
    exec (.adcTrigger e) s = .next s := by
  show execAdcTrigger e s = _
  exact if_neg (ne_true_of_eq_false h)

theorem exec_adcTrigger_of_held {e : BitVec 6} {s : State} (h : s.chip.reqs.contains { dst := none, src := 1, sel := e.toNat } = true)
    (hsel : s.chip.adcTrigOf 1 e.toNat = true) :
    exec (.adcTrigger e) s = .next (s.withChip (s.chip.ack { dst := none, src := 1, sel := e.toNat }).adcTrigger) := by
  show execAdcTrigger e s = _
  unfold execAdcTrigger
  dsimp only
  rw [if_pos h, hsel]
  rfl

theorem exec_adcSequenceEnd (codes : List (BitVec 12)) (s : State) :
    exec (.adcSequenceEnd codes) s = .next (s.withChip (s.chip.adcEnd codes)) := rfl

theorem exec_adcCal (s : State) : exec .adcCal s = .next (s.withChip s.chip.adcCal) := rfl

theorem exec_adcCalAuto_of_auto {s : State} (h : s.chip.rb R.ADC_CTRL 2 = true) :
    exec .adcCalAuto s = .next (s.withChip s.chip.adcCal) := by
  show execAdcCalAuto s = _
  exact if_pos h

theorem exec_adcCalEnd_of_free {s : State} (h : s.chip.ser.adcSeq = none) :
    exec .adcCalEnd s = .next (s.withChip (s.chip.wb R.ADC_STAT 2 false)) := by
  show execAdcCalEnd s = _
  exact if_neg (by rw [h]; exact Bool.false_ne_true)

theorem exec_gpioSet (k : Fin 2) (v : Word) (s : State) : exec (.gpioSet k v) s = .next (s.withChip (s.chip.gpioSet k v)) := rfl

theorem exec_gpioClr (k : Fin 2) (v : Word) (s : State) : exec (.gpioClr k v) s = .next (s.withChip (s.chip.gpioClr k v)) := rfl

theorem exec_gpioInputChange (n : Fin 48) (v : Bool) (samples : Nat) (s : State) :
    exec (.gpioInputChange n v samples) s = .next (s.withChip (s.chip.gpioInput n v samples)) := rfl

section
variable {c : Chip}

/-! ### The boot flash (R606) -/

theorem Chip.qspiGo_of_busy (h : c.rb R.QSPI_STAT 0 = true) (v : Word) : c.qspiGo v = c.sb R.QSPI_STAT 2 := if_pos h

theorem Chip.qspiGo_of_idle {v : Word} {d : Chip} (h : c.rb R.QSPI_STAT 0 = false) (hd : d = c.store R.QSPI_CMD v) (hpower : d.power = 0) :
    c.qspiGo v = (d.sb R.QSPI_STAT 0).emit (.flash d.flashTx) := by
  subst hd
  exact (if_neg (ne_true_of_eq_false h)).trans (if_neg (not_not.mpr hpower))

theorem Chip.qspiDone_of_read (h : c.rb R.QSPI_STAT 0 = true) (hread : tb (c.rd R.QSPI_CMD) 17 = false) (rx : List Byte) :
    c.qspiDone rx =
      ((c.setRegBytes (R.QSPI_BUF 0) (rx.take (flashLen (c.rd R.QSPI_CMD)))).wb R.QSPI_STAT 0 false).sb R.QSPI_STAT 1 := by
  unfold Chip.qspiDone Chip.qspiBusy
  rw [if_neg (by rw [h]; exact Bool.noConfusion)]
  dsimp only
  rw [if_neg (ne_true_of_eq_false hread)]

/-! ### I2C (R611, R612) -/

section
variable {m : Fin 4}

theorem Chip.i2cGo_of_idle {v : Word} {d : Chip} (hd : d = c.store (R.I2C_XFER m) v) (h : d.rb (R.I2C_STAT m) 0 = false) (hpower : d.power = 0) :
    c.i2cGo m v =
      let t : I2cTx := { addr := fld v 6 0, wr := d.i2cWbuf m (min 32 (fld v 13 8)), rlen := min 32 (fld v 21 16), speed := min 2 (d.rf (R.I2C_CTRL m) 2 1) }
      ((d.sb (R.I2C_STAT m) 0).setI2c m (some t)).i2cDrive m t := by
  subst hd
  exact (if_neg (ne_true_of_eq_false h)).trans (if_neg (not_not.mpr hpower))

/-- The transaction goes out where the master is enabled. -/
theorem Chip.i2cDrive_begun (t : I2cTx) (d : Chip) :
    ((d.sb (R.I2C_STAT m) 0).setI2c m (some t)).i2cDrive m t =
      ((d.sb (R.I2C_STAT m) 0).setI2c m (some t)).when (d.rb (R.I2C_CTRL m) 0) fun e =>
        e.emit (.i2c m t.ops (i2cTimes t.speed).1 (i2cTimes t.speed).2) := by
  have hen : ((d.sb (R.I2C_STAT m) 0).setI2c m (some t)).rb (R.I2C_CTRL m) 0 = d.rb (R.I2C_CTRL m) 0 :=
    (Chip.rb_congr (Chip.rd_onSer ..) 0).trans (Chip.rb_wb_ne (by simp only [R.I2C_CTRL, R.I2C_STAT]; omega) ..)
  unfold Chip.i2cDrive
  rw [hen]
  rfl

section
variable {t : I2cTx} (h : c.ser.i2c[m] = some t)
include h

theorem Chip.i2cDone_ok (rx : List Byte) : c.i2cDone m (.ok rx) = (c.setRegBytes (R.I2C_RBUF m 0) (rx.take t.rlen)).i2cEnd m 1 := by
  unfold Chip.i2cDone
  rw [h]

theorem Chip.i2cDone_nack (idx : BitVec 6) :
    c.i2cDone m (.nack idx) = ((c.i2cEnd m 1).sb (R.I2C_STAT m) 2).wf (R.I2C_STAT m) 13 8 idx.toNat := by
  unfold Chip.i2cDone
  rw [h]

theorem Chip.i2cDone_arbLost : c.i2cDone m .arbLost = c.i2cEnd m 4 := by
  unfold Chip.i2cDone
  rw [h]

theorem Chip.i2cDone_busStuck : c.i2cDone m .busStuck = c.i2cEnd m 5 := by
  unfold Chip.i2cDone
  rw [h]

end

theorem Chip.i2cTimeout_of_busy (h : c.rb (R.I2C_STAT m) 0 = true) : c.i2cTimeout m = c.i2cEnd m 3 := if_pos h

end

/-! ### The ADC (R614 to R616) -/

theorem Chip.adcTrigger_of_idle (hseq : c.ser.adcSeq = none) (hq : c.rf R.ADC_STAT 6 4 = 0) (hpower : c.power = 0) :
    c.adcTrigger = c.onSer fun x => { x with adcSeq := some (BitVec.ofNat 16 (c.rf R.ADC_SEQ 15 0)) } :=
  if_pos ⟨by rw [hseq]; rfl, hq, hpower⟩

theorem Chip.adcTrigger_of_busy (hseq : c.ser.adcSeq ≠ none) (hq : c.rf R.ADC_STAT 6 4 < 4) :
    c.adcTrigger = c.wf R.ADC_STAT 6 4 (c.rf R.ADC_STAT 6 4 + 1) :=
  (if_neg fun h => hseq (Option.isNone_iff_eq_none.mp h.1)).trans (if_pos hq)

theorem Chip.adcTrigger_of_full (hq : 4 ≤ c.rf R.ADC_STAT 6 4) : c.adcTrigger = (c.incSat R.ADC_DROP).sb R.ADC_STAT 1 :=
  (if_neg fun h => absurd h.2.1 (Nat.ne_of_gt (Nat.lt_of_lt_of_le (by decide) hq))).trans (if_neg (Nat.not_lt.mpr hq))

theorem Chip.adcTrigOf_of_selected {e : Nat} (hen : c.rb R.ADC_TRIG 0 = true) (hsel : c.rf R.ADC_TRIG 13 8 = e) (he : e ≤ 32) :
    c.adcTrigOf 1 e = true := by
  rw [Chip.adcTrigOf, hen, hsel, beq_self_eq_true, beq_self_eq_true, decide_eq_true he, Bool.and_true, Bool.and_true, Bool.and_true]

theorem Chip.adcEnd_of_running {q : BitVec 16} (h : c.ser.adcSeq = some q) (codes : List (BitVec 12)) :
    c.adcEnd codes =
      ((((c.adcResults (setBitsOf 16 q.toNat) codes).onSer fun x => { x with adcSeq := none }).sb R.ADC_STAT 0).unitReq 10).adcNext := by
  unfold Chip.adcEnd
  rw [h]

/-! ### The GPIO (R618 to R620) -/

theorem tb_gpioMask : ∀ (k : Fin 2), ∀ i < (if k.val = 0 then 32 else 16), tb (gpioMask k) i = true := by
  decide

theorem Chip.rb_gpioSet {k : Fin 2} {i : Nat} (h : i < if k.val = 0 then 32 else 16) (v : Word) (c : Chip) :
    (c.gpioSet k v).rb (R.GPIO_OUT k) i = (c.rb (R.GPIO_OUT k) i || tb v i) := by
  have hmask := tb_gpioMask k i h
  rw [tb_eq_getLsbD] at hmask
  rw [Chip.gpioSet, Chip.rb, Chip.rd_wr_same, Chip.rb, tb_eq_getLsbD, tb_eq_getLsbD, tb_eq_getLsbD, BitVec.getLsbD_or, BitVec.getLsbD_and, hmask,
    Bool.and_true]

theorem Chip.rb_gpioClr {i : Nat} (hi : i < 32) (k : Fin 2) (v : Word) (c : Chip) :
    (c.gpioClr k v).rb (R.GPIO_OUT k) i = (c.rb (R.GPIO_OUT k) i && !tb v i) := by
  rw [Chip.gpioClr, Chip.rb, Chip.rd_wr_same, Chip.rb, tb_eq_getLsbD, tb_eq_getLsbD, tb_eq_getLsbD, BitVec.getLsbD_and, BitVec.getLsbD_not,
    decide_eq_true hi, Bool.true_and]

/-- A change that the filter lets through, of a ball that may read so. -/
theorem Chip.gpioInput_of_accepted {n : Fin 48} {v : Bool} {k : Nat} (hchange : tb c.ser.balls n ≠ v)
    (hbank : v = true → c.rb R.SYS_VIO 1 = true) (hfilter : (if c.rb (R.GPIO_PAD n) 12 then 3 else 1) ≤ k) :
    c.gpioInput n v k =
      let d := c.onSer fun s => { s with balls := if v then s.balls ||| BitVec.ofNat 48 (2 ^ n.val) else s.balls &&& ~~~(BitVec.ofNat 48 (2 ^ n.val)) }
      if c.padMode n = 3 ∨ (c.padMode n = 1 ∧ v = true) ∨ (c.padMode n = 2 ∧ v = false) then d.sb (R.GPIO_ISTAT (n / 32)) (n % 32) else d := by
  have hgood : (v && !c.rb R.SYS_VIO 1) = false := by
    cases v with
    | false => rfl
    | true => rw [hbank rfl]; rfl
  have htaken : ¬(tb c.ser.balls n = v ∨ (v && !c.rb R.SYS_VIO 1) = true ∨ k < (if c.rb (R.GPIO_PAD n) 12 then 3 else 1)) := by
    rw [hgood]
    exact not_or.mpr ⟨hchange, not_or.mpr ⟨Bool.false_ne_true, Nat.not_lt.mpr hfilter⟩⟩
  unfold Chip.gpioInput
  rw [if_neg htaken]
  extract_lets d m
  have hmode : m = c.padMode n := rfl
  rw [Chip.sbIf, hmode]
  simp only [Bool.or_eq_true, Bool.and_eq_true, beq_iff_eq, Bool.not_eq_true', or_assoc]

end

/-- Settles O44: each clause is the rule of its command in the state that the clause names. -/
theorem serialBusesAdcAndGpio : Obligations.SerialBusesAdcAndGpio := by
  unfold Obligations.SerialBusesAdcAndGpio
  intro s c
  refine ⟨?flashBusy, ?flashGo, ?flashDone, ?i2cGo, ?i2cDone, ?i2cTimeout, ⟨?adcStart, ?adcTrigger, ?adcNone⟩, ?adcEnd, ?cal, ?calAuto, ?calEnd,
    ?set, ?clear, ?input⟩
  case flashBusy =>
    intro v h
    rw [exec_qspiGo, Chip.qspiGo_of_busy h]
  case flashGo =>
    intro v d h hd hpower
    rw [exec_qspiGo, Chip.qspiGo_of_idle h hd hpower]
  case flashDone =>
    intro rx h hread
    rw [exec_qspiDone, Chip.qspiDone_of_read h hread]
  case i2cGo =>
    intro m v d hd h hpower t
    rw [exec_i2cGo, Chip.i2cGo_of_idle hd h hpower, ← Chip.i2cDrive_begun]
  case i2cDone =>
    intro m t h
    refine ⟨fun rx => ?_, fun idx => ?_, ?_, ?_⟩
    · rw [exec_i2cDone, Chip.i2cDone_ok h]
    · rw [exec_i2cDone, Chip.i2cDone_nack h]
    · rw [exec_i2cDone, Chip.i2cDone_arbLost h]
    · rw [exec_i2cDone, Chip.i2cDone_busStuck h]
  case i2cTimeout =>
    intro m h
    rw [exec_i2cSclTimeout, Chip.i2cTimeout_of_busy h]
  case adcStart =>
    refine ⟨fun hseq hq hpower => ?_, fun hseq hq => ?_, fun hq => ?_⟩
    · rw [exec_adcStart, Chip.adcTrigger_of_idle hseq hq hpower]
    · rw [exec_adcStart, Chip.adcTrigger_of_busy hseq hq]
    · rw [exec_adcStart, Chip.adcTrigger_of_full hq]
  case adcTrigger =>
    intro e hheld hen hsel he
    have hexec := exec_adcTrigger_of_held hheld (Chip.adcTrigOf_of_selected hen hsel he)
    refine ⟨fun hseq hq hpower => hexec.trans ?_, fun hseq hq => hexec.trans ?_, fun hq => hexec.trans ?_⟩
    · rw [Chip.adcTrigger_of_idle (c := c.ack _) hseq hq hpower]
      rfl
    · rw [Chip.adcTrigger_of_busy (c := c.ack _) hseq hq]
      rfl
    · rw [Chip.adcTrigger_of_full (c := c.ack _) hq]
      rfl
  case adcNone =>
    intro e h
    exact exec_adcTrigger_of_none h
  case adcEnd =>
    intro codes q h
    rw [exec_adcSequenceEnd, Chip.adcEnd_of_running h]
  case cal => exact exec_adcCal s
  case calAuto =>
    intro h
    exact exec_adcCalAuto_of_auto h
  case calEnd =>
    intro h
    exact exec_adcCalEnd_of_free h
  case set =>
    intro k v
    exact ⟨_, exec_gpioSet k v s, fun i hi => Chip.rb_gpioSet hi v c⟩
  case clear =>
    intro k v
    exact ⟨_, exec_gpioClr k v s, fun i hi => Chip.rb_gpioClr hi k v c⟩
  case input =>
    intro n v k hchange hbank hfilter
    rw [exec_gpioInputChange, Chip.gpioInput_of_accepted hchange hbank hfilter]

end Sys2Proof.Machine
end

section
/-! Lantern (22, R624 to R642): the target between its limits, the decisions, the phases and the shed. -/

namespace Sys2Proof.Machine

/-! ### The commands -/

theorem exec_lanternDecision_of_due {s : State} (h : s.chip.decisionDue = true) (icore : Half) (sense : List (Half × BitVec 10)) :
    exec (.lanternDecision icore sense) s = .next (s.withChip (s.chip.decision icore sense)) := by
  show execLanternDecision icore sense s = _
  exact if_pos h

theorem exec_lanternDecision_of_early {s : State} (h : s.chip.decisionDue = false) (icore : Half) (sense : List (Half × BitVec 10)) :
    exec (.lanternDecision icore sense) s = .next s := by
  show execLanternDecision icore sense s = _
  exact if_neg (ne_true_of_eq_false h)

theorem exec_vsetStep (s : State) : exec .vsetStep s = .next (s.withChip s.chip.vsetStep) := rfl

/-! ### The target lies between its limits (R626) -/

/-- The target lies between its limits. -/
def Chip.targetHeld (c : Chip) : Prop := c.vMin ≤ c.vcode ∧ c.vcode ≤ c.vMax

/-- Two chips agree on the limits and on the target. -/
def SameTarget (c d : Chip) : Prop := d.rd R.LTN_VLIM = c.rd R.LTN_VLIM ∧ d.rd R.LTN_STAT = c.rd R.LTN_STAT

theorem SameTarget.refl (c : Chip) : SameTarget c c := ⟨rfl, rfl⟩

theorem SameTarget.trans {a b c : Chip} (h : SameTarget a b) (k : SameTarget b c) : SameTarget a c := ⟨k.1.trans h.1, k.2.trans h.2⟩

theorem SameTarget.targetHeld {c d : Chip} (h : SameTarget c d) (hc : c.targetHeld) : d.targetHeld := by
  have hmax : d.vMax = c.vMax := by rw [Chip.vMax, Chip.rf_congr h.1, Chip.vMax]
  have hmin : d.vMin = c.vMin := by rw [Chip.vMin, hmax, Chip.rf_congr h.1, Chip.vMin]
  have hcode : d.vcode = c.vcode := Chip.rf_congr h.2 6 0
  rw [Chip.targetHeld, hmin, hmax, hcode]
  exact hc

theorem sameTarget_wr {a : Nat} (hlim : R.LTN_VLIM ≠ a) (hstat : R.LTN_STAT ≠ a) (v : Word) (c : Chip) : SameTarget c (c.wr a v) :=
  ⟨c.rd_wr_ne _ _ _ hlim, c.rd_wr_ne _ _ _ hstat⟩

theorem sameTarget_onLtn (f : LtnSt → LtnSt) (c : Chip) : SameTarget c (c.onLtn f) := ⟨Chip.rd_onLtn .., Chip.rd_onLtn ..⟩

theorem sameTarget_vlm (x : Vlm) (c : Chip) : SameTarget c { c with vlm := x } := ⟨Chip.rd_congr rfl _, Chip.rd_congr rfl _⟩

theorem Chip.vMin_le_vMax (c : Chip) : c.vMin ≤ c.vMax := Nat.min_le_left ..

/-- Whatever is asked for, the target set lies between its limits. -/
theorem Chip.targetHeld_setVcode (v : Nat) (c : Chip) : (c.setVcode v).targetHeld := by
  have hlim : (c.setVcode v).rd R.LTN_VLIM = c.rd R.LTN_VLIM := Chip.rd_wf_ne _ _ _ _ _ _ (by decide)
  have hmax : (c.setVcode v).vMax = c.vMax := by rw [Chip.vMax, Chip.rf_congr hlim, Chip.vMax]
  have hmin : (c.setVcode v).vMin = c.vMin := by rw [Chip.vMin, hmax, Chip.rf_congr hlim, Chip.vMin]
  have hbound := c.vMin_le_vMax
  have htop : c.vMax ≤ 77 := Nat.min_le_left ..
  have hcode : (c.setVcode v).vcode = clampN c.vMin c.vMax v := Chip.rf_wf_same (by decide) (by rw [clampN]; omega) c
  rw [Chip.targetHeld, hmin, hmax, hcode, clampN]
  omega

theorem Chip.targetHeld_vsetStep {c : Chip} (h : c.targetHeld) : c.vsetStep.targetHeld := by
  unfold Chip.vsetStep
  split
  · exact h
  · dsimp only
    split
    · exact Chip.targetHeld_setVcode ..
    · split
      · exact Chip.targetHeld_setVcode ..
      · exact h

/-! ### The shed leaves the target -/

theorem sameTarget_onBank (n : Nat) (f : BankSt → BankSt) (c : Chip) : SameTarget c (c.onBank n f) := sameTarget_vlm _ c

theorem sameTarget_bankMiss (n : Nat) (c : Chip) : SameTarget c (c.bankMiss n) := by
  unfold Chip.bankMiss
  extract_lets d
  have hmiss : SameTarget c d := sameTarget_onBank n _ c
  split
  · exact (hmiss.trans (sameTarget_wr (by simp only [R.LTN_VLIM, R.VLM_SCRUB_LATE]; split <;> omega)
      (by simp only [R.LTN_STAT, R.VLM_SCRUB_LATE]; split <;> omega) _ _)).trans (sameTarget_wr (by decide) (by decide) _ _)
  · exact hmiss

theorem sameTarget_slotShed (c : Chip) : SameTarget c c.slotShed := by
  refine SameTarget.trans (forEach_keeps (SameTarget c) _ _ _ (fun n d hd => ?_) (.refl c)) (sameTarget_vlm _ _)
  split
  · exact hd.trans (sameTarget_bankMiss n d)
  · exact hd

theorem sameTarget_copyRelease (c : Chip) : SameTarget c c.copyRelease := by
  unfold Chip.copyRelease
  dsimp only
  split
  · exact sameTarget_vlm _ _
  · exact .refl c

theorem SameTarget.when {c : Chip} (b : Bool) {f : Chip → Chip} (h : SameTarget c (f c)) : SameTarget c (c.when b f) := by
  unfold Chip.when
  split
  · exact h
  · exact .refl c

theorem sameTarget_shedChange (v : Nat) (c : Chip) : SameTarget c (c.shedChange (Chip.wf R.LTN_SHED 2 0 v)) :=
  ((sameTarget_wr (by decide) (by decide) _ c).trans (.when _ (sameTarget_slotShed _))).trans (.when _ (sameTarget_copyRelease _))

theorem sameTarget_shedAdvance (c : Chip) : SameTarget c c.shedAdvance := by
  unfold Chip.shedAdvance
  split
  · exact .refl c
  · next k _ =>
    extract_lets c0 d e
    have hchange : SameTarget c d := sameTarget_shedChange k c
    split
    · exact hchange.trans (sameTarget_wr (by decide) (by decide) _ d)
    · exact hchange

theorem sameTarget_shedDecide (c : Chip) : SameTarget c c.shedDecide := by
  unfold Chip.shedDecide
  extract_lets i cap high low d
  have hlow : SameTarget c d := sameTarget_onLtn _ c
  split
  · split
    · exact hlow.trans (sameTarget_wr (by decide) (by decide) _ d)
    · exact hlow.trans (sameTarget_shedAdvance d)
  · split
    · exact (hlow.trans (sameTarget_shedChange _ d)).trans (sameTarget_onLtn _ _)
    · exact hlow

/-! ### A decision leaves the target held (R628) -/

theorem Chip.targetHeld_stepUp {c : Chip} (h : c.targetHeld) : c.stepUp.targetHeld := by
  unfold Chip.stepUp
  split
  · exact (sameTarget_wr (by decide) (by decide) _ c).targetHeld h
  · exact (sameTarget_wr (by decide) (by decide) _ _).targetHeld (Chip.targetHeld_setVcode ..)

theorem Chip.targetHeld_stepDown {c : Chip} (h : c.targetHeld) : c.stepDown.targetHeld := by
  unfold Chip.stepDown
  split
  · exact h
  · exact ((sameTarget_wr (by decide) (by decide) _ _).trans (sameTarget_onLtn _ _)).targetHeld (Chip.targetHeld_setVcode ..)

theorem Chip.targetHeld_track {c : Chip} (h : c.targetHeld) : c.track.targetHeld := by
  unfold Chip.track
  dsimp only
  split
  · exact Chip.targetHeld_stepUp h
  · split
    · exact Chip.targetHeld_stepDown h
    · exact h

theorem sameTarget_limitNote (c : Chip) : SameTarget c c.limitNote := sameTarget_onLtn _ c

theorem Chip.targetHeld_decision {c : Chip} (h : c.targetHeld) (icore : Half) (sense : List (Half × BitVec 10)) :
    (c.decision icore sense).targetHeld := by
  unfold Chip.decision
  extract_lets d e
  have hd : d.targetHeld := (((sameTarget_onLtn _ c).trans (sameTarget_limitNote _)).trans (sameTarget_wr (by decide) (by decide) _ _)).targetHeld h
  have hstep : (d.when (d.rb R.LTN_CTRL 0) Chip.track).targetHeld := by
    unfold Chip.when
    split
    · exact Chip.targetHeld_track hd
    · exact hd
  exact ((sameTarget_shedDecide _).trans (sameTarget_onLtn _ e)).targetHeld hstep

/-- Settles O46: every write of the target is held between the limits, and nothing else in a step or a decision touches them. -/
theorem vcoreTargetStaysInItsLimits : Obligations.VcoreTargetStaysInItsLimits := by
  unfold Obligations.VcoreTargetStaysInItsLimits
  refine ⟨fun c => ⟨rfl, Nat.min_comm ..⟩, fun icore sense s hlow hhigh => ⟨?step, ?decision⟩, fun v c => ?write⟩
  case step => exact ⟨_, exec_vsetStep s, Chip.targetHeld_vsetStep ⟨hlow, hhigh⟩⟩
  case decision =>
    cases hdue : s.chip.decisionDue with
    | true => exact ⟨_, exec_lanternDecision_of_due hdue icore sense, Chip.targetHeld_decision ⟨hlow, hhigh⟩ icore sense⟩
    | false => exact ⟨_, exec_lanternDecision_of_early hdue icore sense, hlow, hhigh⟩
  case write =>
    have hstore : c.storeLtn R.LTN_VLIM v = (c.store R.LTN_VLIM v).setVcode (c.store R.LTN_VLIM v).vcode := if_pos rfl
    rw [hstore]
    exact Chip.targetHeld_setVcode ..

end Sys2Proof.Machine
end

section
/-! Lantern's decisions, steps, phases and shed (22, R625 to R642): what each command comes to. -/

namespace Sys2Proof.Machine

/-! ### The commands -/

theorem exec_shedLimitAdvance_of_due {s : State} (h : s.chip.limitDue = true) :
    exec .shedLimitAdvance s = .next (s.withChip (s.chip.shedAdvance.onLtn fun l => { l with limitAt := some s.chip.time })) := by
  show execShedLimitAdvance s = _
  exact if_pos h

theorem exec_phaseCurrentLimit_on {p : Phase} {s : State} (h : s.chip.phaseOn p = true) :
    exec (.phaseCurrentLimit p true) s = .next (s.withChip (s.chip.onLtn fun l => { l with
      limited := insertSorted p l.limited, sense := l.sense.set p (min 300 l.sense[p].1, l.sense[p].2) }).limitNote) := by
  show execPhaseCurrentLimit p true s = _
  unfold execPhaseCurrentLimit
  dsimp only
  rw [if_pos rfl, if_pos h]
  rfl

theorem exec_phaseCurrentLimit_off (p : Phase) (s : State) :
    exec (.phaseCurrentLimit p false) s =
      .next (s.withChip (s.chip.onLtn fun l => { l with limited := l.limited.filter (· != p.val) }).limitNote) := rfl

theorem exec_phaseOpen (p : Phase) (s : State) : exec (.phaseOpen p) s = .next (s.withChip (s.chip.phaseFault p 0)) := rfl

theorem exec_phaseShort (p : Phase) (s : State) : exec (.phaseShort p) s = .next (s.withChip (s.chip.phaseFault p 1)) := rfl

theorem exec_ltnIsolate (v : Word) (s : State) : exec (.ltnIsolate v) s = .next (s.withChip (s.chip.ltnIsolate v)) := rfl

theorem exec_blindDetect (iin vin vcore : Nat) (sense : List (Half × BitVec 10)) (s : State) :
    exec (.blindDetect iin vin vcore sense) s = .next (s.withChip (s.chip.blindDetect iin vin vcore sense)) := rfl

theorem exec_spareEngaged (p : Phase) (s : State) : exec (.spareEngaged p) s = .next (s.withChip (s.chip.spareCarries p)) := rfl

theorem exec_shedEnWrite (v : Word) (s : State) : exec (.shedEnWrite v) s = .next (s.withChip (s.chip.storeLtn R.LTN_SHED v)) := rfl

section
variable {c : Chip}

/-! ### Decisions and steps of the target (R625, R627) -/

theorem Chip.decisionDue_iff : c.decisionDue = true ↔
    c.power = 0 ∧ (if c.rf R.LTN_STAT 13 12 < 2 then c.ltn.due = true else 1296 ≤ (c.time - c.ltn.freeAt).toNat) := by
  rw [Chip.decisionDue, Bool.and_eq_true, beq_iff_eq]
  split
  · rfl
  · rw [decide_eq_true_iff, pacePeriod]

section
variable (hfixed : c.rb R.LTN_CTRL 0 = false) (hpower : c.power = 0)
include hfixed hpower

theorem Chip.vsetStep_fixed :
    c.vsetStep =
      let goal := clampN c.vMin c.vMax (min 77 (c.rf R.LTN_VSET 6 0))
      if c.vcode < goal then c.setVcode (c.vcode + 1) else if goal < c.vcode then c.setVcode (c.vcode - 1) else c :=
  if_neg (by rw [hfixed]; exact not_or.mpr ⟨Bool.false_ne_true, not_not.mpr hpower⟩)

theorem Chip.vsetStep_up (h : c.vcode < clampN c.vMin c.vMax (min 77 (c.rf R.LTN_VSET 6 0))) : c.vsetStep = c.setVcode (c.vcode + 1) :=
  (Chip.vsetStep_fixed hfixed hpower).trans (if_pos h)

theorem Chip.vsetStep_down (h : clampN c.vMin c.vMax (min 77 (c.rf R.LTN_VSET 6 0)) < c.vcode) : c.vsetStep = c.setVcode (c.vcode - 1) :=
  (Chip.vsetStep_fixed hfixed hpower).trans ((if_neg (by omega)).trans (if_pos h))

theorem Chip.vsetStep_at (h : c.vcode = clampN c.vMin c.vMax (min 77 (c.rf R.LTN_VSET 6 0))) : c.vsetStep = c :=
  (Chip.vsetStep_fixed hfixed hpower).trans ((if_neg (by omega)).trans (if_neg (by omega)))

end

/-! ### The shed's advance (R641, R642) -/

theorem Chip.limitDue_of_waited {t : BitVec 64} (hlimit : c.ltnLimit = true) (hpower : c.power = 0) (hat : c.ltn.limitAt = some t)
    (h : 768 ≤ (c.time - t).toNat) : c.limitDue = true := by
  rw [Chip.limitDue, hlimit, hpower, hat]
  exact decide_eq_true h

theorem Chip.shedAdvance_of_step {k : Nat} (h : ((List.range 5).find? fun s => decide (c.shedLevel < s) && c.shedAllowed s) = some k) :
    c.shedAdvance =
      let d := c.shedChange (Chip.wf R.LTN_SHED 2 0 k)
      if c.shedLevel = 0 then (d.sb R.LTN_STICKY 5).journal 0x08 5 k ((d.sb R.LTN_STICKY 5).rd R.LTN_STICKY) 0 0 else d := by
  unfold Chip.shedAdvance
  rw [h]

/-! ### Phases (R631 to R638) -/

theorem Chip.phaseFault_of_on {p : Nat} (h : c.phaseOn p = true) (bit : Nat) : c.phaseFault p bit = c.phaseFail p bit := if_pos h

theorem Chip.ltnIsolate_of_go {v : Word} {d : Chip} (hd : d = c.store R.LTN_ISOLATE v) (hgo : tb v 31 = true) (hp : fld v 3 0 < 14)
    (hon : d.phaseOn (fld v 3 0) = true) : c.ltnIsolate v = d.phaseFail (fld v 3 0) 0 := by
  subst hd
  exact (if_pos (by rw [hgo, decide_eq_true hp]; rfl)).trans (Chip.phaseFault_of_on hon 0)

/-- Check 1 alone (R635). -/
theorem Chip.blindDetect_of_sum {iin vin vcore : Nat} {sense : List (Half × BitVec 10)} {ps : List (Nat × Nat × Nat)}
    (hps : ps = ((List.range 14).filter c.phaseOn).map fun p => (p, (sense.getD p (0, 0)).1.toNat, (sense.getD p (0, 0)).2.toNat))
    (hsum : sumFails iin vin vcore (ps.map fun x => x.2.1) = true) (hplaus : (plausFails ps).filter (fun p => c.phaseSt p == 1) = []) :
    c.blindDetect iin vin vcore sense = c.sb R.LTN_STICKY 8 := by
  subst hps
  unfold Chip.blindDetect
  dsimp only
  rw [hsum, hplaus]
  rfl

theorem Chip.spareCarries_of_engaging {p q : Nat} (h : (c.ltn.engaging.find? fun e => e.1 == p) = some (p, q)) :
    c.spareCarries p =
      let d := (c.onLtn fun l => { l with engaging := l.engaging.filter fun e => e.1 != p }).sb R.LTN_STICKY 3
      let d := if d.phaseSt q = 2 then d.setPhase q 3 else d
      (d.journal 0x0A 0x05 q 0 0 0).darned 4 0 q := by
  unfold Chip.spareCarries
  rw [h]

theorem Chip.storeLtn_shed (v : Word) (c : Chip) : c.storeLtn R.LTN_SHED v = c.shedChange (Chip.store R.LTN_SHED v) :=
  (if_neg (by decide)).trans (if_pos rfl)

end

/-- Settles O45: each clause is the rule of its command in the state that the clause names. -/
theorem lanternDecidesAndSheds : Obligations.LanternDecidesAndSheds := by
  unfold Obligations.LanternDecidesAndSheds
  intro s c
  refine ⟨?decision, ?early, Chip.decisionDue_iff, ?advance, ?step, ?phase, fun p => exec_phaseCurrentLimit_off p s,
    fun p => ⟨exec_phaseOpen p s, exec_phaseShort p s⟩, ?isolate, ?blind, ?spare, ?shed⟩
  case decision =>
    intro icore sense h d
    exact exec_lanternDecision_of_due h icore sense
  case early =>
    intro icore sense h
    exact exec_lanternDecision_of_early h icore sense
  case advance =>
    intro t k hlimit hpower hat hwait hstep
    rw [exec_shedLimitAdvance_of_due (Chip.limitDue_of_waited hlimit hpower hat hwait), Chip.shedAdvance_of_step hstep]
  case step =>
    intro hfixed hpower goal
    refine ⟨fun h => ?_, fun h => ?_, fun h => ?_⟩
    · rw [exec_vsetStep, Chip.vsetStep_up hfixed hpower h]
    · rw [exec_vsetStep, Chip.vsetStep_down hfixed hpower h]
    · rw [exec_vsetStep, Chip.vsetStep_at hfixed hpower h, State.withChip_chip]
  case phase =>
    intro p hon
    refine ⟨exec_phaseCurrentLimit_on hon, fun bit hbit => ?_⟩
    rcases hbit with rfl | rfl
    · rw [if_pos rfl, exec_phaseOpen, Chip.phaseFault_of_on hon]
      rfl
    · rw [if_neg (by decide), exec_phaseShort, Chip.phaseFault_of_on hon]
      rfl
  case isolate =>
    intro v d hd hgo hp hon
    rw [exec_ltnIsolate, Chip.ltnIsolate_of_go hd hgo hp hon]
  case blind =>
    intro iin vin vcore sense ps hsum hplaus
    rw [exec_blindDetect, Chip.blindDetect_of_sum rfl hsum hplaus]
  case spare =>
    intro p q h
    rw [exec_spareEngaged, Chip.spareCarries_of_engaging h]
  case shed =>
    intro v
    rw [exec_shedEnWrite, Chip.storeLtn_shed]

end Sys2Proof.Machine
end

section
/-! Ember's supply switch and charger (23, R648 to R655): the phases of a charge and what moves them. -/

namespace Sys2Proof.Machine

/-! ### The commands that carry no condition -/

theorem exec_supplySwitch (vin : Nat) (s : State) : exec (.supplySwitch vin) s = .next (s.withChip (s.chip.vinChange vin)) := rfl

theorem exec_aonPor (s : State) : exec .aonPor s = .next (s.withChip s.chip.aonPor) := rfl

theorem exec_chargerRecompute (vin : Nat) (s : State) : exec (.chargerRecompute vin) s = .next (s.withChip (s.chip.chargerStep vin)) := rfl

theorem exec_tempSample (temps : List Int) (s : State) : exec (.tempSample temps) s = .next (s.withChip (s.chip.tempSample temps)) := rfl

theorem exec_embCtrlWrite (v : Word) (s : State) : exec (.embCtrlWrite v) s = .next (s.withChip (s.chip.embCtrl v)) := rfl

/-! ### The commands of a phase, in it and out of it (R651, R653) -/

section
variable {s : State} {vbat : Nat}

theorem exec_chargeProbeEnd_of_probe (hphase : s.chip.charge = 1) (hcell : s.chip.emb.noCell = false) (vbat : Nat) :
    exec (.chargeProbeEnd vbat) s = .next (s.withChip (s.chip.probeEnd vbat)) := by
  show execChargeProbeEnd vbat s = _
  exact if_pos ⟨hphase, ne_true_of_eq_false hcell⟩

theorem exec_preToFast_of_pre (hphase : s.chip.charge = 2) (h : s.chip.cellV.2.1 ≤ vbat) :
    exec (.preToFast vbat) s = .next (s.withChip (s.chip.setCharge 3)) := by
  show execPreToFast s vbat = _
  exact if_pos ⟨hphase, h⟩

theorem exec_preToFast_of_low (h : vbat < s.chip.cellV.2.1) : exec (.preToFast vbat) s = .next s := by
  show execPreToFast s vbat = _
  exact if_neg fun k => Nat.not_le_of_lt h k.2

theorem exec_preTimeout_of_pre (hphase : s.chip.charge = 2) (hhold : s.chip.rb R.EMB_STAT 5 = false) :
    exec .preTimeout s = .next (s.withChip ((s.chip.sb R.EMB_STICKY 1).setCharge 6)) := by
  show execPreTimeout s = _
  exact if_pos ⟨hphase, ne_true_of_eq_false hhold⟩

theorem exec_fastTimeout_of_fast (hphase : s.chip.charge = 3) (hhold : s.chip.rb R.EMB_STAT 5 = false) :
    exec .fastTimeout s = .next (s.withChip ((s.chip.sb R.EMB_STICKY 2).setCharge 6)) := by
  show execFastTimeout s = _
  exact if_pos ⟨hphase, ne_true_of_eq_false hhold⟩

theorem exec_cvEntry_of_fast (hphase : s.chip.charge = 3) (h : s.chip.cellV.1 ≤ vbat) :
    exec (.cvEntry vbat) s = .next (s.withChip (s.chip.setCharge 4)) := by
  show execCvEntry s vbat = _
  exact if_pos ⟨hphase, h⟩

theorem exec_cvEntry_of_low (h : vbat < s.chip.cellV.1) : exec (.cvEntry vbat) s = .next s := by
  show execCvEntry s vbat = _
  exact if_neg fun k => Nat.not_le_of_lt h k.2

section
variable {ua : Nat} (hphase : s.chip.charge = 4) (hreg : s.chip.rb R.EMB_STAT 4 = false) (hhold : s.chip.rb R.EMB_STAT 5 = false)

include hphase hreg hhold in
theorem exec_chargeTermination_of_below (h : (ua : Rat) < 1000 * s.chip.termCurrent) :
    exec (.chargeTermination ua) s = .next (s.withChip ((s.chip.sb R.EMB_STICKY 0).setCharge 5)) := by
  show execChargeTermination s ua = _
  exact if_pos ⟨hphase, ne_true_of_eq_false hreg, ne_true_of_eq_false hhold, h⟩

end

theorem exec_chargeTermination_of_above {ua : Nat} (h : ¬(ua : Rat) < 1000 * s.chip.termCurrent) :
    exec (.chargeTermination ua) s = .next s := by
  show execChargeTermination s ua = _
  exact if_neg fun k => h k.2.2.2

theorem exec_rechargeStart_of_done (hphase : s.chip.charge = 5) (h : vbat < s.chip.cellV.1 - 100) :
    exec (.rechargeStart vbat) s = .next (s.withChip (s.chip.setCharge 1)) := by
  show execRechargeStart s vbat = _
  exact if_pos ⟨hphase, h⟩

theorem exec_rechargeStart_of_high (h : s.chip.cellV.1 - 100 ≤ vbat) : exec (.rechargeStart vbat) s = .next s := by
  show execRechargeStart s vbat = _
  exact if_neg fun k => Nat.not_lt_of_le h k.2

theorem exec_noCellReprobe_of_none (hphase : s.chip.charge = 1) (hcell : s.chip.emb.noCell = true) :
    exec .noCellReprobe s = .next (s.withChip (s.chip.setCharge 1)) := by
  show execNoCellReprobe s = _
  exact if_pos ⟨hphase, hcell⟩

theorem exec_cellOvp_of_over (hphase : s.chip.charge ≠ 0) (h : s.chip.cellV.2.2 < vbat) :
    exec (.cellOvp vbat) s = .next (s.withChip ((s.chip.sb R.EMB_STICKY 3).setCharge 6)) := by
  show execCellOvp s vbat = _
  exact if_neg (not_or.mpr ⟨hphase, Nat.not_le_of_lt h⟩)

theorem exec_cellOvp_of_within (h : vbat ≤ s.chip.cellV.2.2) : exec (.cellOvp vbat) s = .next s := by
  show execCellOvp s vbat = _
  exact if_pos (.inr h)

end

section
variable {c : Chip}

/-- The voltages of the two kinds of cell (R651). -/
theorem Chip.cellV_eq (c : Chip) : c.cellV =
    (if c.rb R.EMB_CTRL 1 then 3600 else 4200, if c.rb R.EMB_CTRL 1 then 2500 else 3000, if c.rb R.EMB_CTRL 1 then 3750 else 4350) := by
  unfold Chip.cellV
  split <;> rfl

/-! ### The supply and the always-on reset (R648, R649) -/

theorem Chip.vinChange_of_loss {vin : Nat} (hsrc : c.rb R.AON_STAT 0 = false) (h : vin ≤ 2700) :
    c.vinChange vin =
      ((c.onEmb fun e => { e with vin, fell := e.fell || (decide (c.power = 3) && decide (vin < 2700)) }).sb R.AON_STAT 0).sb R.EMB_STICKY 6 := by
  have hloss : (!c.rb R.AON_STAT 0 && decide (vin ≤ 2700)) = true := by
    rw [hsrc, decide_eq_true h]
    rfl
  unfold Chip.vinChange
  extract_lets d e
  rw [if_pos (show vin ≤ 3000 by omega)]
  exact if_pos hloss

theorem Chip.time_aonPor (c : Chip) : c.aonPor.time = 0 := by
  unfold Chip.aonPor
  extract_lets d e f g
  have hchannels : g.time = f.time := forEach_same Chip.time _ _ _ fun n x => by
    split
    · exact forEach_same Chip.time _ _ _ fun _ _ => rfl
    · rfl
  exact hchannels

theorem Chip.aonPor_regs (c : Chip) : c.aonPor.rb R.AON_STICKY 4 = true ∧ c.aonPor.rb R.AON_WAKE_CAUSE 8 = true ∧ c.aonPor.time = 0 ∧
    c.aonPor.rd R.SYS_RST_CAUSE = 0 := by
  refine ⟨?_, ?_, Chip.time_aonPor c, Chip.rd_wr_same ..⟩
  · exact (Chip.rb_wr_ne (by decide) ..).trans ((Chip.rb_wb_ne (by decide) ..).trans (Chip.rb_sb_same (by decide) ..))
  · exact (Chip.rb_wr_ne (by decide) ..).trans (Chip.rb_sb_same (by decide) ..)

/-! ### The charger's current and temperature (R652, R654) -/

theorem Chip.chargerStep_of_enabled {vin : Nat} (hen : c.rb R.EMB_CTRL 0 = true) (hpower : c.power ≤ 1) :
    c.chargerStep vin =
      let d := c.onEmb fun e => { e with vin }
      (d.wb R.EMB_STAT 4 (decide (d.inputK < 1))).onEmb fun e => { e with
        cur := if d.rb R.EMB_STAT 5 then 0 else clampQ (e.cur - 1) (e.cur + 1) (d.phaseCurrent * d.inputK) } := by
  unfold Chip.chargerStep
  extract_lets d k goal cur e
  have hctrl : e.rb R.EMB_CTRL 0 = true := (Chip.rb_wb_ne (by decide) ..).trans ((Chip.rb_congr (Chip.rd_onEmb ..) 0).trans hen)
  have hstate : e.power = c.power := (Chip.rf_wb_ne (by decide) ..).trans (Chip.rf_congr (Chip.rd_onEmb ..) 5 4)
  have hmay : e.chargeMay = true := by
    rw [Chip.chargeMay, hctrl, hstate, decide_eq_true hpower]
    rfl
  rw [if_neg (show ¬1 < d.power from Nat.not_lt.mpr hpower), if_pos hmay]
  rfl

theorem Chip.tempSample_of_outside {temps : List Int} (h : ∃ t ∈ temps, 450 < t ∨ t < 0) :
    c.tempSample temps = ((c.sb R.EMB_STAT 5).sb R.EMB_STICKY 5).onEmb fun e => { e with cur := 0 } := by
  obtain ⟨t, hmem, ht⟩ := h
  refine if_pos (List.any_eq_true.mpr ⟨t, hmem, ?_⟩)
  rw [← Bool.decide_or]
  exact decide_eq_true ht

theorem Chip.tempSample_of_inside {temps : List Int} (h : ∀ t ∈ temps, 20 ≤ t ∧ t ≤ 430) : c.tempSample temps = c.wb R.EMB_STAT 5 false := by
  refine (if_neg (ne_true_of_eq_false (List.any_eq_false.mpr fun t hmem => ?_))).trans (if_pos (List.all_eq_true.mpr fun t hmem => ?_))
  · obtain ⟨hlow, hhigh⟩ := h t hmem
    rw [← Bool.decide_or]
    exact ne_true_of_eq_false (decide_eq_false (by omega))
  · rw [← Bool.decide_and]
    exact decide_eq_true (h t hmem)

/-! ### The control register (R651, R655) -/

theorem Chip.embCtrl_off {v : Word} (h : tb v 0 = false) : c.embCtrl v = (c.store R.EMB_CTRL v).setCharge 0 := by
  unfold Chip.embCtrl
  dsimp only
  rw [if_pos (by rw [h]; rfl)]

theorem Chip.embCtrl_on {v : Word} (h : tb v 0 = true) (hold : tb (c.rd R.EMB_CTRL) 0 = false) (hpower : (c.store R.EMB_CTRL v).power ≤ 1) :
    c.embCtrl v = (c.store R.EMB_CTRL v).setCharge 1 := by
  unfold Chip.embCtrl
  dsimp only
  rw [if_neg (by rw [h]; exact Bool.noConfusion), if_pos (by rw [hold]; rfl), if_pos hpower]

end

/-- Settles O47: each clause is the rule of its command in the phase and at the values that the clause names. -/
theorem emberCharges : Obligations.EmberCharges := by
  unfold Obligations.EmberCharges
  intro s c enter
  have hcell := c.cellV_eq
  refine ⟨?supply, ⟨_, exec_aonPor s, Chip.aonPor_regs c⟩, ?recompute, ?outside, ?inside, ?probe, ?volts, ?preTime, ?fastTime, ?term, ?reprobe, ?off, ?on⟩
  case supply =>
    intro vin hsrc h
    refine ⟨_, exec_supplySwitch vin s, ?_⟩
    rw [Chip.vinChange_of_loss hsrc h]
    exact ⟨by rw [Chip.sb_emb, Chip.sb_emb]; rfl, (Chip.rb_wb_ne (by decide) ..).trans (Chip.rb_sb_same (by decide) ..), Chip.rb_sb_same (by decide) ..⟩
  case recompute =>
    intro vin hen hpower d
    rw [exec_chargerRecompute, Chip.chargerStep_of_enabled hen hpower]
  case outside =>
    intro temps h
    rw [exec_tempSample, Chip.tempSample_of_outside h]
  case inside =>
    intro temps h
    rw [exec_tempSample, Chip.tempSample_of_inside h]
  case probe =>
    intro vbat hphase hnone
    rw [exec_chargeProbeEnd_of_probe hphase hnone, Chip.probeEnd, Chip.cellV_eq]
    dsimp only
    rw [apply_ite s.withChip, apply_ite s.withChip, apply_ite s.withChip, apply_ite Host.Outcome.next, apply_ite Host.Outcome.next,
      apply_ite Host.Outcome.next]
    rfl
  case volts =>
    intro vcv vpre ovp vbat
    have hcv : c.cellV.1 = vcv := congrArg Prod.fst hcell
    have hpre : c.cellV.2.1 = vpre := congrArg (·.2.1) hcell
    have hovp : c.cellV.2.2 = ovp := congrArg (·.2.2) hcell
    rw [← hcv, ← hpre, ← hovp]
    exact ⟨exec_preToFast_of_pre, exec_preToFast_of_low, exec_cvEntry_of_fast, exec_cvEntry_of_low, exec_rechargeStart_of_done,
      exec_rechargeStart_of_high, exec_cellOvp_of_over, exec_cellOvp_of_within⟩
  case preTime => exact exec_preTimeout_of_pre
  case fastTime => exact exec_fastTimeout_of_fast
  case term =>
    intro ua hphase hreg hhold
    exact ⟨exec_chargeTermination_of_below hphase hreg hhold, exec_chargeTermination_of_above⟩
  case reprobe => exact exec_noCellReprobe_of_none
  case off =>
    intro v h
    rw [exec_embCtrlWrite, Chip.embCtrl_off h]
    rfl
  case on =>
    intro v h hold hpower
    rw [exec_embCtrlWrite, Chip.embCtrl_on h hold hpower]
    rfl

end Sys2Proof.Machine
end

section
/-! The RTC, the power states and the wake events (23, R657 to R670). -/

namespace Sys2Proof.Machine

/-! ### The commands -/

theorem exec_rtcSecond_of_full {s : State} (h : (s.chip.rd R.AON_RTC_SUB).toNat = 32767) :
    exec .rtcSecond s = .next (s.withChip s.chip.rtcSecond) := by
  show execRtcSecond s = _
  exact if_pos h

theorem exec_rtcSecond_of_early {s : State} (h : (s.chip.rd R.AON_RTC_SUB).toNat ≠ 32767) : exec .rtcSecond s = .next s := by
  show execRtcSecond s = _
  exact if_neg h

theorem exec_rtcCalibrate_of_due {s : State} (h : 1048576 ≤ s.chip.emb.calTicks) :
    exec .rtcCalibrate s = .next (s.withChip (s.chip.rtcCal.onEmb fun e => { e with calTicks := e.calTicks - 1048576 })) := by
  show execRtcCalibrate s = _
  exact if_pos h

theorem exec_rtcCalibrate_of_early {s : State} (h : s.chip.emb.calTicks < 1048576) : exec .rtcCalibrate s = .next s := by
  show execRtcCalibrate s = _
  exact if_neg (Nat.not_le_of_lt h)

theorem exec_rtcSecWrite (v : Word) (s : State) : exec (.rtcSecWrite v) s = .next (s.withChip (s.chip.rtcSet v)) := rfl

theorem exec_powerRequest (v : Word) (s : State) : exec (.powerRequest v) s = .next (s.withChip (s.chip.pwrRequest v)) := rfl

theorem exec_powerStateEntry (s : State) : exec .powerStateEntry s = .next (s.withChip s.chip.powerEntry) := rfl

theorem exec_wakeInput (i : Fin 2) (level edge : Bool) (held : Nat) (s : State) :
    exec (.wakeInput i level edge held) s = .next (s.withChip (s.chip.wakeInput i level edge held)) := rfl

/-- The wake inputs and the alarm need no condition of their own. -/
theorem exec_wakeEvent_of_input {e : Fin 5} (he : e.val ≤ 2) (s : State) : exec (.wakeEvent e) s = .next (s.withChip (s.chip.wakeEvent e)) := by
  show execWakeEvent e s = _
  unfold execWakeEvent
  dsimp only
  rw [if_neg (show e.val ≠ 3 by omega), if_neg (show e.val ≠ 4 by omega)]
  rfl

theorem exec_wakeStart (s : State) : exec .wakeStart s = .next (s.withChip s.chip.wakeStart) := rfl

section
variable {c : Chip}

/-! ### The calibration of the RTC (R658) -/

/-- The subseconds with the calibration's signed value. -/
def Chip.calSum (c : Chip) : Int := (c.rd R.AON_RTC_SUB).toNat + signed 8 (c.rf R.AON_RTC_CAL 7 0)

theorem Chip.rtcCal_within (hlow : 0 ≤ c.calSum) (hhigh : c.calSum < 32768) : c.rtcCal = c.wr R.AON_RTC_SUB (w32 (toField 15 c.calSum)) :=
  (if_neg (Int.not_lt.mpr hlow)).trans (if_neg (Int.not_le.mpr hhigh))

theorem Chip.rtcCal_below (h : c.calSum < 0) :
    c.rtcCal =
      let d := c.wr R.AON_RTC_SUB (w32 (toField 15 c.calSum))
      (d.wr R.AON_RTC_SEC (d.rd R.AON_RTC_SEC - 1)).alarmCheck := if_pos h

theorem Chip.rtcCal_above (h : 32768 ≤ c.calSum) :
    c.rtcCal =
      let d := c.wr R.AON_RTC_SUB (w32 (toField 15 c.calSum))
      (d.wr R.AON_RTC_SEC (d.rd R.AON_RTC_SEC + 1)).alarmCheck :=
  (if_neg (show ¬c.calSum < 0 by omega)).trans (if_pos h)

/-! ### Requests of a power state (R662, R665) -/

theorem Chip.pwrRequest_of_run {v : Word} (h : fld v 1 0 = 0) (hpower : c.power ≠ 1) :
    c.pwrRequest v = (c.wf R.AON_PWR 1 0 0).wb R.AON_PWR 8 false :=
  (if_pos h).trans (if_neg hpower)

theorem Chip.when_false (f : Chip → Chip) (c : Chip) : c.when false f = c := rfl

theorem Chip.pwrRequest_of_other {v : Word} {d : Chip} (hd : d = (c.wf R.AON_PWR 1 0 (fld v 1 0)).sb R.AON_PWR 8) (hrun : fld v 1 0 ≠ 0)
    (hother : fld v 1 0 ≠ c.power) (h0 : d.wakeLevelHolds 0 = false) (h1 : d.wakeLevelHolds 1 = false) : c.pwrRequest v = d := by
  subst hd
  refine (if_neg hrun).trans ((if_neg hother).trans ?_)
  dsimp only
  rw [h0, Chip.when_false, h1, Chip.when_false]

/-! ### The entry (R662, R667) -/

theorem Chip.powerEntry_of_none (h : c.rb R.AON_PWR 8 = false) : c.powerEntry = c := if_pos (by rw [h]; rfl)

theorem Chip.powerEntry_of_dim (h : c.rb R.AON_PWR 8 = true) (hreq : c.rf R.AON_PWR 1 0 = 1) :
    c.powerEntry = ((c.wb R.AON_PWR 8 false).wf R.AON_PWR 5 4 1).eyeDim.bmoDim.sndDim :=
  (if_neg (by rw [h]; exact Bool.noConfusion)).trans (if_pos hreq)

/-- HOLD or STANDBY entered: AON_PWR reads the state, with nothing pending. -/
theorem Chip.powerEntry_of_sleep (h : c.rb R.AON_PWR 8 = true) (hreq : 2 ≤ c.rf R.AON_PWR 1 0) (hasleep : c.coresAsleep = true)
    (hlcy : c.lcyBusy = false) : c.powerEntry.power = c.rf R.AON_PWR 1 0 ∧ c.powerEntry.rb R.AON_PWR 8 = false := by
  have hgo : ¬(c.rf R.AON_PWR 1 0 = 0 ∨ ¬c.coresAsleep = true ∨ c.lcyBusy = true) := by
    rw [hasleep, hlcy]
    exact not_or.mpr ⟨by omega, not_or.mpr ⟨not_not.mpr rfl, Bool.false_ne_true⟩⟩
  have hreq' : c.rf R.AON_PWR 1 0 < 2 ^ (5 + 1 - 4) := Nat.mod_lt _ (by decide)
  unfold Chip.powerEntry
  rw [if_neg (by rw [h]; exact Bool.noConfusion)]
  extract_lets r d e f
  rw [if_neg (show r ≠ 1 by omega), if_neg hgo]
  constructor
  · rw [Chip.power, Chip.rf_congr (Chip.rd_emit ..), Chip.rf_congr (Chip.rd_onTmr ..), Chip.rf_congr (Chip.rd_onEmb ..)]
    exact Chip.rf_wf_same (by decide) hreq' _
  · rw [Chip.rb_congr (Chip.rd_emit ..), Chip.rb_congr (Chip.rd_onTmr ..), Chip.rb_congr (Chip.rd_onEmb ..)]
    exact (Chip.rb_wf_apart (by decide) (by decide) ..).trans (Chip.rb_wb_same (by decide) ..)

/-! ### Wake inputs and wake events (R664 to R670) -/

theorem Chip.wakeInput_of_short {i : Fin 2} {held : Nat} (h : held < c.rf R.AON_WAKE_CFG 15 8) (level edge : Bool) :
    c.wakeInput i level edge held = c.onEmb fun e => { e with wakeLvl := e.wakeLvl.set i level } := by
  unfold Chip.wakeInput
  extract_lets d met e
  rw [if_pos]
  rw [show d.rf R.AON_WAKE_CFG 15 8 = c.rf R.AON_WAKE_CFG 15 8 from Chip.rf_congr (Chip.rd_onEmb ..) 15 8, decide_eq_true h, Bool.or_true]

theorem Chip.wakeInput_of_level {i : Fin 2} {held : Nat} (hheld : c.rf R.AON_WAKE_CFG 15 8 ≤ held)
    (hmode : c.rf R.AON_WAKE_CFG (2 * i.val + 1) (2 * i.val) = 2) (edge : Bool) :
    c.wakeInput i true edge held =
      let d := c.onEmb fun e => { e with wakeLvl := e.wakeLvl.set i true }
      (d.sbIf (decide (c.power = 0) || c.rb R.AON_WAKE_EN i) R.AON_STICKY (1 + i.val)).wakeEvent i := by
  unfold Chip.wakeInput
  extract_lets d met e
  have hmet : met = true := by
    have hcfg : d.rf R.AON_WAKE_CFG (2 * i.val + 1) (2 * i.val) = 2 := (Chip.rf_congr (Chip.rd_onEmb ..) _ _).trans hmode
    unfold met
    rw [hcfg]
    rfl
  rw [if_neg]
  · rfl
  · rw [hmet, show d.rf R.AON_WAKE_CFG 15 8 = c.rf R.AON_WAKE_CFG 15 8 from Chip.rf_congr (Chip.rd_onEmb ..) 15 8,
      decide_eq_false (Nat.not_lt.mpr hheld)]
    exact Bool.noConfusion

/-- An event counted: its cause, and a pending request cancelled. -/
def Chip.woken (e : Nat) (c : Chip) : Chip :=
  let d := c.sb R.AON_WAKE_CAUSE e
  if c.rb R.AON_PWR 8 then ((d.wf R.AON_PWR 1 0 0).wb R.AON_PWR 8 false).sb R.AON_STICKY 3 else d

theorem Chip.power_woken (e : Nat) (c : Chip) : (c.woken e).power = c.power := by
  have hcause : (c.sb R.AON_WAKE_CAUSE e).power = c.power := Chip.rf_wb_ne (by decide) ..
  unfold Chip.woken
  dsimp only
  split
  · rw [Chip.power, Chip.sb, Chip.rf_wb_ne (by decide), Chip.rf_wb_apart (by decide) (by decide), Chip.rf_wf_apart (by decide) (by decide)]
    exact hcause
  · exact hcause

theorem Chip.emb_woken (e : Nat) (c : Chip) : (c.woken e).emb = c.emb := by
  unfold Chip.woken
  dsimp only
  split
  · rw [Chip.sb_emb, Chip.wb_emb, Chip.wf_emb, Chip.sb_emb]
  · rw [Chip.sb_emb]

theorem Chip.wakeEvent_of_enabled {e : Nat} (h : c.rb R.AON_WAKE_EN e = true) :
    c.wakeEvent e =
      let d := c.woken e
      if c.power = 1 then d.dimLeave.onCore 0 fun k => { k with latch := true }
      else if c.power = 0 then d
      else if c.emb.vin ≤ 3000 then d.sb R.AON_STAT 1
      else d.onEmb fun e => { e with waking := true } := by
  have hpending : (c.sb R.AON_WAKE_CAUSE e).rb R.AON_PWR 8 = c.rb R.AON_PWR 8 := Chip.rb_wb_ne (by decide) ..
  have hwoken : (c.sb R.AON_WAKE_CAUSE e).when ((c.sb R.AON_WAKE_CAUSE e).rb R.AON_PWR 8) Chip.pwrCancel = c.woken e := by
    rw [hpending]
    rfl
  unfold Chip.wakeEvent
  rw [if_neg (by rw [h]; exact Bool.noConfusion)]
  dsimp only
  rw [hwoken, Chip.power_woken, Chip.emb_woken]

theorem Chip.wakeStart_of_waking (h : c.emb.waking = true) (hpower : 2 ≤ c.power) :
    c.wakeStart =
      let d := (c.sleepReset (c.power == 2)).powerRun.onEmb fun e => { e with waking := false, fell := false }
      let d := d.onRst fun r => { r with phase := if c.power = 2 then .run else .wait, rom := 1 }
      (d.sb R.SYS_RST_CAUSE RstCause.wake.bit).embWake :=
  if_neg (by
    rw [h, decide_eq_false (Nat.not_lt.mpr hpower)]
    exact Bool.noConfusion)

end

/-- Settles O48: each clause is the rule of its command in the power state that the clause names. -/
theorem rtcPowerStatesAndWake : Obligations.RtcPowerStatesAndWake := by
  unfold Obligations.RtcPowerStatesAndWake
  intro s c
  refine ⟨exec_rtcSecond_of_full, exec_rtcSecond_of_early, exec_rtcCalibrate_of_early, ?calibrate, fun v => exec_rtcSecWrite v s, ?run, ?request,
    ?dim, ?sleep, ?none, ?input, ?event, ?start⟩
  case calibrate =>
    intro hdue x d out
    refine ⟨fun hlow hhigh => ?_, fun h => ?_, fun h => ?_⟩
    · rw [exec_rtcCalibrate_of_due hdue, Chip.rtcCal_within hlow hhigh]
      rfl
    · rw [exec_rtcCalibrate_of_due hdue, Chip.rtcCal_below h]
      rfl
    · rw [exec_rtcCalibrate_of_due hdue, Chip.rtcCal_above h]
      rfl
  case run =>
    intro v h hpower
    rw [exec_powerRequest, Chip.pwrRequest_of_run h hpower]
  case request =>
    intro v hrun hother d h0 h1
    rw [exec_powerRequest, Chip.pwrRequest_of_other (d := d) rfl hrun hother h0 h1]
  case dim =>
    intro h hreq
    rw [exec_powerStateEntry, Chip.powerEntry_of_dim h hreq]
  case sleep =>
    intro h hreq hasleep hlcy
    exact ⟨_, exec_powerStateEntry s, Chip.powerEntry_of_sleep h hreq hasleep hlcy⟩
  case none =>
    intro h
    rw [exec_powerStateEntry, Chip.powerEntry_of_none h, State.withChip_chip]
  case input =>
    intro i level edge held d
    refine ⟨fun h => ?_, fun hheld hmode hlevel => ?_⟩
    · rw [exec_wakeInput, Chip.wakeInput_of_short h]
    · subst hlevel
      rw [exec_wakeInput, Chip.wakeInput_of_level hheld hmode]
  case event =>
    intro e he hen d
    have hevent := (exec_wakeEvent_of_input he s).trans (congrArg (fun d => Host.Outcome.next (s.withChip d)) (Chip.wakeEvent_of_enabled hen))
    refine ⟨fun h => hevent.trans ?_, fun h => hevent.trans ?_, fun h hvin => hevent.trans ?_, fun h hvin => hevent.trans ?_⟩ <;> dsimp only
    · rw [if_pos h]
      rfl
    · rw [if_neg (show c.power ≠ 1 by omega), if_pos h]
      rfl
    · rw [if_neg (show c.power ≠ 1 by omega), if_neg (show c.power ≠ 0 by omega), if_pos hvin]
      rfl
    · rw [if_neg (show c.power ≠ 1 by omega), if_neg (show c.power ≠ 0 by omega), if_neg (show ¬c.emb.vin ≤ 3000 by omega)]
      rfl
  case start =>
    intro hwaking hpower
    rw [exec_wakeStart, Chip.wakeStart_of_waking hwaking hpower]

end Sys2Proof.Machine
end

section
/-! Slices, voices, the fault journal and the darn record (24, R684 to R698). -/

namespace Sys2Proof.Machine

/-! ### The commands -/

theorem exec_sliceCheckVisit (bad : Bool) (s : State) : exec (.sliceCheckVisit bad) s = .next (s.withChip (s.chip.sliceVisit bad)) := rfl

theorem exec_sliceMark (k : BitVec 5) (s : State) :
    exec (.sliceMark k) s = .next (s.withChip (s.chip.storeSlice (setBit (w32 k.toNat) 8 true))) := rfl

theorem exec_sliceAssign (k : BitVec 5) (s : State) :
    exec (.sliceAssign k) s = .next (s.withChip (s.chip.storeSlice (setBit (w32 k.toNat) 9 true))) := rfl

theorem exec_voiceFailMark (k : Fin 4) (v : Word) (s : State) : exec (.voiceFailMark k v) s = .next (s.withChip (s.chip.voiceMark k v)) := rfl

theorem exec_journalEntryWrite (s : State) : exec .journalEntryWrite s = .next (s.withChip s.chip.jrnWrite) := rfl

theorem exec_jrnPost (v : Word) (s : State) : exec (.jrnPost v) s = .next (s.withChip (s.chip.jrnPost v)) := rfl

theorem exec_darnRecordApply (s : State) : exec .darnRecordApply s = .next (s.withChip s.chip.tirbaStart) := rfl

section
variable {c : Chip}

/-! ### The slice checker (R684) -/

section
variable (hon : c.rb R.DRN_CTRL 1 = true) (hfree : c.motif.spareFor = none)
include hon hfree

theorem Chip.sliceVisit_runs : ¬(!c.rb R.DRN_CTRL 1 || c.motif.spareFor.isSome) = true := by
  rw [hon, hfree]
  exact Bool.noConfusion

/-- A slice that is good, or bad for the first time. -/
theorem Chip.sliceVisit_of_first {bad : Bool} (h : bad = false ∨ c.motif.suspects.contains (c.rf R.DRN_SLICE_CHK 4 0) = false) :
    c.sliceVisit bad =
      let k := c.rf R.DRN_SLICE_CHK 4 0
      (c.wr R.DRN_SLICE_CHK (w32 ((k + 1) % 32))).onMotifs fun m => { m with
        suspects := if bad then insertSorted k m.suspects else m.suspects.filter (· != k) } := by
  have honce : (bad && c.motif.suspects.contains (c.rf R.DRN_SLICE_CHK 4 0)) = false := by
    rcases h with h | h
    · rw [h, Bool.false_and]
    · rw [h, Bool.and_false]
  unfold Chip.sliceVisit
  rw [if_neg (Chip.sliceVisit_runs hon hfree)]
  dsimp only
  rw [honce, Bool.not_false, Bool.and_true]
  rfl

/-- A slice bad at two visits in a row. -/
theorem Chip.sliceVisit_of_second (h : c.motif.suspects.contains (c.rf R.DRN_SLICE_CHK 4 0) = true) :
    c.sliceVisit true =
      let k := c.rf R.DRN_SLICE_CHK 4 0
      let d := (((c.wr R.DRN_SLICE_CHK (w32 ((k + 1) % 32))).onMotifs fun m => { m with suspects := m.suspects.filter (· != k) }).sliceMark k).sb
        R.DRN_STICKY 3
      (d.journal 0x06 3 k (d.rd R.DRN_STICKY) 0 0).wantDarn 2 k := by
  unfold Chip.sliceVisit
  rw [if_neg (Chip.sliceVisit_runs hon hfree)]
  dsimp only
  rw [h]
  rfl

end

/-! ### Marks and assignments (R685) -/

/-- The slice and the command bits of a word written to DRN_SLICE. -/
theorem sliceWord {i : Nat} (k : BitVec 5) (hi : i = 8 ∨ i = 9) : fld (setBit (w32 k.toNat) i true) 4 0 = k.toNat ∧
    tb (setBit (w32 k.toNat) i true) 8 = decide (i = 8) ∧ tb (setBit (w32 k.toNat) i true) 9 = decide (i = 9) := by
  have hk : k.toNat < 32 := k.isLt
  have hword : (w32 k.toNat).toNat = k.toNat := by
    rw [w32, BitVec.toNat_ofNat]
    exact Nat.mod_eq_of_lt (by omega)
  have hclear {j : Nat} (hj : j = 8 ∨ j = 9) : tb (w32 k.toNat) j = false := by
    rw [tb, hword, Nat.div_eq_of_lt (by rcases hj with rfl | rfl <;> omega)]
    rfl
  refine ⟨?_, ?_, ?_⟩
  · rw [fld_setBit_apart (by decide) (by omega), fld, hword]
    omega
  · rw [tb_setBit (by decide), hclear (.inl rfl)]
    rfl
  · rw [tb_setBit (by decide), hclear (.inr rfl)]
    rfl

theorem Chip.storeSlice_mark (k : BitVec 5) (c : Chip) :
    c.storeSlice (setBit (w32 k.toNat) 8 true) = (c.store R.DRN_SLICE (setBit (w32 k.toNat) 8 true)).sliceMark k.toNat := by
  obtain ⟨hslice, hmark, hassign⟩ := sliceWord k (.inl rfl)
  unfold Chip.storeSlice
  dsimp only
  rw [hslice, hmark, hassign]
  rfl

theorem Chip.store_motif (a : Nat) (v : Word) (c : Chip) : (c.store a v).motif = c.motif :=
  Chip.store_same (g := Chip.motif) (fun _ _ _ => rfl) a v c

theorem Chip.storeSlice_assign (k : BitVec 5) (hfree : c.motif.spareFor = none) :
    c.storeSlice (setBit (w32 k.toNat) 9 true) =
      (((c.store R.DRN_SLICE (setBit (w32 k.toNat) 9 true)).sliceServe k.toNat).journal 0x0A 0x05 k.toNat 0 0 0).darned 2 0 k.toNat := by
  obtain ⟨hslice, hmark, hassign⟩ := sliceWord k (.inr rfl)
  have hnone : ¬(c.store R.DRN_SLICE (setBit (w32 k.toNat) 9 true)).motif.spareFor.isSome = true := by
    rw [Chip.store_motif, hfree]
    exact Bool.false_ne_true
  unfold Chip.storeSlice
  dsimp only
  rw [hslice, hmark, hassign]
  exact if_neg hnone

/-! ### The fault journal (R696 to R698) -/

theorem Chip.jrnWrite_of_off {e : JrnEntry} {t : List JrnEntry} (h : c.jrnQ = e :: t) (hoff : c.rb R.DRN_JRN_BASE 0 = false) :
    c.jrnWrite = (({ c with jrnQ := t } : Chip).incSat R.DRN_JRN_DROP).sb R.DRN_STICKY 5 := by
  have hoff' : ({ c with jrnQ := t } : Chip).rb R.DRN_JRN_BASE 0 = false := hoff
  unfold Chip.jrnWrite
  rw [h]
  exact if_pos (by rw [hoff']; rfl)

theorem Chip.jrnWrite_of_on {e : JrnEntry} {t : List JrnEntry} (h : c.jrnQ = e :: t) (hon : c.rb R.DRN_JRN_BASE 0 = true)
    (hroom : c.rf R.DRN_JRN_BASE 25 13 * 0x2000 + 32 * ((c.rd R.DRN_JRN_SEQ).toNat % 256) + 32 ≤ vlmSize) :
    c.jrnWrite =
      let seq := c.rd R.DRN_JRN_SEQ
      let off := c.rf R.DRN_JRN_BASE 25 13 * 0x2000 + 32 * (seq.toNat % 256)
      (((({ c with jrnQ := t } : Chip).vWrite (off + 4) ((e.bytes seq).drop 4)).vWrite off ((e.bytes seq).take 4)).incWrap R.DRN_JRN_SEQ).mirror
        (e.bytes seq) := by
  have hon' : ({ c with jrnQ := t } : Chip).rb R.DRN_JRN_BASE 0 = true := hon
  unfold Chip.jrnWrite
  rw [h]
  dsimp only
  rw [if_neg (by rw [hon']; exact Bool.noConfusion)]
  exact congrArg (fun d : Chip => (d.incWrap R.DRN_JRN_SEQ).mirror (e.bytes (c.rd R.DRN_JRN_SEQ))) (if_pos hroom)

/-! ### The darn record (R694) -/

theorem Chip.tirbaStart_of_first (hup : c.tirbaUp = true) (hlock : c.romLocked = true) (hfirst : c.tirba.applied = false) :
    c.tirbaStart =
      let d := c.storeVlm R.DRN_JRN_BASE (w32 (1 + journalUnit * 0x2000))
      let d := forEach (List.range 8) (fun i c => c.applyEntry (c.recEntry i)) d
      let d := forEach (List.finRange 2) (fun b c => if c.emb.holdRec[b] then c.storeBmo (R.BMO_HOLD b) (bitW 2) else c) d
      d.onTirba fun t => { t with applied := true } :=
  if_neg (by rw [hup, hlock, hfirst]; exact Bool.noConfusion)

end

/-- Settles O49: each clause is the rule of its command in the state that the clause names. -/
theorem slicesVoicesAndJournal : Obligations.SlicesVoicesAndJournal := by
  unfold Obligations.SlicesVoicesAndJournal
  intro s c
  refine ⟨?first, ?second, ?mark, ?assign, fun k v => exec_voiceFailMark k v s, ?journal, fun v => exec_jrnPost v s, ?record⟩
  case first =>
    intro bad hon hfree h k d
    rw [exec_sliceCheckVisit, Chip.sliceVisit_of_first hon hfree h]
    rfl
  case second =>
    intro hon hfree h k d d'
    rw [exec_sliceCheckVisit, Chip.sliceVisit_of_second hon hfree h]
    rfl
  case mark =>
    intro k
    rw [exec_sliceMark, Chip.storeSlice_mark]
    rfl
  case assign =>
    intro k hfree
    rw [exec_sliceAssign, Chip.storeSlice_assign k hfree]
  case journal =>
    intro e t h
    refine ⟨fun hoff => ?_, fun hon hroom => ?_⟩
    · rw [exec_journalEntryWrite, Chip.jrnWrite_of_off h hoff]
    · rw [exec_journalEntryWrite, Chip.jrnWrite_of_on h hon hroom]
  case record =>
    intro hup hlock hfirst
    rw [exec_darnRecordApply, Chip.tirbaStart_of_first hup hlock hfirst]

end Sys2Proof.Machine
end

section
/-! The JTAG port, the debug challenge and the grants (25, R716 to R721). -/

namespace Sys2Proof.Machine

section
variable {s : State}

/-! ### Where the port responds -/

theorem Chip.jtagOn_iff (c : Chip) : c.jtagOn = true ↔ c.rst.phase ≠ .lockout ∧ c.rb R.SYS_VIO 2 = true := by
  unfold Chip.jtagOn
  rw [Bool.and_eq_true, bne_iff_ne]

/-- A port that does not respond leaves the chip alone. -/
theorem next_jtag_off (hoff : s.chip.jtagOn = false) (f : Chip → Chip) : (s.chip.when s.chip.jtagOn f).next s = .next s := by
  rw [hoff, Chip.when_false]
  rfl

theorem next_jtag_on (hon : s.chip.jtagOn = true) (f : Chip → Chip) : (s.chip.when s.chip.jtagOn f).next s = .next (s.withChip (f s.chip)) := by
  rw [hon]
  rfl

/-! ### The instruction of a code (R716) -/

/-- The codes of the eight instructions beside BYPASS. -/
theorem bypass_code_used : ∀ code : BitVec 5,
    [0x00#5, 0x01#5, 0x02#5, 0x03#5, 0x04#5, 0x10#5, 0x11#5, 0x12#5].contains code =
      decide (code.toNat ≤ 4 ∨ code = 0x10 ∨ code = 0x11 ∨ code = 0x12) := by
  decide

theorem exec_jtagBypass (hon : s.chip.jtagOn = true) (code : BitVec 5) :
    exec (.jtagBypass code) s =
      .next (s.withChip (s.chip.setIr (if code.toNat ≤ 4 ∨ code = 0x10 ∨ code = 0x11 ∨ code = 0x12 then 0x1F else code))) := by
  show execJtagBypass code s = _
  unfold execJtagBypass
  rw [bypass_code_used]
  dsimp only
  rw [next_jtag_on hon]
  simp only [decide_eq_true_eq]

section
variable {c : Chip}

/-! ### The challenge (R719) -/

theorem length_leBytes (v : Nat) : ∀ n, (leBytes n v).length = n := by
  intro n
  induction n generalizing v with
  | zero => rfl
  | succ n ih => rw [leBytes, List.length_cons, ih]

/-- The challenge made with free value k. -/
def Chip.challengeOf (c : Chip) (k : Nat) : List Byte :=
  (List.range 16).map (Config.nonce k) ++ leBytes 8 Config.serial.toNat ++ leBytes 8 c.lcyState

theorem Chip.length_challengeOf (c : Chip) (k : Nat) : (c.challengeOf k).length = 32 := by
  simp only [Chip.challengeOf, List.length_append, List.length_map, List.length_range, length_leBytes]

theorem Chip.drop_challengeOf (c : Chip) (k : Nat) :
    (c.challengeOf k).drop 16 = leBytes 8 Config.serial.toNat ++ leBytes 8 c.lcyState := by
  rw [Chip.challengeOf, List.append_assoc]
  exact List.drop_left' (by rw [List.length_map, List.length_range])

theorem Chip.newChallenge_dbg (c : Chip) :
    c.newChallenge.dbg = { c.dbg with ir := 0x10, challenge := some (c.challengeOf c.freeCount, c.time) } := rfl

theorem Chip.newChallenge_regs (c : Chip) : c.newChallenge.regs = c.regs := rfl

/-! ### The response (R720) -/

theorem Chip.onDbg_congr {f g : DbgSt → DbgSt} (h : f c.dbg = g c.dbg) : c.onDbg f = c.onDbg g := by
  rw [Chip.onDbg, Chip.onDbg, h]

/-- The third failure is the one that blocks. -/
theorem satInc_three_eq (n : Nat) : satInc 3 n = 3 ↔ 2 ≤ n := by
  unfold satInc
  split <;> omega

theorem Chip.response_of_idle (hidle : c.dbg.checking = none) (r : List Byte) :
    c.response r = c.onDbg fun d => { d with
      ir := 0x11, challenge := none
      checking := some (r, (d.challenge.filter fun x => decide ((c.time - x.2).toNat ≤ challengeTicks)).map (·.1)) } := by
  unfold Chip.response
  rw [hidle]
  rfl

theorem Chip.response_of_none (hidle : c.dbg.checking = none) (hch : c.dbg.challenge = none) (r : List Byte) :
    c.response r = c.onDbg fun d => { d with ir := 0x11, checking := some (r, none), challenge := none } := by
  rw [Chip.response_of_idle hidle]
  refine Chip.onDbg_congr ?_
  rw [hch]
  rfl

theorem Chip.response_of_challenge (hidle : c.dbg.checking = none) {ch : List Byte} {t : BitVec 64} (hch : c.dbg.challenge = some (ch, t))
    (r : List Byte) :
    c.response r = c.onDbg fun d => { d with
      ir := 0x11, checking := some (r, if (c.time - t).toNat ≤ 5760000000 then some ch else none), challenge := none } := by
  have hlife : ((some (ch, t)).filter fun x => decide ((c.time - x.2).toNat ≤ challengeTicks)).map (·.1) =
      if (c.time - t).toNat ≤ 5760000000 then some ch else none := by
    rw [Option.filter_some, apply_ite (Option.map _), show challengeTicks = 5760000000 by decide]
    exact if_congr decide_eq_true_iff rfl rfl
  rw [Chip.response_of_idle hidle]
  refine Chip.onDbg_congr ?_
  rw [hch, hlife]

section
variable {r : List Byte} {ch : Option (List Byte)} (hcheck : c.dbg.checking = some (r, ch))
include hcheck

theorem Chip.responseEnd_of_ok (hok : c.responseOk r ch = true) :
    c.responseEnd = (c.onDbg fun d => { d with checking := none, level := some (leNat (part r 0 1)) }).sb R.DBG_STICKY 0 := by
  unfold Chip.responseEnd
  rw [hcheck]
  dsimp only
  rw [if_pos hok]
  rfl

theorem Chip.responseEnd_of_bad (hbad : c.responseOk r ch = false) :
    c.responseEnd =
      let d := (c.onDbg fun d => { d with checking := none, fails := satInc 3 d.fails }).sb R.DBG_STICKY 1
      if 2 ≤ c.dbg.fails ∧ c.dbg.blocked = false then (d.onDbg fun d => { d with blocked := true }).sb R.DBG_STICKY 2 else d := by
  unfold Chip.responseEnd
  rw [hcheck]
  dsimp only
  rw [if_neg (ne_true_of_eq_false hbad)]
  have hthird : (satInc 3 c.dbg.fails = 3 ∧ ¬c.dbg.blocked = true) ↔ (2 ≤ c.dbg.fails ∧ c.dbg.blocked = false) := by
    rw [satInc_three_eq, Bool.not_eq_true]
  exact if_congr hthird rfl rfl

end

/-! ### The end of a grant (R721) -/

/-- An update that repeats without a change reaches each core of the list. -/
theorem Chip.core_forEach_onCore {f : CoreSt → CoreSt} (hf : ∀ k, f (f k) = f k) (n : Core) : ∀ (l : List Core) (c : Chip),
    (forEach l (fun m c => c.onCore m f) c).core n = if n ∈ l then f (c.core n) else c.core n := by
  intro l
  induction l with
  | nil => exact fun c => (if_neg List.not_mem_nil).symm
  | cons m t ih =>
    intro c
    rw [forEach_cons, ih]
    by_cases hmn : m = n
    · rw [hmn, Chip.core_onCore, if_pos List.mem_cons_self, hf, ite_self]
    · rw [Chip.core_onCore_ne m n f c hmn]
      exact if_congr (by rw [List.mem_cons, or_iff_right (Ne.symm hmn)]) rfl rfl

theorem Chip.grantEnd_of_level (h : c.dbg.level ≠ none) :
    c.grantEnd = forEach (List.finRange 8) (fun n c => c.onCore n fun k => { k with halted := false })
      ((c.onDbg fun d => { d with level := none }).sb R.DBG_STICKY 4) := by
  unfold Chip.grantEnd
  exact if_neg (by rwa [Option.isNone_iff_eq_none])

theorem Chip.grantEnd_dbg (h : c.dbg.level ≠ none) : c.grantEnd.dbg = { c.dbg with level := none } := by
  rw [Chip.grantEnd_of_level h]
  exact (forEach_same Chip.dbg _ _ _ fun n d => Chip.onCore_dbg n _ d).trans rfl

theorem Chip.grantEnd_revoked (h : c.dbg.level ≠ none) : c.grantEnd.rb R.DBG_STICKY 4 = true := by
  rw [Chip.grantEnd_of_level h]
  have hregs := forEach_same Chip.regs (fun (n : Core) d => d.onCore n fun k => { k with halted := false }) (List.finRange 8)
    ((c.onDbg fun d => { d with level := none }).sb R.DBG_STICKY 4) fun n d => Chip.onCore_regs n _ d
  rw [Chip.rb_congr (Chip.rd_congr hregs _)]
  exact Chip.rb_sb_same (by decide) _ _

theorem Chip.grantEnd_core (h : c.dbg.level ≠ none) (n : Core) : c.grantEnd.core n = { c.core n with halted := false } := by
  rw [Chip.grantEnd_of_level h]
  exact (Chip.core_forEach_onCore (f := fun k => { k with halted := false }) (fun _ => rfl) n _ _).trans (if_pos (List.mem_finRange n))

end
end

/-! ### The obligation -/

/-- Settles O51: the challenge is 16 free bytes with the serial number and the life-cycle state, the third failure is the one that
saturates the count, and a revocation visits every core. -/
theorem jtagPortAndGrants : Obligations.JtagPortAndGrants := by
  unfold Obligations.JtagPortAndGrants
  intro s
  refine ⟨Chip.jtagOn_iff _, ?off, ?on, ?checked, ?revoked⟩
  case off =>
    intro i hoff hi
    rcases hi with rfl | ⟨x, rfl⟩ | ⟨x, y, rfl⟩ | rfl | rfl | rfl | ⟨x, rfl⟩ | rfl | ⟨x, rfl⟩ <;> exact next_jtag_off hoff _
  case on =>
    intro hon
    refine ⟨next_jtag_on hon _, next_jtag_on hon _, fun _ _ => next_jtag_on hon _, fun _ _ => next_jtag_on hon _, next_jtag_on hon _,
      next_jtag_on hon _, next_jtag_on hon _, exec_jtagBypass hon, ?challenge, ?response⟩
    case challenge =>
      refine ⟨s.chip.newChallenge, s.chip.challengeOf s.chip.freeCount, next_jtag_on hon _, ?_, Chip.length_challengeOf _ _, ?_,
        Chip.newChallenge_regs _, Chip.drop_challengeOf _ _⟩
      · rw [Chip.newChallenge_dbg]
      · rw [Chip.newChallenge_dbg]
    case response =>
      intro r hidle
      refine ⟨fun hch => ?_, fun ch t hch => ?_⟩
      · exact (next_jtag_on hon _).trans (by rw [Chip.response_of_none hidle hch])
      · exact (next_jtag_on hon _).trans (by rw [Chip.response_of_challenge hidle hch])
  case checked =>
    intro r ch hcheck
    refine ⟨fun hok => ?_, fun hbad => ?_⟩
    · show s.chip.responseEnd.next s = _
      rw [Chip.responseEnd_of_ok hcheck hok]
      rfl
    · show s.chip.responseEnd.next s = _
      rw [Chip.responseEnd_of_bad hcheck hbad]
      rfl
  case revoked =>
    intro hlevel
    refine ⟨s.chip.grantEnd, rfl, ?_, Chip.grantEnd_revoked hlevel, Chip.grantEnd_core hlevel⟩
    rw [Chip.grantEnd_dbg hlevel]

end Sys2Proof.Machine
end

section
/-! The debug commands to a core (25, R720, R722, R723). -/

namespace Sys2Proof.Machine

section
variable {c : Chip} {n : Core}

/-! ### What a command needs (R722) -/

/-- The scan itself changes nothing that a command's conditions rest on. -/
theorem Chip.dbgMay_capture (c : Chip) (n : Core) (needHalt : Bool) : c.dbgCapture.dbgMay n needHalt = c.dbgMay n needHalt := rfl

theorem Chip.dbgMay_of_free (hmay : (c.debugOpen && c.inLevel n) = true) : c.dbgMay n false = true := by
  rw [Chip.dbgMay, hmay]
  rfl

theorem Chip.dbgMay_of_halted (hmay : (c.debugOpen && c.inLevel n) = true) (hhalt : (c.core n).halted = true) : c.dbgMay n true = true := by
  rw [Chip.dbgMay, hmay, hhalt]
  rfl

theorem Chip.dbgMay_of_refused {needHalt : Bool}
    (hno : (c.debugOpen && c.inLevel n) = false ∨ (needHalt = true ∧ (c.core n).halted = false)) : c.dbgMay n needHalt = false := by
  rcases hno with hmay | ⟨rfl, hrun⟩
  · rw [Chip.dbgMay, hmay, Bool.false_and]
  · rw [Chip.dbgMay, hrun]
    exact Bool.and_false _

/-! ### The three answers of the port -/

theorem Chip.dbgCmd_of_off (hoff : c.jtagOn = false) (needHalt : Bool) (f : Chip → Chip) : c.dbgCmd n needHalt f = c :=
  if_pos (by rw [hoff]; rfl)

section
variable (hon : c.jtagOn = true) {needHalt : Bool}
include hon

theorem Chip.dbgCmd_of_on (f : Chip → Chip) :
    c.dbgCmd n needHalt f = if c.dbgMay n needHalt then f c.dbgCapture else c.dbgCapture.dbgEnd true := by
  rw [← Chip.dbgMay_capture]
  exact if_neg (by rw [hon]; exact Bool.noConfusion)

theorem Chip.dbgCmd_of_refused (hno : c.dbgMay n needHalt = false) (f : Chip → Chip) : c.dbgCmd n needHalt f = c.dbgCapture.dbgEnd true := by
  rw [Chip.dbgCmd_of_on hon, if_neg (ne_true_of_eq_false hno)]

theorem Chip.dbgCmd_of_may (hmay : c.dbgMay n needHalt = true) (f : Chip → Chip) : c.dbgCmd n needHalt f = f c.dbgCapture := by
  rw [Chip.dbgCmd_of_on hon, if_pos hmay]

end

/-! ### HALT and RESUME -/

theorem Chip.dbgHaltCore_of_running (hup : c.coresUp = true) (hheld : c.heldCore n = false) (hrun : (c.core n).halted = false) :
    c.dbgHaltCore n = (c.debugHalt n).dbgEnd false := by
  unfold Chip.dbgHaltCore
  rw [if_pos (by rw [hup, hheld, hrun]; rfl)]

/-! ### The general registers (assumption 34) -/

theorem Chip.dbgReadG_of_no_register {a : Word} (h : 16 ≤ a.toNat) : c.dbgReadG n a = c.dbgEnd true := dif_neg (Nat.not_lt.mpr h)

theorem Chip.dbgWriteG_of_no_register {a : Word} (h : 16 ≤ a.toNat) (v : Word) : c.dbgWriteG n a v = c.dbgEnd true :=
  dif_neg (Nat.not_lt.mpr h)

theorem toNat_w32_fin16 (g : Fin 16) : (w32 g).toNat = g.val := by
  rw [w32, BitVec.toNat_ofNat]
  exact Nat.mod_eq_of_lt (by omega)

theorem Chip.dbgReadG_w32 (g : Fin 16) : c.dbgReadG n (w32 g) = c.dbgData ((c.core n).gr g) := by
  have hg : (w32 g).toNat < 16 := by rw [toNat_w32_fin16]; exact g.isLt
  have hreg : (⟨(w32 g).toNat, hg⟩ : Fin 16) = g := Fin.ext (toNat_w32_fin16 g)
  rw [Chip.dbgReadG, dif_pos hg, hreg]

theorem Chip.dbgWriteG_w32 (g : Fin 16) (v : Word) : c.dbgWriteG n (w32 g) v = (c.onCore n (CoreSt.setG g v)).dbgEnd false := by
  have hg : (w32 g).toNat < 16 := by rw [toNat_w32_fin16]; exact g.isLt
  have hreg : (⟨(w32 g).toNat, hg⟩ : Fin 16) = g := Fin.ext (toNat_w32_fin16 g)
  rw [Chip.dbgWriteG, dif_pos hg, hreg]

/-! ### LOAD and STORE (R723) -/

theorem Chip.dbgLoadWord_of_error {a : Word} {e : Cause} (h : accTarget n .r 4 a = .error e) : c.dbgLoadWord n a = c.dbgEnd true := by
  rw [Chip.dbgLoadWord, h]

theorem Chip.dbgLoadWord_of_ok {a : Word} {t : Tgt} {v : Nat} {e : Chip} (h : accTarget n .r 4 a = .ok t)
    (hload : c.loadTgt n 8 4 a t = (.ok v, e)) : c.dbgLoadWord n a = e.dbgData (w32 v) := by
  rw [Chip.dbgLoadWord, h]
  dsimp only
  rw [hload]

theorem Chip.dbgStoreWord_of_error {a : Word} {e : Cause} (h : accTarget n .w 4 a = .error e) (v : Word) :
    c.dbgStoreWord n a v = c.dbgEnd true := by
  rw [Chip.dbgStoreWord, h]

theorem Chip.dbgStoreWord_of_ok {a : Word} {t : Tgt} (h : accTarget n .w 4 a = .ok t) (v : Word) :
    c.dbgStoreWord n a v = (c.storeTgt n false 4 a v t).dbgEnd false := by
  rw [Chip.dbgStoreWord, h]

/-! ### STEP (R723) -/

theorem Chip.dbgStepCore_of_op {w : Word} {e : Chip} (hfetch : c.fetch n = (.ok w, e)) (hrom : e.romCode n = none) :
    c.dbgStepCore n =
      let x := e.execOp n (predOf w) (decodeYelex w)
      (if (x.core n).halted then x.waitEnd n else x).dbgEnd false := by
  unfold Chip.dbgStepCore
  rw [hfetch]
  dsimp only
  rw [hrom]
  rfl

theorem Chip.dbgStepCore_of_rom {w : Word} {e x : Chip} (hfetch : c.fetch n = (.ok w, e)) (hrom : e.romCode n = some x) :
    c.dbgStepCore n = (if (x.core n).halted then x.waitEnd n else x).dbgEnd false := by
  unfold Chip.dbgStepCore
  rw [hfetch]
  dsimp only
  rw [hrom]
  rfl

end

/-! ### The commands on a state -/

section
variable {s : State} {n : Core} {needHalt : Bool}

theorem next_dbgCmd_of_off (hoff : s.chip.jtagOn = false) (f : Chip → Chip) : (s.chip.dbgCmd n needHalt f).next s = .next s := by
  rw [Chip.dbgCmd_of_off hoff]
  rfl

/-- A refused command ends with ERROR, and the chip's registers, memory and cores stay. -/
theorem next_dbgCmd_of_refused (hon : s.chip.jtagOn = true) (hno : s.chip.dbgMay n needHalt = false) (f : Chip → Chip) :
    ∃ e, (s.chip.dbgCmd n needHalt f).next s = .next (s.withChip e) ∧ e.dbg.cmdDone = true ∧ e.dbg.cmdError = true ∧
      e.regs = s.chip.regs ∧ e.mem = s.chip.mem ∧ e.cores = s.chip.cores ∧ e.ue = s.chip.ue := by
  rw [Chip.dbgCmd_of_refused hon hno]
  exact ⟨_, rfl, rfl, rfl, rfl, rfl, rfl, rfl⟩

theorem next_dbgCmd_of_may (hon : s.chip.jtagOn = true) (hmay : s.chip.dbgMay n needHalt = true) {f : Chip → Chip} {e : Chip}
    (hf : f s.chip.dbgCapture = e) : (s.chip.dbgCmd n needHalt f).next s = .next (s.withChip e) := by
  rw [Chip.dbgCmd_of_may hon hmay, hf]
  rfl

end

/-- Settles O52: each command is the port's answer, which access, level and halt decide, around the command's own work. -/
theorem debugCommandsNeedAccess : Obligations.DebugCommandsNeedAccess := by
  unfold Obligations.DebugCommandsNeedAccess
  intro n s
  refine ⟨?off, fun hon => ⟨?refused, ?nop, ?halt, ?resume, ?halted⟩⟩
  case off =>
    intro i hoff hi
    rcases hi with rfl | rfl | rfl | rfl | ⟨a, rfl⟩ | ⟨a, v, rfl⟩ | ⟨a, rfl⟩ | ⟨a, v, rfl⟩ <;> exact next_dbgCmd_of_off hoff _
  case refused =>
    intro i needHalt hi hno
    have hmay := Chip.dbgMay_of_refused hno
    rcases hi with ⟨rfl, rfl | rfl | rfl⟩ | ⟨rfl, rfl | ⟨a, rfl⟩ | ⟨a, v, rfl⟩ | ⟨a, rfl⟩ | ⟨a, v, rfl⟩⟩ <;>
      exact next_dbgCmd_of_refused hon hmay _
  case nop => exact fun hmay => next_dbgCmd_of_may hon (Chip.dbgMay_of_free hmay) rfl
  case halt =>
    intro hmay hup hheld hrun
    exact next_dbgCmd_of_may hon (Chip.dbgMay_of_free hmay) (Chip.dbgHaltCore_of_running (c := s.chip.dbgCapture) hup hheld hrun)
  case resume => exact fun hmay => next_dbgCmd_of_may hon (Chip.dbgMay_of_free hmay) rfl
  case halted =>
    intro hmay hhalt
    have hdo := Chip.dbgMay_of_halted hmay hhalt
    refine ⟨?none, ?readG, ?writeG, ?loadBad, ?load, ?storeBad, ?store, ?step, ?rom⟩
    case none =>
      exact fun a ha => ⟨next_dbgCmd_of_may hon hdo (Chip.dbgReadG_of_no_register ha),
        fun v => next_dbgCmd_of_may hon hdo (Chip.dbgWriteG_of_no_register ha v)⟩
    case readG => exact fun g => next_dbgCmd_of_may hon hdo (Chip.dbgReadG_w32 g)
    case writeG => exact fun g v => next_dbgCmd_of_may hon hdo (Chip.dbgWriteG_w32 g v)
    case loadBad => exact fun a e he => next_dbgCmd_of_may hon hdo (Chip.dbgLoadWord_of_error he)
    case load => exact fun a t v e ht hload => next_dbgCmd_of_may hon hdo (Chip.dbgLoadWord_of_ok ht hload)
    case storeBad => exact fun a v e he => next_dbgCmd_of_may hon hdo (Chip.dbgStoreWord_of_error he v)
    case store => exact fun a v t ht => next_dbgCmd_of_may hon hdo (Chip.dbgStoreWord_of_ok ht v)
    case step => exact fun w e hfetch hrom => next_dbgCmd_of_may hon hdo (Chip.dbgStepCore_of_op hfetch hrom)
    case rom => exact fun w e x hfetch hrom => next_dbgCmd_of_may hon hdo (Chip.dbgStepCore_of_rom hfetch hrom)

end Sys2Proof.Machine
end

section
/-! Resets, the start and lockout, SYS_RESET, the VIO banks and the pin states (26, R729 to R742). -/

namespace Sys2Proof.Machine

section
variable {c : Chip}

/-! ### The cold causes (R732, R734) -/

theorem Chip.coldCause_of_not_lockout (h : c.rst.phase ≠ .lockout) (cause : RstCause) (strap : Bool) :
    c.coldCause cause strap = c.coldReset cause (some strap) := if_neg h

theorem Chip.coldAnyway_eq (cause : RstCause) (strap : Bool) :
    c.coldAnyway cause strap =
      if c.rst.phase = .lockout then (c.coldReset cause (some strap)).sb R.SYS_RST_CAUSE 10 else c.coldReset cause (some strap) := by
  rw [Chip.coldAnyway, Chip.sbIf]
  exact if_congr beq_iff_eq rfl rfl

section
variable (hlock : c.rst.phase ≠ .lockout) {vlm : Bool}
include hlock

/-- A fatal fault that does not recur. -/
theorem Chip.fatalFault_of_first (h : c.rst.fatal ≠ some vlm ∨ 960000000 ≤ c.time.toNat) (strap : Bool) :
    c.fatalFault vlm strap = c.coldReset (if vlm then .fatalVlm else .fatalPhase) (some strap) := by
  have hagain : (c.rst.fatal == some vlm && decide (c.time.toNat < 960000000)) = false := by
    rcases h with h | h
    · rw [beq_eq_false_iff_ne.mpr h, Bool.false_and]
    · rw [decide_eq_false (Nat.not_lt.mpr h), Bool.and_false]
  unfold Chip.fatalFault
  rw [hagain, Chip.coldCause_of_not_lockout hlock]
  rfl

/-- One that recurs within 10 s. -/
theorem Chip.fatalFault_of_again (hsame : c.rst.fatal = some vlm) (hsoon : c.time.toNat < 960000000) (strap : Bool) :
    c.fatalFault vlm strap =
      (c.coldReset (if vlm then .fatalVlm else .fatalPhase) (some strap)).onRst fun r => { r with phase := .lockout } := by
  have hagain : (c.rst.fatal == some vlm && decide (c.time.toNat < 960000000)) = true := by
    rw [hsame, decide_eq_true hsoon, beq_self_eq_true]
    rfl
  unfold Chip.fatalFault
  rw [hagain, Chip.coldCause_of_not_lockout hlock]
  rfl

end

/-! ### The start (R731) -/

section
variable {fails : BitVec 14} (hwait : c.rst.phase = .wait)
include hwait

theorem Chip.startSequence_of_few (h : ((List.range 14).filter fun p => !tb fails p).length < 6) :
    c.startSequence fails = c.onRst fun r => { r with phase := .lockout } := by
  unfold Chip.startSequence
  rw [if_neg (not_not.mpr hwait), if_pos h]

theorem Chip.startSequence_of_enough (h : 6 ≤ ((List.range 14).filter fun p => !tb fails p).length) :
    c.startSequence fails = (c.phaseTest fails).onRst fun r => { r with phase := .run } := by
  unfold Chip.startSequence
  rw [if_neg (not_not.mpr hwait), if_neg (Nat.not_lt.mpr h)]

end

/-! ### SYS_RESET (R735, R742) -/

/-- The word of a key and a kind. -/
theorem fld_resetWord (key : BitVec 24) {kind : Nat} (hkind : kind < 256) :
    fld (w32 (key.toNat * 256 + kind)) 31 8 = key.toNat ∧ fld (w32 (key.toNat * 256 + kind)) 7 0 = kind := by
  have hkey := key.isLt
  have hword : (w32 (key.toNat * 256 + kind)).toNat = key.toNat * 256 + kind := by
    rw [w32, BitVec.toNat_ofNat]
    exact Nat.mod_eq_of_lt (by omega)
  constructor
  · rw [fld, hword]
    omega
  · rw [fld_7_0, hword]
    omega

theorem Chip.sysReset_of_refused {user : Bool} {key : BitVec 24} (h : user = true ∨ key ≠ 0x525354) {kind : Nat} (hkind : kind < 256)
    (who : Nat) (strap : Option Bool) :
    c.sysReset who user (w32 (key.toNat * 256 + kind)) strap = c.accLog 1 who (w32 R.SYS_RESET) := by
  obtain ⟨hfld, -⟩ := fld_resetWord key hkind
  unfold Chip.sysReset
  rw [hfld]
  refine if_pos ?_
  rcases h with rfl | h
  · exact Bool.true_or _
  · have hne : key.toNat ≠ 0x525354 := fun e => h (BitVec.eq_of_toNat_eq e)
    rw [bne_iff_ne.mpr hne, Bool.or_true]

/-- With the key, in RUN. -/
theorem Chip.sysReset_of_key (hrun : c.rst.phase = .run) {kind : Nat} (hkind : kind < 256) (who : Nat) (strap : Option Bool) :
    c.sysReset who false (w32 ((0x525354 : BitVec 24).toNat * 256 + kind)) strap =
      if kind = 1 then c.warmReset strap else if kind = 2 then c.coldReset .swCold strap else c := by
  obtain ⟨hkey, hkd⟩ := fld_resetWord 0x525354 hkind
  unfold Chip.sysReset
  rw [hkey, hkd, if_neg (by decide), if_neg (not_not.mpr hrun)]

/-! ### The VIO banks (R729) -/

theorem vioGood_iff (mv : Nat) : vioGood mv = true ↔ (1620 ≤ mv ∧ mv ≤ 1980) ∨ (2970 ≤ mv ∧ mv ≤ 3630) := by
  rw [vioGood]
  simp only [Bool.or_eq_true, Bool.and_eq_true, decide_eq_true_eq]

section
variable {k : Fin 3} {mv : Nat}

theorem Chip.vioChange_of_still (hgood : vioGood mv = true) (hwas : c.rb R.SYS_VIO k = true) : c.vioChange k mv = c := by
  rw [Chip.vioChange, if_pos hgood, if_pos hwas]

theorem Chip.vioChange_of_rise (hgood : vioGood mv = true) (hwas : c.rb R.SYS_VIO k = false) :
    c.vioChange k mv = (c.sb R.SYS_VIO k).wb R.SYS_VIO (4 + k.val) (decide (2970 ≤ mv)) := by
  rw [Chip.vioChange, if_pos hgood, if_neg (ne_true_of_eq_false hwas)]

theorem Chip.vioChange_of_loss (hbad : vioGood mv = false) (hwas : c.rb R.SYS_VIO k = true) (hrun : c.rst.phase = .run) :
    c.vioChange k mv = ((c.wb R.SYS_VIO k false).sb R.SYS_VIO (8 + k.val)).when (k == 1) Chip.gpioDark := by
  unfold Chip.vioChange
  rw [if_neg (ne_true_of_eq_false hbad), hwas, decide_eq_true hrun]
  rfl

end

/-! ### The pin states (R738) -/

theorem Chip.ballsUp_of_down (h : c.rst.phase ≠ .run ∨ 2 ≤ c.power) : c.ballsUp = false := by
  unfold Chip.ballsUp
  rcases h with h | h
  · rw [beq_eq_false_iff_ne.mpr h, Bool.false_and]
  · rw [decide_eq_false (Nat.not_lt.mpr h), Bool.and_false]

theorem Chip.ballDrive_of_normal (h : c.ballMode = .normal) (b : Ball) :
    c.ballDrive b = if c.ballsUp && c.bankGood b.bank then c.unitDrive b else .float := by
  rw [Chip.ballDrive, h]

theorem Chip.ballDrive_of_dark {b : Ball} (hmode : c.ballMode = .normal)
    (h : c.rst.phase ≠ .run ∨ 2 ≤ c.power ∨ c.bankGood b.bank = false) : c.ballDrive b = .float := by
  rw [Chip.ballDrive_of_normal hmode]
  refine if_neg (ne_true_of_eq_false ?_)
  rcases or_assoc.mpr h with h | h
  · rw [Chip.ballsUp_of_down h, Bool.false_and]
  · rw [h, Bool.and_false]

theorem Chip.dsiLaneState_of_down (h : c.rst.phase ≠ .run ∨ 2 ≤ c.power) (l : Fin 4) : c.dsiLaneState l = 0 :=
  if_pos (Or.inl (by rw [Chip.ballsUp_of_down h]; rfl))

theorem Chip.pcieLanes_of_down (h : c.rst.phase ≠ .run ∨ 2 ≤ c.power) : c.pcieLanes = false := by
  rw [Chip.pcieLanes, Chip.ballsUp_of_down h, Bool.false_and]

end

/-! ### The commands on a state -/

section
variable {s : State}

theorem exec_vinPowerOn (hlock : s.chip.rst.phase ≠ .lockout) (strap : Bool) :
    exec (.vinPowerOn strap) s = .next (s.withChip ((s.chip.coldReset .vinPor (some strap)).onDbg fun _ => {})) := by
  show execVinPowerOn strap s = _
  rw [execVinPowerOn, Chip.coldCause_of_not_lockout hlock]
  rfl

theorem exec_thermalTrip (hlock : s.chip.rst.phase ≠ .lockout) (strap : Bool) :
    exec (.thermalTrip strap) s = .next (s.withChip (s.chip.coldReset .thermal (some strap))) := by
  show execThermalTrip strap s = _
  rw [execThermalTrip, Chip.coldCause_of_not_lockout hlock]
  rfl

/-- Below its limit in RUN and DIM, VCORE resets the block. -/
theorem exec_coreBrownout_of_low (hlock : s.chip.rst.phase ≠ .lockout) {mv : Nat} (hpower : s.chip.power < 2) (hmv : mv < 530) (strap : Bool) :
    exec (.coreBrownout mv strap) s = .next (s.withChip (s.chip.coldReset .coreBor (some strap))) := by
  show execCoreBrownout mv strap s = _
  unfold execCoreBrownout
  rw [if_pos (by rwa [if_pos hpower]), Chip.coldCause_of_not_lockout hlock]
  rfl

/-- No power state has a limit above 0.53 V. -/
theorem exec_coreBrownout_of_high {mv : Nat} (hmv : 530 ≤ mv) (strap : Bool) : exec (.coreBrownout mv strap) s = .next s := by
  have hlimit : ¬mv < if s.chip.power < 2 then 530 else if s.chip.power = 2 then 400 else 0 := by
    split
    · omega
    · split <;> omega
  show execCoreBrownout mv strap s = _
  exact if_neg hlimit

theorem exec_nresetFall (strap : Bool) : exec (.nresetFall strap) s = .next (s.withChip (s.chip.coldAnyway .nreset strap)) := rfl

theorem exec_vinBrownout (strap : Bool) : exec (.vinBrownout strap) s = .next (s.withChip (s.chip.coldAnyway .vinBor strap)) := rfl

theorem exec_fatalFault (vlm strap : Bool) : exec (.fatalFault vlm strap) s = .next (s.withChip (s.chip.fatalFault vlm strap)) := rfl

theorem exec_startSequence (fails : BitVec 14) : exec (.startSequence fails) s = .next (s.withChip (s.chip.startSequence fails)) := rfl

theorem exec_sysResetWarm (who : BitVec 4) (user : Bool) (key : BitVec 24) (strap : Bool) :
    exec (.sysResetWarm who user key strap) s =
      .next (s.withChip (s.chip.sysReset who.toNat user (w32 (key.toNat * 256 + 1)) (some strap))) := rfl

theorem exec_sysResetCold (who : BitVec 4) (user : Bool) (key : BitVec 24) (strap : Bool) :
    exec (.sysResetCold who user key strap) s =
      .next (s.withChip (s.chip.sysReset who.toNat user (w32 (key.toNat * 256 + 2)) (some strap))) := rfl

theorem exec_vioBankChange (k : Fin 3) (volts : Nat) (mv : Fin 1000) :
    exec (.vioBankChange k volts mv) s = .next (s.withChip (s.chip.vioChange k (1000 * volts + mv.val))) := rfl

end

/-- Settles O53: by the causes that lockout stops and those that end it, the word of SYS_RESET taken apart, and the one guard of the
pin states. -/
theorem resetsStartsAndBanks : Obligations.ResetsStartsAndBanks := by
  unfold Obligations.ResetsStartsAndBanks
  intro s
  refine ⟨?causes, ?coreGood, ?always, ?start, ?refused, ?keyed, ?banks, fun b hmode h => Chip.ballDrive_of_dark hmode h,
    fun h => ⟨Chip.dsiLaneState_of_down h, Chip.pcieLanes_of_down h⟩⟩
  case causes =>
    intro hlock strap
    refine ⟨exec_vinPowerOn hlock strap, exec_thermalTrip hlock strap,
      fun mv hpower hmv => exec_coreBrownout_of_low hlock hpower hmv strap, fun vlm h => ?_, fun vlm hsame hsoon => ?_⟩
    · rw [exec_fatalFault, Chip.fatalFault_of_first hlock h]
    · rw [exec_fatalFault, Chip.fatalFault_of_again hlock hsame hsoon]
  case coreGood => exact fun mv strap hmv => exec_coreBrownout_of_high hmv strap
  case always =>
    intro strap
    rw [exec_nresetFall, exec_vinBrownout, Chip.coldAnyway_eq, Chip.coldAnyway_eq]
    exact ⟨rfl, rfl⟩
  case start =>
    intro fails hwait
    refine ⟨fun h => ?_, fun h => ?_⟩
    · rw [exec_startSequence, Chip.startSequence_of_few hwait h]
    · rw [exec_startSequence, Chip.startSequence_of_enough hwait h]
  case refused =>
    intro who user key h strap
    rw [exec_sysResetWarm, exec_sysResetCold, Chip.sysReset_of_refused h (by decide), Chip.sysReset_of_refused h (by decide)]
    exact ⟨rfl, rfl⟩
  case keyed =>
    intro who hrun strap
    rw [exec_sysResetWarm, exec_sysResetCold, Chip.sysReset_of_key hrun (by decide), Chip.sysReset_of_key hrun (by decide),
      if_pos rfl, if_neg (by decide), if_pos rfl]
    exact ⟨rfl, rfl⟩
  case banks =>
    intro k volts mV
    refine ⟨fun hgood hwas => ?_, fun hgood hwas => ?_, fun hbad hk hwas hrun => ?_, fun hbad hwas hrun => ?_⟩
    · rw [exec_vioBankChange, Chip.vioChange_of_still ((vioGood_iff _).mpr hgood) hwas]
      rfl
    · rw [exec_vioBankChange, Chip.vioChange_of_rise ((vioGood_iff _).mpr hgood) hwas]
    · have hlost := Bool.eq_false_iff.mpr fun h => hbad ((vioGood_iff _).mp h)
      rw [exec_vioBankChange, Chip.vioChange_of_loss hlost hwas hrun, beq_eq_false_iff_ne.mpr hk]
      rfl
    · have hlost := Bool.eq_false_iff.mpr fun h => hbad ((vioGood_iff _).mp h)
      rw [exec_vioBankChange, Chip.vioChange_of_loss hlost hwas hrun]
      rfl

end Sys2Proof.Machine
end
